-- ==== Sys2Proof/Word.lean ====
section
/-!
DEFINITION. The types of words, bytes and fabric times, the two sparse containers that every later file is built on (`Tab`, a table keyed
by a number, and `Mem`, a memory of bytes in one canonical form: both list only what differs from the value an unlisted key holds), and
`Quad`, one value for each reach. What is done with them is in Machine/Data.lean.
-/

namespace Sys2Proof

abbrev Byte := BitVec 8
abbrev Word16 := BitVec 16
abbrev Word32 := BitVec 32
abbrev Word64 := BitVec 64

/-- A fabric time or a fabric-time interval: bits [63:16] nanoseconds, bits [15:0] the fraction (R8). -/
abbrev Time := BitVec 64

/-- Reach number, 0 to 3 (chapter 01). -/
abbrev ReachId := Fin 4
/-- Reach-local tile index, 0 to 63 (R25). -/
abbrev TileId := Fin 64
/-- Router ports 0 to 6 of a reach: external ports 0 to 3, cross-reach links 4 to 6 (R21). -/
abbrev PortId := Fin 7
/-- Function number, 0 the physical function, 1 to 63 the virtual functions. -/
abbrev FnId := Fin 64

/-! ### Tables -/

/-- A table keyed by a number, in one canonical form: keys strictly rising. A key that is not listed holds the value
the reader names. -/
abbrev Tab (α : Type) := List (Nat × α)

/-! ### Memories -/

/-- A memory of bytes: address and byte pairs, addresses strictly rising, no entry equal to zero, which is what an
unlisted address reads as (assumption 5). -/
abbrev Mem := List Host.Cell

/-! ### Four of a kind -/

/-- One value for each of the four reaches. -/
structure Quad (α : Type) where
  q0 : α
  q1 : α
  q2 : α
  q3 : α
  deriving DecidableEq, Repr

namespace Quad

variable {α β : Type}

/-- The value of one reach. -/
def get (q : Quad α) : ReachId → α
  | 0 => q.q0
  | 1 => q.q1
  | 2 => q.q2
  | 3 => q.q3

/-- Put the value of one reach. -/
def set (q : Quad α) (r : ReachId) (v : α) : Quad α :=
  match r with
  | 0 => { q with q0 := v }
  | 1 => { q with q1 := v }
  | 2 => { q with q2 := v }
  | 3 => { q with q3 := v }

/-- The same function over all four. -/
def map (q : Quad α) (f : α → β) : Quad β := ⟨f q.q0, f q.q1, f q.q2, f q.q3⟩

/-- A function of the reach over all four. -/
def mapIdx (q : Quad α) (f : ReachId → α → β) : Quad β := ⟨f 0 q.q0, f 1 q.q1, f 2 q.q2, f 3 q.q3⟩

/-- The same value four times. -/
def pure (v : α) : Quad α := ⟨v, v, v, v⟩

/-- All four values, in reach order. -/
def toList (q : Quad α) : List α := [q.q0, q.q1, q.q2, q.q3]

end Quad

/-- The four reaches in order. -/
def allReaches : List ReachId := [0, 1, 2, 3]

end Sys2Proof
end

