-- ==== Sys2Proof/Syntax/Common.lean ====
section
/-!
DEFINITION. Operand types that several chapters share, and small ones of chapters 04, 05 and 12: who submitted a command, the path of a
register access, a unit, a patrol read, a reset of the host port. One sender gives the block its commands (INVENTORY, Agents).
-/

namespace Sys2Proof

/-- The descriptor chain that a host command came in: function, ring, and the handle it was given (R367, R368). -/
structure CmdRef where
  fn : FnId
  ring : BitVec 8
  handle : Word64
  deriving DecidableEq, Repr

/-- The path of a register access (R529, R531, R535): PF BAR0, VF BAR0 of a function, or the management path. -/
inductive RegPath where
  | pf
  | vf (f : FnId)
  | mctp (eid : BitVec 8)
  deriving DecidableEq, Repr

/-- A host write to the set-up registers (R528): BAR0 at an offset with a size in bytes, or the mask bit of an MSI-X vector (R372). -/
inductive RegWrite where
  | bar0 (offset size : Nat) (value : Word64)
  | vectorMask (vector : BitVec 11) (masked : Bool)
  deriving DecidableEq, Repr

/-- PTP grandmaster fields of an Announce, in the order in which ties go (R45). -/
structure PtpClock where
  prio1 : BitVec 8
  clockClass : BitVec 8
  accuracy : BitVec 8
  variance : Word16
  prio2 : BitVec 8
  identity : Word64
  steps : Word16
  deriving DecidableEq, Repr

/-- What the header of a PTP message says of it: domainNumber and sequenceId (R43). -/
structure PtpHead where
  dom : BitVec 8
  seq : Word16
  deriving DecidableEq, Repr

/-- An Announce (R43, R45): the domain it comes in and the grandmaster it names. -/
structure PtpAnnounce where
  dom : BitVec 8
  clk : PtpClock
  deriving DecidableEq, Repr

/-- A PPS_IN edge as a timing domain sees it (R24, R42): its own count at the edge, and whether the 10 MHz reference is good there. -/
structure PpsMark where
  edge : Time
  refOk : Bool
  deriving DecidableEq, Repr

/-- The two moments of a tile-array reset (R34, R113): its command begins it on the groups of a mask; it ends. -/
inductive TileResetMark where
  | begins (mask : Word16)
  | ends
  deriving DecidableEq, Repr

/-- TIME_STATUS.SOURCE (R56). -/
inductive TimeSource where
  | none | external | ptpFreq | ptpOnly | holdover | ownScale
  deriving DecidableEq, Repr

/-- The unit a started step runs on (R114). -/
inductive StepUnit where
  | matrix | vector
  deriving DecidableEq, Repr

/-- What a read of a line finds: nothing; an error that the code corrects; one that it does not; a check line that does not read; a report
of the on-die ECC; a command or address parity error that a retry mends, or that outlasts the three retries (R157, R159). -/
inductive DredgeFind where
  | clean
  | corrected (bit : Nat)
  | bad
  | badCheckLine
  | onDie
  | parityRetried (retries : Nat)
  | parity
  deriving DecidableEq, Repr

/-- What ends with a move (R133, R157): what its reads of lines came to, and the TCLK cycles that it took. -/
structure MoveDone where
  finds : List (Nat × DredgeFind)
  cycles : Word32
  deriving DecidableEq, Repr

/-- What resets the host port. -/
inductive HostReset where
  | perst
  | hot
  | linkDown
  deriving DecidableEq, Repr

end Sys2Proof
end

