-- ==== Sys2Proof/Syntax/Frt.lean ====
section
/-!
DEFINITION. Operand types of chapters 07 and 08: work entries (R191), queue-pair contexts and mooring entries as a
command carries them (R196, R203), and FRT packets (R228 to R232) with their routed encapsulation (R226).
-/

namespace Sys2Proof

/-- A work entry (R191). -/
structure WorkEntry where
  fmt : BitVec 4
  op : BitVec 4
  tc : BitVec 3
  lsigEn : Bool
  ret : Bool
  lspace : BitVec 2
  scope : Bool
  win : Word16
  qpn : BitVec 24
  laddr : Word64
  length : Word32
  rkey : Word32
  roff : Word64
  skey : Word32
  soff : BitVec 48
  add : Word64
  lsigAddr : BitVec 23
  deriving DecidableEq, Repr

/-- Who submits a work entry (chapter 07): a tile's issue queue, whose head entry is read from its scratchpad, a host
ring, or the keeper services. -/
inductive RmeSource where
  | tile (t : TileId)
  | ring (c : CmdRef) (w : WorkEntry)
  | keeper (w : WorkEntry)
  deriving DecidableEq, Repr

/-- The fields of a queue-pair context that QP_CREATE takes (R196, R542). -/
structure QpParams where
  fmt : BitVec 4
  owner : BitVec 2
  encap : Bool
  ciphEn : Bool
  pkey : Word16
  qpn : BitVec 24
  peerNode : Word16
  peerQpn : BitVec 24
  asid : Word16
  cqRing : Word16
  maxRd : BitVec 4
  rnrRetry : BitVec 3
  rnrTimer : BitVec 8
  rqDepth : Word16
  deriving DecidableEq, Repr

/-- What a QP_MODIFY names (R198, R410): a queue-pair context (R196), of which the module reads the fields that QP_CREATE takes, STATE, and
the initial sequence numbers that a move to READY gives. -/
structure QpModify where
  ctx : QpParams
  state : BitVec 3
  sndPsn : BitVec 24
  rcvPsn : BitVec 24
  sndMsn : BitVec 24
  rcvMsn : BitVec 24
  deriving DecidableEq, Repr

/-- Which completion an RME_COMPLETION makes (R214, R215, R217): of a queue pair's oldest operation, of its oldest receive, or at the
target, of arriving operations. -/
inductive CompletionOf where
  | request | receive | target
  deriving DecidableEq, Repr

/-- A mooring entry as MOORING_REGISTER takes it (R203). -/
structure MooringParams where
  fmt : BitVec 4
  space : BitVec 2
  rights : BitVec 4
  pkey : Word16
  bindEn : Bool
  base : Word64
  length : BitVec 48
  asid : Word16
  bindQpn : BitVec 24
  deriving DecidableEq, Repr

/-- The operation extension (R229). -/
structure OpExt where
  op : BitVec 4
  ret : Bool
  msn : BitVec 24
  rkey : Word32
  roff : Word64
  length : Word32
  boff : Word32
  skey : Word32
  soff : BitVec 48
  add : Word64
  deriving DecidableEq, Repr

/-- The response extension (R230). -/
structure RespExt where
  msn : BitVec 24
  boff : Word32
  deriving DecidableEq, Repr

/-- The acknowledgement extension (R231). -/
structure AckExt where
  vis : Bool
  cumPsn : BitVec 24
  visMsn : BitVec 24
  qdelay : Word32
  pkts : BitVec 8
  ecnCnt : BitVec 8
  sack : BitVec 128
  deriving DecidableEq, Repr

/-- The answer extension (R232). -/
structure NakExt where
  code : BitVec 8
  status : BitVec 8
  msn : BitVec 24
  cumPsn : BitVec 24
  deriving DecidableEq, Repr

/-- The extension that a packet's TYPE names (table "FRT packet types"). -/
inductive FrtExt where
  | op (e : OpExt)
  | resp (e : RespExt)
  | ack (e : AckExt)
  | nak (e : NakExt)
  | none
  deriving DecidableEq, Repr

/-- The outer headers of a routed packet (R226). -/
structure RoutedHdr where
  v6 : Bool
  vid : BitVec 12
  pcp : BitVec 3
  ipSrc : BitVec 128
  ipDst : BitVec 128
  dscp : BitVec 6
  ipEcn : BitVec 2
  ttl : BitVec 8
  /-- The IPv4 header checksum (R330); zero in IPv6. -/
  ipCsum : Word16
  flow : BitVec 20
  sport : Word16
  dport : Word16
  udpCsum : Word16
  /-- IP options, IPv6 extension headers or fragmentation are present. -/
  extras : Bool
  deriving DecidableEq, Repr

/-- An FRT packet: base header (R228), extension, payload, GCM tag when CIPH is 1, CRC trailer (R234). -/
structure FrtPacket where
  fmt : BitVec 4
  type : BitVec 4
  tc : BitVec 3
  epoch : Bool
  ecn : BitVec 2
  pkey : Word16
  dst : Word16
  src : Word16
  first : Bool
  last : Bool
  ackReq : Bool
  retx : Bool
  timeOk : Bool
  ciph : Bool
  dstQpn : BitVec 24
  hops : BitVec 8
  srcQpn : BitVec 24
  psn : BitVec 24
  txTime : Time
  hopBase : Word16
  win : Word16
  via : Word16
  ext : FrtExt
  payload : List Byte
  tag : List Byte
  crc : Word32
  routed : Option RoutedHdr
  deriving DecidableEq, Repr

end Sys2Proof
end

