-- ==== Sys2Proof/Syntax/Fabric.lean ====
section
/-!
DEFINITION. Operand types of chapters 02, 09, 11 and 18: PTP messages (R43), keeper frames with their payloads (R260 to
R277, R504), and Ethernet frames as a MAC receives and sends them (R323 to R332).
-/

namespace Sys2Proof

/-- PTP messages of the profile of R43. -/
inductive PtpMsg where
  | sync (seq : Word16)
  | followUp (seq : Word16) (sec : BitVec 48) (ns : Word32) (corr : BitVec 64)
  | announce (seq : Word16) (c : PtpClock)
  | pdelayReq (seq : Word16)
  | pdelayResp (seq : Word16) (t2 : Time)
  | pdelayFollowUp (seq : Word16) (t3 : Time)
  | management
  deriving DecidableEq, Repr

/-- A SURVEY payload (R261). -/
structure Survey where
  eui : Word64
  node : Word16
  rport : BitVec 4
  rateGbps : Nat
  cand : Bool
  prio : BitVec 8
  usable : BitVec 7
  heard : Word16
  /-- No payload: the Ethernet source address of the frame, by which survey learns the address of the peer's port (R225). -/
  mac : BitVec 48
  deriving DecidableEq, Repr

/-- An LSA (R262). CAND, PRIO and the EUI-64 of the origin travel in it so that every node elects from the database
(R276; assumption 21). -/
structure Lsa where
  origin : Word16
  seq : Word32
  eui : Word64
  cand : Bool
  prio : BitVec 8
  links : List (PortId × Word16)
  deriving DecidableEq, Repr

/-- A congestion-map port record (R277). -/
structure CmapPort where
  hist : List Word16
  marks : Word32
  drops : Word32
  txUnpl : Word64
  txTc6 : Word64
  backup : Word32
  state : BitVec 2
  peer : Word16
  deriving DecidableEq, Repr

/-- A congestion map (R277). -/
structure Cmap where
  fmt : BitVec 4
  reach : ReachId
  node : Word16
  epochNum : BitVec 24
  seq : Word32
  start : Time
  ports : List CmapPort
  deriving DecidableEq, Repr

/-- An arm frame (R70). -/
structure ArmFrame where
  node : Word16
  planId : Word64
  lockCycle : Time
  cycleBase : Time
  roundCycles : Nat
  log2L : Nat
  armTime : Time
  deriving DecidableEq, Repr

/-- Echo payloads (R504). -/
structure EchoReq where
  token : Word32
  open_ : Bool
  reqQpn : BitVec 24
  reqPsn : BitVec 24
  reqTime : Time
  deriving DecidableEq, Repr

structure EchoResp where
  token : Word32
  status : BitVec 8
  respQpn : BitVec 24
  respPsn : BitVec 24
  reqTime : Time
  respTime : Time
  deriving DecidableEq, Repr

/-- Payloads by KIND (table "Keeper frame kinds"). -/
inductive KeeperBody where
  | survey (p : Survey)
  | lsa (p : Lsa)
  | linkNotice (node : Word16) (port : PortId)
  | cmap (p : Cmap)
  /-- A piece of a table: of at most 1,024 bytes (R260), so a table may take several. -/
  | tableWrite (epochNum : BitVec 24) (entries : List (Nat × Word32)) (valiant : List Word16)
  | tableAck (epochNum : BitVec 24) (refused : Bool)
  | flip (epochNum : BitVec 24) (tFlip : Time)
  | flipAck (epochNum : BitVec 24)
  | hello
  | echoReq (p : EchoReq)
  | echoResp (p : EchoResp)
  | planArm (p : ArmFrame)
  | planStop (planId : Word64) (cause : BitVec 3)
  | other (kind : BitVec 8)
  deriving DecidableEq, Repr

/-- A keeper frame (R260); `crcOk` says whether its CRC-32C trailer passes. -/
structure KeeperFrame where
  fmt : BitVec 4
  epoch : Bool
  pkey : Word16
  dst : Word16
  src : Word16
  hops : BitVec 8
  body : KeeperBody
  crcOk : Bool
  deriving DecidableEq, Repr

/-- What an Ethernet frame carries, as a router reads it (R260). -/
inductive FrameBody where
  | frt (p : FrtPacket)
  | keeper (k : KeeperFrame)
  | ptp (dom : BitVec 8) (m : PtpMsg)
  /-- Any other frame: its EtherType after a tag, and the UDP destination port of an IP frame without options or extension headers
  (R332). -/
  | other (etype : Word16) (udp : Option Word16)
  deriving DecidableEq, Repr

/-- How the FCS of a received frame came out (R326). -/
inductive Fcs where
  | good | stomped | bad
  deriving DecidableEq, Repr

/-- An Ethernet frame at a port (R323): `len` counts from the destination address through the FCS. -/
structure EthFrame where
  dst : BitVec 48
  src : BitVec 48
  vid : Option (BitVec 12)
  len : Nat
  fcs : Fcs
  /-- The IPv4 header checksum of a frame that carries no FRT passes (R330); true for a frame that is not IPv4. -/
  ipOk : Bool
  /-- Codewords that the port's FEC has corrected since the frame before this one (R322, R324). -/
  corrected : Nat
  body : FrameBody
  deriving DecidableEq, Repr

/-- How a frame that a port has begun to send ends (table "Frames ended with an inverted FCS", R325): whole, or with an inverted FCS. A frame
that is forwarded cut-through is at the router before its own end has come, so how the ingress copy ended is known only as its copy is
sent. -/
inductive FrameEnd where
  | whole
  | underrun
  | badFcs
  | stomped
  | ingressDown
  | tooLong
  deriving DecidableEq, Repr

end Sys2Proof
end

