-- ==== Sys2Proof/Syntax/Fault.lean ====
section
/-!
DEFINITION. Operand types of chapters 15, 17 and 18: how a self-test of a reach goes, what a tile's in-service test finds, and what the
sensors read. Nothing in the module determines them.
-/

namespace Sys2Proof

/-- A failure that a self-test finds (table "Self-test failure entry"). -/
structure TestFound where
  block : BitVec 8
  inst : BitVec 8
  sub : BitVec 8
  element : BitVec 4
  addr : BitVec 48
  bit : Word16
  deriving DecidableEq, Repr

/-- What repair of one pending row comes to (R165): STATE 1 repaired, 2 no spare with the row's pages, 3 repair failed. -/
structure RowRepair where
  state : BitVec 2
  pages : List Nat
  deriving DecidableEq, Repr

/-- A self-test that met its window at step 1 (R457, R458). -/
structure TestDone where
  /-- A step left the window twice. -/
  lost : Bool
  cover : Word32
  found : List TestFound
  /-- Sixteenths and sixty-fourths marched by a test that was lost. -/
  hbm : Nat
  lp : Nat
  /-- Rows pending at step 8, in the order of the repair table. -/
  rows : List RowRepair
  ended : Time
  deriving DecidableEq, Repr

/-- How a self-test of a reach goes: the window is not met while the lengthsman waits, or the test runs. -/
inductive TestRun where
  | waits
  | ran (t : TestDone)
  deriving DecidableEq, Repr

/-- The unit at which a tile's in-service test fails, in block codes 1 to 3. -/
inductive TestUnit where
  | matrix | vector | sequencer
  deriving DecidableEq, Repr

/-- The secondary rails of a reach, in the order in which its sequencer raises them (table "Reach rails"). -/
inductive Rail where
  | vaon | vfab | vser | vhbm | vlp | vsram | vcore
  deriving DecidableEq, Repr

/-- A cause of a reach reset that is no command: a rail out of regulation, or a PLL out of lock (table "Fault detection times"). -/
inductive RailCause where
  | rail (k : Rail)
  | pll
  deriving DecidableEq, Repr

/-- What a reach's sensors read (R485, R496): 16 die sensors, two HBM3E stacks, six LPDDR5X packages, the two gatehouse sensors, in °C, and the
seven rail currents in mA. -/
structure Sensors where
  die : List (BitVec 8)
  hbm : List (BitVec 8)
  lp : List (BitVec 8)
  gate : List (BitVec 8)
  amps : List Word32
  deriving DecidableEq, Repr

end Sys2Proof
end

