-- ==== Sys2Proof/Syntax/Host.lean ====
section
/-!
DEFINITION. Operand types of chapters 12 and 13: descriptors (R361), command parameters (R370, R371), grants (R403) and
the parameters of the translation commands (R393, R398, R400).
-/

namespace Sys2Proof

/-- A fetched descriptor: the ring layer word (R361) and bytes 0x00 to 0x3B. -/
structure Desc where
  owner : Bool
  first : Bool
  last : Bool
  kind : Bool
  nomod : Bool
  body : List Byte
  deriving DecidableEq, Repr

/-- Table "RING_CREATE parameters". -/
structure RingCreate where
  ring : BitVec 8
  completion : Bool
  log2 : BitVec 5
  cq : BitVec 8
  serialBase : Word32
  base : Word64
  index : Word64
  vector : BitVec 11
  vecEn : Bool
  modCount : BitVec 8
  modUsec : BitVec 10
  deriving DecidableEq, Repr

/-- CONFIG_TABLE without its IOVA (R371); a write's entries are carried as the host memory holds them. -/
structure ConfigTable where
  table : BitVec 8
  reaches : BitVec 4
  port : BitVec 8
  first : Nat
  count : Nat
  entries : List Byte
  iova : Word64
  deriving DecidableEq, Repr

/-- Table "XLT_MAP parameters". -/
structure XltMap where
  asid : Word16
  window : Bool
  page : BitVec 2
  tier : BitVec 1
  reach : ReachId
  pcset : BitVec 3
  rd : Bool
  wr : Bool
  va : Word64
  length : Word64
  iova : Word64
  deriving DecidableEq, Repr

/-- XLT_WITHDRAW (R400). -/
structure XltWithdraw where
  asid : Word16
  refuse : Bool
  seq : Word16
  va : Word64
  length : Word64
  deriving DecidableEq, Repr

/-- A grant (R403). -/
structure Grant where
  fmt : BitVec 4
  function : BitVec 8
  tileGroups : BitVec 16
  hbmSets : BitVec 32
  lpGib : Quad Word16
  asidBase : Word16
  asidCount : Word16
  qpQuota : Word16
  moorQuota : Word16
  pkeyIdx : List (BitVec 8)
  winShare : BitVec 10
  gateQuota : BitVec 11
  deriving DecidableEq, Repr

/-- FEED_POST and CKPT_POST parameters (R376, R377, R444); SEQ is not a field of CKPT_POST. `bytes` is the buffer of a feed as host memory
returned it. -/
structure FeedPost where
  plan : Word64
  feed : Word16
  rkey : Word32
  roff : Word64
  length : Word32
  seq : Word64
  keySlot : Word16
  bytes : List Byte
  deriving DecidableEq, Repr

/-- PLAN_LOAD parameters (table "PLAN_LOAD parameters"); `bytes` is the container as the named memory returned it. -/
structure PlanLoad where
  addr : Word64
  length : Word64
  device : Bool
  bytes : List Byte
  deriving DecidableEq, Repr

/-- COLL_START parameters (R370); `bytes` is the collective-descriptor section as host memory returned it. -/
structure CollStart where
  section_ : List Byte
  index : Nat
  member : Nat
  deriving DecidableEq, Repr

/-- What made a read of host memory that the host does not answer (R374): a command, a ring's index word or descriptors, an operation of a queue
pair by its number, or a flush read. -/
inductive HostWork where
  | command (c : CmdRef)
  | index (f : FnId) (ring : BitVec 8)
  | fetch (f : FnId) (ring : BitVec 8)
  | op (r : ReachId) (qpn : BitVec 24) (seq : Nat)
  | flush (r : ReachId)
  deriving DecidableEq, Repr

/-- TEN_SAVE parameters (R408). -/
structure TenSave where
  fn : FnId
  kek : BitVec 8
  iova : Word64
  length : Word64
  deriving DecidableEq, Repr

/-- TEN_RESTORE (R409): the blob, the node remap list and the PLAN_LOAD blocks as host memory returned them. -/
structure TenRestore where
  fn : FnId
  kek : BitVec 8
  length : Word64
  blob : List Byte
  remap : List (Word16 × Word16)
  loads : List PlanLoad
  deriving DecidableEq, Repr

end Sys2Proof
end

