-- ==== Sys2Proof/Syntax/Sec.lean ====
section
/-!
DEFINITION. Operand types of chapter 14: role request blocks (R425) with the parameters of each sub-operation, images
(R417) and cipher requests (R441).
-/

namespace Sys2Proof

/-- The path a role request came by (R426): a KEY_OP command of a function with its response buffer, or MCTP with its endpoint. -/
inductive ReqPath where
  | ring (c : CmdRef) (resp : Word64) (respLen : Word32)
  | mctp (eid : BitVec 8)
  deriving DecidableEq, Repr

/-- An Ed25519 and an ML-DSA-65 public key (R417). -/
structure KeyPair where
  ed : List Byte
  ml : List Byte
  deriving DecidableEq, Repr

/-- A role request block (R425). `body` holds the bytes of the sub-operation's parameters. -/
structure RoleReq where
  magic : Word32
  fmt : BitVec 4
  role : BitVec 4
  subop : BitVec 8
  eui : Word64
  seq : Word64
  keyId : Word64
  body : List Byte
  edSig : List Byte
  mlSig : List Byte
  deriving DecidableEq, Repr

/-- An image: its 4,096-byte header and its payload (R417). -/
structure Image where
  header : List Byte
  payload : List Byte
  deriving DecidableEq, Repr

/-- A cipher request (R441). -/
structure CipherReq where
  fmt : BitVec 4
  dir : Bool
  first : Bool
  last : Bool
  host : Bool
  engine : BitVec 3
  ctx : BitVec 12
  keySlot : Word16
  asid : Word16
  src : Word64
  dst : Word64
  length : Word32
  aadLen : Word32
  aad : Word64
  iv : BitVec 96
  tag : Word64
  deriving DecidableEq, Repr

/-- The bytes that host memory returns for a cipher request of SPACE 1: source, additional data, tag. -/
structure CipherData where
  src : List Byte
  aad : List Byte
  tag : List Byte
  deriving DecidableEq, Repr

end Sys2Proof
end

