-- ==== Sys2Proof/Syntax.lean ====
section
/-!
DEFINITION. The commands of the block: one constructor for each row of spec/opcode_table.json, in its order, with the
row's operands. `r` is the reach that a command concerns and `now` its fabric time then; a host command carries the
descriptor chain it came in (`ref`), a register access its path (`p`). What nothing inside the module determines (what arrives at a
pin or a port, when something ends, how a test goes) is an operand.
-/

namespace Sys2Proof

/-- The commands (spec/opcode_table.json). -/
inductive Instr where
  -- Fabric time (chapter 02)
  /-- FOLLOW_UP_RX: A PTP Follow_Up is accepted from the selected master; the reach takes the era and the servo
  filters and corrects the offset by slewing or stepping (R48). -/
  | followUpRx (r : ReachId) (now : Time) (p : PortId) (head : PtpHead) (sec : BitVec 48) (ns : Word32) (corr : BitVec 64)
  /-- SYNC_RX: A two-step PTP Sync arrives on a PTP port and is timestamped at the PMA (R43). -/
  | syncRx (r : ReachId) (now : Time) (p : PortId) (head : PtpHead) (arrival : Time)
  /-- ANNOUNCE_RX: A PTP Announce arrives; the best-master algorithm is rerun over clockClass, priorities and clock
  identity (R45). -/
  | announceRx (r : ReachId) (now : Time) (p : PortId) (msg : PtpAnnounce)
  /-- PDELAY_REQ_RX: A Pdelay_Req arrives and is answered with Pdelay_Resp and Pdelay_Resp_Follow_Up (R43). -/
  | pdelayReqRx (r : ReachId) (now : Time) (p : PortId) (head : PtpHead) (t2 t3 : Time)
  /-- PDELAY_RESP_RX: A Pdelay_Resp or Pdelay_Resp_Follow_Up arrives and updates the port's mean path delay (R43). -/
  | pdelayRespRx (r : ReachId) (now : Time) (p : PortId) (head : PtpHead) (followUp : Bool) (stamp arrival : Time)
  /-- PTP_MANAGEMENT_RX: A PTP management message arrives and is ignored and counted (R43). -/
  | ptpManagementRx (r : ReachId)
  /-- SYNC_TX_TIMER: Every 2^-7 s a master port sends Sync and Follow_Up (R43). -/
  | syncTxTimer (r : ReachId) (now : Time) (p : PortId)
  /-- ANNOUNCE_TX_TIMER: Every 2^-3 s a port sends Announce with the reach's clock quality (R43). -/
  | announceTxTimer (r : ReachId) (now : Time) (p : PortId)
  /-- PDELAY_REQ_TIMER: Every 2^-4 s a port sends Pdelay_Req (R43). -/
  | pdelayReqTimer (r : ReachId) (now : Time) (p : PortId)
  /-- PPS_IN_EDGE: A PPS_IN rising edge marks a whole second of fabric time for a rank-1 reach and advances its
  qualification count (R42). -/
  | ppsInEdge (at0 at1 at2 at3 : PpsMark)
  /-- SOURCE_QUALIFIES: A source becomes qualified and the servo leaves FREE_RUN, HOLDOVER or HOLDOVER_EXPIRED for
  ACQUIRE (R46). -/
  | sourceQualifies (r : ReachId) (now : Time) (source : TimeSource) (p : PortId) (srcTime : Time) (srcEra : Word16)
  /-- LOCK_ENTRY: The filtered offset has stayed within ±8 ns for 64 Sync intervals and the reach enters LOCKED (R46).
  -/
  | lockEntry (r : ReachId) (now : Time)
  /-- SOURCE_LOSS: Eight Sync intervals pass without Sync, the announce receipt timeout expires, or the reference
  loses qualification; the reach enters HOLDOVER, HOLDOVER_EXPIRED or FREE_RUN (R46). -/
  | sourceLoss (r : ReachId) (now : Time)
  /-- HOLDOVER_EXPIRY: Ten seconds in HOLDOVER elapse and the reach enters HOLDOVER_EXPIRED (R46). -/
  | holdoverExpiry (r : ReachId) (now : Time)
  /-- TIME_ERA_WRAP: The integer part of fabric time wraps and a reach keeping its own timescale increments TIME_ERA
  (R39). -/
  | timeEraWrap (r : ReachId) (now : Time)
  /-- TIME_NOW_LOW_READ: A read of TIME_NOW[31:0] latches TIME_NOW[63:32] in the same FCLK cycle (R41). -/
  | timeNowLowRead (r : ReachId)
  /-- TIME_FLOOR_WRITE: A software write to TIME_FLOOR takes effect only when its value is later than the current one
  (R538). -/
  | timeFloorWrite (p : RegPath) (r : ReachId) (v : Word64)
  /-- TIMING_DOMAIN_STOP: A reach's timing domain stops, captures its last fabric time in TIME_FLOOR, and on restart
  resumes from it in FREE_RUN (R54). -/
  | timingDomainStop (r : ReachId)
  -- Passage plans (chapter 02)
  /-- PLAN_LOAD: A PLAN_LOAD command fetches the container, verifies its digest, validates, reserves, writes gate
  lists and arms the plan (R66). -/
  | planLoad (ref : CmdRef) (p : PlanLoad)
  /-- PLAN_ARM_RX: A PLAN_ARM keeper frame from a peer arrives; once all peers' frames are held the reach computes the
  agreed start (R70). -/
  | planArmRx (r : ReachId) (now : Time) (a : ArmFrame)
  /-- PLAN_PEER_TIMEOUT: Arm frames of all peers are not received within 1 s of local arming and the load fails with
  PLAN_PEER_TIMEOUT (R66). -/
  | planPeerTimeout (r : ReachId) (now : Time) (handle : Word64)
  /-- PLAN_START: Fabric time reaches the agreed start round boundary and the plan begins running (R70). -/
  | planStart (r : ReachId) (now : Time) (handle : Word64)
  /-- LOCK_CYCLE_BOUNDARY: Fabric time reaches the next lock-cycle boundary and every unit advances its boundary by
  LOCK_CYCLE (R60). -/
  | lockCycleBoundary (r : ReachId) (now : Time)
  /-- GATE_ENTRY_BOUNDARY: Fabric time reaches the end of a gate-list entry and the next entry opens its classes
  (R343). -/
  | gateEntryBoundary (r : ReachId) (now : Time) (p : PortId)
  /-- LATE_STOPPAGE: Lateness exceeds FREEBOARD plus STOP_THRESH lock cycles and the plan service declares a late
  stoppage and informs peers (R71). -/
  | lateStoppage (r : ReachId) (now : Time) (t : TileId)
  /-- PLAN_STOP_RX: A PLAN_STOP keeper frame from a peer arrives and the node enters a stoppage at its next step
  boundary (R72). -/
  | planStopRx (r : ReachId) (now : Time) (planId : Word64) (cause : BitVec 3)
  /-- PLAN_RESUME: A PLAN_RESUME command re-arms a stopped plan and restarts it at an agreed round boundary (R72). -/
  | planResume (ref : CmdRef) (handle : Word64)
  /-- PLAN_UNLOAD: A PLAN_UNLOAD command releases a plan's reservations, routes and gate windows (R344). -/
  | planUnload (ref : CmdRef) (handle : Word64)
  /-- PLAN_STOP: A PLAN_STOP command puts the plan into a stoppage with cause driver request (R72). -/
  | planStop (ref : CmdRef) (handle : Word64)
  -- Steps (chapters 03, 04)
  /-- MATRIX_PRODUCT: A MATRIX step with OP 0 accumulates products exactly in anchored accumulators and rounds once at
  output (R87). -/
  | matrixProduct (r : ReachId) (now : Time) (t : TileId) (hold : Word32)
  /-- MATRIX_BATCHED_PRODUCT: A MATRIX step with OP 1 runs a batch of products over consecutive members (R118). -/
  | matrixBatchedProduct (r : ReachId) (now : Time) (t : TileId) (hold : Word32)
  /-- MATRIX_BLOCK_FINAL: An output block of 64 × 64 becomes final 48 TCLK after its last MAC and a streaming step
  hands its chunks to the collective (R140). -/
  | matrixBlockFinal (r : ReachId) (now : Time) (t : TileId)
  /-- VECTOR_ADD: A VECTOR step computes a + b per lane and rounds under R99 (R540). -/
  | vectorAdd (r : ReachId) (now : Time) (t : TileId) (hold : Word32)
  /-- VECTOR_SUB: A VECTOR step computes a - b per lane and rounds under R99 (R540). -/
  | vectorSub (r : ReachId) (now : Time) (t : TileId) (hold : Word32)
  /-- VECTOR_MUL: A VECTOR step computes a × b per lane and rounds under R99 (R540). -/
  | vectorMul (r : ReachId) (now : Time) (t : TileId) (hold : Word32)
  /-- VECTOR_FMA: A VECTOR step computes a × b + d with the destination as addend and rounds once (R540). -/
  | vectorFma (r : ReachId) (now : Time) (t : TileId) (hold : Word32)
  /-- VECTOR_CMP: A VECTOR step writes 1.0 where a < b and +0 elsewhere (R540). -/
  | vectorCmp (r : ReachId) (now : Time) (t : TileId) (hold : Word32)
  /-- VECTOR_MIN: A VECTOR step writes the minimum of a and b, NaN giving the canonical NaN (R99). -/
  | vectorMin (r : ReachId) (now : Time) (t : TileId) (hold : Word32)
  /-- VECTOR_MAX: A VECTOR step writes the maximum of a and b, NaN giving the canonical NaN (R99). -/
  | vectorMax (r : ReachId) (now : Time) (t : TileId) (hold : Word32)
  /-- VECTOR_SEL: A VECTOR step selects b where a is non-zero and not NaN, and the immediate elsewhere (R540). -/
  | vectorSel (r : ReachId) (now : Time) (t : TileId) (hold : Word32)
  /-- VECTOR_EXP2: A VECTOR step applies the fixed exp2 function to a (R100). -/
  | vectorExp2 (r : ReachId) (now : Time) (t : TileId) (hold : Word32)
  /-- VECTOR_LOG2: A VECTOR step applies the fixed log2 function to a (R100). -/
  | vectorLog2 (r : ReachId) (now : Time) (t : TileId) (hold : Word32)
  /-- VECTOR_RCP: A VECTOR step applies the fixed reciprocal function to a (R100). -/
  | vectorRcp (r : ReachId) (now : Time) (t : TileId) (hold : Word32)
  /-- VECTOR_RSQRT: A VECTOR step applies the fixed reciprocal square root to a (R100). -/
  | vectorRsqrt (r : ReachId) (now : Time) (t : TileId) (hold : Word32)
  /-- VECTOR_RSUM: A VECTOR step sums COUNT elements in the fixed lane order and writes one element (R101). -/
  | vectorRsum (r : ReachId) (now : Time) (t : TileId) (hold : Word32)
  /-- VECTOR_RMAX: A VECTOR step takes the maximum of COUNT elements in the fixed lane order (R101). -/
  | vectorRmax (r : ReachId) (now : Time) (t : TileId) (hold : Word32)
  /-- VECTOR_RMIN: A VECTOR step takes the minimum of COUNT elements in the fixed lane order (R101). -/
  | vectorRmin (r : ReachId) (now : Time) (t : TileId) (hold : Word32)
  /-- TOP_K: A SELECT step picks k of up to 65,536 candidates in descending total order with their indices (R103). -/
  | topK (r : ReachId) (now : Time) (t : TileId) (hold : Word32)
  /-- SORT: A SELECT step sorts values under the total order with index tie-break (R102). -/
  | sort (r : ReachId) (now : Time) (t : TileId) (hold : Word32)
  /-- MERGE: A SELECT step merges sorted runs under the total order (R102). -/
  | merge (r : ReachId) (now : Time) (t : TileId) (hold : Word32)
  /-- GATHER: A SELECT step gathers elements by index, reading zero out of range (R104). -/
  | gather (r : ReachId) (now : Time) (t : TileId) (hold : Word32)
  /-- SCATTER_WRITE: A SELECT step scatters elements by index, the highest source index winning a collision (R104). -/
  | scatterWrite (r : ReachId) (now : Time) (t : TileId) (hold : Word32)
  /-- SCATTER_ADD: A SELECT step adds elements into destinations in ascending source index (R104). -/
  | scatterAdd (r : ReachId) (now : Time) (t : TileId) (hold : Word32)
  /-- EXPERT_ROUTE: A SELECT step assigns token slots to experts within capacities and writes routes, weights and
  counts (R106). -/
  | expertRoute (r : ReachId) (now : Time) (t : TileId) (hold : Word32)
  /-- CONVERT: A CONVERT step rounds each source element once to OUT_FMT under the ACW (R95). -/
  | convert (r : ReachId) (now : Time) (t : TileId) (hold : Word32)
  /-- MOVE_LOAD: A MOVE step copies rows from device memory to scratchpad (R131). -/
  | moveLoad (r : ReachId) (now : Time) (t : TileId) (hold : Word32)
  /-- MOVE_STORE: A MOVE step copies rows from scratchpad to device memory (R131). -/
  | moveStore (r : ReachId) (now : Time) (t : TileId) (hold : Word32)
  /-- MOVE_COPY: A MOVE step copies rows from one scratchpad range to another (R132). -/
  | moveCopy (r : ReachId) (now : Time) (t : TileId) (hold : Word32)
  /-- RECLOAD: A MOVE step loads tensor records from memory into the record table (R132). -/
  | recload (r : ReachId) (now : Time) (t : TileId) (hold : Word32)
  /-- RECSTORE: A MOVE step stores tensor records from the record table to memory (R132). -/
  | recstore (r : ReachId) (now : Time) (t : TileId) (hold : Word32)
  /-- MOVE_END: A move's last byte is written and it adds its signal in issue order, or fails with SEQ_MEM_UE or
  SEQ_SPAD_UE (R133). -/
  | moveEnd (r : ReachId) (now : Time) (t : TileId) (k : Nat) (done : MoveDone)
  /-- REMOTE: A REMOTE step copies prepared work entries into the tile's issue queue, waiting for room (R136). -/
  | remote (r : ReachId) (now : Time) (t : TileId) (hold cycles : Word32)
  /-- ISSUE_QUEUE_COPY: A work entry is copied to the issue queue once room frees, with TC6 and window set where the
  schedule names one (R136). -/
  | issueQueueCopy (r : ReachId) (now : Time) (t : TileId) (stall cycles : Word32)
  /-- WAIT_TIME: A WAIT_TIME step waits until fabric time reaches the round boundary plus its offset (R128). -/
  | waitTime (r : ReachId) (now : Time) (t : TileId) (hold cycles : Word32)
  /-- WAIT_TIME_EXPIRY: The wait time is reached and the WAIT_TIME step completes (R128). -/
  | waitTimeExpiry (r : ReachId) (now : Time) (t : TileId) (cycles : Word32)
  /-- WAIT_SIGNAL: A WAIT_SIGNAL step compares its signal word with THRESH and waits until it is reached (R129). -/
  | waitSignal (r : ReachId) (now : Time) (t : TileId) (hold cycles : Word32)
  /-- SEQ_WAIT_TIMEOUT: A WAIT_SIGNAL step's TIMEOUT elapses and the step fails (R129). -/
  | seqWaitTimeout (r : ReachId) (now : Time) (t : TileId)
  /-- MARKER: A MARKER begin, end or point step takes 2 TCLK and emits a marker record when traced (R142). -/
  | marker (r : ReachId) (now : Time) (t : TileId) (hold : Word32)
  /-- MARKER_STAMP: A stamp MARKER step writes the fabric time of its start to scratchpad (R142). -/
  | markerStamp (r : ReachId) (now : Time) (t : TileId) (hold : Word32)
  /-- DIGEST_OPEN: A DIGEST step with OP 0 opens the digest slot for LAYER (R143). -/
  | digestOpen (r : ReachId) (now : Time) (t : TileId) (hold : Word32)
  /-- DIGEST_CLOSE: A DIGEST step with OP 1 waits for folding steps to end, writes the digest value and frees the slot
  (R143). -/
  | digestClose (r : ReachId) (now : Time) (t : TileId) (hold : Word32)
  /-- ROUND_END: A PHASE_END step with OP 0 waits for the tile's work to end and returns to the phase's first step for
  the next round (R144). -/
  | roundEnd (r : ReachId) (now : Time) (t : TileId) (hold cycles : Word32)
  /-- PHASE_END: A PHASE_END step with OP 1 waits for the tile's work and ends the tile's phase (R144). -/
  | phaseEnd (r : ReachId) (now : Time) (t : TileId) (hold cycles : Word32)
  /-- PHASE_END_ON_SIGNAL: A PHASE_END step with OP 2 acts as phase end or round end by its signal word and threshold
  (R144). -/
  | phaseEndOnSignal (r : ReachId) (now : Time) (t : TileId) (hold cycles : Word32)
  /-- STEP_END: A running step's unit writes its last output and the step ends, releasing interlocked steps (R126). -/
  | stepEnd (r : ReachId) (now : Time) (t : TileId) (unit : StepUnit) (cycles : Word32)
  -- Memory (chapter 05)
  /-- DREDGE_READ: After 64 idle FCLK cycles on a channel the controller issues the next patrol read and handles any
  error (R162). -/
  | dredgeRead (r : ReachId) (now : Time) (lp : Bool) (f : DredgeFind)
  /-- XPOS_SIGNAL_POLL: Every 256 FCLK the RME reads source signal words and starts intersections whose block is ready
  (R169). -/
  | xposSignalPoll (r : ReachId) (now : Time)
  -- Remote-memory engine (chapter 07)
  /-- RME_WRITE: A WRITE work entry is taken, translated and sent in barges to a remote mooring (R208). -/
  | rmeWrite (r : ReachId) (now : Time) (src : RmeSource)
  /-- RME_WRITE_SIGNAL: A WRITE_SIGNAL work entry is taken and sent, its add made at the target after ordered data is
  visible (R209). -/
  | rmeWriteSignal (r : ReachId) (now : Time) (src : RmeSource)
  /-- RME_READ: A READ work entry is taken and a READ_REQ sent, within MAX_RD outstanding (R210). -/
  | rmeRead (r : ReachId) (now : Time) (src : RmeSource)
  /-- RME_SEND: A SEND work entry is taken and its message sent to the peer's oldest posted RECV (R211). -/
  | rmeSend (r : ReachId) (now : Time) (src : RmeSource)
  /-- RME_RECV: A RECV work entry posts a local buffer at the tail of the receive list (R211). -/
  | rmeRecv (r : ReachId) (now : Time) (src : RmeSource)
  /-- RME_FETCH_ADD: A FETCH_ADD work entry adds to a remote signal word and optionally returns the prior value
  (R212). -/
  | rmeFetchAdd (r : ReachId) (now : Time) (src : RmeSource)
  /-- RME_FENCE: A FENCE holds its queue pair until earlier operations complete (R213). -/
  | rmeFence (r : ReachId) (now : Time) (src : RmeSource)
  /-- RME_FLUSH: A FLUSH completes when every earlier operation of its scope has completed (R213). -/
  | rmeFlush (r : ReachId) (now : Time) (src : RmeSource)
  /-- RME_COMPLETION: An operation's data stands visible and its completion record, LSIG add or signal add is made in
  submission order (R217). -/
  | rmeCompletion (r : ReachId) (now : Time) (qpn : BitVec 24) (which : CompletionOf)
  /-- QP_CREATE: A QP_CREATE command creates a context in RESET at the given QPN (R542). -/
  | qpCreate (ref : CmdRef) (p : QpParams)
  /-- QP_MODIFY: A QP_MODIFY command moves a context between states or retargets its peer node (R198). -/
  | qpModify (ref : CmdRef) (m : QpModify)
  /-- QP_DRAIN_DONE: Every taken operation of a DRAIN context retires and it enters FROZEN or RESET (R198). -/
  | qpDrainDone (r : ReachId) (now : Time) (qpn : BitVec 24)
  /-- QP_DESTROY: A QP_DESTROY command moves the context to ERROR, waits for retirement and frees it (R200). -/
  | qpDestroy (ref : CmdRef) (qpn : BitVec 24)
  /-- MOORING_REGISTER: A MOORING_REGISTER command picks the lowest free index, pins the range and returns the key
  (R204). -/
  | mooringRegister (ref : CmdRef) (r : ReachId) (p : MooringParams)
  /-- MOORING_WITHDRAW: A MOORING_WITHDRAW command clears VALID and completes when no reference remains (R205). -/
  | mooringWithdraw (ref : CmdRef) (key : Word32)
  /-- MOORING_RELEASE: The last reference on a withdrawn mooring is dropped; the runs are unpinned and the withdraw
  completes (R205). -/
  | mooringRelease (r : ReachId) (now : Time) (idx : BitVec 15)
  /-- HOST_FLUSH_READ: FLUSH_BATCH operations wait or FLUSH_WAIT expires and a zero-length read is issued on the host
  port (R219). -/
  | hostFlushRead (r : ReachId) (now : Time)
  /-- HOST_FLUSH_DONE: The flush read returns and the covered host-memory writes stand visible (R219). -/
  | hostFlushDone (r : ReachId) (now : Time)
  /-- RNR_RETRY: RNR_TIMER expires after a no-receive or WAIT answer and the first barge is resent, or the operation
  fails at its limit (R211). -/
  | rnrRetry (r : ReachId) (now : Time) (qpn : BitVec 24)
  -- Transport (chapter 08)
  /-- FRT_PACKET_SEND: An unplanned packet leaves once the direction's credit is zero or more and the send window
  allows (R245). -/
  | frtPacketSend (r : ReachId) (now : Time) (qpn : BitVec 24) (host : List Byte)
  /-- FRT_DATA_RX: A DATA packet arrives at the target RME, is CRC-checked, classed by PSN distance, checked and
  written (R241). -/
  | frtDataRx (r : ReachId) (now : Time) (p : FrtPacket)
  /-- FRT_READ_REQ_RX: A READ_REQ arrives and the target reads the mooring and returns READ_RESP packets (R210). -/
  | frtReadReqRx (r : ReachId) (now : Time) (p : FrtPacket)
  /-- FRT_READ_RESP_RX: A READ_RESP arrives at the requester and its data is written to the local range (R230). -/
  | frtReadRespRx (r : ReachId) (now : Time) (p : FrtPacket)
  /-- FRT_ACK_RX: An ACK arrives; SND_UNA advances, SACKs are marked, fast retransmission and the rate update run
  (R243). -/
  | frtAckRx (r : ReachId) (now : Time) (p : FrtPacket)
  /-- FRT_NAK_RX: A NAK arrives carrying PEER_GONE, WAIT, no-receive or a status code (R232). -/
  | frtNakRx (r : ReachId) (now : Time) (p : FrtPacket)
  /-- ACK_DELAY_TIMER: ACK_DELAY passes after the first unacknowledged accepted packet and an ACK is sent (R242). -/
  | ackDelayTimer (r : ReachId) (now : Time) (qpn : BitVec 24)
  /-- RETRANSMIT_TIMER: The retransmission timer expires and unacknowledged PSNs are resent, the rate halved, or the
  operations fail after 7 retries (R243). -/
  | retransmitTimer (r : ReachId) (now : Time) (qpn : BitVec 24)
  -- Fabric routing and keeper services (chapter 09)
  /-- FRAME_FORWARD: A frame reaches the router and is routed by epoch, Valiant pick, planned route or backup, with
  partition checks (R265). -/
  | frameForward (r : ReachId) (now : Time)
  /-- SURVEY_TX_TIMER: Every 1 ms a SURVEY frame is sent on every port (R261). -/
  | surveyTxTimer (r : ReachId) (now : Time)
  /-- SURVEY_RX: A SURVEY frame arrives and may move the port from TRAINING to HELD (R261). -/
  | surveyRx (r : ReachId) (now : Time) (p : PortId) (survey : Survey)
  /-- PORT_USABLE_TIMER: A HELD port completes 100 ms without a missed SURVEY or fault and becomes USABLE (R261). -/
  | portUsableTimer (r : ReachId) (now : Time) (p : PortId)
  /-- SURVEY_LOSS: Three SURVEY intervals pass without a frame and the USABLE port goes DOWN (R261). -/
  | surveyLoss (r : ReachId) (now : Time) (p : PortId)
  /-- LSA_RX: An LSA arrives; the newest is kept and the node rebuilds its inactive bank without a fabric manager
  (R262). -/
  | lsaRx (r : ReachId) (now : Time) (p : PortId) (l : Lsa)
  /-- LSA_FLOOD_TIMER: Every 1 s each node floods its LSA (R262). -/
  | lsaFloodTimer (r : ReachId) (now : Time)
  /-- LINK_NOTICE_RX: A LINK_NOTICE reaches the fabric manager (R279). -/
  | linkNoticeRx (r : ReachId) (now : Time) (node : Word16) (port : PortId)
  /-- CMAP_TX_TIMER: Every 100 µs each router sends its congestion map to the fabric manager (R277). -/
  | cmapTxTimer (r : ReachId) (now : Time) (hist : List (List Word16))
  /-- CMAP_RX: A congestion map reaches the fabric manager (R277). -/
  | cmapRx (r : ReachId) (now : Time) (m : Cmap)
  /-- TABLE_WRITE_RX: A TABLE_WRITE arrives; the node writes and stages its inactive bank and answers TABLE_ACK
  (R272). -/
  | tableWriteRx (r : ReachId) (now : Time) (src : Word16) (num : BitVec 24) (entries : List (Nat × Word32)) (valiant : List Word16)
  /-- TABLE_ACK_RX: A TABLE_ACK reaches the fabric manager, which sends FLIP once all are held (R272). -/
  | tableAckRx (r : ReachId) (now : Time) (src : Word16) (num : BitVec 24) (refused : Bool)
  /-- TABLE_ACK_TIMEOUT: A TABLE_ACK is missing after 1 ms and the fabric manager abandons the change (R273). -/
  | tableAckTimeout (r : ReachId) (now : Time)
  /-- FLIP_RX: A FLIP arrives, sets T_flip and is answered with FLIP_ACK (R272). -/
  | flipRx (r : ReachId) (now : Time) (src : Word16) (num : BitVec 24) (tFlip : Time)
  /-- FLIP_ACK_RX: A FLIP_ACK reaches the fabric manager (R272). -/
  | flipAckRx (r : ReachId) (now : Time) (src : Word16) (num : BitVec 24)
  /-- FLIP_REPEAT_TIMER: Every 100 µs the fabric manager repeats FLIP to a node that has not answered (R273). -/
  | flipRepeatTimer (r : ReachId) (now : Time)
  /-- EPOCH_FLIP: Fabric time reaches T_flip and the STAGED bank becomes ACTIVE, the old one DRAINING (R272). -/
  | epochFlip (r : ReachId) (now : Time)
  /-- EPOCH_DRAIN_END: RTR_EPOCH.DRAIN elapses and the DRAINING bank becomes CLOSED (R272). -/
  | epochDrainEnd (r : ReachId) (now : Time)
  /-- FM_HELLO_TIMER: Every 100 µs the fabric manager sends FM_HELLO (R276). -/
  | fmHelloTimer (r : ReachId) (now : Time)
  /-- FM_HELLO_RX: An FM_HELLO arrives at a node (R276). -/
  | fmHelloRx (r : ReachId) (now : Time) (src : Word16)
  /-- FM_TAKEOVER: The standby hears no FM_HELLO for 1 ms and takes over, or nodes return to their own tables (R276).
  -/
  | fmTakeover (r : ReachId) (now : Time)
  /-- LINK_FAULT: A port receives Local or Remote Fault or loses FEC alignment and enters DOWN, using backups (R279).
  -/
  | linkFault (r : ReachId) (now : Time) (p : PortId)
  /-- LINK_UP: A link trains with FEC lock and the port enters TRAINING (R261). -/
  | linkUp (r : ReachId) (now : Time) (p : PortId) (peerAdv rxInv : BitVec 4) (rxOrder : BitVec 8)
  /-- ECHO_REQ: An ECHO_REQ arrives and is answered, optionally creating a maintenance context (R504). -/
  | echoReq (r : ReachId) (now : Time) (src : Word16) (q : EchoReq)
  /-- ECHO_RESP: An ECHO_RESP arrives at the requester (R504). -/
  | echoResp (r : ReachId) (now : Time) (a : EchoResp)
  /-- MAINTENANCE_CONTEXT_IDLE: A maintenance context has had no packet for 10 s and is destroyed (R504). -/
  | maintenanceContextIdle (r : ReachId) (now : Time) (idx : Fin 64)
  /-- MIRROR_REFRESH_TIMER: Every 100 µs the node mirror is refreshed with MIRROR_SEQ bracketing (R539). -/
  | mirrorRefreshTimer (r : ReachId) (now : Time)
  -- Collectives (chapter 10)
  /-- COLL_START: A COLL_START command starts an unplanned collective invocation for one member (R297). -/
  | collStart (ref : CmdRef) (p : CollStart)
  /-- COLL_CHUNK_SEND: A member's credit exceeds used grants and its RME sends the next chunk with tail as one
  WRITE_SIGNAL (R299). -/
  | collChunkSend (r : ReachId) (now : Time) (key : Word64) (coll member dest : Nat)
  /-- COLL_CHUNK_RECEIVE: A chunk lands, is checked, added in the wharf or at the endpoint, written to W and its
  staging entry freed (R300). -/
  | collChunkReceive (r : ReachId) (now : Time) (key : Word64) (coll member item : Nat)
  /-- COLL_TIMEOUT: A ready member waits FREEBOARD plus COLL_TIMEOUT without grant or chunk and fails the invocation
  (R312). -/
  | collTimeout (r : ReachId) (now : Time) (key : Word64) (coll member : Nat)
  /-- ADDER_TEST_BURST: An adder test burst falls due and runs when no chunk is being added (R453). -/
  | adderTestBurst (r : ReachId) (now : Time) (wharf pass : Bool)
  -- Ports, MACs and lock gates (chapter 11)
  /-- MAC_FRAME_RX: A frame is received, FCS-checked, address-filtered and matched against receive filters into an
  ingress queue (R332). -/
  | macFrameRx (r : ReachId) (now : Time) (p : PortId) (f : EthFrame)
  /-- PAUSE_RX: An 802.3 PAUSE frame stops all classes for pause_time (R334). -/
  | pauseRx (r : ReachId) (now : Time) (p : PortId) (quanta : Word16)
  /-- PFC_RX: A PFC frame stops or releases the named classes (R334). -/
  | pfcRx (r : ReachId) (now : Time) (p : PortId) (classes : BitVec 8) (times : List Word16)
  /-- PAUSE_EXPIRY: A class's pause time runs out and the class is released (R334). -/
  | pauseExpiry (r : ReachId) (now : Time) (p : PortId) (tc : Fin 8)
  /-- PAUSE_WATCHDOG: TC6 or TC7 has been paused for WD_NS and pause is disregarded for WD_HOLD (R335). -/
  | pauseWatchdog (r : ReachId) (now : Time) (p : PortId) (tc7 : Bool)
  /-- PAUSE_WATCHDOG_HOLD_END: WD_HOLD ends and the port obeys pause for the class again (R335). -/
  | pauseWatchdogHoldEnd (r : ReachId) (now : Time) (p : PortId) (tc7 : Bool)
  /-- PFC_REPEAT_TIMER: Every 32,768 quanta the stopping PFC frame is repeated while the queue stays high (R337). -/
  | pfcRepeatTimer (r : ReachId) (now : Time) (p : PortId) (tc : Fin 6)
  /-- PORT_FRAME_START: The port is free and selects its next frame by gate, fit rule, sluices and round robin (R341).
  -/
  | portFrameStart (r : ReachId) (now : Time) (p : PortId) (ending : FrameEnd)
  /-- SHP_SLUICE_WRITE: A write of a sluice's configuration sets its tokens to zero or to full burst (R340). -/
  | shpSluiceWrite (p : RegPath) (r : ReachId) (now : Time) (q : PortId) (slot : Fin 72) (v : Word64)
  /-- MAC_CT_RESET: Writing MAC_CT.RESET returns LEVEL to 1 (R328). -/
  | macCtReset (p : RegPath) (r : ReachId) (q : PortId)
  -- Host port, rings and commands (chapter 12)
  /-- DOORBELL: A doorbell write makes the module read the ring's index word (R357). -/
  | doorbell (f : FnId) (ring : BitVec 8)
  /-- INDEX_WORD_READ_DONE: The index word read returns and descriptors below the published count are fetched (R357).
  -/
  | indexWordReadDone (f : FnId) (ring : BitVec 8) (word : Word32)
  /-- DESCRIPTOR_FETCH_DONE: Fetched descriptors return; whole chains with the expected OWNER are taken (R362). -/
  | descriptorFetchDone (f : FnId) (ring : BitVec 8) (l : List Desc)
  /-- COMPLETION_RING_ROOM: A full completion ring gains room and held records post and taking resumes (R360). -/
  | completionRingRoom (f : FnId) (ring : BitVec 8) (consumed : Word32)
  /-- INTERRUPT_MODERATION_TIMER: MOD_USEC passes after a record and the ring sends its MSI-X message (R373). -/
  | interruptModerationTimer (f : FnId) (ring : BitVec 8) (elapsed : Nat)
  /-- HOST_READ_TIMEOUT: A host-port read completion times out after 50 ms and the work fails with HOST_DMA_FAULT
  (R370). -/
  | hostReadTimeout (w : HostWork)
  /-- RING_CREATE: A RING_CREATE command creates a ring and posts its held records (R370). -/
  | ringCreate (ref : CmdRef) (p : RingCreate)
  /-- RING_DESTROY: A RING_DESTROY command removes a ring once its taken chains complete (R370). -/
  | ringDestroy (ref : CmdRef) (ring : BitVec 8)
  /-- NOP: A NOP command completes with zero (R370). -/
  | nop (ref : CmdRef)
  /-- OBJ_QUERY: An OBJ_QUERY command writes a queue-pair context or mooring entry to a host buffer (R370). -/
  | objQuery (ref : CmdRef) (kind : BitVec 8) (number : Word32) (iova : Word64)
  /-- FEED_POST: A FEED_POST command offers a bounce buffer read by the feed service in SEQ order (R376). -/
  | feedPost (ref : CmdRef) (p : FeedPost)
  /-- CKPT_POST: A CKPT_POST command offers an empty buffer that the checkpoint service fills (R377). -/
  | ckptPost (ref : CmdRef) (p : FeedPost)
  /-- CONFIG_TABLE_WRITE: A CONFIG_TABLE write applies partition, address or filter entries whole on the named reaches
  and logs them (R371). -/
  | configTableWrite (ref : CmdRef) (t : ConfigTable)
  /-- CONFIG_TABLE_READ: A CONFIG_TABLE read returns entries of one reach's table (R371). -/
  | configTableRead (ref : CmdRef) (t : ConfigTable)
  /-- ATTACH: Writing HOST_FN_CTRL.ATTACH attaches the function, continuing or shutting down its prior state (R381).
  -/
  | attach (f : FnId)
  /-- DETACH: Writing HOST_FN_CTRL.DETACH makes the function absent (R385). -/
  | detach (f : FnId)
  /-- HOST_REV_WRITE: A write of HOST_REV offer fields selects the highest supported revision in SEL (R384). -/
  | hostRevWrite (f : FnId) (value : Word64)
  /-- HOST_CLK_WRITE: A write of HOST_CLK.MODE persists and takes effect at the next host-port reset (R351). -/
  | hostClkWrite (p : RegPath) (value : Word64)
  /-- HOST_PORT_RESET: PERST_N, hot reset or link-down resets the host port; functions become absent and completions
  are held (R33). -/
  | hostPortReset (cause : HostReset)
  /-- FUNCTION_LEVEL_RESET: A function-level reset or VF Enable clear starts a shut-down of the function (R353). -/
  | functionLevelReset (f : FnId)
  /-- POWER_STATE_CHANGE: The host port enters or leaves D3hot, stopping or resuming DMA and MSI-X (R350). -/
  | powerStateChange (d3hot : Bool)
  -- Translation and tenancies (chapter 13)
  /-- ASID_CREATE: An ASID_CREATE command allocates a requested or lowest free ASID (R394). -/
  | asidCreate (ref : CmdRef) (asid : Word16)
  /-- XLT_MAP: An XLT_MAP command maps zeroed pages or creates a host window and resolves fault records (R393). -/
  | xltMap (ref : CmdRef) (p : XltMap)
  /-- XLT_WITHDRAW: An XLT_WITHDRAW command withdraws pages and windows as an invalidating command, or refuses a fault
  record (R400). -/
  | xltWithdraw (ref : CmdRef) (p : XltWithdraw)
  /-- ASID_INVALIDATE: An ASID_INVALIDATE command advances the generation and optionally frees the ASID (R398). -/
  | asidInvalidate (ref : CmdRef) (asid : Word16) (free : Bool)
  /-- XLT_INVALIDATE_DRAINED: No work of the previous generation remains; released pages return to the grant and the
  command completes (R398). -/
  | xltInvalidateDrained (asid : Word16)
  /-- XLT_FAULT_EXPIRY: FAULT_MS elapses after an open fault record and it closes as refused (R402). -/
  | xltFaultExpiry (r : ReachId) (now : Time) (f : FnId) (seq : Word16)
  /-- FUNCTION_ENABLE: A FUNCTION_ENABLE command moves a grant from the PF to a VF (R403). -/
  | functionEnable (ref : CmdRef) (g : Grant)
  /-- FUNCTION_DISABLE: A FUNCTION_DISABLE command shuts the VF down and returns its grant to the PF (R405). -/
  | functionDisable (ref : CmdRef) (fn : BitVec 8)
  /-- TEN_FREEZE: A TEN_FREEZE command stops plans, drains queue pairs and freezes contexts (R407). -/
  | tenFreeze (ref : CmdRef) (fn : BitVec 8) (drainMs : Word32)
  /-- TEN_FREEZE_DRAIN_EXPIRY: DRAIN_MS expires and unretired operations complete rolled back or uncertain (R407). -/
  | tenFreezeDrainExpiry (r : ReachId) (now : Time) (f : FnId)
  /-- TEN_SAVE: A TEN_SAVE command writes an encrypted blob of the frozen tenancy (R408). -/
  | tenSave (ref : CmdRef) (p : TenSave)
  /-- TEN_RESTORE: A TEN_RESTORE command authenticates a blob and recreates the tenancy frozen (R409). -/
  | tenRestore (ref : CmdRef) (p : TenRestore)
  /-- TEN_UNFREEZE: A TEN_UNFREEZE command moves frozen contexts to READY and resumes ring taking (R411). -/
  | tenUnfreeze (ref : CmdRef) (fn : BitVec 8)
  -- Resets and self-test by command (chapters 01, 04, 15)
  /-- RESET_TILES: A RESET_TILES command performs a tile-array reset of the named groups (R113). -/
  | resetTiles (ref : CmdRef) (reach : BitVec 8) (mark : TileResetMark)
  /-- RESET_REACH: A RESET_REACH command resets one reach (R31). -/
  | resetReach (ref : CmdRef) (reach : BitVec 8)
  /-- BIST_RUN: A BIST_RUN command runs a quick or full self-test on named reaches (R462). -/
  | bistRun (ref : CmdRef) (mask kind : BitVec 8) (iova : Word64) (runs : Quad TestRun)
  /-- BIST_WINDOW_TIMEOUT: The test window is not met within WAIT_S and the test ends untested (R458). -/
  | bistWindowTimeout (r : ReachId) (now : Time)
  -- Roles and the cipher engine (chapter 14)
  /-- ROLE_OPEN: A ROLE_OPEN request opens a role session bound to one path (R427). -/
  | roleOpen (p : ReqPath) (b : RoleReq)
  /-- ROLE_CLOSE: A ROLE_CLOSE request ends the session (R427). -/
  | roleClose (p : ReqPath) (b : RoleReq)
  /-- ROLE_SESSION_EXPIRY: A role session's time runs out and it ends (R427). -/
  | roleSessionExpiry (r : ReachId) (now : Time) (mctp : Bool)
  /-- ENROL: An ENROL request enrols role keys or an operator (R424). -/
  | enrol (p : ReqPath) (b : RoleReq)
  /-- REVOKE: A REVOKE request revokes an enrolled key pair (R425). -/
  | revoke (p : ReqPath) (b : RoleReq)
  /-- IMAGE_STAGE: An IMAGE_STAGE request writes a verified image to the slot that did not boot (R422). -/
  | imageStage (p : ReqPath) (b : RoleReq) (image : Image)
  /-- SVN_COMMIT: An SVN_COMMIT request raises an image type's anti-rollback counter (R422). -/
  | svnCommit (p : ReqPath) (b : RoleReq)
  /-- FABRIC_KEY: A FABRIC_KEY request installs a partition's key with an activation time (R437). -/
  | fabricKey (p : ReqPath) (b : RoleReq)
  /-- FABRIC_KEY_RETIRE: T_ACT plus KEY_RETIRE passes and the older fabric key is erased on every reach (R438). -/
  | fabricKeyRetire (r : ReachId) (now : Time) (slot : Nat)
  /-- FABRIC_KEY_AGE_ALERT: A key in force reaches 2^45 or 2^46 ns without a newer key and an alert is raised (R440).
  -/
  | fabricKeyAgeAlert (r : ReachId) (now : Time) (slot : Nat)
  /-- KEK_SET: A KEK_SET request installs a migration or tenancy KEK (R435). -/
  | kekSet (p : ReqPath) (b : RoleReq)
  /-- HOST_KEY: A HOST_KEY request installs a function's host-transfer key (R435). -/
  | hostKey (p : ReqPath) (b : RoleReq)
  /-- LOG_READ: A LOG_READ request returns logbook entries followed by a fresh seal (R430). -/
  | logRead (p : ReqPath) (b : RoleReq)
  /-- LOG_TRIM: A LOG_TRIM request releases logbook entries up to a SEQ (R431). -/
  | logTrim (p : ReqPath) (b : RoleReq)
  /-- CIPHER: A CIPHER request runs one AES-256-GCM invocation or saves or restores a context (R441). -/
  | cipher (p : ReqPath) (b : RoleReq) (d : CipherData)
  /-- IDENTITY: An IDENTITY request returns the public keys and both certificate chains (R426). -/
  | identity (p : ReqPath) (b : RoleReq)
  -- Management path (chapters 14, 20)
  /-- SPDM_GET_VERSION: An SPDM GET_VERSION request is answered (R433). -/
  | spdmGetVersion (eid : BitVec 8) (msg : List Byte)
  /-- SPDM_GET_CAPABILITIES: An SPDM GET_CAPABILITIES request is answered (R433). -/
  | spdmGetCapabilities (eid : BitVec 8) (msg : List Byte)
  /-- SPDM_NEGOTIATE_ALGORITHMS: An SPDM NEGOTIATE_ALGORITHMS request is answered (R433). -/
  | spdmNegotiateAlgorithms (eid : BitVec 8) (msg : List Byte) (offered : Bool)
  /-- SPDM_GET_DIGESTS: An SPDM GET_DIGESTS request is answered (R433). -/
  | spdmGetDigests (eid : BitVec 8) (msg : List Byte)
  /-- SPDM_GET_CERTIFICATE: An SPDM GET_CERTIFICATE request returns slot 0 (R433). -/
  | spdmGetCertificate (eid : BitVec 8) (msg : List Byte) (slot offset length : Nat)
  /-- SPDM_CHALLENGE: An SPDM CHALLENGE is answered with a signed CHALLENGE_AUTH (R433). -/
  | spdmChallenge (eid : BitVec 8) (msg : List Byte) (slot : Nat) (summary : Bool)
  /-- SPDM_GET_MEASUREMENTS: An SPDM GET_MEASUREMENTS request returns the measurement indices (R433). -/
  | spdmGetMeasurements (eid : BitVec 8) (msg : List Byte) (op : BitVec 8) (sign : Bool)
  /-- PQ_COSIGN: A vendor request 0x0001 returns an ML-DSA-65 cosignature of the last signed transcript (R434). -/
  | pqCosign (eid : BitVec 8)
  /-- PQ_CHAIN: A vendor request 0x0002 returns a piece of the ML-DSA-65 identity chain (R434). -/
  | pqChain (eid : BitVec 8) (offset length : Nat)
  /-- MCTP_REG_READ: A management request 0x10 reads one PF BAR0 register (R531). -/
  | mctpRegRead (eid : BitVec 8) (offset : Nat)
  /-- MCTP_REG_WRITE: A management request 0x11 writes one PF BAR0 register under the management session (R531). -/
  | mctpRegWrite (eid : BitVec 8) (offset : Nat) (value : Word64)
  /-- MCTP_CONFIG_TABLE: A management request 0x12 carries a CONFIG_TABLE request with its entries (R371). -/
  | mctpConfigTable (eid : BitVec 8) (read : Bool) (t : ConfigTable)
  -- Faults and in-service tests (chapter 15)
  /-- KEEPER_WATCHDOG_EXPIRY: A keeper watchdog expires and the core is restarted, or the reach or module is reset
  (R450). -/
  | keeperWatchdogExpiry (r : ReachId) (now : Time) (core : Fin 12)
  /-- TILE_SERVICE_TEST: A tile's in-service test falls due and runs in an idle gap, holding the reach on failure
  (R452). -/
  | tileServiceTest (r : ReachId) (now : Time) (t : TileId) (fails : Option TestUnit)
  /-- SERVICE_TEST_OVERDUE: A part's last passed test is older than 2 × PERIOD_S and an alert record is posted (R454).
  -/
  | serviceTestOverdue (r : ReachId) (now : Time) (part : Fin 66)
  -- Gauges and trace (chapter 16)
  /-- GAUGE_SNAP: A write to GAUGE_SNAP latches every gauge of one object into shadow copies (R467). -/
  | gaugeSnap (p : RegPath) (value : Word64)
  /-- TRC_CTRL_ARM: Writing TRC_CTRL.ARM as 1 arms triggers, clears FROZEN and restarts capture (R472). -/
  | trcCtrlArm (p : RegPath) (value : Word64)
  /-- TRC_TRIG_FIRE: Writing TRC_TRIG.FIRE fires a KIND 6 trigger (R472). -/
  | trcTrigFire (p : RegPath) (value : Word64)
  /-- TRACE_TRIGGER_NOTICE: A trigger notice from another reach arrives and the reach writes its own TRIGGER record
  (R472). -/
  | traceTriggerNotice (r : ReachId) (now : Time) (src : ReachId)
  /-- TRACE_TRIGGER_TIME: Fabric time reaches TRC_TRIG_TIME and a KIND 5 trigger fires (R472). -/
  | traceTriggerTime (r : ReachId) (now : Time)
  /-- TRACE_CAPTURE_FULL: The post-trigger space is full and the reach freezes its capture (R472). -/
  | traceCaptureFull (r : ReachId) (now : Time)
  /-- TRACE_SYNC_TIMER: Every SYNC_US a SYNC record is made (R469). -/
  | traceSyncTimer (r : ReachId) (now : Time)
  /-- TRACE_STALL: A stall-mode episode ends and one TRACE_STALL is counted with its length (R473). -/
  | traceStall (r : ReachId) (now : Time)
  /-- TRACE_ROOM_RETURN: Room returns after drops and a DROP record is written (R473). -/
  | traceRoomReturn (r : ReachId) (now : Time)
  /-- TRACE_FRAME_SEND: In stream mode the gatehouse takes up to 16 records of a reach and sends a trace-port frame
  (R474). -/
  | traceFrameSend
  /-- TRACE_ALIGNMENT_BLOCK: Every 16,384 blocks per lane all lanes send an alignment block (R474). -/
  | traceAlignmentBlock
  /-- TRC_DUMP_GO: Writing TRC_DUMP_CTRL.GO copies named reaches' trace records to host memory (R475). -/
  | trcDumpGo (p : RegPath) (value : Word64)
  /-- TRACE_DUMP_DONE: A trace dump ends, clearing DUMP_BUSY or setting DUMP_ERR (R475). -/
  | traceDumpDone (refused : Option Nat)
  -- Power (chapter 17)
  /-- PWR_EN_RISE: PWR_EN is asserted and the module powers up through its rail sequence (R478). -/
  | pwrEnRise (rails : Quad (Fin 8)) (lowLong : Bool)
  /-- PWR_EN_FALL: PWR_EN falls and the module stops transmitting and removes every rail (R480). -/
  | pwrEnFall
  /-- INPUT_CUT_OFF: The input stays below 36 V for 100 µs or above 63 V for 10 µs and power-down follows (R476). -/
  | inputCutOff (lowUs highUs : Nat)
  /-- RAIL_FAULT: A reach rail or PLL leaves regulation or lock and the reach takes a reach reset (R37). -/
  | railFault (r : ReachId) (now : Time) (cause : RailCause)
  /-- DROOP_TRIP: VCORE falls below the droop threshold and TCLK drops to the floor within 3 ns (R481). -/
  | droopTrip (r : ReachId) (now : Time) (dropMv : Nat)
  /-- DROOP_CLEAR: The droop sensor clears and TCLK rises linearly over 200 ns to its target (R481). -/
  | droopClear (r : ReachId) (now : Time)
  /-- POWER_PEAK_TRIP: Input power over 10 µs exceeds 2,300 W and every reach's droop sensor trips (R482). -/
  | powerPeakTrip (watts : Nat)
  /-- POWER_CAP_TICK: Every 100 µs the gatehouse compares average power with the cap and steps capping targets (R484).
  -/
  | powerCapTick (avg : Nat)
  /-- THERMAL_TICK: Every 100 µs each reach steps its thermal target and acts on alert and hold limits (R485). -/
  | thermalTick (r : ReachId) (now : Time) (sensors : Sensors)
  /-- THERM_TRIP: A sensor exceeds 120 °C, THERM_TRIP_N asserts and the primary conversion switches off (R485). -/
  | thermTrip (hottest gatehouse : Nat)
  /-- POWER_LIMIT_UNMET: Power stays above limits at the floor for 100 ms and an alert or a fault stoppage follows
  (R486). -/
  | powerLimitUnmet (avg100 : Nat)
  /-- PWR_CAP_WRITE: A PWR_CAP write takes effect except a floor lowered below a loaded plan's FLOOR_MHZ (R492). -/
  | pwrCapWrite (p : RegPath) (value : Word64)
  -- Start-up and shut-down (chapters 18, 19, 20)
  /-- MODULE_RESET: Power-on, MRST_N or a gatehouse fatal fault resets the whole module and boot runs (R31). -/
  | moduleReset
  /-- MRST_N_LOW: MRST_N is held low and causes a module reset, with start-up on its rising edge (R518). -/
  | mrstNLow
  /-- STRAP_CHANGE: A strap changes after sampling and GATE_STRAP.CHANGED reads 1 (R518). -/
  | strapChange (modid : BitVec 10) (parity mode : Bool)
  /-- MODULE_READY: The gatehouse runs and every reach is in service or held, and GATE_START.READY is set (R497). -/
  | moduleReady (runs : Quad TestRun) (readyMs : Word32)
  /-- GATE_SHUT_GO: Writing GATE_SHUT.GO starts an orderly shut-down with draining (R509). -/
  | gateShutGo (p : RegPath) (value : Word64)
  /-- SHUTDOWN_DRAIN_END: DRAIN_MS expires; unretired operations complete and reaches enter testing (R509). -/
  | shutdownDrainEnd (r : ReachId) (now : Time) (runs : Quad TestRun)
  /-- SHUTDOWN_DONE: Tests and flash writes finish, rails fall and STATE reads 3 with an alert (R509). -/
  | shutdownDone
  /-- REGISTER_WRITE: A write to a register without its own row acts by its access code and any RWL role check (R12).
  -/
  | registerWrite (p : RegPath) (w : RegWrite)
  /-- PERST_N_RELEASE: PERST_N deasserts and the host port trains its link in the HOST_CLK mode then in force (R479).
  -/
  | perstNRelease
  /-- MRST_N_RELEASE: MRST_N rises and start-up runs from the gatehouse's exit from power-on reset, with the straps
  sampled again (R518). -/
  | mrstNRelease (rails : Quad (Fin 8))
  /-- REACH_RESET_COMPLETE: A reach finishes its reset; the gatehouse rewrites site tables and fabric keys, tables are
  copied from a replica, and ports rejoin through survey (R281). -/
  | reachResetComplete (r : ReachId) (now : Time)
  /-- PPS_OUT_EDGE: Fabric time of the lowest-numbered LOCKED or HOLDOVER reach reaches a whole second and PPS_OUT
  rises for 10 µs (R517). -/
  | ppsOutEdge (r : ReachId) (now : Time)
  /-- UNCORRECTABLE_CODEWORD: The PCS marks an uncorrectable RS(544,514) codeword, counted, and more than 64 within 1
  ms raise the link-degrade alert (R324). -/
  | uncorrectableCodeword (r : ReachId) (now : Time) (p : PortId)
  deriving DecidableEq, Repr

end Sys2Proof
end

