-- ==== Sys2Proof/Decode.lean ====
section
/-!
DEFINITION. The decoder of opcode-table words. spec/opcode_table.json gives no row of this block any bits: a command is an event with its
operands, and no word spells one.
-/

namespace Sys2Proof

/-- The command that a word spells by the bits of the opcode table: none, for no row has bits. -/
def decodeTableWord (_nbits _w : Nat) : Option Instr := none

end Sys2Proof
end

