-- ==== Sys2Proof/Machine/Data.lean ====
section
/-!
DEFINITION. Bits of numbers, fabric times (R8, R38, R40), little- and big-endian bytes (R6), and the operations of tables and memories.
-/

namespace Sys2Proof

/-! ### Bits and fabric times -/

/-- Bits [lo + w - 1 : lo] of a number. -/
def natBits (x lo w : Nat) : Nat := (x >>> lo) % 2 ^ w

/-- Bit `i` of a number. -/
def natBit (x i : Nat) : Bool := x.testBit i

/-- A whole number of nanoseconds as a fabric-time interval. -/
def nsTime (ns : Nat) : Time := BitVec.ofNat 64 (ns * 65536)

/-- The integer part of a fabric time, modulo 2^48 ns (R38). -/
def timeNs (t : Time) : Nat := t.toNat / 65536

/-- R40: `later a b` says that `b` is later than `a`: the signed difference b - a is positive. -/
def later (a b : Time) : Bool := decide (0 < (b - a).toInt)

/-- R40: `b` is `a` or later. -/
def notBefore (a b : Time) : Bool := decide (0 ≤ (b - a).toInt)

/-- The signed difference b - a of two fabric times, in units of 2^-16 ns (R40). -/
def timeDiff (a b : Time) : Int := (b - a).toInt

/-- The later of two fabric times under R40. -/
def laterOf (a b : Time) : Time := if later a b then b else a

/-! ### Little-endian bytes (R6) -/

/-- The little-endian bytes of a number, `n` of them. -/
def leBytes : Nat → Nat → List Byte
  | 0, _ => []
  | n + 1, x => BitVec.ofNat 8 x :: leBytes n (x / 256)

/-- The number that little-endian bytes spell. -/
def leNat : List Byte → Nat
  | [] => 0
  | b :: bs => b.toNat + 256 * leNat bs

/-- The big-endian bytes of a number, `n` of them (R6: frame headers are big-endian). -/
def beBytes (n x : Nat) : List Byte := (leBytes n x).reverse

/-- `n` bytes of a byte string from offset `off`; bytes beyond the string's end read as zero. -/
def sliceBytes (bs : List Byte) (off n : Nat) : List Byte :=
  let part := (bs.drop off).take n
  part ++ List.replicate (n - part.length) 0

/-- The little-endian number in `n` bytes at offset `off` of a byte string. -/
def leAt (bs : List Byte) (off n : Nat) : Nat := leNat (sliceBytes bs off n)

/-! ### Tables -/

namespace Tab

variable {α : Type}

/-- The entry at a key. -/
def find? : Tab α → Nat → Option α
  | [], _ => none
  | (k', v) :: t, k => if k = k' then some v else find? t k

/-- The entry at a key, or `d` where the table lists none. -/
def getD (t : Tab α) (k : Nat) (d : α) : α := (find? t k).getD d

/-- Put an entry, keeping the keys rising. -/
def set : Tab α → Nat → α → Tab α
  | [], k, v => [(k, v)]
  | (k', v') :: t, k, v =>
    if k < k' then (k, v) :: (k', v') :: t
    else if k = k' then (k, v) :: t
    else (k', v') :: set t k v

/-- Remove the entry at a key. -/
def erase (t : Tab α) (k : Nat) : Tab α := t.filter (fun e => e.1 != k)

/-- Change the entry at a key, `d` standing for an absent one. -/
def modify (t : Tab α) (k : Nat) (d : α) (f : α → α) : Tab α := set t k (f (getD t k d))

/-- Change an entry that is listed; an absent one stays absent. -/
def update (t : Tab α) (k : Nat) (f : α → α) : Tab α :=
  match find? t k with
  | some v => set t k (f v)
  | none => t

/-- Apply a function to every listed entry. -/
def mapVals (t : Tab α) (f : α → α) : Tab α := t.map (fun e => (e.1, f e.2))

/-- The listed values. -/
def vals (t : Tab α) : List α := t.map (fun e => e.2)

/-- The lowest number from `lo` on, below `lo + n`, that the table does not list. -/
def lowestFree (t : Tab α) (lo : Nat) : Nat → Option Nat
  | 0 => none
  | n + 1 => if (find? t lo).isNone then some lo else lowestFree t (lo + 1) n

end Tab

/-! ### Memories -/

namespace Mem

/-- The byte at an address. -/
def read : Mem → Nat → Byte
  | [], _ => 0
  | (a', b) :: m, a => if a = a' then b else read m a

/-- Write one byte, keeping the canonical form: writing zero removes the entry. -/
def write : Mem → Nat → Byte → Mem
  | [], a, b => if b = 0 then [] else [(a, b)]
  | (a', b') :: m, a, b =>
    if a < a' then (if b = 0 then (a', b') :: m else (a, b) :: (a', b') :: m)
    else if a = a' then (if b = 0 then m else (a, b) :: m)
    else (a', b') :: write m a b

/-- Write a byte string from an address up. -/
def writeBytes : Mem → Nat → List Byte → Mem
  | m, _, [] => m
  | m, a, b :: bs => writeBytes (write m a b) (a + 1) bs

/-- Read `n` bytes from an address up. -/
def readBytes (m : Mem) : Nat → Nat → List Byte
  | _, 0 => []
  | a, n + 1 => read m a :: readBytes m (a + 1) n

/-- The little-endian number in `n` bytes at an address. -/
def readLe (m : Mem) (a n : Nat) : Nat := leNat (readBytes m a n)

/-- Store a number as `n` little-endian bytes at an address. -/
def writeLe (m : Mem) (a n x : Nat) : Mem := writeBytes m a (leBytes n x)

/-- Write zero to the bytes of [lo, hi): the entries there go. -/
def zeroRange (m : Mem) (lo hi : Nat) : Mem := m.filter (fun e => decide (e.1 < lo) || decide (hi ≤ e.1))

/-- Every entry lies above `lo` and holds a non-zero byte, addresses strictly rising. -/
def wfFrom : Nat → Mem → Bool
  | _, [] => true
  | lo, (a, b) :: m => decide (lo ≤ a) && decide (b ≠ 0) && wfFrom (a + 1) m

/-- The canonical form: addresses strictly rising, no entry equal to what an unlisted address reads as. -/
def wf (m : Mem) : Bool := wfFrom 0 m

end Mem

/-- Insert into an ordered list. -/
def insertBy {α : Type} (before : α → α → Bool) (x : α) : List α → List α
  | [] => [x]
  | y :: ys => if before x y then x :: y :: ys else y :: insertBy before x ys

/-- Order a list. -/
def orderBy {α : Type} (before : α → α → Bool) (l : List α) : List α := l.foldl (fun acc x => insertBy before x acc) []

end Sys2Proof
end

