-- ==== Sys2Proof/Machine/Crypto.lean ====
section
/-!
DEFINITION. The functions of the standards that chapter 14 names and whose outputs the block writes: SHA-384 (FIPS 180-4), AES-256 (FIPS 197),
AES-256 key wrap (RFC 3394) and the multiplication of GHASH (SP 800-38D). The spec names the standards and does not print them: the texts of the
standards are PRESUMED here (assumption 62). Signatures stay constants of Config.lean.
-/

namespace Sys2Proof.Machine

/-! ### SHA-384 -/

/-- The round constants of SHA-512. -/
def shaK : List Word64 :=
  [0x428a2f98d728ae22, 0x7137449123ef65cd, 0xb5c0fbcfec4d3b2f, 0xe9b5dba58189dbbc,
   0x3956c25bf348b538, 0x59f111f1b605d019, 0x923f82a4af194f9b, 0xab1c5ed5da6d8118] ++
  [0xd807aa98a3030242, 0x12835b0145706fbe, 0x243185be4ee4b28c, 0x550c7dc3d5ffb4e2,
   0x72be5d74f27b896f, 0x80deb1fe3b1696b1, 0x9bdc06a725c71235, 0xc19bf174cf692694] ++
  [0xe49b69c19ef14ad2, 0xefbe4786384f25e3, 0x0fc19dc68b8cd5b5, 0x240ca1cc77ac9c65,
   0x2de92c6f592b0275, 0x4a7484aa6ea6e483, 0x5cb0a9dcbd41fbd4, 0x76f988da831153b5] ++
  [0x983e5152ee66dfab, 0xa831c66d2db43210, 0xb00327c898fb213f, 0xbf597fc7beef0ee4,
   0xc6e00bf33da88fc2, 0xd5a79147930aa725, 0x06ca6351e003826f, 0x142929670a0e6e70] ++
  [0x27b70a8546d22ffc, 0x2e1b21385c26c926, 0x4d2c6dfc5ac42aed, 0x53380d139d95b3df,
   0x650a73548baf63de, 0x766a0abb3c77b2a8, 0x81c2c92e47edaee6, 0x92722c851482353b] ++
  [0xa2bfe8a14cf10364, 0xa81a664bbc423001, 0xc24b8b70d0f89791, 0xc76c51a30654be30,
   0xd192e819d6ef5218, 0xd69906245565a910, 0xf40e35855771202a, 0x106aa07032bbd1b8] ++
  [0x19a4c116b8d2d0c8, 0x1e376c085141ab53, 0x2748774cdf8eeb99, 0x34b0bcb5e19b48a8,
   0x391c0cb3c5c95a63, 0x4ed8aa4ae3418acb, 0x5b9cca4f7763e373, 0x682e6ff3d6b2b8a3] ++
  [0x748f82ee5defb2fc, 0x78a5636f43172f60, 0x84c87814a1f0ab72, 0x8cc702081a6439ec,
   0x90befffa23631e28, 0xa4506cebde82bde9, 0xbef9a3f7b2c67915, 0xc67178f2e372532b] ++
  [0xca273eceea26619c, 0xd186b8c721c0c207, 0xeada7dd6cde0eb1e, 0xf57d4f7fee6ed178,
   0x06f067aa72176fba, 0x0a637dc5a2c898a6, 0x113f9804bef90dae, 0x1b710b35131c471b] ++
  [0x28db77f523047d84, 0x32caab7b40c72493, 0x3c9ebe0a15c9bebc, 0x431d67c49c100d4c,
   0x4cc5d4becb3e42b6, 0x597f299cfc657e2a, 0x5fcb6fab3ad6faec, 0x6c44198c4a475817]

/-- The eight working words. -/
structure ShaWords where
  a : Word64
  b : Word64
  c : Word64
  d : Word64
  e : Word64
  f : Word64
  g : Word64
  h : Word64
  deriving DecidableEq, Repr

/-- The starting words of SHA-384. -/
def ShaWords.start : ShaWords :=
  { a := 0xcbbb9d5dc1059ed8, b := 0x629a292a367cd507, c := 0x9159015a3070dd17, d := 0x152fecd8f70e5939,
    e := 0x67332667ffc00b31, f := 0x8eb44a8768581511, g := 0xdb0c2e0d64f98fa7, h := 0x47b5481dbefa4fa4 }

/-- One round: the constant and the message word enter as their sum. -/
def ShaWords.round (s : ShaWords) (kw : Word64) : ShaWords :=
  let s1 := s.e.rotateRight 14 ^^^ s.e.rotateRight 18 ^^^ s.e.rotateRight 41
  let ch := (s.e &&& s.f) ^^^ (~~~s.e &&& s.g)
  let t1 := s.h + s1 + ch + kw
  let s0 := s.a.rotateRight 28 ^^^ s.a.rotateRight 34 ^^^ s.a.rotateRight 39
  let maj := (s.a &&& s.b) ^^^ (s.a &&& s.c) ^^^ (s.b &&& s.c)
  { a := t1 + (s0 + maj), b := s.a, c := s.b, d := s.c, e := s.d + t1, f := s.e, g := s.f, h := s.g }

def ShaWords.plus (s t : ShaWords) : ShaWords :=
  { a := s.a + t.a, b := s.b + t.b, c := s.c + t.c, d := s.d + t.d, e := s.e + t.e, f := s.f + t.f, g := s.g + t.g, h := s.h + t.h }

/-- The rounds of one block, over the constants: the list holds the next 16 words of the message schedule, the next one first. -/
def shaRounds : List Word64 → List Word64 → ShaWords → ShaWords
  | [], _, s => s
  | _, [], s => s
  | k :: ks, w :: ws, s =>
    let x := ws.getD 0 0
    let y := ws.getD 13 0
    let x := x.rotateRight 1 ^^^ x.rotateRight 8 ^^^ (x >>> 7)
    let y := y.rotateRight 19 ^^^ y.rotateRight 61 ^^^ (y >>> 6)
    shaRounds ks (ws ++ [w + x + ws.getD 8 0 + y]) (s.round (k + w))

def shaBlock (s : ShaWords) (bs : List Byte) : ShaWords :=
  s.plus (shaRounds shaK ((List.range 16).map (fun i => BitVec.ofNat 64 (leNat (sliceBytes bs (8 * i) 8).reverse))) s)

def shaBlocks : Nat → List Byte → ShaWords → ShaWords
  | 0, _, s => s
  | n + 1, bs, s => shaBlocks n (bs.drop 128) (shaBlock s (bs.take 128))

/-- SHA-384: the message, a one bit, zeros to 16 bytes short of a block, and its length in bits. -/
def sha384 (m : List Byte) : BitVec 384 :=
  let p := m ++ 0x80#8 :: List.replicate ((111 + 127 * m.length) % 128) 0#8 ++ beBytes 16 (8 * m.length)
  let s := shaBlocks (p.length / 128) p ShaWords.start
  s.a ++ s.b ++ s.c ++ s.d ++ s.e ++ s.f

/-! ### AES-256 -/

/-- Multiplication by x, and by a byte, in GF(2^8). -/
def gfDouble (b : Byte) : Byte := (b <<< 1) ^^^ (if b.msb = true then 0x1B else 0)

def gfMul (a b : Byte) : Byte :=
  ((List.range 8).foldl (fun (s : Byte × Byte) i => (if b.getLsbD i = true then s.1 ^^^ s.2 else s.1, gfDouble s.2)) (0, a)).1

/-- The inverse in GF(2^8), zero for zero: the 254th power. -/
def gfInv (a : Byte) : Byte :=
  ((List.range 7).foldl (fun (s : Byte × Byte) _ => let q := gfMul s.2 s.2; (gfMul s.1 q, q)) (1, a)).1

def aesSub (b : Byte) : Byte :=
  let x := gfInv b
  x ^^^ x.rotateLeft 1 ^^^ x.rotateLeft 2 ^^^ x.rotateLeft 3 ^^^ x.rotateLeft 4 ^^^ 0x63

def aesUnsub (b : Byte) : Byte :=
  gfInv (b.rotateLeft 1 ^^^ b.rotateLeft 3 ^^^ b.rotateLeft 6 ^^^ 0x05)

def xorBytes (a b : List Byte) : List Byte := List.zipWith (fun x y => x ^^^ y) a b

/-- The key schedule after its first eight words: the newest word first. -/
def aesExpand : Nat → Nat → List (List Byte) → List (List Byte)
  | 0, _, l => l
  | n + 1, i, l =>
    let t := l.getD 0 []
    let t := if i % 8 = 0 then xorBytes ((t.drop 1 ++ t.take 1).map aesSub) [BitVec.ofNat 8 (2 ^ (i / 8 - 1)), 0, 0, 0]
      else if i % 8 = 4 then t.map aesSub else t
    aesExpand n (i + 1) (xorBytes (l.getD 7 []) t :: l)

/-- The fifteen round keys. -/
def aesKeys (key : List Byte) : List (List Byte) :=
  let ws := (aesExpand 52 8 (((List.range 8).map (fun i => sliceBytes key (4 * i) 4)).reverse)).reverse
  (List.range 15).map (fun i => ws.getD (4 * i) [] ++ ws.getD (4 * i + 1) [] ++ ws.getD (4 * i + 2) [] ++ ws.getD (4 * i + 3) [])

/-- Row `r` of the state moves left by `r` columns, or by `3 r` to undo that. -/
def aesShift (k : Nat) (s : List Byte) : List Byte :=
  (List.range 16).map (fun i => s.getD (i % 4 + 4 * ((i / 4 + k * (i % 4)) % 4)) 0)

/-- Each column times the circulant of four coefficients. -/
def aesMix (m : List Byte) (s : List Byte) : List Byte :=
  (List.range 16).map (fun i => (List.range 4).foldl (fun x j =>
    x ^^^ gfMul (m.getD ((j + 4 - i % 4) % 4) 0) (s.getD (4 * (i / 4) + j) 0)) 0)

/-- One block of AES-256 under a 32-byte key. -/
def aesBlock (key block : List Byte) : List Byte :=
  let ks := aesKeys key
  let s := (List.range 13).foldl (fun s i => xorBytes (aesMix [2, 3, 1, 1] (aesShift 1 (s.map aesSub))) (ks.getD (i + 1) []))
    (xorBytes block (ks.getD 0 []))
  xorBytes (aesShift 1 (s.map aesSub)) (ks.getD 14 [])

/-- The inverse of `aesBlock`. -/
def aesUnblock (key block : List Byte) : List Byte :=
  let ks := aesKeys key
  let s := (List.range 13).foldl (fun s i => aesMix [14, 11, 13, 9] (xorBytes ((aesShift 3 s).map aesUnsub) (ks.getD (13 - i) [])))
    (xorBytes block (ks.getD 14 []))
  xorBytes ((aesShift 3 s).map aesUnsub) (ks.getD 0 [])

/-! ### AES-256 key wrap -/

def wrapMark : List Byte := List.replicate 8 0xA6#8

/-- Wrap of whole 8-byte blocks: eight bytes more than the input. -/
def aesWrap (key plain : List Byte) : List Byte :=
  let n := plain.length / 8
  let s := (List.range (6 * n)).foldl (fun (s : List Byte × List Byte) t =>
    let i := t % n
    let b := aesBlock key (s.1 ++ sliceBytes s.2 (8 * i) 8)
    (xorBytes (b.take 8) (beBytes 8 (t + 1)), s.2.take (8 * i) ++ b.drop 8 ++ s.2.drop (8 * i + 8))) (wrapMark, plain)
  s.1 ++ s.2

/-- Unwrap: none where the integrity check fails. -/
def aesUnwrap (key wrapped : List Byte) : Option (List Byte) :=
  let n := wrapped.length / 8 - 1
  let s := (List.range (6 * n)).foldl (fun (s : List Byte × List Byte) k =>
    let t := 6 * n - 1 - k
    let i := t % n
    let b := aesUnblock key (xorBytes s.1 (beBytes 8 (t + 1)) ++ sliceBytes s.2 (8 * i) 8)
    (b.take 8, s.2.take (8 * i) ++ b.drop 8 ++ s.2.drop (8 * i + 8))) (wrapped.take 8, wrapped.drop 8)
  if wrapped.length % 8 = 0 ∧ 2 ≤ n ∧ s.1 = wrapMark then some s.2 else none

/-! ### GHASH -/

/-- Multiplication in GF(2^128) with the bit order of GHASH. -/
def ghashMul (x y : BitVec 128) : BitVec 128 :=
  ((List.range 128).foldl (fun (s : BitVec 128 × BitVec 128) i =>
    (if x.getMsbD i = true then s.1 ^^^ s.2 else s.1,
      (s.2 >>> 1) ^^^ (if s.2.getLsbD 0 = true then BitVec.ofNat 128 (0xE1 * 2 ^ 120) else 0))) (0, y)).1

end Sys2Proof.Machine
end

