-- ==== Sys2Proof/Config.lean ====
section
/-!
DEFINITION. What the spec leaves to the implementation, and the free values: constants with no body, so that every
statement holds for every value they may have (NOTES.md, Assumptions). The signatures of chapter 14 stand here as well: the
spec names their standards, their keys are the module's own, and no statement rests on their values.
-/

namespace Sys2Proof.Config

/-- A free value: the spec states an effect and not this value. The argument is the counter `Chip.freeCtr`, which each use
advances, so no two uses are tied to each other. -/
opaque freeWord : Nat → Word64

/-- The servo's filtered offset, in units of 2^-16 ns, from the measured offset and the one before (R46: the filter is not
stated). -/
opaque servoFilter : Int → Int → Int

/-- Ed25519 verification of a signature by a public key over a message. -/
opaque edVerify : List Byte → List Byte → List Byte → Bool
/-- ML-DSA-65 verification of a signature by a public key over a message. -/
opaque mlVerify : List Byte → List Byte → List Byte → Bool
/-- Ed25519 and ML-DSA-65 signatures by the module's identity keys. -/
opaque edSign : List Byte → List Byte
opaque mlSign : List Byte → List Byte
/-- Provisioned facts of a module: its public identity keys and chains (0 Ed25519, 1 ML-DSA-65), the maker root key pair whose digest the
boot ROM holds (R415), and the image a slot holds that no role has staged. -/
opaque identityKey : Nat → List Byte
opaque identityChain : Nat → List Byte
opaque makerRoot : Nat → List Byte
opaque provisionedHeader : Nat → List Byte
/-- SHA-384 of the boot ROM (R434). -/
opaque bootRomDigest : BitVec 384
/-- The sealing of secrets in the secure flash needs no value here; whether a provisioned slot verifies is provisioned. -/
opaque provisionedOk : Nat → Bool

/-- The module's enrolled MAC block (R323). -/
opaque macBlock : BitVec 48
/-- The EUI-64 that a module builds from its enrolled MAC block for its clock identities (R45 does not say how the 48 bits become 64). -/
opaque euiOf : BitVec 48 → Word64

/-- The fixed lane result of exp2 (8), log2 (9), reciprocal (10) and reciprocal square root (11) outside the special cases of
R100: function, BF16 lanes, input code, giving a code of the lane format. -/
opaque laneFn : Nat → Bool → Nat → Nat
/-- The FP32 code that an MX element widens to where FP32 does not hold its value (R73 says that it is widened, not to what): sign,
magnitude and exponent of two. -/
opaque mxWiden : Bool → Nat → Int → Nat
/-- The code that a position of an MX output block beyond the last output holds after the step (R97 rounds blocks of 32 outputs and does not
say), from the format and the code that stood there. -/
opaque mxPad : Nat → Nat → Nat
/-- Width of a patched operand's output map in positions (R117 states the top and left padding alone): input width, left
padding, kernel width, horizontal stride. -/
opaque patchOutWidth : Nat → Nat → Nat → Nat → Nat
/-- Elements of a gather's source or of a scatter's destination (R104; the operand words of R118 state no such count), from
the step's words. -/
opaque selectExtent : List Word64 → Nat
/-- A sort or merge step runs in descending order (R102 names both orders; R118 states no field for it). -/
opaque selectDescending : List Word64 → Bool
/-- The integer that a scatter-add adds into AP128 for a source value with bits below 2^(P - 96) (R104: not stated). -/
opaque apInexact : Bool → Nat → Int → Int

/-- ns that TCLK takes to fall to the floor after a droop trip; R481 bounds it by 3. -/
opaque droopFallNs : Nat
/-- The keeper core of a reach that runs its health service (R450: not named). -/
opaque healthCore : Fin 8
/-- Barges of SENDs that the RME of a reach has room to hold (R241: not stated as a figure). -/
opaque sendHold : Nat
/-- Index of the plan-reserved mooring over the scratchpad of a module tile that holds a signal word of a transposition, on the node of that
tile (R169; no field of R167 names it): plan identifier, tile. -/
opaque sigMooring : BitVec 64 → Nat → BitVec 15
/-- Which of the check lines that a channel's controller caches it evicts for another (R158 does not say), as a place in the list of them. -/
opaque checkVictim : List Nat → Nat
/-- Bank and row in which a channel's controller keeps a byte offset (R152: the controller's own): tier, device, channel,
offset. -/
opaque rowOf : Nat → Nat → Nat → Nat → BitVec 8 × BitVec 24

end Sys2Proof.Config
end

