-- ==== Sys2Proof/Machine/State/Rme.lean ====
section
/-!
DEFINITION. The state of one reach's remote-memory engine and of Falra Reliable Transport (chapters 07 and 08): queue
pairs with their transport and rate state, moorings, the reorder pool, flush reads and the registers.
-/

namespace Sys2Proof.Machine

/-- A physical run (R395): an address and a length in bytes. The address is a device physical address of the reach, or, with
`host`, where host memory of the function lies in the model's memory. -/
structure Run where
  host : Bool
  pa : Nat
  len : Nat
  deriving DecidableEq, Repr

/-- Queue-pair states (R198). -/
inductive QpState where
  | reset | init | ready | drain | frozen | error
  deriving DecidableEq, Repr

/-- Who submitted an operation that the RME has taken (R190, R195). `pos` is the entry's place in its chain; the engine itself
submits the sends, grants and aborts of collectives (R298, R299, R313) and the rows of transpositions (R169). -/
inductive Submitter where
  | tile (t : TileId) (step entry run : Nat)
  | ring (c : CmdRef) (pos : Nat)
  | keeper
  | coll (inv : Word64) (coll member : Nat)
  | xpos (plan : Word64) (desc src dst : Nat)
  deriving DecidableEq, Repr

/-- An operation taken and not retired (R197 to R217). -/
structure RmeOp where
  seq : Nat
  entry : WorkEntry
  by_ : Submitter
  runs : List Run
  /-- Bytes that follow those of the runs: the tail of a chunk (R299). -/
  tail : List Byte
  msn : Option (BitVec 24)
  /-- Bytes of a barge, packets of the operation in all, packets sent once. -/
  barge : Nat
  packets : Nat
  sent : Nat
  /-- PSN of the last packet sent, and the close of the window that carried it (R249). -/
  lastPsn : BitVec 24
  lastCarried : Option Time
  /-- The target's visibility acknowledgement has come (R217), or all of the answer of a READ or returning FETCH_ADD. -/
  remoteDone : Bool
  /-- Response bytes and packets that have landed on this side. -/
  respGot : Nat
  respPkts : Nat
  /-- Bytes written into host memory on this side await a flush read (R219). -/
  flushWait : Bool
  /-- Status the operation will complete with; none while it is running. -/
  status : Option (BitVec 8)
  rnrCount : Nat
  waitSince : Option Time
  /-- Time at which a no-receive or WAIT resend falls due. -/
  rnrDue : Option Time
  /-- Operations that a FLUSH of every queue pair waits for: queue pair and operation number (R213). -/
  flushOf : List (BitVec 24 × Nat)
  asidGen : BitVec 12
  deriving DecidableEq, Repr

/-- A packet sent and not yet acknowledged (R243). -/
structure OutPkt where
  psn : BitVec 24
  /-- The operation's number, or for response data the MSN it answers. -/
  op : Nat
  boff : Nat
  isResp : Bool
  sacked : Bool
  sentFast : Bool
  /-- It is to be sent again. -/
  resend : Bool
  /-- Close of the window that last carried a packet of the lock class (R249). -/
  carried : Option Time
  deriving DecidableEq, Repr

/-- A posted RECV (R211). -/
structure PostedRecv where
  seq : Nat
  entry : WorkEntry
  by_ : Submitter
  runs : List Run
  /-- A SEND has consumed it. -/
  taken : Bool
  status : Option (BitVec 8)
  rxLen : Nat
  asidGen : BitVec 12
  deriving DecidableEq, Repr

/-- A barge of a SEND held until the first barge of its SEND is in order (R241). -/
structure HeldBarge where
  psn : BitVec 24
  packet : FrtPacket
  deriving DecidableEq, Repr

/-- An operation arriving at this target (R206 to R212), by its MSN. -/
structure InOp where
  msn : BitVec 24
  ext : OpExt
  /-- It passed its checks and holds references on these moorings (R205). -/
  ok : Bool
  refs : List Nat
  /-- Payload bytes and packets that have landed. -/
  got : Nat
  pkts : Nat
  /-- Number of the RECV that a SEND has taken. -/
  recv : Option Nat
  /-- It wrote host memory and awaits a flush read (R219), or is a chunk that its collective has not yet used (R300). -/
  hostWait : Bool
  collWait : Bool
  visible : Bool
  txTime : Time
  src : Word16
  deriving DecidableEq, Repr

/-- Response data owed to the peer (R210, R212): the READ or FETCH_ADD it answers. -/
structure Resp where
  msn : BitVec 24
  ext : OpExt
  /-- For a FETCH_ADD, the prior value. -/
  prior : Option Word64
  tc : BitVec 3
  barge : Nat
  packets : Nat
  sent : Nat
  refs : List Nat
  deriving DecidableEq, Repr

/-- A queue-pair context (R196, R252) with what the RME holds beside it. -/
structure Qp where
  state : QpState
  plan : Bool
  owner : BitVec 2
  encap : Bool
  ciphEn : Bool
  pkey : Word16
  qpn : BitVec 24
  function : FnId
  peerNode : Word16
  peerQpn : BitVec 24
  asid : Word16
  fnGen : Word16
  cqRing : Word16
  maxRd : BitVec 4
  rnrRetry : BitVec 3
  rnrTimer : BitVec 8
  ciphCtx : Word16
  rqDepth : Word16
  sndNxt : BitVec 24
  sndUna : BitVec 24
  retries : BitVec 3
  rcvNxt : BitVec 24
  rcvMsn : BitVec 24
  roSlot : BitVec 13
  sndMsn : BitVec 24
  visAcked : BitVec 24
  visMsn : BitVec 24
  visSeen : Bool
  ackPend : BitVec 8
  failMsn : BitVec 24
  failCode : BitVec 8
  rate : BitVec 20
  credit : Int
  lastTx : Time
  qmax : Word32
  ackedPk : Word16
  ecnPk : Word16
  intStart : Time
  /-- Operations taken and not retired, in submission order, and the number of the next. -/
  ops : List RmeOp
  nextOp : Nat
  out : List OutPkt
  /-- Operations whose LAST barge is to be sent again, for want of the visibility acknowledgement (R244). -/
  again : List Nat
  /-- PSNs ahead of RCV_NXT that the reorder slot holds (R241). -/
  ahead : List (BitVec 24)
  held : List HeldBarge
  recvs : List PostedRecv
  inOps : List InOp
  resps : List Resp
  /-- State a drain ends in (R198). -/
  drainTo : QpState
  /-- Command that a QP_MODIFY to DRAIN or a QP_DESTROY completes. -/
  drainCmd : Option CmdRef
  destroying : Option CmdRef
  /-- Retransmission timer deadline and ACK_DELAY deadline. -/
  timer : Option Time
  ackDue : Option Time
  /-- QDELAY, PKTS and ECN_CNT of the packets the next ACK covers (R231, R239). -/
  rxQdelay : Word32
  rxPkts : BitVec 8
  rxEcn : BitVec 8
  /-- The failed operation of a context that is leaving for ERROR (R199). -/
  failed : Option Nat
  /-- The direction has sent an unplanned packet since READY (R245). -/
  started : Bool
  /-- Last packet of a maintenance context (R504). -/
  lastPkt : Time
  deriving DecidableEq, Repr

/-- A mooring entry (R203) with its runs and the references on it. -/
structure Mooring where
  valid : Bool
  space : BitVec 2
  plan : Bool
  rights : BitVec 4
  pkey : Word16
  tag : BitVec 15
  bindEn : Bool
  function : FnId
  base : Word64
  length : BitVec 48
  asid : Word16
  bindQpn : BitVec 24
  fnGen : Word16
  runs : List Run
  refs : Nat
  /-- Command of a withdraw that waits for the last reference (R205). -/
  withdraw : Option CmdRef
  /-- The index is taken: registered, or withdrawn with a reference left. -/
  inUse : Bool
  deriving DecidableEq, Repr

/-- An operation that waits for a flush read, named on the side that wrote the host memory (R219). -/
structure FlushItem where
  qpn : BitVec 24
  /-- A target-side operation by its MSN, or a requester's own by its number. -/
  target : Bool
  id : Nat
  deriving DecidableEq, Repr

/-- The remote-memory engine of one reach. -/
structure Rme where
  qps : Tab Qp
  moorings : Tab Mooring
  ctrl : Word64
  encap : Word64
  dscp : Word64
  rtx : Word64
  cc : Word64
  cc2 : Word64
  /-- Operations waiting for a flush read, the time the first finished posting, and those that outstanding reads cover, oldest read first. -/
  flushQ : List FlushItem
  flushSince : Option Time
  flushOut : List (List FlushItem)
  /-- Packets from router port 7 that have not been handled. -/
  inbox : List FrtPacket
  dropPkey : Nat
  dropCrc : Nat
  dropWindow : Nat
  dropSlot : Nat
  dropType : Nat
  dropTag : Nat
  dropHeld : Nat
  rejected : Nat
  /-- Last TX_TIME given to a packet: no two packets of one reach share one (R236). -/
  lastTxStamp : Time
  deriving DecidableEq, Repr

/-- FRT_ENCAP at reset (R253). -/
def frtEncapReset : Word64 := BitVec.ofNat 64 (0xBC52 + 5 * 2 ^ 18 + 7 * 2 ^ 24 + 64 * 2 ^ 32)
/-- FRT_DSCP at reset (R254). -/
def frtDscpReset : Word64 :=
  BitVec.ofNat 64 (8 * 2 ^ 6 + 16 * 2 ^ 12 + 24 * 2 ^ 18 + 32 * 2 ^ 24 + 40 * 2 ^ 30 + 48 * 2 ^ 42)
/-- FRT_RTX at reset (R255). -/
def frtRtxReset : Word64 := BitVec.ofNat 64 (20 + 3 * 2 ^ 16 + 8 * 2 ^ 24 + 2000 * 2 ^ 32)
/-- FRT_CC at reset (R256). -/
def frtCcReset : Word64 := BitVec.ofNat 64 (2000 + 2000 * 2 ^ 16 + 205 * 2 ^ 32 + 128 * 2 ^ 40 + 4000 * 2 ^ 48)
/-- FRT_CC2 at reset (R257). -/
def frtCc2Reset : Word64 := BitVec.ofNat 64 (100000 + 100 * 2 ^ 20 + 64 * 2 ^ 40 + 1000 * 2 ^ 52)
/-- RME_CTRL at reset (R222): FLUSH_WAIT 0, FLUSH_BATCH 64. -/
def rmeCtrlReset : Word64 := BitVec.ofNat 64 (64 * 2 ^ 16)

/-- The remote-memory engine after reset: no context, no mooring. -/
def Rme.reset : Rme :=
  { qps := [], moorings := [], ctrl := rmeCtrlReset, encap := frtEncapReset, dscp := frtDscpReset, rtx := frtRtxReset,
    cc := frtCcReset, cc2 := frtCc2Reset, flushQ := [], flushSince := none, flushOut := [],
    inbox := [], dropPkey := 0, dropCrc := 0, dropWindow := 0, dropSlot := 0, dropType := 0, dropTag := 0, dropHeld := 0, rejected := 0,
    lastTxStamp := 0 }

end Sys2Proof.Machine
end

