-- ==== Sys2Proof/Machine/State/Tile.lean ====
section
/-!
DEFINITION. The state of one tile (chapters 03 and 04): scratchpad, record table, program memory, sequencer, issue
queue, mover and digest slots.
-/

namespace Sys2Proof.Machine

/-- A step as it stands in program memory: its header word and its operand words (R114). -/
structure StepWords where
  hdr : Word64
  ops : List Word64
  deriving DecidableEq, Repr

/-- One program of a tile for one phase (R111), its steps taken out of the words. -/
structure Program where
  tile : Nat
  phase : Nat
  firstStep : Nat
  nwords : Nat
  iqBase : BitVec 11
  steps : List StepWords
  deriving DecidableEq, Repr

/-- An open digest slot (R143, R187). -/
structure DigestSlot where
  layer : Word16
  count : Word64
  sumA : Word64
  sumB : Word64
  xorC : Word64
  nan : Word32
  inf : Word32
  deriving DecidableEq, Repr

/-- A compute step that has started and not ended. -/
structure Running where
  step : Nat
  hdr : Word64
  unit : StepUnit
  readMask : BitVec 48
  writeMask : BitVec 48
  recReads : List Nat
  recWrites : List Nat
  /-- Ceilings to store when the step ends (R84): record index and exponent. -/
  ceils : List (Nat × Int)
  /-- The failure code the step met, if any (R109). -/
  fail : Option (BitVec 8)
  /-- Output blocks (64 × 64) in all and final so far (R140). -/
  blocks : Nat
  blocksFinal : Nat
  /-- Streaming: collective index, chunk bytes, chunks in all and those handed so far (R141). -/
  coll : Option Nat
  chunkBytes : Nat
  chunks : Nat
  /-- Scratchpad address of the output. -/
  base : Nat
  handed : List Nat
  /-- The shape of a MATRIX step's output: rows and columns of a member, bytes of a stored row, and whether a stored row is one of the M rows
  (TRANS 1) or one of the N columns (R116). -/
  rows : Nat
  cols : Nat
  rowBytes : Nat
  trans : Bool
  /-- What the step's outputs fold into the open layer digests once it ends (R143). -/
  folds : List DigestSlot
  started : Time
  deriving DecidableEq, Repr

/-- A queued move, in issue order (R131, R133). -/
structure MoveJob where
  step : Nat
  desc : List Word64
  /-- The physical runs of each memory row (R131). -/
  rows : List (List Run)
  readMask : BitVec 48
  writeMask : BitVec 48
  recReads : List Nat
  recWrites : List Nat
  started : Time
  ended : Bool
  failed : Bool
  deriving DecidableEq, Repr

/-- Entries of a REMOTE step still to be copied to the issue queue (R136). -/
structure IqCopy where
  step : Nat
  first : Nat
  count : Nat
  next : Nat
  win : Option Word16
  /-- The run of the step that these entries belong to (R127). -/
  run : Nat
  started : Time
  deriving DecidableEq, Repr

/-- A sequencer-run step that waits (R128, R129, R143, R144). -/
structure SeqWait where
  step : Nat
  since : Time
  deadline : Time
  deriving DecidableEq, Repr

/-- Bank masks and record sets of a step, as the plan service computes them (R121). -/
structure Hold where
  readMask : BitVec 48
  writeMask : BitVec 48
  recReads : List Nat
  recWrites : List Nat
  deriving DecidableEq, Repr

/-- One tile. -/
structure Tile where
  spad : Mem
  /-- Record table: 1,024 records of 128 bits, an unlisted one zero. -/
  recs : Tab (BitVec 128)
  aflags : Word32
  plan : Option Word64
  progs : List Program
  /-- The masks and record sets of the steps, computed at plan load (R121). -/
  masks : Tab Hold
  /-- SEQ_STATUS: STATE, FAIL_CODE, STEP, PHASE (R146). -/
  seqState : BitVec 4
  failCode : BitVec 8
  step : Nat
  phase : BitVec 8
  /-- SEQ_IQ: BASE, TAIL, HEAD (R147), and whether the queue is full when they meet. -/
  iqBase : BitVec 11
  iqTail : BitVec 6
  iqHead : BitVec 6
  iqCount : Nat
  /-- Step, entry index and run of each queued entry, in queue order (R127, R139). -/
  iqTags : List (Nat × Nat × Nat)
  /-- Fabric time at which each of them became visible to the RME (R182). -/
  iqSeen : List Time
  digests : List DigestSlot
  lastDigest : Option DigestSlot
  running : List Running
  moves : List MoveJob
  copy : Option IqCopy
  wait : Option SeqWait
  /-- The boundary of the round the sequencer follows (R60). -/
  roundStart : Time
  /-- Failed steps to run again first on resume (R127). -/
  redo : List Nat
  /-- Entries of the latest run of each REMOTE step that completed with RME_OK: step and index (R127). -/
  remoteOk : List (Nat × Nat)
  /-- Runs that each REMOTE step has made; one after a failure is the same run again. -/
  remoteRuns : Tab Nat
  /-- The step whose failure stopped the sequencer, while STATE is 7 (R146). -/
  failStep : Nat
  phaseEnded : Bool
  /-- Round ends that the tile has made in its phase (R62, R144). -/
  passes : Nat
  /-- Steps started and not ended when a tile-array reset began (R127): the earliest. -/
  resumeAt : Option Nat
  /-- The scratchpad lines that hold an uncorrectable error (R159 class 5). -/
  spadUe : List Nat
  deriving DecidableEq, Repr

/-- A tile after reset (R113, R146, R147). -/
def Tile.reset : Tile :=
  { spad := [], recs := [], aflags := 0, plan := none, progs := [], masks := [], seqState := 0, failCode := 0, step := 0, phase := 0,
    iqBase := 0, iqTail := 0, iqHead := 0, iqCount := 0, iqTags := [], iqSeen := [], digests := [], lastDigest := none, running := [], moves := [],
    copy := none, wait := none, roundStart := 0, redo := [], remoteOk := [], remoteRuns := [], failStep := 0, phaseEnded := false, passes := 0, resumeAt := none,
    spadUe := [] }

end Sys2Proof.Machine
end

