-- ==== Sys2Proof/Machine/State/Plan.lean ====
section
/-!
DEFINITION. A passage plan as the plan service holds it (chapters 02, 05, 09 and 10): the sections of its container taken
out of the bytes, and the running state of the plan on one reach.
-/

namespace Sys2Proof.Machine

/-- The plan header (R58). -/
structure PlanHeader where
  magic : Nat
  fmt : Nat
  hdrLen : Nat
  detOnly : Bool
  planId : Word64
  totalLen : Nat
  log2L : Nat
  phases : Nat
  sections : Nat
  peers : Nat
  lockCycle : Time
  cycleBase : Time
  start : Time
  roundCycles : Nat
  pkey : Word16
  asid : Word16
  function : Nat
  floorMhz : Nat
  stopThresh : Nat
  collTimeout : Nat
  roundSeed : Word64
  digest : Nat
  deriving DecidableEq, Repr

/-- A directory entry (R59). -/
structure DirEntry where
  type : Nat
  fmt : Nat
  len : Nat
  off : Nat
  deriving DecidableEq, Repr

/-- A phase entry (R62). -/
structure PhaseEntry where
  fmt : Nat
  phase : Nat
  rounds : Nat
  schedFirst : Nat
  schedCount : Nat
  winFirst : Nat
  winCount : Nat
  xpos : Nat
  deriving DecidableEq, Repr

/-- A schedule entry (R63). -/
structure SchedEntry where
  fmt : Nat
  tile : Nat
  step : Nat
  startOff : Time
  freeboard : Nat
  budget : Nat
  winRef : Nat
  deriving DecidableEq, Repr

/-- A window entry (R64). -/
structure WindowEntry where
  fmt : Nat
  rport : Nat
  reach : Nat
  win : Nat
  openOff : Time
  length : Time
  tcMask : Nat
  deriving DecidableEq, Repr

/-- A reservation entry (R65). -/
structure ResvEntry where
  fmt : Nat
  kind : Nat
  reach : Nat
  first : Nat
  count : Nat
  firstPhase : Nat
  lastPhase : Nat
  deriving DecidableEq, Repr

/-- A planned-route entry (R269). -/
structure RouteEntry where
  fmt : Nat
  reach : Nat
  win : Nat
  dst : Nat
  outPort : Nat
  next : Nat
  deriving DecidableEq, Repr

/-- A placement entry (R155). -/
structure PlaceEntry where
  fmt : Nat
  tier : Nat
  reach : Nat
  mask : Nat
  tid : Nat
  vaddr : Nat
  bytes : Nat
  firstPhase : Nat
  lastPhase : Nat
  deriving DecidableEq, Repr

/-- A transposition descriptor (R167). -/
structure XposDesc where
  fmt : Nat
  cellBytes : Nat
  tid : Nat
  rows : Nat
  cols : Nat
  srcGr : Nat
  srcGc : Nat
  dstGr : Nat
  dstGc : Nat
  srcMap : Nat
  dstMap : Nat
  win : Nat
  tc : Nat
  deriving DecidableEq, Repr

/-- A block-map entry (R167). -/
structure BlockMap where
  peer : Nat
  sigTile : Nat
  sigAddr : Nat
  vaddr : Nat
  rowStride : Nat
  moorIdx : Nat
  thresh : Nat
  deriving DecidableEq, Repr

/-- A collective descriptor (R293). -/
structure CollDesc where
  fmt : Nat
  op : Nat
  wire : Nat
  alg : Nat
  coll : Nat
  log2G : Nat
  root : Nat
  memFirst : Nat
  edgeFirst : Nat
  edgeCount : Nat
  chunkKib : Nat
  win : Nat
  bytes : Nat
  tc : Nat
  slots : Nat
  phase : Nat
  freeboard : Nat
  threshStep : Nat
  deriving DecidableEq, Repr

/-- A member entry (R294). -/
structure CollMember where
  fmt : Nat
  peer : Nat
  tile : Nat
  slotFirst : Nat
  inAddr : Nat
  wAddr : Nat
  tailAddr : Nat
  stageMoor : Nat
  stageDepth : Nat
  stageAddr : Nat
  creditAddr : Nat
  creditMoor : Nat
  readyAddr : Nat
  doneAddr : Nat
  readyBase : Nat
  deriving DecidableEq, Repr

/-- An edge entry (R295). -/
structure CollEdge where
  from_ : Nat
  dest : Nat
  qpn : Nat
  deriving DecidableEq, Repr

/-- The sections of a container, taken out of its bytes (R57, R59). -/
structure Container where
  hdr : PlanHeader
  dir : List DirEntry
  phases : List PhaseEntry
  sched : List SchedEntry
  windows : List WindowEntry
  resv : List ResvEntry
  peers : List Word16
  progFmt : Nat
  progWords : Nat
  progs : List Program
  routeFmt : Nat
  routes : List RouteEntry
  collFmt : Nat
  colls : List CollDesc
  members : List CollMember
  edges : List CollEdge
  placeFmt : Nat
  places : List PlaceEntry
  runs : List (Nat × Nat)
  xpos : List XposDesc
  maps : List BlockMap
  deriving DecidableEq, Repr

/-- What a loaded plan is doing (R66 to R72): its arm frames are being gathered, its start is agreed, it runs, it is in a
stoppage. -/
inductive PlanPhase where
  | arming | agreed | running | stopped
  deriving DecidableEq, Repr

/-- Causes of a stoppage (R72). -/
inductive StopCause where
  | late | detour | time | fault | collective | driver
  deriving DecidableEq, Repr

/-- A physical run that a move's rows lie in, translated at load (R131). -/
structure PlanRun where
  tile : Nat
  step : Nat
  va : Nat
  pa : Nat
  len : Nat
  deriving DecidableEq, Repr

/-- A plan loaded on one reach. -/
structure PlanInst where
  con : Container
  st : PlanPhase
  /-- The command whose completion is owed: the PLAN_LOAD until the start is agreed, or a PLAN_RESUME (R66). -/
  cmd : Option CmdRef
  resuming : Bool
  armTime : Time
  arms : List ArmFrame
  start : Time
  /-- Current phase, round of the phase, and the boundary at which the round began. -/
  phase : Nat
  round : Nat
  roundStart : Time
  /-- It has started once; its last phase has ended (R62). -/
  begun : Bool
  phaseOver : Bool
  cause : Option StopCause
  /-- Physical runs pinned for moves (R131). -/
  runs : List PlanRun
  asidGen : BitVec 12
  handle : Word64
  deriving DecidableEq, Repr

/-- The lock-cycle boundary that every unit of the reach follows (R60, R343): length, base, current boundary and count. -/
structure LockClock where
  cycle : Time
  base : Time
  roundCycles : Nat
  boundary : Time
  count : Int
  deriving DecidableEq, Repr

/-- The plan service of one reach. -/
structure PlanService where
  ctrl : Word64
  plans : List PlanInst
  clock : Option LockClock
  /-- Arm frames of peers for plans that this reach has not armed: the newest of each node and plan (R70). -/
  early : List ArmFrame
  deriving DecidableEq, Repr

/-- PLAN_CTRL at reset: ARM_MARGIN 200 (R69); no plan loaded. -/
def PlanService.reset : PlanService := { ctrl := 200, plans := [], clock := none, early := [] }

end Sys2Proof.Machine
end

