-- ==== Sys2Proof/Machine/State/Coll.lean ====
section
/-!
DEFINITION. The state of one reach's collectives and of its wharf (chapter 10).
-/

namespace Sys2Proof.Machine

/-- One invocation of a collective at one member that this node hosts (R297). -/
structure CollInv where
  /-- Handle of the plan, or none for an unplanned invocation; `key` is that handle or the COLL_START's. -/
  plan : Option Word64
  key : Word64
  desc : CollDesc
  /-- The G member entries in member order, the node that hosts each, and the edges of the descriptor. -/
  members : List CollMember
  hosts : List Word16
  edges : List CollEdge
  member : Nat
  round : Nat
  /-- The latest round of its phase that the plan has come to (R297). -/
  last : Nat
  /-- ROUND of the chunk tails of the other members of an unplanned exchange, once a chunk of each has come (R309). -/
  rounds : Tab Nat
  /-- ROUND of its chunk tails (R292). -/
  serial : Word32
  cmd : Option CmdRef
  /-- Items of the receive list granted, chunks that stand in staging entries with the operation that brought each (queue pair
  and MSN; none for a member of the same node), and items done (R298, R300). -/
  granted : Nat
  landed : List (Nat × Option (BitVec 24 × BitVec 24))
  done : List Nat
  /-- Chunks sent to each receiving member. -/
  sent : Tab Nat
  /-- Grants used on each edge slot, over all invocations (R298), and the abort word's used count (R313). -/
  used : Tab Nat
  abortUsed : Nat
  doneAdded : Bool
  /-- The member is ready and its own part is in W (R289, R297). -/
  ready : Bool
  code : Option (BitVec 8)
  rmeCode : BitVec 8
  /-- Members still to be told of the failure (R313). -/
  abortLeft : List Nat
  /-- First slot of the group it holds; whether it has claimed, and whether it fell back to the endpoint (R304, R306). -/
  slot : Option Nat
  claimed : Bool
  fallback : Bool
  /-- The claim of an unplanned one: when it was made, its tag and its requester number (R304). -/
  claim : Option (Time × Time × Nat)
  lastProgress : Time
  /-- Chunks a streaming step has handed over, and where its output stands (R302). -/
  streamed : List Nat
  streaming : Bool
  streamBase : Nat
  finished : Bool
  deriving DecidableEq, Repr

/-- Collectives of one reach. -/
structure Coll where
  ctrl : Word64
  wharfOk : Bool
  testFail : Bool
  tests : Word32
  invs : List CollInv
  /-- Slots reserved by loaded plans or held by unplanned invocations (R318). -/
  held : Word64
  /-- Slots a waiting PLAN_LOAD keeps from new unplanned claims (R305). -/
  waiting : Word64
  endpointOk : Bool
  /-- Reduction memory of the router: slot s is bytes s × 128 KiB up (R303). -/
  wharf : Mem
  /-- Recovery testing is owed (R310), and the time of the last COLL_CRC. -/
  recover : Bool
  lastCrc : Option Time
  deriving DecidableEq, Repr

/-- COLL_CTRL at reset: UNPL_TIMEOUT 2,000, WHARF_EN 1 (R317). -/
def collCtrlReset : Word64 := BitVec.ofNat 64 (2000 + 2 ^ 32)

/-- Collectives after reset (R317, R318). -/
def Coll.reset : Coll :=
  { ctrl := collCtrlReset, wharfOk := true, testFail := false, tests := 0, invs := [], held := 0, waiting := 0,
    endpointOk := true, wharf := [], recover := false, lastCrc := none }

end Sys2Proof.Machine
end

