-- ==== Sys2Proof/Machine/State/Fault.lean ====
section
/-!
DEFINITION. The state of one reach's self-test and health service (chapter 15), trace unit (chapter 16) and power and
clocks (chapter 17).
-/

namespace Sys2Proof.Machine

/-- A failure entry of a self-test record (table "Self-test failure entry"). -/
structure TestFail where
  block : BitVec 8
  inst : BitVec 8
  sub : BitVec 8
  element : BitVec 4
  disposition : BitVec 4
  addr : BitVec 48
  bit : Word16
  deriving DecidableEq, Repr

/-- A self-test result record (R461). -/
structure TestRecord where
  valid : Bool
  kind : BitVec 2
  outcome : BitVec 2
  cause : BitVec 8
  lsvn : Word32
  timeStart : Time
  timeEnd : Time
  cover : Word32
  hbmFirst : BitVec 5
  hbmCount : BitVec 5
  lpFirst : BitVec 6
  lpCount : BitVec 7
  fails : Word16
  repaired : Word16
  retired : Word16
  entries : List TestFail
  deriving DecidableEq, Repr

/-- What a reach is doing (R456, R497, R501): in reach reset, starting, under test, in service, held in the isolated safe
state. -/
inductive ReachService where
  | inReset | starting | testing | inService | held
  deriving DecidableEq, Repr

/-- Self-test and health service of one reach. -/
structure Bist where
  svc : Word64
  ctrl : Word64
  lastOutcome : BitVec 2
  lastKind : BitVec 2
  running : Bool
  hbmNext : BitVec 4
  lpNext : BitVec 6
  fails : Word16
  /-- The result record in the secure flash (R461). -/
  record : Option TestRecord
  /-- A test is in hand: its kind and its time at step 1 (R457, R458), and whether it waits for its window. -/
  waitSince : Option Time
  kind : BitVec 2
  /-- Last watchdog expiry of each keeper core (R450). -/
  expiry : Tab Time
  /-- Fabric time of the last passed in-service test: tiles 0 to 63, wharf adders 64, endpoint adder 65 (R452 to R454). -/
  lastPass : Tab Time
  /-- Fabric time at which the reach came into service: what a part that has passed no test yet counts from. -/
  inSince : Time
  /-- Parts whose overdue record has been posted since they last passed (R454). -/
  overdue : List Nat
  /-- End of the adder burst that runs on the wharf, on the endpoint adder, and bursts passed in the running period (R453). -/
  burstWharf : Option Time
  burstEnd : Option Time
  burstsWharf : Nat
  burstsEnd : Nat
  /-- Sequence number of the next health record, and the units that posted a corrected-error record with its time. -/
  healthSeq : Word16
  posted : List (Nat × Time)
  deriving DecidableEq, Repr

/-- BIST_SVC at reset (R455): SVC_EN 1, PERIOD_S 60, TILE_US 1,000, BURST_US 2. -/
def bistSvcReset : Word64 := BitVec.ofNat 64 (1 + 60 * 2 ^ 8 + 1000 * 2 ^ 16 + 2 * 2 ^ 32)
/-- BIST_CTRL at reset (R463): SHUT_EN 1, PPR_EN 1, HBM_16THS 1, WAIT_S 5. -/
def bistCtrlReset : Word64 := BitVec.ofNat 64 (1 + 4 + 2 ^ 8 + 5 * 2 ^ 32)

/-- Self-test after module reset (R455, R463); no record is stored. -/
def Bist.reset : Bist :=
  { svc := bistSvcReset, ctrl := bistCtrlReset, lastOutcome := 3, lastKind := 0, running := false, hbmNext := 0,
    lpNext := 0, fails := 0, record := none, waitSince := none, kind := 0, expiry := [], lastPass := [], inSince := 0, overdue := [],
    burstWharf := none, burstEnd := none, burstsWharf := 0, burstsEnd := 0, healthSeq := 0, posted := [] }

/-- A trace record (R469). -/
structure TraceRec where
  kind : BitVec 4
  reach : ReachId
  src : BitVec 7
  function : BitVec 8
  seq : Word32
  time : Time
  p0 : Word64
  p1 : Word64
  deriving DecidableEq, Repr

/-- The trace unit of one reach (R469 to R475). -/
structure Trace where
  tileMask : Word64
  /-- Records in the share, oldest first. -/
  store : List TraceRec
  seq : Word32
  dropped : Nat
  firstDrop : Time
  /-- Records of the post-trigger space still free; none before a trigger. -/
  postLeft : Option Nat
  frozen : Bool
  /-- Stall mode: the start of the episode, the function of its first held source, and the records that wait for room, each with the
  source it holds: a tile's number, or a submitter's key (`Submitter.holdKey`). -/
  stallSince : Option Time
  stallFn : BitVec 8
  waiting : List (TraceRec × Option Nat)
  frameNo : Word32
  made : Nat
  droppedAll : Nat
  stalls : Nat
  stallNs : Nat
  deriving DecidableEq, Repr

/-- Nothing traced. -/
def Trace.reset : Trace :=
  { tileMask := 0, store := [], seq := 0, dropped := 0, firstDrop := 0, postLeft := none, frozen := false,
    stallSince := none, stallFn := 0xFF, waiting := [], frameNo := 0, made := 0, droppedAll := 0, stalls := 0,
    stallNs := 0 }

/-- Power and clocks of one reach (R481 to R496). -/
structure Power where
  /-- PWR_CLK as written, and the spread in force since the last reach reset (R493). -/
  clk : Word64
  clkActive : Word64
  capTarget : Nat
  thermTarget : Nat
  /-- The droop sensor is tripped; the linear rise began at. -/
  tripped : Bool
  riseStart : Option Time
  /-- Start of the part of a stretch that the two gauges do not count yet; stretch in units of 2^-16 ns, and its cycles in units of
  MHz × 2^-16 ns; droop trips (R465). -/
  stretchSince : Time
  stretchTime : Nat
  stretchCycles : Nat
  trips : Nat
  dieMax : BitVec 8
  memMax : BitVec 8
  /-- How many rails of the sequencer's order stand at their set points: each starts when the one before it stands (R477). -/
  rails : Fin 8
  /-- Time spent capped, thermally throttled and at the floor, in ticks of 100 µs (R496). -/
  capped : Nat
  throttled : Nat
  atFloor : Nat
  /-- Hottest reading of each sensor: 16 die, 2 stacks, 6 packages; rail currents as last measured. -/
  tops : Tab Nat
  amps : List Word32
  /-- Thermal alerts in force: die, stacks, packages (R485). -/
  hotDie : Bool
  hotHbm : Bool
  hotLp : Bool
  deriving DecidableEq, Repr

/-- RAILS_OK: all seven rails in regulation (R494). -/
def Power.railsOk (p : Power) : Bool := p.rails == 7

/-- Power after module reset (R493, R494): targets at 3,600 MHz, rails not yet in regulation. -/
def Power.reset : Power :=
  { clk := 7, clkActive := 7, capTarget := 3600, thermTarget := 3600, tripped := false, riseStart := none,
    stretchSince := 0, stretchTime := 0, stretchCycles := 0, trips := 0, dieMax := 0, memMax := 0, rails := 0,
    capped := 0, throttled := 0, atFloor := 0, tops := [], amps := [], hotDie := false, hotHbm := false, hotLp := false }

end Sys2Proof.Machine
end

