-- ==== Sys2Proof/Machine/State/Mac.lean ====
section
/-!
DEFINITION. The state of one port's MAC, receive filters, pause, shaping and lock gates (chapter 11), and of its lanes
(chapters 17 and 19).
-/

namespace Sys2Proof.Machine

/-- A receive filter entry (R332). -/
structure FilterEntry where
  fmt : BitVec 4
  valid : Bool
  mVid : Bool
  mUntag : Bool
  mEtype : Bool
  mUdp : Bool
  mPkey : Bool
  action : BitVec 2
  queue : BitVec 4
  vid : BitVec 12
  etype : Word16
  udp : Word16
  pkey : Word16
  pkeyMask : Word16
  deriving DecidableEq, Repr

/-- A gate-list entry (R342). -/
structure GateEntry where
  gates : BitVec 8
  win : Word16
  interval : Nat
  deriving DecidableEq, Repr

/-- A sluice (R340): its configuration and its tokens in units of 2^-16 ÷ 8,000 byte, as of `at_`. -/
structure Sluice where
  cfg : Word64
  tokens : Int
  at_ : Time
  deriving DecidableEq, Repr

/-- Pause of one class (R334, R335). -/
structure PauseClass where
  until_ : Option Time
  since : Option Time
  hold : Option Time
  deriving DecidableEq, Repr

/-- A frame in an egress queue (R338). -/
structure EgressFrame where
  body : FrameBody
  len : Nat
  ingress : Nat
  /-- Tenancy queue of a TC0 to TC5 frame (R339); its ingress queue, whose room it holds (R331). -/
  tenancy : Nat
  inQueue : Nat
  vid : Option (BitVec 12)
  deriving DecidableEq, Repr

/-- One egress queue: class, and tenancy queue for TC0 to TC5 or WIN for TC6. -/
structure EgressQueue where
  tc : Nat
  sub : Nat
  frames : List EgressFrame
  deriving DecidableEq, Repr

/-- One port 0 to 6. -/
structure Mac where
  /-- MAC_PORT's writable fields; the trained rate and UP (R321). -/
  port : Word64
  curRate : BitVec 2
  up : Bool
  level : Nat
  underruns : Word32
  filters : Tab FilterEntry
  /-- Entry 63 has been written by the installer (R333). -/
  filter63 : Bool
  filterDrops : Tab Nat
  ingress : Tab Nat
  pauseReg : Word64
  pause : Tab PauseClass
  /-- PFC sent with 0xFFFF for a class: time of the last such frame (R337). -/
  pfcSent : Tab Time
  queues : List EgressQueue
  sluices : Tab Sluice
  /-- Deficit round robin: class in service, whether it has had this turn's quantum, deficits, last tenancy queue served of each class
  (R341). -/
  drrClass : Nat
  drrGot : Bool
  deficit : Tab Int
  lastQ : Tab Nat
  bank0 : List GateEntry
  bank1 : List GateEntry
  gateEn : Bool
  gateActive : BitVec 1
  switchAt : Option Time
  overruns : Word32
  /-- End of the frame and gap on the wire (R345). -/
  busyUntil : Time
  /-- End of the gate run that the frame on the wire was started in, and bytes sent in the present TC6 run (R346, R347). -/
  busyRun : Option Time
  runBytes : Nat
  /-- Fabric time of the last close of a TC6 run, which counts once (R346). -/
  closedAt : Option Time
  stomped : Nat
  fcsErr : Nat
  addrDrop : Nat
  sizeDrop : Nat
  roomDrop : Nat
  ipDrop : Nat
  macCtl : Nat
  /-- Frames ended with an inverted FCS, by cause: 0 underrun, 1 the ingress copy's FCS, 2 its port DOWN, 3 its length (R325). -/
  endedInv : Tab Nat
  wdEvents : Nat
  uncorr : Nat
  /-- Uncorrectable codewords of the running 1 ms (R324). -/
  uncorrTimes : List Time
  deriving DecidableEq, Repr

/-- MAC_PORT's writable fields at reset: EN 1, ADV 0xF (R321). -/
def macPortReset : Word64 := BitVec.ofNat 64 (1 + 15 * 2 ^ 4)
/-- MAC_PAUSE at reset: WD_NS 10,000, WD_HOLD 100, XOFF 1,024, XON 768 (R337). -/
def macPauseReset : Word64 := BitVec.ofNat 64 (10000 + 100 * 2 ^ 16 + 1024 * 2 ^ 32 + 768 * 2 ^ 43)
/-- SHP_SLUICE at reset: BURST 36, WEIGHT 1 (R341). -/
def sluiceCfgReset : Word64 := BitVec.ofNat 64 (36 * 2 ^ 24 + 2 ^ 40)

/-- A sluice after reset: unlimited, tokens zero (R340). -/
def Sluice.reset : Sluice := { cfg := sluiceCfgReset, tokens := 0, at_ := 0 }
/-- A class that nothing pauses. -/
def PauseClass.reset : PauseClass := { until_ := none, since := none, hold := none }

/-- A filter entry that is not VALID. -/
def FilterEntry.blank : FilterEntry :=
  { fmt := 1, valid := false, mVid := false, mUntag := false, mEtype := false, mUdp := false, mPkey := false, action := 0,
    queue := 0, vid := 0, etype := 0, udp := 0, pkey := 0, pkeyMask := 0 }

/-- The default filters of R333, entries 60 to 63. -/
def defaultFilters (dport : Word16) : Tab FilterEntry :=
  [(60, { FilterEntry.blank with valid := true, mEtype := true, etype := 0x88B5, action := 1, queue := 8 }),
   (61, { FilterEntry.blank with valid := true, mEtype := true, etype := 0x88B6, action := 1, queue := 7 }),
   (62, { FilterEntry.blank with valid := true, mEtype := true, etype := 0x88F7, action := 1, queue := 7 }),
   (63, { FilterEntry.blank with valid := true, mUdp := true, udp := dport, action := 1, queue := 8 })]

/-- A port after reach reset. -/
def Mac.reset : Mac :=
  { port := macPortReset, curRate := 0, up := false, level := 1, underruns := 0, filters := defaultFilters 0xBC52,
    filter63 := false, filterDrops := [], ingress := [], pauseReg := macPauseReset, pause := [], pfcSent := [],
    queues := [], sluices := [], drrClass := 0, drrGot := false, deficit := [], lastQ := [], bank0 := [], bank1 := [], gateEn := false,
    gateActive := 0, switchAt := none, overruns := 0, busyUntil := 0, busyRun := none, runBytes := 0, closedAt := none, stomped := 0, fcsErr := 0,
    addrDrop := 0, sizeDrop := 0, roomDrop := 0, ipDrop := 0, macCtl := 0, endedInv := [], wdEvents := 0, uncorr := 0,
    uncorrTimes := [] }

end Sys2Proof.Machine
end

