-- ==== Sys2Proof/Machine/State/Gate.lean ====
section
/-!
DEFINITION. Gatehouse state outside the host port, translation and the root of trust: start-up, shut-down, straps and
pins, alerts, the trace control, the power cap, gauge snapshots, and the copy of the site configuration (chapters 09, 16
to 20).
-/

namespace Sys2Proof.Machine

/-- An alert record (R521): the kind is a logbook or health code, `arg` says about what. -/
structure Alert where
  kind : BitVec 8
  reach : BitVec 3
  arg : Word64
  time : Time
  deriving DecidableEq, Repr

/-- A snapshot of one object's gauges (R467), with the function that owns the object; none for a global one. -/
structure Snap where
  time : Time
  owner : Option FnId
  values : List Word64
  deriving DecidableEq, Repr

/-- A tile-array reset in progress: the command that asked for it, the reach and the mask of its tile groups. -/
structure TileReset where
  cmd : CmdRef
  reach : ReachId
  mask : Word16
  deriving DecidableEq, Repr

/-- A BIST_RUN in hand (R462): reaches named, those that have not finished, and RESULT so far. -/
structure BistRun where
  cmd : CmdRef
  named : List ReachId
  full : Bool
  iova : Word64
  left : List ReachId
  result : Word64
  deriving DecidableEq, Repr

/-- The gatehouse's copy of one reach's site configuration since module reset (R281). -/
structure SiteCopy where
  parts : Tab Word64
  addr : Tab (List Byte)
  filters : Tab (Tab FilterEntry)
  sluices : Tab (Tab Word64)
  pkmap : Tab Nat
  /-- RWL registers of the reach window, by offset. -/
  regs : Tab Word64
  deriving DecidableEq, Repr

/-- Nothing written since module reset. -/
def SiteCopy.reset : SiteCopy := { parts := [], addr := [], filters := [], sluices := [], pkmap := [], regs := [] }

/-- The gatehouse. -/
structure Gate where
  /-- Pins in: PWR_EN, PERST_N, MRST_N; out: PWRGD, THERM_TRIP_N (asserted, latched) with its events (R496, R515 to R518). -/
  pwrEn : Bool
  perstN : Bool
  mrstN : Bool
  pwrgd : Bool
  thermTrip : Bool
  thermTrips : Nat
  /-- An input cut-off has occurred: PWR_EN must be cycled (R476). -/
  cutOff : Bool
  /-- MODID, MODID_P and MGMT_MODE: live, and as sampled (R517, R519, R520). -/
  modidLive : BitVec 10
  parityLive : Bool
  modeLive : Bool
  modid : BitVec 10
  parityAs : Bool
  mode : Bool
  /-- The parity over MODID0 to MODID9 and MODID_P, as sampled, is even (R519). -/
  parity : Bool
  ready : Bool
  clean : Bool
  tested : BitVec 4
  readyMs : Word32
  /-- GATE_SHUT (R508). -/
  noTest : Bool
  shutState : BitVec 3
  drainMs : Word16
  /-- Reaches that have still to finish their shut-down test. -/
  shutLeft : List ReachId
  /-- A shut-down waits for a BIST_RUN, and when draining began. -/
  shutWaits : Bool
  shutSince : Time
  bists : List BistRun
  /-- RESET_REACH commands that complete when their reach has finished its reset (R31). -/
  resets : List (ReachId × CmdRef)
  /-- Tile-array resets in progress (R34, R113). -/
  tileResets : List TileReset
  /-- PWR_CAP (R492), and the successive ticks of 100 µs at whose end the 1 ms average stood above MODULE_W with every reach at its
  floor (R486). -/
  cap : Word64
  overTicks : Nat
  /-- TRC registers (R472 to R475). -/
  trcCtrl : Word64
  trcTrig : Word64
  trcTrigTime : Word64
  trigReach : ReachId
  dumpBusy : Bool
  dumpErr : Bool
  dumpAddr : Word64
  dumpMask : BitVec 4
  trigTimeDone : List ReachId
  /-- Trigger notices on their way: the reach that a notice goes to and the one that fired (R472). -/
  trigNotices : List (ReachId × ReachId)
  /-- Next reach that the trace port takes a frame from, frames and bytes it has sent. -/
  trcNext : ReachId
  trcFrames : Nat
  trcBytes : Nat
  alerts : List Alert
  /-- GAUGE_SNAP of each function; GAUGE_DENIED and ignored RWL writes of each function, 64 for the management path. -/
  snaps : Tab Snap
  denied : Tab Nat
  rwlIgnored : Tab Nat
  site : Quad SiteCopy
  /-- Gatehouse keeper watchdogs, cores 8 to 11 (R450). -/
  expiry : Tab Time
  healthSeq : Word16
  /-- Input power as a maximum and as a 1 ms average, in W; hottest reading of each of the two sensors; an alert is in force (R485, R496). -/
  powerMax : Nat
  powerAvg : Nat
  tops : Tab Nat
  hot : Bool
  deriving DecidableEq, Repr

/-- PWR_CAP at reset (R492): MODULE_W 1,650, FLOOR_MHZ 2,700, DROOP_MV 40. -/
def pwrCapReset : Word64 := BitVec.ofNat 64 (1650 + 2700 * 2 ^ 12 + 40 * 2 ^ 24)
/-- TRC_CTRL at reset: KINDS 0x1FF, SYNC_US 1,000, PRE_MIB 48, POST_MIB 16. -/
def trcCtrlReset : Word64 := BitVec.ofNat 64 (0x1FF * 2 ^ 5 + 1000 * 2 ^ 16 + 48 * 2 ^ 32 + 16 * 2 ^ 39)

/-- The gatehouse right after module reset, PWR_EN and MRST_N high, PERST_N still asserted. -/
def Gate.reset : Gate :=
  { pwrEn := true, perstN := false, mrstN := true, pwrgd := true, thermTrip := false, thermTrips := 0,
    cutOff := false, modidLive := 0, parityLive := false, modeLive := true, modid := 0, parityAs := false, mode := true, parity := true,
    ready := false, clean := false, tested := 0, readyMs := 0, noTest := false, shutState := 0, drainMs := 100,
    shutLeft := [], shutWaits := false, shutSince := 0, bists := [], resets := [], tileResets := [], cap := pwrCapReset, overTicks := 0, trcCtrl := trcCtrlReset,
    trcTrig := 0, trcTrigTime := 0, trigReach := 0, dumpBusy := false, dumpErr := false, dumpAddr := 0, dumpMask := 15,
    trigTimeDone := [], trigNotices := [], trcNext := 0, trcFrames := 0, trcBytes := 0, alerts := [], snaps := [], denied := [],
    rwlIgnored := [], site := Quad.pure SiteCopy.reset, expiry := [], healthSeq := 0, powerMax := 0, powerAvg := 0,
    tops := [], hot := false }

/-- What the module has sent out, oldest first: frames at a port, flow control, fault sequences, host-port messages,
management answers, trace-port frames. -/
inductive Out where
  /-- A frame on the wire: addresses (R225), VLAN tag, bytes, how its FCS stands to the bytes (R325), and what it carries. -/
  | frame (r : ReachId) (p : PortId) (dst src : BitVec 48) (vid : Option (BitVec 12)) (len : Nat) (fcs : Fcs) (b : FrameBody)
  | pfc (r : ReachId) (p : PortId) (classes : BitVec 8) (quanta : Word16)
  | remoteFault (r : ReachId) (p : PortId)
  | indexRead (f : FnId) (ring : BitVec 8)
  | descRead (f : FnId) (ring : BitVec 8) (first count : Nat)
  | flushRead (r : ReachId)
  | msix (f : FnId) (vector : BitVec 11)
  | role (p : ReqPath) (status : BitVec 8) (data : List Byte)
  | spdm (eid : BitVec 8) (code : BitVec 8) (data : List Byte)
  | regRead (eid : BitVec 8) (value : Word64)
  | mctpStatus (eid : BitVec 8) (status : BitVec 8) (data : List Byte)
  | traceFrame (r : ReachId) (num : Word32) (records : List TraceRec)
  | traceAlign
  | ppsPulse
  deriving DecidableEq, Repr

end Sys2Proof.Machine
end

