-- ==== Sys2Proof/Machine/State/Host.lean ====
section
/-!
DEFINITION. The state of the host port with its functions and rings (chapter 12), of translation, grants and tenancies
(chapter 13): gatehouse state.
-/

namespace Sys2Proof.Machine

/-- A completion record or event notice (R365), without OWNER, which its position gives (R355). -/
structure Record where
  kind : BitVec 3
  status : BitVec 8
  chainPos : BitVec 8
  source : BitVec 3
  length : Word32
  handle : Word64
  time : Time
  result : Word64
  deriving DecidableEq, Repr

/-- A record with the event body that stands before it on ring 2 (R366), and whether its chain had NOMOD (R373). -/
structure Posting where
  ring : BitVec 8
  record : Record
  body : List Byte
  nomod : Bool
  deriving DecidableEq, Repr

/-- A chain taken and not done (R362, R363, R369). -/
structure TakenChain where
  handle : Word64
  /-- The submission ring it was taken from, and the completion ring of its record (R363, R364). -/
  ring : BitVec 8
  cq : BitVec 8
  isCommand : Bool
  /-- Work entries that the RME has not yet taken, work entries in all, and those not retired. -/
  entries : List (List Byte)
  /-- Fabric time, on the reach of its work, at which its entries became visible to the RME (R182). -/
  seen : Time
  size : Nat
  left : Nat
  status : BitVec 8
  pos : BitVec 8
  nomod : Bool
  deriving DecidableEq, Repr

/-- What a ring is (R354). -/
inductive RingKind where
  | submission | completion | event
  deriving DecidableEq, Repr

/-- A ring (R354 to R360, R368, R373). -/
structure HostRing where
  kind : RingKind
  log2 : Nat
  base : Word64
  index : Word64
  /-- Submission: completion ring of its commands, published and taken counts, serial base, and the count of chains taken. -/
  cq : BitVec 8
  published : Word32
  taken : Word32
  fetching : Bool
  serialBase : Word32
  chains : Word32
  error : Bool
  /-- A read of the index word is outstanding, and a doorbell came meanwhile (R357). -/
  reading : Bool
  readAgain : Bool
  /-- Completion and event rings: records posted, consumed count as last read, records that wait for room (R360). -/
  posted : Word32
  consumed : Word32
  waiting : List Posting
  vector : BitVec 11
  vecEn : Bool
  modCount : BitVec 8
  modUsec : BitVec 10
  sinceMsg : Nat
  destroying : Option CmdRef
  deriving DecidableEq, Repr

/-- One function of the host port (R379 to R386). -/
structure HostFn where
  attached : Bool
  enabled : Bool
  shutdown : Bool
  attachErr : BitVec 4
  rev : BitVec 8
  gen : Word16
  offerMin : BitVec 8
  offerMax : BitVec 8
  sel : BitVec 8
  adm0 : Word64
  adm1 : Word64
  adm2 : Word64
  adm3 : Word64
  adm4 : Word64
  adm5 : Word64
  admCfg : Word64
  rings : Tab HostRing
  /-- Chains taken and not done, oldest first. They outlast their ring (R379). -/
  out : List TakenChain
  /-- Last serial taken on each ring number under the generation (R368). -/
  serials : Tab Word32
  held : List Posting
  lost : Nat
  lostRings : BitVec 256
  /-- MSI-X messages sent, by vector; vectors masked; vectors pending (R372). -/
  masked : List Nat
  pending : List Nat
  /-- Gauges of ring numbers (R465 group 3): key 4 × ring, plus 0 chains taken, 1 owner misses, 2 doorbells dropped. -/
  ringGauges : Tab Nat
  deriving DecidableEq, Repr

/-- HOST_ADM_CFG at reset (R386): sizes 6, MOD_COUNT 1. -/
def admCfgReset : Word64 := BitVec.ofNat 64 (6 + 6 * 2 ^ 5 + 6 * 2 ^ 10 + 2 ^ 40)

/-- A function after module reset (R383 to R386); ENABLED is 1 for the PF only. -/
def HostFn.reset (f : Nat) : HostFn :=
  { attached := false, enabled := f == 0, shutdown := false, attachErr := 0, rev := 0, gen := 0, offerMin := 0,
    offerMax := 0, sel := 0, adm0 := 0, adm1 := 0, adm2 := 0, adm3 := 0, adm4 := 0, adm5 := 0, admCfg := admCfgReset,
    rings := [], out := [], serials := [], held := [], lost := 0, lostRings := 0, masked := [], pending := [], ringGauges := [] }

/-- A FEED_POST that has not completed (R376). -/
structure FeedItem where
  cmd : CmdRef
  post : FeedPost
  deriving DecidableEq, Repr

/-- The host port. -/
structure HostPort where
  /-- HOST_CLK: MODE in the configuration region, the mode of the link now trained (R351). -/
  clkMode : BitVec 2
  clkActive : BitVec 2
  inReset : Bool
  trained : Bool
  d3hot : Bool
  fns : Tab HostFn
  /-- What the module has written into host memory: key function × 2^64 + IOVA. -/
  mem : Mem
  feeds : List FeedItem
  /-- Next SEQ of each feed: plan handle, feed number, SEQ (R376). -/
  feedSeq : List (Word64 × Word16 × Word64)
  deriving DecidableEq, Repr

/-- The host port after module reset. -/
def HostPort.reset : HostPort :=
  { clkMode := 0, clkActive := 0, inReset := true, trained := false, d3hot := false, fns := [], mem := [], feeds := [],
    feedSeq := [] }

/-- A mapped page (R390, R393). -/
structure Page where
  va : Nat
  size : BitVec 2
  tier : BitVec 1
  reach : ReachId
  set : BitVec 3
  pa : Nat
  rd : Bool
  wr : Bool
  deriving DecidableEq, Repr

/-- A host window (R388). -/
structure HostWin where
  va : Nat
  len : Nat
  iova : Nat
  rd : Bool
  wr : Bool
  deriving DecidableEq, Repr

/-- An invalidating command in hand (R398, R399): not started, or waiting for the work of the previous generation. -/
structure InvCmd where
  cmd : CmdRef
  asid : Word16
  free : Bool
  /-- Range of an XLT_WITHDRAW; none for ASID_INVALIDATE. -/
  range : Option (Nat × Nat)
  started : Bool
  released : List Page
  deriving DecidableEq, Repr

/-- An address space (R390 to R400). -/
structure Asid where
  function : FnId
  gen : BitVec 12
  pages : List Page
  wins : List HostWin
  deriving DecidableEq, Repr

/-- A submitter stalled by a translation fault (R401). -/
inductive Stalled where
  | rme (r : ReachId) (src : RmeSource)
  | load (c : CmdRef) (p : PlanLoad)
  | cipher (p : ReqPath) (f : Option FnId) (q : CipherReq) (d : CipherData)
  deriving DecidableEq, Repr

/-- An open translation fault record (R401). -/
structure FaultRecord where
  function : FnId
  cause : BitVec 4
  count : BitVec 8
  seq : Word16
  req : BitVec 5
  asid : Word16
  va : Nat
  time : Time
  handle : Word64
  stalled : List Stalled
  deriving DecidableEq, Repr

/-- TEN_STATUS.STATE (R414). -/
inductive TenState where
  | running | freezing | frozen | saving | restoring
  deriving DecidableEq, Repr

/-- One tenancy (R403 to R414). -/
structure Tenancy where
  grant : Option Grant
  state : TenState
  asidGen : BitVec 12
  faultSeq : Word16
  freezeCmd : Option CmdRef
  freezeEnd : Time
  /-- Commands that complete when the shut-down ends: FUNCTION_DISABLE, and a FUNCTION_ENABLE with its grant (R406). -/
  disable : List CmdRef
  enable : Option (CmdRef × Grant)
  /-- ATTACH waits for the shut-down to end (R382). -/
  attaching : Bool
  deriving DecidableEq, Repr

/-- A tenancy that holds no grant. -/
def Tenancy.reset : Tenancy :=
  { grant := none, state := .running, asidGen := 0, faultSeq := 0, freezeCmd := none, freezeEnd := 0, disable := [], enable := none, attaching := false }

/-- Translation and tenancies of the module. -/
structure Xlt where
  asids : Tab Asid
  inv : List InvCmd
  faults : List FaultRecord
  ctrl : Word64
  tens : Tab Tenancy
  /-- All four reaches have been in reset or held together: no replica of the tables is left to copy (R392). -/
  lost : Bool
  deriving DecidableEq, Repr

/-- After module reset: no ASID but the keepers' 0, XLT_CTRL.FAULT_MS 1,000 (R413); the PF holds what no grant names. -/
def Xlt.reset : Xlt := { asids := [], inv := [], faults := [], ctrl := 1000, tens := [], lost := false }

end Sys2Proof.Machine
end

