-- ==== Sys2Proof/Machine/State/Memory.lean ====
section
/-!
DEFINITION. The state of one reach's memory tiers (chapter 05) and of its timing-dependent choice counters (chapter 06).
-/

namespace Sys2Proof.Machine

/-- A memory error record (R161). -/
structure MemErrRecord where
  cls : BitVec 4
  reach : ReachId
  seq : Word16
  tier : BitVec 2
  device : BitVec 6
  channel : BitVec 8
  function : BitVec 8
  paddr : Nat
  bit : Word16
  time : Time
  handle : Word64
  deriving DecidableEq, Repr

/-- A row of memory (R164). -/
structure MemRow where
  tier : BitVec 1
  device : BitVec 8
  channel : BitVec 8
  bank : BitVec 8
  row : BitVec 24
  deriving DecidableEq, Repr

/-- A repair record (R164, table "Repair record"). -/
structure RepairRecord where
  reach : ReachId
  at_ : MemRow
  cause : BitVec 8
  state : BitVec 8
  ceCount : Word16
  logSeq : Word32
  deriving DecidableEq, Repr

/-- Correctable events of one row: how many the reach has seen, and the times of those of the last 24 hours, newest first (R163 to R165). -/
structure RowCount where
  row : MemRow
  total : Nat
  times : List Time
  deriving DecidableEq, Repr

/-- A write that the controllers served: its range, its cycle, and its requester by the numbers of R182. -/
structure MemWrite where
  pa : Nat
  len : Nat
  at_ : Time
  by_ : Nat
  deriving DecidableEq, Repr

/-- An intersection of a transposition run, its plan named by its handle (R169). -/
structure XposFlight where
  plan : Word64
  desc : Nat
  src : Nat
  dst : Nat
  /-- Rows whose WRITE has been submitted, and operations of the intersection not retired. -/
  next : Nat
  left : Nat
  deriving DecidableEq, Repr

/-- Memory of one reach. -/
structure MemState where
  /-- Device physical bytes of R148 outside the scratchpad windows, which are the tiles' own. -/
  bytes : Mem
  /-- Lines (address / 64) that hold an uncorrectable error (R159). -/
  ue : List Nat
  /-- LPDDR5X check lines that the controllers hold in their caches, 512 for each channel (R158): check line k covers the 32 data lines
  from the k-th 2 KiB of LPDDR5X on. -/
  checks : List Nat
  /-- HBM3E pseudo-channels (as gauge objects) held in fault after a parity error (R159 class 4). -/
  chFault : List Nat
  /-- Writes of the latest cycle in which one was served (R160). -/
  writes : List MemWrite
  dredge : Word64
  errSeq : Word16
  rows : List RowCount
  /-- Lines whose correctable record was posted, with the time (R161). -/
  posted : List (Nat × Time)
  /-- Next line of the patrol of each tier, and the start of the pass (R162). -/
  hbmPos : Nat
  lpPos : Nat
  hbmStart : Time
  lpStart : Time
  latePass : Nat
  repair : List RepairRecord
  /-- Retired 64 KiB pages (R165). -/
  retired : List Nat
  /-- Armed transposition runs (plan handle, descriptor index), intersections started, and those in flight (R169, R170). -/
  xposArmed : List (Word64 × Nat)
  xposDone : List XposFlight
  xposFlight : List XposFlight
  deriving DecidableEq, Repr

/-- MEM_DREDGE at reset (R163). -/
def memDredgeReset : Word64 := BitVec.ofNat 64 (3 + 24 * 2 ^ 8 + 24 * 2 ^ 16 + 3 * 2 ^ 24)

/-- Memory of a reach after module reset: nothing listed. -/
def MemState.reset : MemState :=
  { bytes := [], ue := [], checks := [], chFault := [], writes := [], dredge := memDredgeReset, errSeq := 0, rows := [], posted := [], hbmPos := 0, lpPos := 0,
    hbmStart := 0, lpStart := 0, latePass := 0, repair := [], retired := [], xposArmed := [], xposDone := [],
    xposFlight := [] }

/-- A TDC log record (R185). -/
structure TdcRecord where
  cause : BitVec 8
  function : BitVec 8
  reach : ReachId
  detailA : Word32
  time : Time
  detailB : Word64
  countAfter : BitVec 48
  deriving DecidableEq, Repr

/-- The timing-dependent choice counters of a reach (R183 to R185). -/
structure Tdc where
  count : BitVec 48
  fns : Tab (BitVec 48)
  log : List TdcRecord
  deriving DecidableEq, Repr

/-- Counters at zero, log empty. -/
def Tdc.reset : Tdc := { count := 0, fns := [], log := [] }

end Sys2Proof.Machine
end

