-- ==== Sys2Proof/Machine/State/Router.lean ====
section
/-!
DEFINITION. The state of one reach's router and of its transport slow path and fabric manager (chapter 09).
-/

namespace Sys2Proof.Machine

/-- Port states of R261. -/
inductive PortState where
  | down | training | held | usable
  deriving DecidableEq, Repr

/-- Bank states of R271, in the coding of R283. -/
inductive BankState where
  | active | draining | closed | staged
  deriving DecidableEq, Repr

/-- What survey holds of one router port 0 to 6 (R261, R277). -/
structure RtrPort where
  state : PortState
  peer : Option Word16
  peerEui : Word64
  peerPort : BitVec 4
  /-- Address of the peer's port (R225). -/
  peerMac : BitVec 48
  /-- Consecutive SURVEY frames in which the peer names this node. -/
  heardRun : Nat
  lastSurvey : Time
  heldSince : Time
  /-- Counters of the congestion map's interval (R277). -/
  hist : List Word16
  marks : Word32
  drops : Word32
  txUnpl : Word64
  txTc6 : Word64
  backup : Word32
  dropIn : Nat
  dropOut : Nat
  dropHeld : Nat
  deriving DecidableEq, Repr

/-- A port right after reach reset: DOWN (R261). -/
def RtrPort.reset : RtrPort :=
  { state := .down, peer := none, peerEui := 0, peerPort := 0, peerMac := 0, heardRun := 0, lastSurvey := 0, heldSince := 0, hist := [],
    marks := 0, drops := 0, txUnpl := 0, txTc6 := 0, backup := 0, dropIn := 0, dropOut := 0, dropHeld := 0 }

/-- One bank of the routing table (R264): entries of 32 bits, an unlisted one zero, so not VALID. -/
structure Bank where
  entries : Tab Word32
  epochNum : BitVec 24
  state : BankState
  deriving DecidableEq, Repr

/-- A frame that waits at the router with the port it came from: 0 to 6, 7 the RME, 8 the keepers. -/
structure RtrFrame where
  ingress : Nat
  body : FrameBody
  len : Nat
  arrived : Time
  queue : Nat
  deriving DecidableEq, Repr

/-- The fabric manager's own work, on the node that is elected (R272, R273, R276). -/
structure FmState where
  /-- Nodes that TABLE_WRITE frames went to and those whose TABLE_ACK is held, a node once for each frame, and the time of the
  write. -/
  written : List Word16
  acked : List Word16
  epochNum : BitVec 24
  since : Time
  busy : Bool
  /-- A FLIP was sent: its T_flip and the nodes that have not answered. -/
  flip : Option Time
  flipWait : List Word16
  maps : List Cmap
  notices : List (Word16 × PortId)
  deriving DecidableEq, Repr

/-- The router of one reach. -/
structure Router where
  ports : Tab RtrPort
  bank0 : Bank
  bank1 : Bank
  active : BitVec 1
  drainUs : Word16
  valiantReg : Word64
  valiant : List Word16
  ecn : Word64
  fm : Word64
  self : Bool
  elected : Word16
  standby : Word16
  /-- A fabric manager has been heard and not lost since, and FM_HELLO was last heard at (R276). -/
  fmHeard : Bool
  lastHello : Time
  /-- Candidates that were manager and fell silent: no manager until heard again (R276). -/
  silent : List Word16
  parts : Tab Word64
  lsdb : List Lsa
  lsaSeq : Word32
  /-- FLIP received: T_flip; end of the draining interval (R272). -/
  tFlip : Option Time
  drainEnd : Option Time
  /-- The database changed while the inactive bank was draining (R266). -/
  rebuild : Bool
  dupNode : Bool
  cmapSeq : Word32
  cmapStart : Time
  inbox : List RtrFrame
  keeperIn : List RtrFrame
  noRoute : Nat
  epochLate : Nat
  hopsOut : Nat
  tc6Policed : Nat
  unknownType : Nat
  /-- Frames dropped for a format version, a KIND, or IP options, extension headers or fragments that the module does not support, or a
  wrong CRC trailer (R15, R226, R260). -/
  unsupported : Nat
  fmWork : FmState
  deriving DecidableEq, Repr

/-- Partition entry 0 after module reset (R274): key 0x0001, nine ports in both masks, VALID. -/
def partEntry0 : Word64 := BitVec.ofNat 64 (1 + 0x1FF * 2 ^ 16 + 0x1FF * 2 ^ 25 + 2 ^ 34)
/-- RTR_ECN at reset: THRESH 256 (R285). -/
def rtrEcnReset : Word64 := 256
/-- RTR_FM at reset, its writable fields: CAND 1, PRIO 128, FLIP_LEAD 200 (R286). -/
def rtrFmReset : Word64 := BitVec.ofNat 64 (1 + 128 * 2 ^ 8 + 200 * 2 ^ 48)

/-- No work in hand. -/
def FmState.reset : FmState :=
  { written := [], acked := [], epochNum := 0, since := 0, busy := false, flip := none, flipWait := [], maps := [],
    notices := [] }

/-- The router after module reset (R274, R283 to R286). -/
def Router.reset : Router :=
  { ports := [], bank0 := { entries := [], epochNum := 0, state := .active },
    bank1 := { entries := [], epochNum := 0, state := .closed }, active := 0, drainUs := 50, valiantReg := 0, valiant := [],
    ecn := rtrEcnReset, fm := rtrFmReset, self := false, elected := 0xFFFF, standby := 0xFFFF, fmHeard := false, lastHello := 0,
    parts := [(0, partEntry0)], lsdb := [], lsaSeq := 0, tFlip := none, drainEnd := none, rebuild := false,
    dupNode := false, cmapSeq := 0, cmapStart := 0, inbox := [], keeperIn := [], noRoute := 0, epochLate := 0, hopsOut := 0,
    tc6Policed := 0, unknownType := 0, unsupported := 0, silent := [], fmWork := FmState.reset }

end Sys2Proof.Machine
end

