-- ==== Sys2Proof/Machine/State/Sec.lean ====
section
/-!
DEFINITION. The state of the gatehouse's root of trust (chapter 14) and of the cipher engines.
-/

namespace Sys2Proof.Machine

/-- An enrolled key pair (R424). -/
structure Enrolled where
  role : BitVec 4
  keyId : Word64
  keys : KeyPair
  kek : List Byte
  deriving DecidableEq, Repr

/-- A role session (R427). -/
structure Session where
  role : BitVec 4
  eid : BitVec 8
  expiry : Time
  deriving DecidableEq, Repr

/-- A logbook entry (R429). -/
structure LogEntry where
  role : BitVec 4
  result : BitVec 8
  kind : Word16
  seq : Word32
  time : Time
  path : BitVec 8
  function : BitVec 8
  eid : Word16
  keyId : Word64
  detail : List Byte
  prev : BitVec 384
  deriving DecidableEq, Repr

/-- A seal (R430). -/
structure Seal where
  seq : Word64
  digest : BitVec 384
  time : Time
  ed : List Byte
  ml : List Byte
  deriving DecidableEq, Repr

/-- A key slot (R435). `cnt` is the checkpoint counter of a kind 2 key (R444). -/
structure KeySlot where
  kind : BitVec 4
  key : List Byte
  pkey : Word16
  tAct : Time
  function : FnId
  index : BitVec 8
  cnt : Word64
  /-- Alerts raised of a fabric key's age: none, the first, both (R440). -/
  aged : Nat
  deriving DecidableEq, Repr

/-- Cipher context states (R443). -/
inductive CtxState where
  | idle | opened | failed
  deriving DecidableEq, Repr

/-- A cipher context (R443). -/
structure CipherCtx where
  dir : Bool
  state : CtxState
  keySlot : Word16
  ctr : Word32
  iv : BitVec 96
  aadLen : Word64
  dataLen : Word64
  ghash : BitVec 128
  part : List Byte
  /-- The key of the open message. -/
  key : List Byte
  deriving DecidableEq, Repr

/-- A context never used. -/
def CipherCtx.reset : CipherCtx :=
  { dir := false, state := .idle, keySlot := 0, ctr := 0, iv := 0, aadLen := 0, dataLen := 0, ghash := 0, part := [], key := [] }

/-- One cipher engine: key slots and contexts. -/
structure CipherEngine where
  slots : Tab KeySlot
  ctxs : Tab CipherCtx
  noKey : Nat
  deriving DecidableEq, Repr

/-- No key, no context. -/
def CipherEngine.reset : CipherEngine := { slots := [], ctxs := [], noKey := 0 }

/-- SPDM of one connection (R433, R434): what has been negotiated, the messages of the negotiation, those of certificates and
those of measurements that no signature has covered yet, and the transcript hash of the last signed response. -/
structure SpdmConn where
  version : Bool
  caps : Bool
  algs : Bool
  vca : List Byte
  certs : List Byte
  meas : List Byte
  lastSigned : Option (BitVec 384)
  deriving DecidableEq, Repr

/-- A connection with nothing negotiated. -/
def SpdmConn.reset : SpdmConn :=
  { version := false, caps := false, algs := false, vca := [], certs := [], meas := [], lastSigned := none }

/-- The root of trust. -/
structure Sec where
  eui : Word64
  /-- Secure flash, kept through module reset: enrolled keys, request counters, anti-rollback counters, image slots. -/
  keys : List Enrolled
  reqSeq : Tab Word64
  rollback : Tab Word32
  /-- Image slots: key 2 × TYPE + slot; an unlisted slot holds the provisioned image (assumption 30). -/
  images : Tab Image
  /-- Slots in force since the last boot: TYPE to slot. -/
  booted : Tab Nat
  bootFail : List Nat
  recovery : Bool
  flashOk : Bool
  logFlashOk : Bool
  pfSession : Option Session
  mctpSession : Option Session
  refused : Word32
  log : List LogEntry
  logNext : Word32
  lastDigest : BitVec 384
  reserve : List LogEntry
  seals : List Seal
  gate : CipherEngine
  /-- The gatehouse's master copy of the fabric keys, by slot (R435). -/
  master : Tab KeySlot
  ciphCtrl : Word64
  spdm : Tab SpdmConn
  deriving DecidableEq, Repr

/-- The root of trust after module reset of a module that no role has been enrolled on. -/
def Sec.reset : Sec :=
  { eui := 0, keys := [], reqSeq := [], rollback := [], images := [], booted := [], bootFail := [], recovery := false,
    flashOk := true, logFlashOk := true, pfSession := none, mctpSession := none, refused := 0, log := [], logNext := 0,
    lastDigest := 0, reserve := [], seals := [], gate := CipherEngine.reset, master := [], ciphCtrl := 10, spdm := [] }

end Sys2Proof.Machine
end

