-- ==== Sys2Proof/Machine/State/Time.lean ====
section
/-!
DEFINITION. The state of one reach's timing domain and time service (chapter 02, R38 to R56).
-/

namespace Sys2Proof.Machine

/-- Servo states of R46. -/
inductive Servo where
  | freeRun | acquire | locked | holdover | holdoverExpired | aheadOfMaster
  deriving DecidableEq, Repr

/-- A time-discontinuity record (R51). -/
structure DiscRecord where
  cause : BitVec 4
  reach : ReachId
  seq : Word16
  stateBefore : Servo
  sourceAfter : TimeSource
  timeBefore : Time
  timeAfter : Time
  eraAfter : Word16
  deriving DecidableEq, Repr

/-- What the time service holds of one PTP port (R43). -/
structure PtpPort where
  /-- The Sync whose Follow_Up is awaited: its sequence number and its arrival at the PMA. -/
  sync : Option (Word16 × Time)
  /-- Mean path delay in units of 2^-16 ns. -/
  pathDelay : Int
  /-- Asymmetry correction the installer set, in units of 2^-16 ns, default 0. -/
  asym : Int
  /-- The newest Announce of the neighbour, with the domain it came in and the time of its arrival. -/
  foreign : Option PtpClock
  annDom : BitVec 8
  annAt : Time
  /-- The Pdelay_Req sent and not yet answered: sequence number and time sent. -/
  pdelayTx : Option (Word16 × Time)
  /-- A Pdelay_Resp received: the peer's receipt time and this port's arrival time. -/
  pdelayRx : Option (Time × Time)
  pdelaySeq : Word16
  syncSeq : Word16
  annSeq : Word16
  /-- The port's link has been up with FEC lock since. -/
  upSince : Option Time
  deriving DecidableEq, Repr

/-- The timing domain and the time service of one reach. -/
structure TimeDom where
  now : Time
  era : Word16
  floor : Time
  ctrl : Word64
  /-- TIME_NOW[63:32] as a read of the low half latched it (R41). -/
  nowLatch : Word32
  servo : Servo
  source : TimeSource
  masterPort : BitVec 4
  discCount : Word16
  offset : Word32
  /-- A first source has been taken since module reset (R54). -/
  sourced : Bool
  /-- LOCKED at some time since the timing domain last started (R46). -/
  everLocked : Bool
  /-- Rank 1 was held before the present holdover (R45). -/
  heldRank1 : Bool
  /-- A frequency has been held since the timing domain last started (R42 rank 6). -/
  freqHeld : Bool
  /-- Consecutive Sync intervals with the filtered offset within 8 ns. -/
  lockRun : Nat
  /-- Every filtered offset since has lain within 8 ns: what sources without Sync intervals of their own are locked by (R46). -/
  insideSince : Option Time
  /-- The last Sync of the selected master, or the taking of the source where none has come since (R46). -/
  syncAt : Time
  lockedSince : Time
  holdoverSince : Time
  /-- The source has just been taken by a LOCKED reach: its first filtered offset is awaited (R541). -/
  freshSource : Bool
  disc : List DiscRecord
  ptp : Tab PtpPort
  /-- Consecutive qualifying PPS_IN edges, and the last edge (R42). -/
  ppsRun : Nat
  ppsLast : Option Time
  /-- The 10 MHz reference is present within 4.6 ppm (R42). -/
  refGood : Bool
  mgmtIgnored : Nat
  /-- The domain stands still, from its stop to its restart (R54): the servo state in which it stopped. -/
  stopped : Option Servo
  deriving DecidableEq, Repr

/-- An absent entry of the PTP port table: nothing received, delay and asymmetry zero. -/
def PtpPort.reset : PtpPort :=
  { sync := none, pathDelay := 0, asym := 0, foreign := none, annDom := 0, annAt := 0, pdelayTx := none, pdelayRx := none, pdelaySeq := 0,
    syncSeq := 0, annSeq := 0, upSince := none }

/-- TIME_CTRL at reset (R55): PTP_EN, SYNCE_EN, GM_CAPABLE 1; PRIORITY1 and PRIORITY2 128; STEP_THRESH 1,000. -/
def timeCtrlReset : Word64 := BitVec.ofNat 64 (14 + 128 * 2 ^ 16 + 128 * 2 ^ 24 + 1000 * 2 ^ 32)

/-- The timing domain right after a module reset (R54, R56). -/
def TimeDom.reset : TimeDom :=
  { now := 0, era := 0, floor := 0, ctrl := timeCtrlReset, nowLatch := 0, servo := .freeRun, source := .none,
    masterPort := 15, discCount := 0, offset := 0, sourced := false, everLocked := false, heldRank1 := false,
    freqHeld := false, lockRun := 0, insideSince := none, syncAt := 0, lockedSince := 0, holdoverSince := 0, freshSource := false, disc := [], ptp := [],
    ppsRun := 0, ppsLast := none, refGood := false, mgmtIgnored := 0, stopped := none }

end Sys2Proof.Machine
end

