-- ==== Sys2Proof/Machine/State/Chip.lean ====
section
/-!
DEFINITION. One reach, and the whole module but for its queue of commands: `Chip`. Every meaning is a change of a `Chip`;
Machine/State.lean puts the queue beside it.
-/

namespace Sys2Proof.Machine

/-- A granted claim on a resource of R182: its row in the table of resources, the resource, when, with which tag and by which requester. -/
structure Claim where
  row : Nat
  index : Nat
  at_ : Time
  tag : Time
  by_ : Nat
  deriving DecidableEq, Repr

/-- One reach. -/
structure Reach where
  service : ReachService
  time : TimeDom
  plan : PlanService
  tiles : Tab Tile
  mem : MemState
  tdc : Tdc
  rme : Rme
  rtr : Router
  coll : Coll
  macs : Tab Mac
  cipher : CipherEngine
  bist : Bist
  trace : Trace
  pwr : Power
  /-- SHP_PKMAP: an unlisted byte is 64 (R339). -/
  pkmap : Tab Nat
  /-- Address table: 4,096 entries of 32 bytes, an unlisted one zero (R226). -/
  addr : Tab (List Byte)
  /-- MAC_LANEMAP by external port (R523), MAC_SERDES by 4 × port + lane (R495). -/
  lanemap : Tab Word64
  serdes : Tab Word64
  /-- Maintenance contexts that R504 made: QPN index to the requester's node and context and this end's initial PSN. -/
  maint : Tab (Word16 × BitVec 24 × BitVec 24)
  mirrorSeq : Word64
  /-- Gauges that no other field holds, by group, object and index (R465). -/
  gauges : Tab Nat
  /-- Claims of rows 2 and 5 of R182 that were granted at the last such time. -/
  claims : List Claim
  deriving DecidableEq, Repr

/-- The module without its command queue. -/
structure Chip where
  reaches : Quad Reach
  host : HostPort
  xlt : Xlt
  sec : Sec
  gate : Gate
  /-- Long-term counter that feeds the free values (Config.free…): the model's own field, not the spec's. -/
  freeCtr : Nat
  sent : List Out
  deriving DecidableEq, Repr

/-- MAC_LANEMAP at reset (R523). -/
def laneMapReset : Word64 := 0xE400
/-- MAC_SERDES at reset (R495). -/
def serdesReset : Word64 := BitVec.ofNat 64 (0x3A * 2 ^ 8 + 0x3C * 2 ^ 16 + 2 ^ 24)

/-- A reach right after module reset (R31). -/
def Reach.reset : Reach :=
  { service := .starting, time := TimeDom.reset, plan := PlanService.reset, tiles := [], mem := MemState.reset,
    tdc := Tdc.reset, rme := Rme.reset, rtr := Router.reset, coll := Coll.reset, macs := [], cipher := CipherEngine.reset,
    bist := Bist.reset, trace := Trace.reset, pwr := Power.reset, pkmap := [], addr := [], lanemap := [], serdes := [],
    maint := [], mirrorSeq := 0, gauges := [], claims := [] }

/-- The module right after module reset (R31), before its boot has run. -/
def Chip.reset : Chip :=
  { reaches := Quad.pure Reach.reset, host := HostPort.reset, xlt := Xlt.reset, sec := Sec.reset, gate := Gate.reset,
    freeCtr := 0, sent := [] }

end Sys2Proof.Machine
end

