-- ==== Sys2Proof/Machine/Ops.lean ====
section
/-!
DEFINITION. The named operations that every family of commands uses: reading and changing one reach, tile or port, bit
fields of registers, the reach's clock as a timed command moves it, gauges, free values and outputs.
-/

namespace Sys2Proof.Machine

/-! ### Bit fields -/

/-- Field [lo + n - 1 : lo] of a register. -/
def fld (w : Word64) (lo n : Nat) : Nat := natBits w.toNat lo n

/-- Bit `i` of a register. -/
def flag (w : Word64) (i : Nat) : Bool := w.toNat.testBit i

/-- Put a value into field [lo + n - 1 : lo]. -/
def putFld (w : Word64) (lo n v : Nat) : Word64 :=
  let m := BitVec.ofNat 64 ((2 ^ n - 1) * 2 ^ lo)
  (w &&& ~~~ m) ||| (BitVec.ofNat 64 (v * 2 ^ lo) &&& m)

/-- 1 for true, 0 for false, shifted to a bit. -/
def bitAt (b : Bool) (i : Nat) : Nat := if b then 2 ^ i else 0

/-- A count clamped to limits. -/
def clampNat (lo hi x : Nat) : Nat := if x < lo then lo else if hi < x then hi else x

/-! ### Parts of the module -/

/-- One reach. -/
def Chip.reach (c : Chip) (r : ReachId) : Reach := c.reaches.get r

/-- Change one reach. -/
def Chip.onReach (c : Chip) (r : ReachId) (f : Reach → Reach) : Chip :=
  { c with reaches := c.reaches.set r (f (c.reaches.get r)) }

/-- One tile; an unlisted one is as after reset. -/
def Reach.tile (x : Reach) (t : Nat) : Tile := Tab.getD x.tiles t Tile.reset

/-- Change one tile. -/
def Reach.onTile (x : Reach) (t : Nat) (f : Tile → Tile) : Reach :=
  { x with tiles := Tab.set x.tiles t (f (x.tile t)) }

/-- Change one tile of a reach of the module. -/
def Chip.onTile (c : Chip) (r : ReachId) (t : Nat) (f : Tile → Tile) : Chip := c.onReach r (fun x => x.onTile t f)

/-- One port's MAC. -/
def Reach.mac (x : Reach) (p : PortId) : Mac := Tab.getD x.macs p.val Mac.reset

/-- Change one port's MAC. -/
def Reach.onMac (x : Reach) (p : PortId) (f : Mac → Mac) : Reach :=
  { x with macs := Tab.set x.macs p.val (f (x.mac p)) }

/-- What survey holds of one port. -/
def Reach.port (x : Reach) (p : PortId) : RtrPort := Tab.getD x.rtr.ports p.val RtrPort.reset

/-- Change what survey holds of one port. -/
def Reach.onPort (x : Reach) (p : PortId) (f : RtrPort → RtrPort) : Reach :=
  { x with rtr := { x.rtr with ports := Tab.set x.rtr.ports p.val (f (x.port p)) } }

/-- The seven ports that have a MAC. -/
def allPorts : List PortId := [0, 1, 2, 3, 4, 5, 6]

/-- The node identifier of a reach: 4 × module number + reach (R27). -/
def Chip.nodeId (c : Chip) (r : ReachId) : Word16 := BitVec.ofNat 16 (4 * c.gate.modid.toNat + r.val)

/-- One function of the host port. -/
def Chip.fn (c : Chip) (f : FnId) : HostFn := Tab.getD c.host.fns f.val (HostFn.reset f.val)

/-- Change one function of the host port. -/
def Chip.onFn (c : Chip) (f : FnId) (g : HostFn → HostFn) : Chip :=
  { c with host := { c.host with fns := Tab.set c.host.fns f.val (g (c.fn f)) } }

/-- One tenancy. -/
def Chip.ten (c : Chip) (f : FnId) : Tenancy := Tab.getD c.xlt.tens f.val Tenancy.reset

/-- Change one tenancy. -/
def Chip.onTen (c : Chip) (f : FnId) (g : Tenancy → Tenancy) : Chip :=
  { c with xlt := { c.xlt with tens := Tab.set c.xlt.tens f.val (g (c.ten f)) } }

/-- A reach runs: it is in service (R497), neither held nor in reset. -/
def Chip.inService (c : Chip) (r : ReachId) : Bool := (c.reach r).service == .inService

/-! ### Time -/

/-- A reach whose fabric time is its own (no PTP master, holdover or free run) counts its own era (R39). -/
def TimeDom.ownScale (t : TimeDom) : Bool :=
  match t.servo with
  | .freeRun | .holdover | .holdoverExpired => true
  | _ => t.masterPort == 15

/-- The counter reaches `now`: a later value (R40) is taken, and a wrap of the integer part advances the era of a reach that
keeps its own timescale (R39). An earlier value changes nothing: fabric time never goes back; nor does
a domain count that stands still (R54). -/
def TimeDom.advance (t : TimeDom) (now : Time) : TimeDom :=
  if t.stopped.isNone && later t.now now then
    { t with now := now, era := if now.toNat < t.now.toNat && t.ownScale then t.era + 1 else t.era }
  else t

/-- A timed command arrives at fabric time `now` of reach `r`. -/
def Chip.at (c : Chip) (r : ReachId) (now : Time) : Chip :=
  c.onReach r (fun x => { x with time := x.time.advance now })

/-- Fabric time of a reach. -/
def Chip.now (c : Chip) (r : ReachId) : Time := (c.reach r).time.now

/-- The reach has fabric time: LOCKED or HOLDOVER. -/
def TimeDom.steady (t : TimeDom) : Bool :=
  match t.servo with
  | .locked | .holdover => true
  | _ => false

/-- The lowest-numbered reach in LOCKED or HOLDOVER. -/
def Chip.steadyReach (c : Chip) : Option ReachId := allReaches.find? (fun r => (c.reach r).time.steady)

/-- Fabric time of the gatehouse (R365): that of the lowest-numbered reach in LOCKED or HOLDOVER, else zero. -/
def Chip.gateTime (c : Chip) : Time :=
  match c.steadyReach with
  | some r => c.now r
  | none => 0

/-! ### Free values, outputs, gauges -/

/-- A fresh free value. -/
def Chip.free (c : Chip) : Word64 × Chip := (Config.freeWord c.freeCtr, { c with freeCtr := c.freeCtr + 1 })

/-- `n` free bytes. -/
def Chip.freeBytes (c : Chip) (n : Nat) : List Byte × Chip :=
  ((List.range n).map (fun i => BitVec.ofNat 8 (Config.freeWord (c.freeCtr + i)).toNat), { c with freeCtr := c.freeCtr + n })

/-- Send something out of the module. -/
def Chip.emit (c : Chip) (o : Out) : Chip := { c with sent := c.sent ++ [o] }

/-- A 48-bit saturating count (R465). -/
def sat48 (n : Nat) : Nat := min n (2 ^ 48 - 1)

/-- The key of a gauge: group, object, and its place in the group's row. -/
def gaugeKey (group obj idx : Nat) : Nat := (group * 2 ^ 32 + obj) * 256 + idx

/-- Add to a gauge of a reach. -/
def Reach.gaugeAdd (x : Reach) (group obj idx n : Nat) : Reach :=
  { x with gauges := Tab.modify x.gauges (gaugeKey group obj idx) 0 (fun v => sat48 (v + n)) }

/-- Raise a maximum gauge of a reach. -/
def Reach.gaugeMax (x : Reach) (group obj idx n : Nat) : Reach :=
  { x with gauges := Tab.modify x.gauges (gaugeKey group obj idx) 0 (fun v => max v n) }

/-- A gauge of a reach. -/
def Reach.gauge (x : Reach) (group obj idx : Nat) : Nat := Tab.getD x.gauges (gaugeKey group obj idx) 0

/-- An alert record for the management controller (R521): ALERT_N is asserted while one is unread. -/
def Chip.alert (c : Chip) (kind : Nat) (reach : Nat) (arg : Word64) : Chip :=
  { c with gate := { c.gate with alerts := c.gate.alerts ++
      [{ kind := BitVec.ofNat 8 kind, reach := BitVec.ofNat 3 reach, arg := arg, time := c.gateTime }] } }

/-- ALERT_N is asserted (R521). -/
def Chip.alertAsserted (c : Chip) : Bool := !c.gate.alerts.isEmpty

/-- A tile-array reset of a reach-local tile is in progress. -/
def Chip.tileResets (c : Chip) (r : ReachId) (t : Nat) : Bool :=
  c.gate.tileResets.any (fun k => k.reach == r && k.mask.toNat.testBit (t / 16))

/-- Apply a change for every member of a list, in order. -/
def forEach {α σ : Type} (l : List α) (s : σ) (f : σ → α → σ) : σ := l.foldl f s

end Sys2Proof.Machine
end

