-- ==== Sys2Proof/Machine/Arith.lean ====
section
/-!
DEFINITION. Number formats and rounding (R73 to R79, R83, R95 to R98): exact values, element codes, and the output
conversion of one element or of one MX block. Every value is exact: a sign, a magnitude `m` and a power of two.
-/

namespace Sys2Proof.Machine

/-- An exact value. -/
inductive Val where
  | fin (neg : Bool) (m : Nat) (e : Int)
  | inf (neg : Bool)
  | nan
  deriving DecidableEq, Repr

/-- Positive zero. -/
def Val.zero : Val := .fin false 0 0
/-- One. -/
def Val.one : Val := .fin false 1 0

/-- The value is a zero of either sign. -/
def Val.isZero : Val → Bool
  | .fin _ m _ => m == 0
  | _ => false
/-- The value is NaN. -/
def Val.isNan (v : Val) : Bool := v == .nan
/-- The value is an infinity. -/
def Val.isInf : Val → Bool
  | .inf _ => true
  | _ => false
/-- The sign. -/
def Val.neg : Val → Bool
  | .fin n _ _ => n
  | .inf n => n
  | .nan => false
/-- Change the sign. -/
def Val.flip : Val → Val
  | .fin n m e => .fin (!n) m e
  | .inf n => .inf (!n)
  | .nan => .nan

/-- A natural number shifted by a signed count, low bits falling away. -/
def shiftBy (m : Nat) (s : Int) : Nat := if 0 ≤ s then m * 2 ^ s.toNat else m / 2 ^ (-s).toNat

/-- floor(log2) of m × 2^e, for m above zero. -/
def ilog (m : Nat) (e : Int) : Int := (Nat.log2 m : Int) + e

/-- Order of two magnitudes m₁ × 2^e₁ and m₂ × 2^e₂: the first is below the second. -/
def magLt (m₁ : Nat) (e₁ : Int) (m₂ : Nat) (e₂ : Int) : Bool :=
  let e := min e₁ e₂
  decide (shiftBy m₁ (e₁ - e) < shiftBy m₂ (e₂ - e))

/-! ### Flags of TILE_AFLAGS (R108) -/

def fNanIn : Nat := 1
def fInv : Nat := 2
def fDivz : Nat := 4
def fOvf : Nat := 8
def fClamp : Nat := 16
def fScaleClamp : Nat := 32
def fUnf : Nat := 64
def fInexact : Nat := 128
def fTrunc : Nat := 256
def fOob : Nat := 512
def fSpill : Nat := 1024
def fPass : Nat := 2048

/-- A flag where a condition holds. -/
def flagIf (b : Bool) (f : Nat) : Nat := if b then f else 0

/-! ### Formats (R73, R74) -/

/-- How a format encodes what is not finite. -/
inductive Special where
  | ieee | e4m3 | none
  deriving DecidableEq, Repr

/-- A floating-point element layout. -/
structure FloatFmt where
  exp : Nat
  bias : Int
  man : Nat
  special : Special
  deriving DecidableEq, Repr

/-- The floating-point layout of a format code; none for MXINT8, AP128 and the reserved codes. -/
def floatFmt : Nat → Option FloatFmt
  | 0 => some ⟨8, 127, 23, .ieee⟩
  | 1 => some ⟨8, 127, 7, .ieee⟩
  | 2 => some ⟨5, 15, 10, .ieee⟩
  | 3 => some ⟨4, 7, 3, .e4m3⟩
  | 4 => some ⟨5, 15, 2, .ieee⟩
  | 5 => some ⟨2, 1, 3, .none⟩
  | 6 => some ⟨3, 3, 2, .none⟩
  | 7 => some ⟨2, 1, 1, .none⟩
  | _ => none

/-- Element bits of a format code. -/
def elemBits : Nat → Nat
  | 0 => 32 | 1 => 16 | 2 => 16 | 3 => 8 | 4 => 8 | 5 => 6 | 6 => 6 | 7 => 4 | 8 => 8 | 9 => 128 | _ => 8

/-- An MX format. -/
def isMx (f : Nat) : Bool := decide (3 ≤ f) && decide (f ≤ 8)

/-- The largest finite magnitude of a floating-point layout, m × 2^e. -/
def FloatFmt.maxMag (x : FloatFmt) : Nat × Int :=
  match x.special with
  | .ieee => (2 ^ (x.man + 1) - 1, (2 ^ x.exp - 2 : Int) - x.bias - x.man)
  | .e4m3 => (2 ^ (x.man + 1) - 2, (2 ^ x.exp - 1 : Int) - x.bias - x.man)
  | .none => (2 ^ (x.man + 1) - 1, (2 ^ x.exp - 1 : Int) - x.bias - x.man)

/-- The value of a floating-point code. -/
def FloatFmt.decode (x : FloatFmt) (code : Nat) : Val :=
  let m := code % 2 ^ x.man
  let e := (code / 2 ^ x.man) % 2 ^ x.exp
  let s := natBit code (x.man + x.exp)
  let finite : Val :=
    if e = 0 then .fin s m (1 - x.bias - x.man) else .fin s (2 ^ x.man + m) ((e : Int) - x.bias - x.man)
  match x.special with
  | .ieee => if e = 2 ^ x.exp - 1 then (if m = 0 then .inf s else .nan) else finite
  | .e4m3 => if e = 2 ^ x.exp - 1 ∧ m = 2 ^ x.man - 1 then .nan else finite
  | .none => finite

/-- The code of a magnitude k × 2^q that the format holds exactly, q no lower than its smallest unit. -/
def FloatFmt.encodeMag (x : FloatFmt) (k : Nat) (q : Int) : Nat :=
  let k' := if 2 ^ (x.man + 1) ≤ k then k / 2 else k
  let q' := if 2 ^ (x.man + 1) ≤ k then q + 1 else q
  if k' < 2 ^ x.man then k' else (q' + x.man + x.bias).toNat * 2 ^ x.man + (k' - 2 ^ x.man)

/-- A value times 2^s. -/
def Val.scale : Val → Int → Val
  | .fin n m e, s => .fin n m (e + s)
  | v, _ => v

/-- The value of an MXINT8 code (R74, R77): two's complement times 2^-6. -/
def int8Val (code : Nat) : Val :=
  let c := code % 256
  if c < 128 then .fin false c (-6) else .fin true (256 - c) (-6)

/-- The value of an element code; `scale` is the block's scale byte in an MX format (R75), `p` the anchor of an AP128
element (R92). -/
def decodeElem (fmt code scale : Nat) (p : Int) : Val :=
  if isMx fmt then
    if scale = 255 then .nan
    else
      let v := match floatFmt fmt with
        | some x => x.decode code
        | none => int8Val code
      v.scale ((scale : Int) - 127)
  else
    match floatFmt fmt with
    | some x => x.decode code
    | none =>
      let i := (BitVec.ofNat 128 code).toInt
      .fin (decide (i < 0)) i.natAbs (p - 96)

/-! ### Rounding -/

/-- How an element is rounded: to nearest even, or stochastically with a draw (R96, R98). -/
inductive Rounding where
  | even
  | draw (r : Nat)
  deriving DecidableEq, Repr

/-- Round m × 2^e to a whole number of units 2^q: the count, and whether a remainder was discarded (R96, R98). -/
def roundUnits (w : Rounding) (m : Nat) (e q : Int) : Nat × Bool :=
  if q ≤ e then (shiftBy m (e - q), false)
  else
    let s := (q - e).toNat
    let k := m / 2 ^ s
    let rem := m % 2 ^ s
    if rem = 0 then (k, false)
    else
      let up : Bool := match w with
        | .even => decide (2 ^ s < 2 * rem) || (decide (2 * rem = 2 ^ s) && k % 2 == 1)
        | .draw r => decide (r < rem * 2 ^ 32 / 2 ^ s)
      (if up then k + 1 else k, true)

/-- The unit of the last place for a magnitude m × 2^e in a layout. -/
def FloatFmt.unit (x : FloatFmt) (m : Nat) (e : Int) : Int := max (ilog m e - x.man) (1 - x.bias - x.man)

/-- Round a non-zero magnitude to a layout's precision, its exponent range without upper limit: (k, q, inexact). -/
def FloatFmt.roundMag (x : FloatFmt) (w : Rounding) (m : Nat) (e : Int) : Nat × Int × Bool :=
  let q := x.unit m e
  let (k, inexact) := roundUnits w m e q
  (k, q, inexact)

/-- The magnitude m × 2^e overflows a layout (R79): judged after rounding to nearest, on the exact value when drawn. -/
def FloatFmt.overflows (x : FloatFmt) (w : Rounding) (m : Nat) (e : Int) : Bool :=
  let (mm, me) := x.maxMag
  match w with
  | .even => let (k, q, _) := x.roundMag .even m e; magLt mm me k q
  | .draw _ => magLt mm me m e

/-- The code of a sign and a magnitude code. -/
def FloatFmt.signed (x : FloatFmt) (neg : Bool) (mag : Nat) : Nat := bitAt neg (x.man + x.exp) + mag

/-- The code of the largest finite magnitude. -/
def FloatFmt.maxCode (x : FloatFmt) : Nat := let (m, e) := x.maxMag; x.encodeMag m e

/-- The code of infinity in a layout that has one. -/
def FloatFmt.infCode (x : FloatFmt) : Nat := (2 ^ x.exp - 1) * 2 ^ x.man

/-- The canonical NaN of a layout that has one (R78). -/
def FloatFmt.nanCode (x : FloatFmt) : Nat :=
  match x.special with
  | .e4m3 => 2 ^ (x.exp + x.man) - 1
  | _ => (2 ^ x.exp - 1) * 2 ^ x.man + 2 ^ (x.man - 1)

/-- An infinite or overflowing result of FP32, BF16 or FP16 (R79): the largest finite magnitude, or infinity under
OVF_MODE 1. -/
def FloatFmt.overflowCode (x : FloatFmt) (ovfInf neg : Bool) : Nat :=
  x.signed neg (if ovfInf && x.special == .ieee then x.infCode else x.maxCode)

/-- Round one value to FP32, BF16 or FP16 (R79, R95, R96, R98): the code and the flags. -/
def roundFloat (x : FloatFmt) (w : Rounding) (ovfInf : Bool) (v : Val) : Nat × Nat :=
  match v with
  | .nan => (x.nanCode, 0)
  | .inf n => (x.overflowCode ovfInf n, flagIf (!ovfInf) fOvf)
  | .fin n m e =>
    if m = 0 then (0, 0)
    else if x.overflows w m e then (x.overflowCode ovfInf n, fOvf ||| fInexact)
    else
      let (k, q, inexact) := x.roundMag w m e
      (x.signed n (x.encodeMag k q), flagIf inexact fInexact ||| flagIf (k == 0) fUnf)

/-- emax of an MX format (R97). -/
def mxEmax : Nat → Int
  | 3 => 8 | 4 => 15 | 5 => 2 | 6 => 4 | 7 => 2 | _ => 0

/-- Round one finite element, already divided by its scale, to an MX element format (R97): code and flags. -/
def roundMxElem (fmt : Nat) (w : Rounding) (n : Bool) (m : Nat) (e : Int) : Nat × Nat :=
  if m = 0 then (0, 0)
  else match floatFmt fmt with
    | some x =>
      let (mm, me) := x.maxMag
      let ovr := match w with
        | .even => let (k, q, _) := x.roundMag .even m e; magLt mm me k q
        | .draw _ => magLt mm me m e
      if ovr then (x.signed n x.maxCode, fClamp ||| fInexact)
      else
        let (k, q, inexact) := x.roundMag w m e
        (x.signed n (x.encodeMag k q), flagIf inexact fInexact ||| flagIf (k == 0) fUnf)
    | none =>
      let ovr := match w with
        | .even => decide (127 < (roundUnits .even m e (-6)).1)
        | .draw _ => magLt 127 (-6) m e
      if ovr then (if n then 0x81 else 0x7F, fClamp ||| fInexact)
      else
        let (k, inexact) := roundUnits w m e (-6)
        (if n then (256 - k) % 256 else k, flagIf inexact fInexact ||| flagIf (k == 0) fUnf)

/-- An infinite element in an MX format (table "Overflow results"): code and flags. -/
def mxInf (fmt : Nat) (ovfInf n : Bool) : Nat × Nat :=
  match floatFmt fmt with
  | some x =>
    if ovfInf && x.special == .ieee then (x.signed n x.infCode, 0) else (x.signed n x.maxCode, fOvf)
  | none => (if n then 0x81 else 0x7F, fOvf)

/-- The largest floor(log2 |v|) over the finite non-zero values of a list. -/
def maxLog (vs : List Val) : Option Int :=
  vs.foldl (fun o v => match v with
    | .fin _ m e => if m = 0 then o else some (match o with | some x => max x (ilog m e) | none => ilog m e)
    | _ => o) none

/-- The scale exponent X of an MX block of exact values, and whether it was clamped (R97). -/
def blockScale (fmt : Nat) (vs : List Val) : Int × Bool :=
  match maxLog vs with
  | none => (-127, false)
  | some l =>
    let x := l - mxEmax fmt
    if 127 < x then (127, true) else if x < -127 then (-127, true) else (x, false)

/-- Convert one MX block (R78, R79, R97): the scale byte, the 32 element codes (one for each value given) and the flags. A
NaN in a format without one sets the scale to 0xFF and every element to zero. DESIGN CHOICE (assumption 91): of such a block's flags only
SCALE_CLAMP is set; R97 does not say whether the flags of its other elements, which are written as zero, are. -/
def roundBlock (fmt : Nat) (ovfInf : Bool) (vs : List (Rounding × Val)) : Nat × List Nat × Nat :=
  let (x, clamped) := blockScale fmt (vs.map (fun e => e.2))
  let noNan := match floatFmt fmt with | some y => y.special == .none | none => true
  if noNan && vs.any (fun e => e.2.isNan) then (255, vs.map (fun _ => 0), flagIf clamped fScaleClamp)
  else
    let out := vs.map (fun e => match e.2 with
      | .nan => (match floatFmt fmt with
        | some y => (y.nanCode, 0)
        | none => (0, 0))
      | .inf n => mxInf fmt ovfInf n
      | .fin n m ex => roundMxElem fmt e.1 n m (ex - x))
    ((x + 127).toNat, out.map (fun e => e.1), out.foldl (fun f e => f ||| e.2) (flagIf clamped fScaleClamp))

/-! ### Arithmetic on exact values -/

/-- The signed integer m × 2^(e - q) of a value's magnitude, q no higher than e. -/
def signedAt (n : Bool) (m : Nat) (e q : Int) : Int :=
  let k : Int := (shiftBy m (e - q) : Nat)
  if n then -k else k

/-- An exact sum, with its flags: opposed infinities give NaN and INV. The sum of two negative zeros is negative zero. -/
def Val.add (a b : Val) : Val × Nat :=
  match a, b with
  | .nan, _ => (.nan, 0)
  | _, .nan => (.nan, 0)
  | .inf x, .inf y => if x = y then (.inf x, 0) else (.nan, fInv)
  | .inf x, _ => (.inf x, 0)
  | _, .inf y => (.inf y, 0)
  | .fin x m e, .fin y k f =>
    let q := min e f
    let s := signedAt x m e q + signedAt y k f q
    if s = 0 then (.fin (x && y) 0 0, 0) else (.fin (decide (s < 0)) s.natAbs q, 0)

/-- An exact product, with its flags: infinity times zero gives NaN and INV. -/
def Val.mul (a b : Val) : Val × Nat :=
  match a, b with
  | .nan, _ => (.nan, 0)
  | _, .nan => (.nan, 0)
  | .inf x, b => if b.isZero then (.nan, fInv) else (.inf (x != b.neg), 0)
  | a, .inf y => if a.isZero then (.nan, fInv) else (.inf (a.neg != y), 0)
  | .fin x m e, .fin y k f => (.fin (x != y) (m * k) (e + f), 0)

/-- a < b in numeric order, the two zeros equal; false with a NaN (R99). -/
def Val.lt (a b : Val) : Bool :=
  match a, b with
  | .nan, _ => false
  | _, .nan => false
  | .inf x, .inf y => x && !y
  | .inf x, _ => x
  | _, .inf y => !y
  | .fin x m e, .fin y k f => let q := min e f; decide (signedAt x m e q < signedAt y k f q)

/-- The total order below NaN of R99 and R102: numeric, negative zero below positive zero, NaN above everything. -/
def Val.below (a b : Val) : Bool :=
  match a, b with
  | .nan, _ => false
  | _, .nan => true
  | _, _ => a.lt b || (a.isZero && b.isZero && a.neg && !b.neg)

/-- Minimum and maximum of R99: NaN if either is NaN, negative zero below positive zero. -/
def Val.min (a b : Val) : Val := if a.isNan || b.isNan then .nan else if b.below a then b else a
def Val.max (a b : Val) : Val := if a.isNan || b.isNan then .nan else if a.below b then b else a

/-! ### Draws (R98) and the digest mixer (R187) -/

/-- The mixer shared by R98 and R187. -/
def mix (x : Word64) : Word64 :=
  let x := (x ^^^ (x >>> 30)) * 0xBF58476D1CE4E5B9
  let x := (x ^^^ (x >>> 27)) * 0x94D049BB133111EB
  x ^^^ (x >>> 31)

/-- sr_bits of R98. -/
def srBits (seed : Word64) (tid : Word32) (idx : Nat) : Nat :=
  let k := seed ^^^ (BitVec.ofNat 64 tid.toNat * 0xD1B54A32D192ED03)
  let one := fun (x : Word64) (i : Nat) => mix (x + k + BitVec.ofNat 64 i * 0x9E3779B97F4A7C15)
  (one (one (one (one (BitVec.ofNat 64 idx) 1) 2) 3) 4).toNat / 2 ^ 32

/-! ### The arithmetic control word (R93) -/

/-- The arithmetic control word of a step header. -/
structure Acw where
  out : Nat
  sr : Bool
  ovfInf : Bool
  plan : Bool
  p : Int
  deriving DecidableEq, Repr

/-- The control word of a step header word (R93, R114). -/
def acwOf (hdr : Word64) : Acw :=
  { out := fld hdr 16 4, sr := flag hdr 20, ovfInf := flag hdr 21, plan := flag hdr 22,
    p := (BitVec.ofNat 16 (fld hdr 32 16)).toInt }

/-! ### Lanes (R99) -/

/-- The floating-point layout of a lane format: BF16 or FP32. -/
def laneFmt (bf16 : Bool) : FloatFmt := if bf16 then ⟨8, 127, 7, .ieee⟩ else ⟨8, 127, 23, .ieee⟩

/-- Round to the lane format, to nearest even, overflow giving infinity (IEEE 754-2019): the lane value and the flags. A zero
keeps its sign. -/
def laneRound (bf16 : Bool) (v : Val) : Val × Nat :=
  match v with
  | .fin n m e =>
    if m = 0 then (v, 0)
    else
      let x := laneFmt bf16
      if x.overflows .even m e then (.inf n, fOvf ||| fInexact)
      else
        let (k, q, inexact) := x.roundMag .even m e
        (.fin n k q, flagIf inexact fInexact ||| flagIf (k == 0) fUnf)
  | _ => (v, 0)

end Sys2Proof.Machine
end

