-- ==== Sys2Proof/Machine/Tensor.lean ====
section
/-!
DEFINITION. Tensors in a tile's scratchpad: operand descriptors and layouts (R76, R116), tensor records (R82 to R84), and the
writing of a step's outputs with their flags, ceilings and digest folds (R95, R187).
-/

namespace Sys2Proof.Machine

/-! ### Descriptors and records -/

/-- An operand descriptor (R116). -/
structure Operand where
  data : Nat
  scale : Nat
  elem : Nat
  trans : Bool
  patch : Bool
  rec_ : Nat
  deriving DecidableEq, Repr

/-- The descriptor in an operand word. -/
def operandOf (w : Word64) : Operand :=
  { data := fld w 0 23, scale := fld w 23 23, elem := fld w 46 4, trans := flag w 50, patch := flag w 51,
    rec_ := fld w 52 10 }

/-- A tensor record of a tile's table. -/
def Tile.record (t : Tile) (i : Nat) : BitVec 128 := Tab.getD t.recs i 0

/-- CEIL_VALID of a record. -/
def recValid (x : BitVec 128) : Bool := x.toNat.testBit 8
/-- CEIL of a record. -/
def recCeil (x : BitVec 128) : Int := (BitVec.ofNat 16 (natBits x.toNat 16 16)).toInt
/-- TID of a record. -/
def recTid (x : BitVec 128) : Word32 := BitVec.ofNat 32 (natBits x.toNat 32 32)
/-- LIDX_BASE of a record. -/
def recLidx (x : BitVec 128) : Nat := natBits x.toNat 64 48

/-- A record with CEIL_VALID cleared (R84). -/
def recClear (x : BitVec 128) : BitVec 128 := x &&& ~~~ (BitVec.ofNat 128 256)

/-- A record with its ceiling stored and valid (R84). -/
def recStore (x : BitVec 128) (ceil : Int) : BitVec 128 :=
  ((x &&& ~~~ (BitVec.ofNat 128 0xFFFF0100)) ||| BitVec.ofNat 128 (256 + (BitVec.ofInt 16 ceil).toNat * 65536))

/-- Change a record of a tile; a record of zero is not listed. -/
def Tile.setRecord (t : Tile) (i : Nat) (x : BitVec 128) : Tile :=
  { t with recs := if x = 0 then Tab.erase t.recs i else Tab.set t.recs i x }

/-! ### Elements in scratchpad -/

/-- A count padded to a whole multiple of 32. -/
def pad32 (n : Nat) : Nat := (n + 31) / 32 * 32

/-- The code of the element at position `i` of a packed plane (R76). -/
def readCode (sp : Mem) (fmt data i : Nat) : Nat :=
  let w := elemBits fmt
  let s := i * w % 8
  natBits (Mem.readLe sp (data + i * w / 8) ((s + w + 7) / 8)) s w

/-- Put the code of the element at position `i`, the bits beside it unchanged. -/
def writeCode (sp : Mem) (fmt data i code : Nat) : Mem :=
  let w := elemBits fmt
  let s := i * w % 8
  let n := (s + w + 7) / 8
  let a := data + i * w / 8
  let old := Mem.readLe sp a n
  Mem.writeLe sp a n (old - natBits old s w * 2 ^ s + code % 2 ^ w * 2 ^ s)

/-- The value at position `i` of a tensor in format `fmt`, its planes at `data` and `scale`. -/
def readVal (sp : Mem) (fmt data scale : Nat) (p : Int) (i : Nat) : Val :=
  decodeElem fmt (readCode sp fmt data i) (if isMx fmt then (Mem.read sp (scale + i / 32)).toNat else 0) p

/-! ### Outputs -/

/-- What a step's output conversion is given: control word, planes, seed, and the output record's TID and LIDX_BASE.
`fixed` says that values are lane results that keep their bits (R99, R100). -/
structure EmitCfg where
  acw : Acw
  data : Nat
  scale : Nat
  seed : Word64
  tid : Word32
  lidx : Nat
  fixed : Bool
  deriving DecidableEq, Repr

/-- What output conversion has done so far: scratchpad, flags, the largest ceiling exponent, the open digest slot. -/
structure Emit where
  spad : Mem
  flags : Nat
  ceil : Option Int
  slot : Option DigestSlot
  deriving DecidableEq, Repr

/-- How the element of logical position `i` is rounded (R96, R98). -/
def EmitCfg.rounding (g : EmitCfg) (i : Nat) : Rounding :=
  if g.acw.sr then .draw (srBits g.seed g.tid (g.lidx + i)) else .even

/-- An open slot with nothing folded (R143). -/
def DigestSlot.fresh (layer : Word16) : DigestSlot :=
  { layer := layer, count := 0, sumA := 0, sumB := 0, xorC := 0, nan := 0, inf := 0 }

/-- A 32-bit count of R187 raised by another, saturating. -/
def satSum (a b : Word32) : Word32 := BitVec.ofNat 32 (min (a.toNat + b.toNat) 0xFFFFFFFF)

/-- The 64-byte layer digest value (R188). -/
def digestBytes (d : DigestSlot) : List Byte :=
  leBytes 4 (1 + d.layer.toNat * 2 ^ 16) ++ leBytes 4 0 ++ leBytes 8 d.count.toNat ++ leBytes 8 d.sumA.toNat
    ++ leBytes 8 d.sumB.toNat ++ leBytes 8 d.xorC.toNat ++ leBytes 8 (d.nan.toNat + d.inf.toNat * 2 ^ 32)
    ++ List.replicate 16 0

/-- The digest slots that 64-byte values hold; a value with FMT 0 is no open slot. -/
def digestsOf (n : Nat) (b : List Byte) : List DigestSlot :=
  (List.range n).filterMap (fun i =>
    let w := fun k => BitVec.ofNat 64 (leAt b (64 * i + 8 * k) 8)
    if leAt b (64 * i) 2 % 16 = 1 then
      some { layer := BitVec.ofNat 16 (leAt b (64 * i + 2) 2), count := w 1, sumA := w 2, sumB := w 3, xorC := w 4,
             nan := (w 5).extractLsb' 0 32, inf := (w 5).extractLsb' 32 32 }
    else none)

/-- The folds of two sets of elements in one slot: every part of R187 is a sum, whatever the order. -/
def DigestSlot.merge (s d : DigestSlot) : DigestSlot :=
  { s with count := s.count + d.count, sumA := s.sumA + d.sumA, sumB := s.sumB + d.sumB, xorC := s.xorC ^^^ d.xorC,
           nan := satSum s.nan d.nan, inf := satSum s.inf d.inf }

/-- The folds of a step that has ended join its tile's open slots. -/
def Tile.addFolds (t : Tile) (l : List DigestSlot) : Tile :=
  { t with digests := t.digests.map (fun s => match l.find? (fun d => d.layer == s.layer) with | some d => s.merge d | none => s) }

/-- Fold one element into a digest slot (R187). -/
def DigestSlot.fold (s : DigestSlot) (tid : Word32) (idx fmt lo hi : Nat) (v : Val) : DigestSlot :=
  let k := (BitVec.ofNat 64 tid.toNat * 0xD1B54A32D192ED03) ^^^ BitVec.ofNat 64 (idx * 16) ^^^ BitVec.ofNat 64 fmt
  let a := mix (k ^^^ BitVec.ofNat 64 lo)
  let b := mix (a + BitVec.ofNat 64 hi + 0x9E3779B97F4A7C15)
  let c := mix (b ^^^ 0xC2B2AE3D27D4EB4F)
  { s with count := s.count + 1, sumA := s.sumA + a, sumB := s.sumB + b, xorC := s.xorC ^^^ c,
           nan := if v.isNan && s.nan != 0xFFFFFFFF then s.nan + 1 else s.nan,
           inf := if v.isInf && s.inf != 0xFFFFFFFF then s.inf + 1 else s.inf }

/-- The larger of two exponents where there is one. -/
def maxOpt (a : Option Int) (b : Int) : Option Int :=
  match a with
  | some x => some (max x b)
  | none => some b

/-- The exponent that a finite non-zero value counts with in a ceiling of R83. -/
def ceilWith (o : Option Int) : Val → Option Int
  | .fin _ m e => if m = 0 then o else maxOpt o (ilog m e)
  | _ => o

/-- One element is written: its code, what it folds into the digest, and its share of the ceiling. -/
def Emit.put (x : Emit) (g : EmitCfg) (pos idx code scale flags : Nat) : Emit :=
  let f := g.acw.out
  let v := decodeElem f code scale g.acw.p
  let lo := if f == 9 then code % 2 ^ 64 else if isMx f then code + scale * 256 else code
  let hi := if f == 9 then code / 2 ^ 64 % 2 ^ 64 else 0
  { spad := writeCode x.spad f g.data pos code, flags := x.flags ||| flags,
    ceil := if isMx f then x.ceil else ceilWith x.ceil v,
    slot := x.slot.map (fun s => s.fold g.tid (g.lidx + idx) f lo hi v) }

/-- The AP128 code of an exact value that is a whole multiple of 2^(P - 96) (R92). -/
def apCode (p : Int) : Val → Nat
  | .fin n m e => (BitVec.ofInt 128 (signedAt n m e (p - 96))).toNat
  | _ => 0

/-- The code of a position of an MX block beyond the last output: free, but never the MXINT8 code 0x80, which the module never writes (R77). -/
def padCode (f old : Nat) : Nat := let c := Config.mxPad f old; if f == 8 && c % 256 == 0x80 then 0 else c

/-- Write up to 32 elements from position `pos`, which begins a block, at logical positions from `idx` in steps of `by_` (R95, R97). What the
positions of an MX block beyond the last output come to hold is free. DESIGN CHOICE (assumption 92): where a lane result keeps its bits
(`fixed`), an infinite result of a function of R100 stays infinite under OVF_MODE 0 as well; R79 saturates infinite results, R99 and R100
round the fixed lane result again only where OUT_FMT differs. -/
def Emit.block (x : Emit) (g : EmitCfg) (pos idx by_ : Nat) (vs : List Val) : Emit :=
  let f := g.acw.out
  let ws := vs.zipIdx.map (fun e => (g.rounding (idx + by_ * e.2), e.1))
  if isMx f then
    let (sc, codes, flags) := roundBlock f g.acw.ovfInf ws
    let pad := (List.range (32 - vs.length)).map (fun k => padCode f (readCode x.spad f g.data (pos + vs.length + k)))
    let codes := if sc == 255 then List.replicate 32 0 else codes ++ pad
    let y := { x with spad := Mem.write x.spad (g.scale + pos / 32) (BitVec.ofNat 8 sc), flags := x.flags ||| flags,
                      ceil := if sc == 255 then x.ceil else maxOpt x.ceil ((sc : Int) - 127) }
    codes.zipIdx.foldl (fun y e =>
      if e.2 < vs.length then y.put g (pos + e.2) (idx + by_ * e.2) e.1 sc 0
      else { y with spad := writeCode y.spad f g.data (pos + e.2) e.1 }) y
  else
    ws.zipIdx.foldl (fun y e =>
      let (code, flags) :=
        if f == 9 then (apCode g.acw.p e.1.2, 0)
        else match floatFmt f with
          | some l =>
            (match e.1.2 with
            | .fin true 0 _ => if g.fixed then (l.signed true 0, 0) else (0, 0)
            | v => roundFloat l e.1.1 (g.fixed || g.acw.ovfInf) v)
          | none => (0, 0)
      y.put g (pos + e.2) (idx + by_ * e.2) code 0 flags) x

/-- Cut a list into pieces of 32. -/
def chunks32 {α : Type} : Nat → List α → List (List α)
  | 0, _ => []
  | n + 1, l => if l.isEmpty then [] else l.take 32 :: chunks32 n (l.drop 32)

/-- Write one stored row of values from position `pos` (a whole number of blocks), logical positions from `idx`. -/
def Emit.row (x : Emit) (g : EmitCfg) (pos idx : Nat) (vs : List Val) : Emit :=
  (chunks32 vs.length vs).zipIdx.foldl (fun y e => y.block g (pos + 32 * e.2) (idx + 32 * e.2) 1 e.1) x

/-- Words that a step writes beside its tensor elements are folded as elements of OUT_FMT, from logical position `idx` on: `vs` says which of them
are numbers that may be NaN or infinite (R187, assumption 93). -/
def Emit.foldWords (x : Emit) (g : EmitCfg) (idx : Nat) (ws : List (Nat × Val)) : Emit :=
  ws.zipIdx.foldl (fun x e => { x with slot := x.slot.map (fun s => s.fold g.tid (g.lidx + idx + e.2) g.acw.out e.1.1 0 e.1.2) }) x

/-- The ceiling a record gets when nothing in it qualifies (R83). -/
def ceilFloor (f : Nat) (p : Int) : Int :=
  match f with
  | 0 => -149 | 1 => -133 | 2 => -24 | 9 => p - 96 | _ => -127

/-! ### What a compute step does to its tile -/

/-- The outcome of a compute step: scratchpad, flags, digest slots, the ceiling its output record will get, the failure it
met (R109), and the bytes of its outputs: first address and count of the data, and of the scale plane. -/
structure Comp where
  spad : Mem
  flags : Nat
  slots : List DigestSlot
  ceil : Int
  fail : Option Nat
  outAddr : Nat
  outBytes : Nat
  scaleAddr : Nat
  scaleBytes : Nat
  deriving DecidableEq, Repr

/-- The output configuration of a step with control word `acw` and destination `o` (R98: TID and LIDX_BASE of the output
record). -/
def Tile.emitCfg (t : Tile) (acw : Acw) (seed : Word64) (o : Operand) (fixed : Bool) : EmitCfg :=
  { acw := acw, data := o.data, scale := o.scale, seed := seed, tid := recTid (t.record o.rec_),
    lidx := recLidx (t.record o.rec_), fixed := fixed }

/-- The open slot that a step folds into: the slot of its LAYER where DIGEST_EN is 1 (R143). -/
def Tile.slotOf (t : Tile) (hdr : Word64) : Option DigestSlot :=
  if flag hdr 13 then t.digests.find? (fun s => s.layer.toNat == fld hdr 48 16) else none

/-- An output conversion that has written nothing yet. -/
def Tile.emitStart (t : Tile) (hdr : Word64) (flags : Nat) : Emit :=
  { spad := t.spad, flags := flags, ceil := none, slot := t.slotOf hdr }

/-- The outcome of a step whose outputs are all written. -/
def Tile.comp (t : Tile) (g : EmitCfg) (x : Emit) (positions : Nat) : Comp :=
  { spad := x.spad, flags := x.flags,
    slots := match x.slot with
      | some s => t.digests.map (fun d => if d.layer == s.layer then s else d)
      | none => t.digests
    ceil := x.ceil.getD (ceilFloor g.acw.out g.acw.p), fail := none, outAddr := g.data,
    outBytes := (positions * elemBits g.acw.out + 7) / 8, scaleAddr := g.scale,
    scaleBytes := if isMx g.acw.out then (positions + 31) / 32 else 0 }

/-- The outcome of a step that fails (R109): what it would have written is unspecified (Machine/Steps.lean puts free bytes
there). -/
def Tile.compFail (t : Tile) (g : EmitCfg) (flags code positions : Nat) : Comp :=
  { spad := t.spad, flags := flags, slots := t.digests, ceil := 0, fail := some code, outAddr := g.data,
    outBytes := (positions * elemBits g.acw.out + 7) / 8, scaleAddr := g.scale,
    scaleBytes := if isMx g.acw.out then (positions + 31) / 32 else 0 }

end Sys2Proof.Machine
end

