-- ==== Sys2Proof/Machine/MatrixUnit.lean ====
section
/-!
DEFINITION. The matrix unit (R80, R85 to R92, R116 to R118): operands in their layouts or gathered as patches, the anchored
accumulator, and the product a MATRIX step computes.
-/

namespace Sys2Proof.Machine

/-- The shape of a MATRIX step (R118, words 4 and 5). -/
structure MatShape where
  m : Nat
  n : Nat
  k : Nat
  batch : Nat
  deriving DecidableEq, Repr

/-- The shape in a MATRIX step's operand words. -/
def matShape (hdr w4 w5 : Word64) : MatShape :=
  { m := fld w4 0 16, n := fld w4 16 16, k := fld w4 32 25,
    batch := if fld hdr 4 4 == 1 then fld w5 48 16 + 1 else 1 }

/-- Where the element (r, k) of an operand of `rows` × `ks` lies: the position in its planes (R116). -/
def storedPos (o : Operand) (rows ks g r k : Nat) : Nat :=
  if !o.trans then (g * rows + r) * pad32 ks + k
  else if isMx o.elem then g * (pad32 ks * pad32 rows) + ((k / 32) * pad32 rows + r) * 32 + k % 32
  else g * (ks * pad32 rows) + k * pad32 rows + r

/-- Stored positions of a matrix operand of `rows` × `ks` (R116). -/
def storedSize (o : Operand) (rows ks batch : Nat) : Nat :=
  if !o.trans then batch * (rows * pad32 ks)
  else if isMx o.elem then batch * (pad32 ks * pad32 rows)
  else batch * (ks * pad32 rows)

/-- Stored positions of the output of a MATRIX step: it lies as an operand with R = N whose other dimension is M (R116, assumption 40). -/
def outPositions (o : Operand) (out : Nat) (s : MatShape) : Nat := storedSize { o with elem := out } s.n s.m s.batch

/-- A patch descriptor (R117). -/
structure Patch where
  base : Nat
  h : Nat
  w : Nat
  ch : Nat
  kh : Nat
  kw : Nat
  sv : Nat
  sh : Nat
  top : Nat
  left : Nat
  deriving DecidableEq, Repr

/-- The patch descriptor at a scratchpad address. -/
def patchAt (sp : Mem) (a : Nat) : Patch :=
  { base := natBits (Mem.readLe sp a 4) 0 23, h := Mem.readLe sp (a + 4) 2, w := Mem.readLe sp (a + 6) 2,
    ch := Mem.readLe sp (a + 8) 2, kh := Mem.readLe sp (a + 10) 1, kw := Mem.readLe sp (a + 11) 1,
    sv := Mem.readLe sp (a + 12) 1, sh := Mem.readLe sp (a + 13) 1, top := Mem.readLe sp (a + 14) 1,
    left := Mem.readLe sp (a + 15) 1 }

/-- The position in the feature map of element (r, k) of a patched operand, in the order kernel row, kernel column, channel;
none where it is padding (R117). -/
def Patch.pos (d : Patch) (g r k : Nat) : Option Nat :=
  let ow := Config.patchOutWidth d.w d.left d.kw d.sh
  let y := r / ow * d.sv + k / (d.kw * d.ch)
  let x := r % ow * d.sh + k / d.ch % d.kw
  if d.top ≤ y ∧ y < d.top + d.h ∧ d.left ≤ x ∧ x < d.left + d.w then
    some (g * (d.h * d.w * d.ch) + ((y - d.top) * d.w + (x - d.left)) * d.ch + k % d.ch)
  else none

/-- One element of a matrix operand: its value, and the exponent that R89 compares with CEIL (the block's scale exponent, or
the element's own in BF16 and FP16; none for a NaN block, an infinity, a NaN or a zero). -/
def matElem (sp : Mem) (o : Operand) (rows ks g r k : Nat) : Val × Option Int :=
  let (base, pos) := if o.patch then
      let d := patchAt sp o.data
      (d.base, d.pos g r k)
    else (o.data, some (storedPos o rows ks g r k))
  match pos with
  | none => (.zero, none)
  | some i =>
    let v := readVal sp o.elem base o.scale 0 i
    let e := if isMx o.elem then
        let s := (Mem.read sp (o.scale + i / 32)).toNat
        if s = 255 then none else some ((s : Int) - 127)
      else match v with
        | .fin _ m e => if m = 0 then none else some (ilog m e)
        | _ => none
    (v, e)

/-- The offset of the top exponent of R85. -/
def topOffset : Nat → Int
  | 7 => 3 | 5 => 3 | 6 => 5 | 3 => 9 | 4 => 16 | 8 => 2 | _ => 1

/-- An accumulator (R87, R90): the integer J, the special bits, the flags, and whether a term reached 2^P. -/
structure Acc where
  j : Int
  nan : Bool
  pinf : Bool
  ninf : Bool
  flags : Nat
  range : Bool
  deriving DecidableEq, Repr

/-- The register starts at zero. -/
def Acc.zero : Acc := { j := 0, nan := false, pinf := false, ninf := false, flags := 0, range := false }

/-- Add one term, its product exact, truncated toward zero to a whole multiple of the floor (R87, R89, R90). -/
def Acc.term (x : Acc) (anchor floor : Int) (planned : Bool) (a b : Val) : Acc :=
  if a.isNan || b.isNan then { x with nan := true, flags := x.flags ||| fNanIn }
  else match a.mul b with
    | (.nan, _) => { x with nan := true, flags := x.flags ||| fInv }
    | (.inf n, _) => if n then { x with ninf := true } else { x with pinf := true }
    | (.fin n m e, _) =>
      if m = 0 then x
      else
        let q := shiftBy m (e - floor)
        let lost := decide (e < floor) && decide (q * 2 ^ (floor - e).toNat ≠ m)
        { x with j := if n then x.j - (q : Int) else x.j + (q : Int),
                 flags := x.flags ||| flagIf lost fTrunc,
                 range := x.range || (planned && decide (anchor ≤ ilog m e)) }

/-- The exact value an accumulator gives at output, and its flags (R90). -/
def Acc.value (x : Acc) (floor : Int) : Val × Nat :=
  if x.nan || (x.pinf && x.ninf) then (.nan, x.flags ||| flagIf (x.pinf && x.ninf) fInv)
  else if x.pinf then (.inf false, x.flags)
  else if x.ninf then (.inf true, x.flags)
  else (.fin (decide (x.j < 0)) x.j.natAbs floor, x.flags)

/-- One dot product over K terms. -/
def dot (sp : Mem) (a b : Operand) (s : MatShape) (anchor floor : Int) (planned : Bool) (g r c : Nat) : Acc :=
  (List.range s.k).foldl (fun x k =>
    x.term anchor floor planned (matElem sp a s.m s.k g r k).1 (matElem sp b s.n s.k g c k).1) Acc.zero

/-- An operand holds a scale or an element exponent above the ceiling in force (R89). -/
def aboveCeil (sp : Mem) (o : Operand) (rows ks batch : Nat) (ceil : Int) : Bool :=
  (List.range batch).any (fun g => (List.range rows).any (fun r => (List.range ks).any (fun k =>
    match (matElem sp o rows ks g r k).2 with
    | some e => decide (ceil < e)
    | none => false)))

/-- The outputs of one member of a product, M rows of N values, written in the layout that TRANS selects with R = N (R116): N stored rows of M;
or, with TRANS 1, M stored rows of N, and in an MX format a block row for each 32 of the M indexes. The logical position of an output counts
along the stored rows without their padding (assumption 40). -/
def Emit.member (x : Emit) (g : EmitCfg) (trans : Bool) (s : MatShape) (q : Nat) (rows : List (List Val)) : Emit :=
  let column := fun (c : Nat) => rows.map (fun row => row.getD c .zero)
  if !trans then
    (List.range s.n).foldl (fun x c => x.row g ((q * s.n + c) * pad32 s.m) ((q * s.n + c) * s.m) (column c)) x
  else if isMx g.acw.out then
    (List.range ((s.m + 31) / 32)).foldl (fun x b => (List.range s.n).foldl (fun x c =>
      x.block g (q * (pad32 s.m * pad32 s.n) + (b * pad32 s.n + c) * 32) ((q * s.m + 32 * b) * s.n + c) s.n
        (((column c).drop (32 * b)).take 32)) x) x
  else rows.zipIdx.foldl (fun x e => x.row g ((q * s.m + e.2) * pad32 s.n) ((q * s.m + e.2) * s.n) e.1) x

/-- The product of a MATRIX step (R85 to R92, R118): every output rounded once, or the failure of R89 or R92. DESIGN CHOICE (assumption 91): a
step that fails with ARITH_CEIL, which is found before any term, sets no flag; one that fails with ARITH_RANGE or ARITH_SPECIAL sets the
flags of all its terms. R109 does not say which flags a failed step sets. -/
def Tile.matrix (t : Tile) (seed : Word64) (hdr w1 w2 w3 w4 w5 : Word64) : Comp :=
  let acw := acwOf hdr
  let a := operandOf w1
  let b := operandOf w2
  let o := operandOf w3
  let s := matShape hdr w4 w5
  let g := t.emitCfg acw seed o false
  let positions := outPositions o acw.out s
  let ra := t.record a.rec_
  let rb := t.record b.rec_
  let anchor := if acw.plan then acw.p else recCeil ra + topOffset a.elem + (recCeil rb + topOffset b.elem)
  let floor := anchor - (if acw.plan then 96 else 160)
  if !acw.plan && (!recValid ra || !recValid rb || aboveCeil t.spad a s.m s.k s.batch (recCeil ra)
      || aboveCeil t.spad b s.n s.k s.batch (recCeil rb)) then t.compFail g 0 0x40 positions
  else
    let members := (List.range s.batch).map (fun q => (List.range s.m).map (fun r =>
      (List.range s.n).map (fun c => dot t.spad a b s anchor floor acw.plan q r c)))
    let accs := members.flatMap (fun rows => rows.flatMap id)
    let flags := accs.foldl (fun f x => f ||| (x.value floor).2) 0
    if accs.any (fun x => x.range) then t.compFail g flags 0x41 positions
    else if acw.out == 9 && accs.any (fun x => x.nan || x.pinf || x.ninf) then t.compFail g flags 0x42 positions
    else
      t.comp g (members.zipIdx.foldl (fun x e =>
        x.member g o.trans s e.2 (e.1.map (fun row => row.map (fun y => (y.value floor).1)))) (t.emitStart hdr flags)) positions

end Sys2Proof.Machine
end

