-- ==== Sys2Proof/Machine/Post.lean ====
section
/-!
DEFINITION. What any part of the module posts: records and events on host rings (R360 to R374, R380), command completions
(R364 to R370), trace records and triggers (R469 to R473), timing-dependent choices (R183 to R185) and health records
(chapter 15).
-/

namespace Sys2Proof.Machine

/-! ### Records on rings -/

/-- The 32 bytes of a completion record (R365). -/
def recordBytes (x : Record) (owner : Bool) : List Byte :=
  leBytes 4 (1 + bitAt owner 4 + x.kind.toNat * 2 ^ 5 + x.status.toNat * 2 ^ 8 + x.chainPos.toNat * 2 ^ 16
    + x.source.toNat * 2 ^ 24) ++ leBytes 4 x.length.toNat ++ leBytes 8 x.handle.toNat ++ leBytes 8 x.time.toNat
    ++ leBytes 8 x.result.toNat

/-- The expected OWNER of entry `k` of a ring of 2^n entries (R355). -/
def ownerBit (k n : Nat) : Bool := (k / 2 ^ n) % 2 == 0

/-- A completion or event ring has room (R360). -/
def HostRing.room (q : HostRing) : Bool := (q.posted - q.consumed).toNat < 2 ^ q.log2

/-- Where host memory of a function lies in `HostPort.mem`. -/
def hostKey (f : FnId) (iova : Nat) : Nat := f.val * 2 ^ 64 + iova % 2 ^ 64

/-- Write bytes into the host memory of a function. -/
def Chip.hostWrite (c : Chip) (f : FnId) (iova : Nat) (bs : List Byte) : Chip :=
  { c with host := { c.host with mem := Mem.writeBytes c.host.mem (hostKey f iova) bs } }

/-- The MSI-X message of a vector, or its pending bit while the vector is masked (R372). -/
def Chip.msix (c : Chip) (f : FnId) (vector : BitVec 11) : Chip :=
  if (c.fn f).masked.contains vector.toNat then
    c.onFn f (fun x => if x.pending.contains vector.toNat then x else { x with pending := vector.toNat :: x.pending })
  else c.emit (.msix f vector)

/-- Post one record at the next slot of a ring that has room, and send the ring's message when it is due (R366, R373). -/
def Chip.postNow (c : Chip) (f : FnId) (q : HostRing) (p : Posting) : Chip :=
  let k := q.posted.toNat
  let owner := ownerBit k q.log2
  let slot := k % 2 ^ q.log2
  let bs := recordBytes p.record owner
  let c := if q.kind == .event then
      c.hostWrite f (q.base.toNat + 64 * slot) (sliceBytes p.body 0 32 ++ bs)
    else c.hostWrite f (q.base.toNat + 32 * slot) bs
  let since := q.sinceMsg + 1
  let due := q.kind == .event || p.nomod || decide (max 1 q.modCount.toNat ≤ since)
  let q' := { q with posted := q.posted + 1, sinceMsg := if due then 0 else since }
  let c := c.onFn f (fun x => { x with rings := Tab.set x.rings p.ring.toNat q' })
  if due && q.vecEn then c.msix f q.vector else c

/-- Hold a record while it cannot be posted, up to 4,096 of a function; one beyond them is lost and its ring marked
(R380). -/
def Chip.hold (c : Chip) (f : FnId) (p : Posting) : Chip :=
  c.onFn f (fun x =>
    if x.held.length < 4096 then { x with held := x.held ++ [p] }
    else { x with lost := x.lost + 1, lostRings := x.lostRings ||| BitVec.ofNat 256 (2 ^ p.ring.toNat) })

/-- Post a record on a ring of a function: at once, or in order behind those that wait for room (R360), or held while the
function is absent, the port is in D3hot or the ring does not exist (R350, R379, R382). -/
def Chip.post (c : Chip) (f : FnId) (p : Posting) : Chip :=
  let x := c.fn f
  if !x.attached || c.host.d3hot || c.host.inReset then c.hold f p
  else match Tab.find? x.rings p.ring.toNat with
    | none => c.hold f p
    | some q =>
      if q.waiting.isEmpty && q.room then c.postNow f q p
      else c.onFn f (fun x => { x with rings := Tab.set x.rings p.ring.toNat { q with waiting := q.waiting ++ [p] } })

/-- Fabric time that a record of a source carries (R365). -/
def Chip.sourceTime (c : Chip) (source : Nat) : Time :=
  if h : source < 4 then c.now ⟨source, h⟩ else c.gateTime

/-- A completion record (R365). -/
def Chip.record (c : Chip) (kind status pos source : Nat) (length : Nat) (handle result : Word64) : Record :=
  { kind := BitVec.ofNat 3 kind, status := BitVec.ofNat 8 status, chainPos := BitVec.ofNat 8 pos,
    source := BitVec.ofNat 3 source, length := BitVec.ofNat 32 length, handle := handle, time := c.sourceTime source,
    result := result }

/-- Post a completion or receive record; one whose handle carries another generation than the function's is void
(R369). -/
def Chip.postRecord (c : Chip) (f : FnId) (ring : BitVec 8) (x : Record) (nomod : Bool) : Chip :=
  if x.handle.toNat % 65536 == (c.fn f).gen.toNat then
    c.post f { ring := ring, record := x, body := [], nomod := nomod }
  else c

/-- Take a chain off the list of chains taken and not done. -/
def Chip.dropChain (c : Chip) (ref : CmdRef) : Chip :=
  c.onFn ref.fn (fun x => { x with out := x.out.filter (fun t => t.handle != ref.handle) })

/-- Change a chain taken and not done. -/
def Chip.onChain (c : Chip) (ref : CmdRef) (f : TakenChain → TakenChain) : Chip :=
  c.onFn ref.fn (fun x => { x with out := x.out.map (fun t => if t.handle == ref.handle then f t else t) })

/-- The chain a reference names, while it is not done. -/
def Chip.chain? (c : Chip) (ref : CmdRef) : Option TakenChain := (c.fn ref.fn).out.find? (fun t => t.handle == ref.handle)

/-- The completion ring of a submission ring's commands: ring 1 for ring 0 (R364). A chain taken keeps the one it was taken for. -/
def Chip.cqOf (c : Chip) (ref : CmdRef) : BitVec 8 :=
  match c.chain? ref with
  | some t => t.cq
  | none =>
    match Tab.find? (c.fn ref.fn).rings ref.ring.toNat with
    | some q => if ref.ring == 0 then 1 else q.cq
    | none => 1

/-- The RING_DESTROY that a submission ring completes, once every other chain taken from it has completed (R370). -/
def HostFn.destroyDue (x : HostFn) (ring : BitVec 8) : Option CmdRef :=
  match (Tab.find? x.rings ring.toNat).bind (fun q => q.destroying) with
  | some d => if x.out.all (fun t => t.ring != ring || t.handle == d.handle) then some d else none
  | none => none

/-- Complete a command chain with a status and a result (R364, R370), and then any RING_DESTROY that waited for it. -/
def Chip.completeFuel : Nat → Chip → CmdRef → Nat → Nat → Word64 → Chip
  | 0, c, _, _, _, _ => c
  | n + 1, c, ref, source, status, result =>
    let nomod := ((c.chain? ref).map TakenChain.nomod).getD false
    let c := c.postRecord ref.fn (c.cqOf ref) (c.record 0 status 0 source 0 ref.handle result) nomod
    let c := c.dropChain ref
    match (c.fn ref.fn).destroyDue ref.ring with
    | some d =>
      let c := Chip.completeFuel n (c.onFn ref.fn (fun x => { x with rings := Tab.update x.rings ref.ring.toNat (fun q =>
        { q with destroying := none }) })) d 4 0 0
      c.onFn ref.fn (fun x => { x with rings := Tab.erase x.rings ref.ring.toNat })
    | none => c

/-- Complete a command: at most 256 rings can wait for one another. -/
def Chip.complete (c : Chip) (ref : CmdRef) (source status : Nat) (result : Word64) : Chip :=
  c.completeFuel 257 ref source status result

/-- A chain of a ring is done: the RING_DESTROY that waited for it completes. -/
def Chip.chainGone (c : Chip) (f : FnId) (ring : BitVec 8) : Chip :=
  match (c.fn f).destroyDue ring with
  | some d =>
    let c := (c.onFn f (fun x => { x with rings := Tab.update x.rings ring.toNat (fun q => { q with destroying := none }) })).complete d 4 0 0
    c.onFn f (fun x => { x with rings := Tab.erase x.rings ring.toNat })
  | none => c

/-- Complete a command that some work may owe. -/
def Chip.completeOpt (c : Chip) (ref : Option CmdRef) (source status : Nat) (result : Word64) : Chip :=
  match ref with
  | some x => c.complete x source status result
  | none => c

/-- Bit of a ring in ERROR, and any further command chains are not taken: nothing else. -/
def Chip.ringError (c : Chip) (f : FnId) (ring : BitVec 8) : Chip :=
  c.onFn f (fun x => { x with rings := Tab.update x.rings ring.toNat (fun q => { q with error := true }) })

/-! ### Trace -/

/-- Records that a share holds (R471). -/
def shareRecords : Nat := 2097152

/-- Records in a MiB. -/
def mibRecords : Nat := 32768

/-- TRC_CTRL.DEST is 1: stream mode. -/
def Chip.streaming (c : Chip) : Bool := flag c.gate.trcCtrl 1

/-- Put a record in a reach's share, in capture mode over the oldest (R471, R472); it takes the next number. -/
def Trace.put (t : Trace) (stream : Bool) (x : TraceRec) : Trace :=
  let store := t.store ++ [{ x with seq := t.seq }]
  { t with seq := t.seq + 1, made := sat48 (t.made + 1), postLeft := t.postLeft.map (· - 1),
           store := if stream then store else store.drop (store.length - shareRecords) }

/-- A source is held in stall mode (R473). -/
def Trace.holding (t : Trace) (k : Nat) : Bool := t.waiting.any (fun w => w.2 == some k)

/-- Room for one record in a reach's share: stream mode needs a free place, capture mode a place behind the trigger. -/
def Trace.room (t : Trace) (stream : Bool) : Bool :=
  if stream then decide (t.store.length < shareRecords) else t.postLeft != some 0

/-- The DROP record that stands before the next record once room returns (R473). -/
def Trace.dropRecord (t : Trace) (r : ReachId) (now : Time) : TraceRec :=
  { kind := 6, reach := r, src := 74, function := 0xFF, seq := 0, time := now, p0 := BitVec.ofNat 64 t.dropped,
    p1 := t.firstDrop }

/-- Write the DROP record if records were dropped and there is room. -/
def Trace.flushDrop (t : Trace) (r : ReachId) (stream : Bool) (now : Time) : Trace :=
  if t.dropped == 0 || !t.room stream then t
  else { t.put stream (t.dropRecord r now) with dropped := 0 }

/-- A record that meets no room is dropped and counted; its number is used up (R469, R473). -/
def Trace.lose (t : Trace) (now : Time) : Trace :=
  { t with seq := t.seq + 1, dropped := t.dropped + 1, firstDrop := if t.dropped == 0 then now else t.firstDrop,
           droppedAll := sat48 (t.droppedAll + 1) }

/-- A record that meets no room waits with its source in stall mode (R473). -/
def Trace.stall (t : Trace) (x : TraceRec) (hold : Option Nat) : Trace :=
  { t with waiting := t.waiting ++ [(x, hold)], stallSince := match t.stallSince with | some s => some s | none => some x.time,
           stallFn := if t.stallSince.isSome then t.stallFn else x.function }

/-- A unit of a reach makes a trace record (R469 to R473): nothing unless EN and the kind's bit are 1, and nothing after the
capture is full or frozen. `hold` is the source that waits with the record in stall mode. -/
def Chip.traceFrom (c : Chip) (r : ReachId) (kind src : Nat) (hold : Option Nat) (fn : Nat) (p0 p1 : Word64) : Chip :=
  let ctrl := c.gate.trcCtrl
  let stream := flag ctrl 1
  if !flag ctrl 0 || !flag ctrl (4 + kind) then c
  else
    let t := (c.reach r).trace
    let now := c.now r
    let x : TraceRec := { kind := BitVec.ofNat 4 kind, reach := r, src := BitVec.ofNat 7 src,
                          function := BitVec.ofNat 8 fn, seq := 0, time := now, p0 := p0, p1 := p1 }
    if !stream && (t.frozen || t.postLeft == some 0) then c
    else
      let t := t.flushDrop r stream now
      let t :=
        if t.room stream then t.put stream x
        else if stream && flag ctrl 2 && src ≤ 64 then t.stall x hold
        else t.lose now
      c.onReach r (fun y => { y with trace := t })

/-- A trace record of a tile (`src` up to 63), which holds the tile where it must wait, or of a service. -/
def Chip.trace (c : Chip) (r : ReachId) (kind src : Nat) (fn : Nat) (p0 p1 : Word64) : Chip :=
  c.traceFrom r kind src (if src < 64 then some src else none) fn p0 p1

/-- The records before a trigger that a capture keeps, and the space behind it (R472). -/
def Trace.trigger (t : Trace) (ctrl : Word64) : Trace :=
  if flag ctrl 1 || t.postLeft.isSome || t.frozen then t
  else
    let pre := min 64 (fld ctrl 32 7)
    let post := min (64 - pre) (clampNat 1 64 (fld ctrl 39 7))
    { t with store := t.store.drop (t.store.length - pre * mibRecords), postLeft := some (post * mibRecords) }

/-- A reach writes its TRIGGER record for a trigger that reach `from_` fired (R472). -/
def Chip.triggerRecord (c : Chip) (r from_ : ReachId) : Chip :=
  let trig := c.gate.trcTrig
  let kind := fld trig 0 4
  let value := if kind == 5 then c.gate.trcTrigTime else BitVec.ofNat 64 (fld trig 32 32)
  let c := if flag c.gate.trcCtrl 0 then
      c.onReach r (fun y => { y with trace := y.trace.trigger c.gate.trcCtrl })
    else c
  c.trace r 7 74 0xFF (BitVec.ofNat 64 (kind + from_.val * 2 ^ 8)) value

/-- A trigger of a kind fires on a reach while ARM is 1 and TRC_TRIG names the kind; the gatehouse passes the notice on, but for KIND 5
(R472). -/
def Chip.fire (c : Chip) (r : ReachId) (kind : Nat) : Chip :=
  if flag c.gate.trcCtrl 3 && fld c.gate.trcTrig 0 4 == kind then
    let c := c.triggerRecord r r
    let others := if kind == 5 then [] else allReaches.filter (fun q => q != r && c.inService q)
    { c with gate := { c.gate with trigReach := r, trigNotices := c.gate.trigNotices ++ others.map (fun q => (q, r)) } }
  else c

/-- Value that TRC_TRIG compares. -/
def Chip.trigValue (c : Chip) : Nat := fld c.gate.trcTrig 32 32

/-! ### Events -/

/-- A handle's function has advanced its generation: the handle is void (R369). -/
def Chip.void (c : Chip) (handle : Word64) : Bool :=
  handle != 0 && handle.toNat % 65536 != (c.fn ⟨handle.toNat / 2 ^ 56 % 64, Nat.mod_lt _ (by decide)⟩).gen.toNat

/-- Post an event on ring 2 of a function (R366); none with a void handle. -/
def Chip.postEvent (c : Chip) (f : FnId) (code source : Nat) (body : List Byte) (handle result : Word64) : Chip :=
  if c.void handle then c
  else c.post f { ring := 2, record := c.record 2 0 0 source code handle result, body := body, nomod := false }

/-- An event of a reach for the function that owns the resource, and for the PF where the table "Events" says so; a traced
reach makes an EVENT record (R366, R469). -/
def Chip.event (c : Chip) (r : ReachId) (owner : FnId) (alsoPf : Bool) (code : Nat) (body : List Byte)
    (handle : Word64) : Chip :=
  let c := c.postEvent owner code r.val body handle 0
  let c := if alsoPf && owner != 0 then c.postEvent 0 code r.val body handle 0 else c
  c.trace r 9 73 owner.val (BitVec.ofNat 64 code) handle

/-! ### Who owns what -/

/-- The function whose grant holds a tile's group, the PF where no grant does (R403, R466). -/
def Chip.tileOwner (c : Chip) (r : ReachId) (t : Nat) : FnId :=
  let g := (64 * r.val + t) / 16
  match (List.finRange 64).find? (fun f => match (c.ten f).grant with
      | some x => x.tileGroups.toNat.testBit g
      | none => false) with
  | some f => f
  | none => 0

/-- Entry of the partition table for a key (R274). -/
def Router.partFind (x : Router) (key : Nat) : Option (Nat × Word64) :=
  List.find? (fun e => flag e.2 34 && fld e.2 0 16 == key) x.parts

/-- The function whose grant holds a partition key on a reach (R183); none where no grant does. -/
def Chip.keyOwner (c : Chip) (r : ReachId) (key : Nat) : Option FnId :=
  match (c.reach r).rtr.partFind key with
  | none => none
  | some (i, _) => (List.finRange 64).find? (fun f => match (c.ten f).grant with
      | some x => x.pkeyIdx.any (fun k => k.toNat == i)
      | none => false)

/-! ### Timing-dependent choices -/

/-- Count one TDC event on a reach and on the function it is attributed to, and log it (R183 to R185). -/
def Tdc.event (t : Tdc) (r : ReachId) (cause : Nat) (fn : Option FnId) (a : Word32) (b : Word64) (now : Time) : Tdc :=
  let n := BitVec.ofNat 48 (sat48 (t.count.toNat + 1))
  let who : BitVec 8 := match fn with
    | some f => BitVec.ofNat 8 f.val
    | none => 0xFF
  let x : TdcRecord := { cause := BitVec.ofNat 8 cause, function := who, reach := r, detailA := a, time := now,
                         detailB := b, countAfter := n }
  { count := n,
    fns := match fn with
      | some f => Tab.modify t.fns f.val 0 (fun v => BitVec.ofNat 48 (sat48 (v.toNat + 1)))
      | none => t.fns,
    log := (t.log ++ [x]).drop (t.log.length - 255) }

/-- A reach makes a choice that depends on timing: the counters and the log, a TDC trace record, and a KIND 2 trigger. -/
def Chip.tdc (c : Chip) (r : ReachId) (cause : Nat) (fn : Option FnId) (src : Nat) (a : Word32) (b : Word64) : Chip :=
  let c := c.onReach r (fun x => { x with tdc := x.tdc.event r cause fn a b x.time.now })
  let c := c.trace r 5 src (match fn with | some f => f.val | none => 0xFF)
    (BitVec.ofNat 64 (cause + a.toNat * 2 ^ 32)) b
  if c.trigValue % 256 == cause then c.fire r 2 else c

/-- A claim on a wharf slot or a signal word is granted. A claim with an equal tag that another requester won on that resource at the same
time was a tie, which the lower number wins (R182, R183). `index` is the resource index of DETAIL_A. -/
def Chip.grantClaim (c : Chip) (r : ReachId) (fn : Option FnId) (src index : Nat) (k : Claim) : Chip :=
  let l := (c.reach r).claims.filter (fun e => e.at_ == k.at_)
  let c := match l.find? (fun e => e.row == k.row && e.index == k.index && e.tag == k.tag && e.by_ != k.by_) with
    | some e => c.tdc r 1 fn src (BitVec.ofNat 32 (k.row + index * 2 ^ 8)) (BitVec.ofNat 64 (min e.by_ k.by_ + max e.by_ k.by_ * 2 ^ 32))
    | none => c
  c.onReach r (fun x => { x with claims := l ++ [k] })

/-! ### Health records -/

/-- The 32 bytes of a health record (table "Health record"). -/
def healthBytes (action reach seq block inst sub : Nat) (detail : Word64) (now : Time) (handle : Word64) : List Byte :=
  leBytes 4 (1 + action * 2 ^ 4 + reach * 2 ^ 8 + seq * 2 ^ 16) ++ leBytes 4 (block + inst * 2 ^ 8 + sub * 2 ^ 16)
    ++ leBytes 8 detail.toNat ++ leBytes 8 now.toNat ++ leBytes 8 handle.toNat

/-- A reach posts a health record (event 0x06) for the function that owns the part and the PF; one that only alerts, or
holds or resets the reach, raises a management alert too (R521), and a KIND 4 trigger fires. -/
def Chip.health (c : Chip) (r : ReachId) (owner : FnId) (action block inst sub : Nat) (detail handle : Word64) : Chip :=
  let seq := (c.reach r).bist.healthSeq
  let body := healthBytes action r.val seq.toNat block inst sub detail (c.now r) handle
  let c := c.onReach r (fun x => { x with bist := { x.bist with healthSeq := x.bist.healthSeq + 1 } })
  let c := c.event r owner true 6 body handle
  let c := if 5 ≤ action then c.alert block r.val (BitVec.ofNat 64 (action + inst * 2 ^ 8)) else c
  c.fire r 4

/-- The gatehouse posts a health record, with REACH 4. -/
def Chip.gateHealth (c : Chip) (action block inst : Nat) : Chip :=
  let body := healthBytes action 4 c.gate.healthSeq.toNat block inst 0 0 c.gateTime 0
  let c := { c with gate := { c.gate with healthSeq := c.gate.healthSeq + 1 } }
  let c := c.postEvent 0 6 4 body 0 0
  if 5 ≤ action then c.alert block 4 (BitVec.ofNat 64 (action + inst * 2 ^ 8)) else c

end Sys2Proof.Machine
end

