-- ==== Sys2Proof/Machine/Translate.lean ====
section
/-!
DEFINITION. Grants (R403, R404), translation of device virtual ranges into physical runs (R388 to R395), device physical
memory (R148), and the opening of translation fault records (R401).
-/

namespace Sys2Proof.Machine

/-! ### Grants -/

/-- A function's grant holds what a test picks; the PF holds what no grant of another function names (R403). -/
def Chip.holds (c : Chip) (f : FnId) (p : Grant → Bool) : Bool :=
  if f = 0 then !(c.xlt.tens.any (fun e => e.1 != 0 && (match e.2.grant with | some g => p g | none => false)))
  else match (c.ten f).grant with
    | some g => p g
    | none => false

/-- The grant holds a tile group of the module, by a module tile number (R26). -/
def grantTile (g : Grant) (t : Nat) : Bool := g.tileGroups.toNat.testBit (t / 16)
/-- The grant holds an HBM3E set of a reach. -/
def grantHbm (g : Grant) (r : ReachId) (s : Nat) : Bool := g.hbmSets.toNat.testBit (8 * r.val + s)
/-- The grant holds an ASID. -/
def grantAsid (g : Grant) (a : Nat) : Bool := decide (g.asidBase.toNat ≤ a) && decide (a < g.asidBase.toNat + g.asidCount.toNat)

/-- A function's grant holds a tile of the module. Several functions' grants never hold one group. -/
def Chip.holdsTile (c : Chip) (f : FnId) (t : Nat) : Bool := c.holds f (fun g => grantTile g t)
/-- A function's grant holds an HBM3E set. -/
def Chip.holdsSet (c : Chip) (f : FnId) (r : ReachId) (s : Nat) : Bool := c.holds f (fun g => grantHbm g r s)
/-- A function's grant holds an ASID; ASID 0 is never granted (R394). -/
def Chip.holdsAsid (c : Chip) (f : FnId) (a : Nat) : Bool := a != 0 && c.holds f (fun g => grantAsid g a)

/-- A partition key is in a function's grant on a reach: a VALID entry names it, at an index the grant holds; the PF may use
every valid key, since several grants may hold one (R403). -/
def Chip.holdsKey (c : Chip) (f : FnId) (r : ReachId) (key : Nat) : Bool :=
  match (c.reach r).rtr.partFind key with
  | none => false
  | some (i, _) =>
    if f = 0 then true
    else match (c.ten f).grant with
      | some g => g.pkeyIdx.any (fun k => k.toNat == i)
      | none => false

/-! ### Device physical memory (R148) -/

/-- First address of the scratchpad windows. -/
def spadWindow : Nat := 0x800000000000
/-- First address of LPDDR5X, of the part that plans and tenancies may use, and of the trace share. -/
def lpBase : Nat := 0x10000000000
def lpAvail : Nat := 0x10040000000
def lpTrace : Nat := 0x15CFC000000
/-- First address beyond LPDDR5X. -/
def lpEnd : Nat := 0x15D00000000
/-- First address beyond HBM3E. -/
def hbmEnd : Nat := 0x2000000000

/-- Bytes of a reach's device physical memory; the scratchpad windows are the tiles' own. -/
def Reach.readPhys (x : Reach) (pa n : Nat) : List Byte :=
  if spadWindow ≤ pa then Mem.readBytes (x.tile ((pa - spadWindow) / 0x800000)).spad ((pa - spadWindow) % 0x800000) n
  else Mem.readBytes x.mem.bytes pa n

/-- Write bytes to a reach's device physical memory. A line written whole no longer holds an uncorrectable error. -/
def Reach.writePhys (x : Reach) (pa : Nat) (bs : List Byte) : Reach :=
  let whole := fun (base : Nat) (l : Nat) => decide (base ≤ 64 * l) && decide (64 * l + 64 ≤ base + bs.length)
  if spadWindow ≤ pa then
    let a := (pa - spadWindow) % 0x800000
    x.onTile ((pa - spadWindow) / 0x800000) (fun t =>
      { t with spad := Mem.writeBytes t.spad a bs, spadUe := t.spadUe.filter (fun l => !whole a l) })
  else
    { x with mem := { x.mem with bytes := Mem.writeBytes x.mem.bytes pa bs,
                                 ue := x.mem.ue.filter (fun l => !whole pa l) } }

/-- A range of device physical memory holds an uncorrectable error. -/
def Reach.hasUe (x : Reach) (pa n : Nat) : Bool :=
  if n = 0 then false
  else if spadWindow ≤ pa then
    let a := (pa - spadWindow) % 0x800000
    (x.tile ((pa - spadWindow) / 0x800000)).spadUe.any (fun l => decide (a / 64 ≤ l) && decide (l ≤ (a + n - 1) / 64))
  else x.mem.ue.any (fun l => decide (pa / 64 ≤ l) && decide (l ≤ (pa + n - 1) / 64))

/-- The parts of a list of runs that hold bytes `off` to `off + n - 1` of their range. -/
def runSlice : List Run → Nat → Nat → List Run
  | [], _, _ => []
  | x :: xs, off, n =>
    if n = 0 then []
    else if x.len ≤ off then runSlice xs (off - x.len) n
    else
      let k := min n (x.len - off)
      { x with pa := x.pa + off, len := k } :: runSlice xs 0 (n - k)

/-- Read bytes through runs: device memory of a reach, or host memory. -/
def Chip.readRuns (c : Chip) (r : ReachId) (runs : List Run) (off n : Nat) : List Byte :=
  (runSlice runs off n).flatMap (fun x =>
    if x.host then Mem.readBytes c.host.mem x.pa x.len else (c.reach r).readPhys x.pa x.len)

/-- Write bytes through runs. -/
def Chip.writeRuns (c : Chip) (r : ReachId) (runs : List Run) (off : Nat) (bs : List Byte) : Chip :=
  ((runSlice runs off bs.length).foldl (fun (s : Chip × Nat) x =>
    let part := (bs.drop s.2).take x.len
    let c := if x.host then { s.1 with host := { s.1.host with mem := Mem.writeBytes s.1.host.mem x.pa part } }
      else s.1.onReach r (fun y => y.writePhys x.pa part)
    (c, s.2 + x.len)) (c, 0)).1

/-- Bytes read through runs meet an uncorrectable error. -/
def Chip.runsUe (c : Chip) (r : ReachId) (runs : List Run) (off n : Nat) : Bool :=
  (runSlice runs off n).any (fun x => !x.host && (c.reach r).hasUe x.pa x.len)

/-- A run lies in host memory. -/
def runsHost (runs : List Run) : Bool := runs.any (fun x => x.host)

/-! ### Translation -/

/-- Bytes of a page (R390). -/
def pageBytes (s : BitVec 2) : Nat := if s == 0 then 0x10000 else if s == 1 then 0x200000 else 0x40000000

/-- Where one address of an address space lies: in host memory or in a reach, the bytes left in its page or window, and its
rights. -/
structure Spot where
  host : Bool
  reach : ReachId
  pa : Nat
  left : Nat
  rd : Bool
  wr : Bool
  deriving DecidableEq, Repr

/-- Look an address up: the host windows first, then the pages (R391). -/
def Asid.spot (a : Asid) (va : Nat) : Option Spot :=
  match a.wins.find? (fun w => decide (w.va ≤ va) && decide (va < w.va + w.len)) with
  | some w => some { host := true, reach := 0, pa := hostKey a.function (w.iova + (va - w.va)), left := w.va + w.len - va,
                     rd := w.rd, wr := w.wr }
  | none =>
    match a.pages.find? (fun p => decide (p.va ≤ va) && decide (va < p.va + pageBytes p.size)) with
    | some p => some { host := false, reach := p.reach, pa := p.pa + (va - p.va), left := p.va + pageBytes p.size - va,
                       rd := p.rd, wr := p.wr }
    | none => none

/-- A translation fault: its CAUSE and the address (R401). -/
structure XFault where
  cause : Nat
  va : Nat
  deriving DecidableEq, Repr

/-- A translated run with its reach. -/
structure PRun where
  reach : ReachId
  run : Run
  deriving DecidableEq, Repr

/-- Add a run to the end of a list; physically contiguous ones merge (R395). -/
def addRun (l : List PRun) (x : PRun) : List PRun :=
  match l.reverse with
  | y :: ys =>
    if y.reach = x.reach ∧ y.run.host = x.run.host ∧ y.run.pa + y.run.len = x.run.pa then
      ys.reverse ++ [{ y with run := { y.run with len := y.run.len + x.run.len } }]
    else l ++ [x]
  | [] => [x]

/-- Translate a range of an address space piece by piece. -/
def Asid.walk (a : Asid) (rd wr : Bool) : Nat → Nat → Nat → List PRun → Except XFault (List PRun)
  | 0, _, _, acc => .ok acc
  | n + 1, va, len, acc =>
    if len = 0 then .ok acc
    else match a.spot va with
      | none => .error { cause := 0, va := va }
      | some s =>
        if rd && !s.rd then .error { cause := 1, va := va }
        else if wr && !s.wr then .error { cause := 2, va := va }
        else
          let k := min len s.left
          a.walk rd wr n (va + k) (len - k) (addRun acc { reach := s.reach, run := { host := s.host, pa := s.pa, len := k } })

/-- Translate a device virtual range (R395) with the rights the work needs. -/
def Chip.translate (c : Chip) (asid : Nat) (va len : Nat) (rd wr : Bool) : Except XFault (List PRun) :=
  match Tab.find? c.xlt.asids asid with
  | none => if len = 0 then .ok [] else .error { cause := 0, va := va }
  | some a => a.walk rd wr (len / 0x10000 + 2) va len []

/-- The generation of an ASID. -/
def Chip.asidGen (c : Chip) (asid : Nat) : BitVec 12 :=
  match Tab.find? c.xlt.asids asid with
  | some a => a.gen
  | none => 0

/-- The 32 bytes of a translation fault record (R401). -/
def faultBytes (x : FaultRecord) : List Byte :=
  leBytes 4 (1 + x.cause.toNat * 2 ^ 4 + x.count.toNat * 2 ^ 8 + x.seq.toNat * 2 ^ 16)
    ++ leBytes 4 (x.req.toNat + x.asid.toNat * 2 ^ 16) ++ leBytes 8 x.va ++ leBytes 8 x.time.toNat
    ++ leBytes 8 x.handle.toNat

/-- A submitter faults (R401): it joins the open record of the page, or opens one and posts the event; false where the
function already holds 64 open records, so that its work fails at once. `engine` is the bit of REQ. -/
def Chip.xltFault (c : Chip) (f : FnId) (engine : Nat) (asid : Word16) (x : XFault) (handle : Word64) (s : Stalled) :
    Chip × Bool :=
  let page := x.va / 0x10000 * 0x10000
  let same := fun (e : FaultRecord) => e.function == f && e.asid == asid && e.va == page
  if c.xlt.faults.any same then
    ({ c with xlt := { c.xlt with faults := c.xlt.faults.map (fun e =>
        if same e then { e with count := if e.count == 255 then 255 else e.count + 1,
                                req := e.req ||| BitVec.ofNat 5 (2 ^ engine), stalled := e.stalled ++ [s] }
        else e) } }, true)
  else if 64 ≤ (c.xlt.faults.filter (fun e => e.function == f)).length then (c, false)
  else
    let t := c.sourceTime engine
    let seq := (c.ten f).faultSeq
    let e : FaultRecord := { function := f, cause := BitVec.ofNat 4 x.cause, count := 1, seq := seq,
                             req := BitVec.ofNat 5 (2 ^ engine), asid := asid, va := page, time := t, handle := handle,
                             stalled := [s] }
    let c := c.onTen f (fun y => { y with faultSeq := y.faultSeq + 1 })
    let c := { c with xlt := { c.xlt with faults := c.xlt.faults ++ [e] } }
    (c.postEvent f 7 engine (faultBytes e) handle 0, true)

/-- The physical runs of a plan or of a registered mooring meet a page (R131, R155, R204): it is held. -/
def Chip.pageHeld (c : Chip) (p : Page) : Bool :=
  let x := c.reach p.reach
  let meets := fun (pa len : Nat) => decide (pa < p.pa + pageBytes p.size) && decide (p.pa < pa + len)
  x.plan.plans.any (fun i => i.runs.any (fun q => meets q.pa q.len))
    || x.rme.moorings.any (fun e => e.2.inUse && e.2.runs.any (fun q => !q.host && meets q.pa q.len))

end Sys2Proof.Machine
end

