-- ==== Sys2Proof/Machine/CollPlan.lean ====
section
/-!
DEFINITION. Collectives as they are described (R287 to R296): the descriptor section taken out of its bytes, the transfers
that each algorithm makes in the order of R289 and R290, and the checks of R296.
-/

namespace Sys2Proof.Machine

/-! ### The section (R293 to R295) -/

/-- A collective descriptor from its 64 bytes. -/
def collDescOf (b : List Byte) : CollDesc :=
  let w0 := leAt b 0 4
  let w1 := leAt b 4 4
  { fmt := natBits w0 0 4, op := natBits w0 4 4, wire := natBits w0 8 2, alg := natBits w0 10 2, coll := natBits w0 16 16,
    log2G := natBits w1 0 4, root := natBits w1 16 12, memFirst := leAt b 8 4, edgeFirst := leAt b 0xC 4,
    edgeCount := leAt b 0x10 4, chunkKib := leAt b 0x14 2, win := leAt b 0x16 2, bytes := leAt b 0x18 4,
    tc := natBits (leAt b 0x1C 1) 0 3, slots := leAt b 0x1D 1, phase := leAt b 0x1E 1, freeboard := leAt b 0x20 4,
    threshStep := leAt b 0x24 4 }

/-- A member entry from its 64 bytes. -/
def collMemberOf (b : List Byte) : CollMember :=
  let w := leAt b 8 8
  let v := leAt b 0x10 8
  let u := leAt b 0x18 8
  let t := leAt b 0x20 8
  { fmt := natBits (leAt b 0 4) 0 4, peer := leAt b 2 2, tile := leAt b 4 1, slotFirst := natBits (leAt b 5 1) 0 6,
    inAddr := natBits w 0 23, wAddr := natBits w 23 23, tailAddr := natBits v 0 23, stageMoor := natBits v 23 17,
    stageDepth := natBits v 40 8, stageAddr := natBits u 0 23, creditAddr := natBits u 23 23, creditMoor := natBits u 46 17,
    readyAddr := natBits t 0 23, doneAddr := natBits t 23 23, readyBase := leAt b 0x28 8 }

/-- An edge entry from its 8 bytes. -/
def collEdgeOf (b : List Byte) : CollEdge := { from_ := leAt b 0 2, dest := leAt b 2 2, qpn := leAt b 4 3 }

/-- `n` entries of `size` bytes from an offset. -/
def entriesAt {α : Type} (b : List Byte) (off size n : Nat) (f : List Byte → α) : List α :=
  (List.range (min n (b.length / size + 1))).map (fun i => f (sliceBytes b (off + size * i) size))

/-- The lists of a collective-descriptor section: format, descriptors, members, edges. -/
def collSection (b : List Byte) : Nat × List CollDesc × List CollMember × List CollEdge :=
  let nd := leAt b 4 4
  let nm := leAt b 8 4
  let ne := leAt b 12 4
  let memAt := align64' (64 + 64 * nd)
  let edgeAt := memAt + 64 * nm
  (natBits (leAt b 0 1) 0 4, entriesAt b 64 64 nd collDescOf, entriesAt b memAt 64 nm collMemberOf,
    entriesAt b edgeAt 8 ne collEdgeOf)
where
  align64' (a : Nat) : Nat := (a + 63) / 64 * 64

/-! ### Sizes -/

/-- G, the number of members. -/
def CollDesc.g (d : CollDesc) : Nat := 2 ^ d.log2G
/-- C, the chunk size in bytes; zero in the field means 16 KiB. -/
def CollDesc.c (d : CollDesc) : Nat := (if d.chunkKib = 0 then 16 else d.chunkKib) * 1024
/-- The collective is reducing. -/
def CollDesc.reducing (d : CollDesc) : Bool := decide (d.op ≤ 1)
/-- Chunks of one part: parts are S / G bytes in OP 0, 1 and 3, S bytes in OP 2, the whole in OP 4 and 5. -/
def CollDesc.partChunks (d : CollDesc) : Nat :=
  if d.op = 0 ∨ d.op = 1 ∨ d.op = 3 then d.bytes / d.g / d.c else d.bytes / d.c
/-- Length of W in bytes. -/
def CollDesc.wBytes (d : CollDesc) : Nat := if d.op = 2 then d.g * d.bytes else d.bytes
/-- Chunks of W. -/
def CollDesc.wChunks (d : CollDesc) : Nat := d.wBytes / d.c
/-- Grant words beside the abort word (R294): one for each edge slot. -/
def CollDesc.edgeSlots (d : CollDesc) : Nat := if d.alg = 0 then d.log2G else if d.alg = 1 then 1 else d.g

/-! ### Transfers (R289, R290) -/

/-- One chunk that a member sends: the level or step, the receiving member, the chunk's number within the receiver's W,
where it is read (IN or W, and the chunk's number there), and whether the receiver adds it. -/
structure CollItem where
  level : Nat
  dest : Nat
  chunk : Nat
  fromIn : Bool
  src : Nat
  adds : Bool
  deriving DecidableEq, Repr

/-- The chunks of one part, sent from chunk `srcPart` × n of IN or W to part `dstPart`. -/
def partItems (d : CollDesc) (level dest dstPart srcPart : Nat) (fromIn adds : Bool) : List CollItem :=
  (List.range d.partChunks).map (fun q =>
    { level := level, dest := dest, chunk := dstPart * d.partChunks + q, fromIn := fromIn,
      src := srcPart * d.partChunks + q, adds := adds })

/-- i xor 2^k. -/
def partner (i k : Nat) : Nat := i ^^^ 2 ^ k

/-- The halving loop of R289: at level k member i gives the parts that agree with its partner in bits 0 to k. -/
def halving (d : CollDesc) (i : Nat) : List CollItem :=
  (List.range d.log2G).flatMap (fun k =>
    let j := partner i k
    ((List.range d.g).filter (fun p => p % 2 ^ (k + 1) == j % 2 ^ (k + 1))).flatMap (fun p =>
      partItems d k j p p (k == 0) true))

/-- The doubling loop of R289: at level k member i sends the parts it holds. -/
def doubling (d : CollDesc) (i : Nat) : List CollItem :=
  (List.range d.log2G).reverse.flatMap (fun k =>
    let j := partner i k
    ((List.range d.g).filter (fun p => p % 2 ^ (k + 1) == i % 2 ^ (k + 1))).flatMap (fun p =>
      partItems d k j p p false false))

/-- The binomial tree of a BROADCAST. -/
def binomial (d : CollDesc) (i : Nat) : List CollItem :=
  let v := (i + d.g - d.root % d.g) % d.g
  (List.range d.log2G).reverse.flatMap (fun k =>
    if v % 2 ^ (k + 1) == 0 then partItems d k ((v + 2 ^ k + d.root) % d.g) 0 0 false false else [])

/-- The reduce-scatter ring of R290. -/
def ringReduce (d : CollDesc) (i : Nat) : List CollItem :=
  (List.range (d.g - 1)).flatMap (fun s =>
    let p := (i + 2 * d.g - s - 1) % d.g
    partItems d s ((i + 1) % d.g) p p (s == 0) true)

/-- The all-gather ring of R290. -/
def ringGather (d : CollDesc) (i : Nat) : List CollItem :=
  (List.range (d.g - 1)).flatMap (fun s =>
    let p := (i + d.g - s) % d.g
    partItems d s ((i + 1) % d.g) p p false false)

/-- Direct sends of R290, in the order (i + 1) mod G, (i + 2) mod G and so on; a PERMUTE sends along its one edge. -/
def direct (d : CollDesc) (edges : List CollEdge) (i : Nat) : List CollItem :=
  if d.op = 5 then
    match edges.find? (fun e => e.from_ == i) with
    | some e => partItems d 0 e.dest 0 0 true false
    | none => []
  else (List.range (d.g - 1)).flatMap (fun s =>
    let j := (i + s + 1) % d.g
    partItems d 0 j i (if d.op = 3 then j else 0) true false)

/-- Everything member i sends, in order. -/
def sendList (d : CollDesc) (edges : List CollEdge) (i : Nat) : List CollItem :=
  match d.alg with
  | 0 =>
    (match d.op with
    | 0 => halving d i ++ doubling d i
    | 1 => halving d i
    | 2 => doubling d i
    | _ => binomial d i)
  | 1 =>
    (match d.op with
    | 0 => ringReduce d i ++ ringGather d i
    | 1 => ringReduce d i
    | _ => ringGather d i)
  | _ => direct d edges i

/-- The receive list of member i (R298), with each item's sender: by level or step and, within each, in ascending chunk
number; the halving levels of ALG 0 come before the doubling levels. A PERMUTE may send a member its own input. -/
def recvList (d : CollDesc) (edges : List CollEdge) (i : Nat) : List (Nat × CollItem) :=
  let all := (List.range d.g).flatMap (fun j =>
    ((sendList d edges j).filter (fun x => x.dest == i)).map (fun x => (j, x)))
  match d.alg with
  | 0 =>
    let adds := (List.range d.log2G).flatMap (fun k => all.filter (fun x => x.2.level == k && x.2.adds))
    let rest := (List.range d.log2G).reverse.flatMap (fun k => all.filter (fun x => x.2.level == k && !x.2.adds))
    adds ++ rest
  | _ => all

/-- ALG is allowed for OP (table "Collective operations"); a ring that reduces takes AP128 only. -/
def algAllowed (d : CollDesc) : Bool :=
  match d.op with
  | 0 => d.alg == 0 || (d.alg == 1 && d.wire == 0)
  | 1 => d.alg == 0 || (d.alg == 1 && d.wire == 0)
  | 2 => d.alg == 0 || d.alg == 1 || d.alg == 2
  | 3 => d.alg == 2
  | 4 => d.alg == 0
  | 5 => d.alg == 2
  | _ => false

/-! ### Checks (R296) -/

/-- The member entries of a descriptor. -/
def CollDesc.membersOf (d : CollDesc) (ms : List CollMember) : List CollMember := (ms.drop d.memFirst).take d.g

/-- The edges of a descriptor. -/
def CollDesc.edgesOf (d : CollDesc) (es : List CollEdge) : List CollEdge := (es.drop d.edgeFirst).take d.edgeCount

/-- The areas of a member: first address and length. -/
def memberAreas (d : CollDesc) (m : CollMember) : List (Nat × Nat) :=
  [(m.inAddr, d.bytes), (m.wAddr, d.wBytes), (m.tailAddr, 64 * d.wChunks), (m.stageAddr, m.stageDepth * (d.c + 64)),
   (m.creditAddr, 8 * (1 + d.edgeSlots))]

/-- Two ranges meet. -/
def rangesMeet (a b : Nat × Nat) : Bool :=
  decide (a.1 < b.1 + b.2) && decide (b.1 < a.1 + a.2) && a.2 != 0 && b.2 != 0

/-- Areas are aligned, lie in the scratchpad and do not overlap. -/
def areasOk : List (Nat × Nat) → Bool
  | [] => true
  | a :: rest => a.1 % 64 == 0 && decide (a.1 + a.2 ≤ 0x600000) && !rest.any (rangesMeet a) && areasOk rest

/-- The descriptor's own fields, members and edges are as R296 asks, whoever hosts them. -/
def descOk (d : CollDesc) (log2L : Nat) (ms : List CollMember) (es : List CollEdge) : Bool :=
  algAllowed d && !(d.wire == 3 && d.reducing) && d.log2G != 0 && decide (d.log2G ≤ log2L)
    && decide (d.chunkKib ≤ 256) && d.chunkKib % 4 == 0
    && d.bytes != 0 && decide (d.bytes ≤ 0x80000000)
    && d.bytes % (if d.op = 0 ∨ d.op = 1 ∨ d.op = 3 then d.g * d.c else d.c) == 0
    && d.slots == (d.c + 65535) / 65536
    && (d.membersOf ms).length == d.g
    && (d.membersOf ms).all (fun m => areasOk (memberAreas d m) && m.stageDepth != 0)
    && (d.edgesOf es).length == d.edgeCount
    && (d.edgesOf es).all (fun e => decide (e.from_ < d.g) && decide (e.dest < d.g))

/-- What a check of R296 may ask of the node: the peer list, this node, and what the plan reserves on it. -/
structure CollCtx where
  reach : Reach
  peers : List Word16
  me : Word16
  resv : List ResvEntry

/-- The node that hosts a member. -/
def CollCtx.host (x : CollCtx) (m : CollMember) : Word16 := x.peers.getD m.peer 0xFFFF

/-- The plan reserves an index of a kind on this reach, for a phase. -/
def CollCtx.reserves (x : CollCtx) (kind i phase : Nat) : Bool :=
  x.resv.any (fun e => e.kind == kind && decide (e.first ≤ i) && decide (i < e.first + e.count)
    && decide (e.firstPhase ≤ phase) && decide (phase ≤ e.lastPhase))

/-- The members of a descriptor that this node hosts. -/
def CollCtx.mine (x : CollCtx) (d : CollDesc) (ms : List CollMember) : List (Nat × CollMember) :=
  ((d.membersOf ms).zipIdx.map (fun e => (e.2, e.1))).filter (fun e => x.host e.2 == x.me)

/-- The transfers that the algorithm requires of a member have their edges. -/
def edgesComplete (x : CollCtx) (d : CollDesc) (ms : List CollMember) (es : List CollEdge) : Bool :=
  let es := d.edgesOf es
  let here := (x.mine d ms).map (fun e => e.1)
  let needed := (List.range d.g).flatMap (fun i =>
    ((sendList d es i).map (fun t => (i, t.dest))).eraseDups)
  needed.all (fun t => !(here.contains t.1 || here.contains t.2) || es.any (fun e => e.from_ == t.1 && e.dest == t.2))
    && (d.op != 5 || here.all (fun i => (es.filter (fun e => e.from_ == i)).length == 1
        && (es.filter (fun e => e.dest == i)).length == 1))

/-- An edge whose FROM member this node hosts runs on a context that the plan reserves and whose peer hosts TO. -/
def edgeQpOk (x : CollCtx) (d : CollDesc) (ms : List CollMember) (e : CollEdge) : Bool :=
  let here := (x.mine d ms).any (fun m => m.1 == e.from_)
  let host := match (d.membersOf ms)[e.dest]? with
    | some m => x.host m
    | none => 0xFFFF
  !here || (if e.qpn = 0xFFFFFF then host == x.me
    else e.qpn / 2 ^ 14 == x.me.toNat % 4 && x.reserves 2 (e.qpn % 2 ^ 14) d.phase
      && (match Tab.find? x.reach.rme.qps (e.qpn % 2 ^ 14) with
        | some q => q.peerNode == host
        | none => false))

/-- A mooring of scratchpad covers an area of a tile of this reach. -/
def moorCovers (x : Reach) (key tile : Nat) (area : Nat × Nat) : Bool :=
  match Tab.find? x.rme.moorings (key % 32768) with
  | some m =>
    let base := natBits m.base.toNat 0 23
    m.valid && m.space == 1 && natBits m.base.toNat 23 6 == tile % 64 && decide (base ≤ area.1)
      && decide (area.1 + area.2 ≤ base + m.length.toNat)
  | none => false

/-- A member that this node hosts names moorings of the plan that cover its staging ring and credit array. -/
def memberMoorOk (x : CollCtx) (d : CollDesc) (m : CollMember) : Bool :=
  m.stageMoor / 32768 == x.me.toNat % 4 && m.creditMoor / 32768 == x.me.toNat % 4
    && x.reserves 5 (m.stageMoor % 32768) d.phase
    && moorCovers x.reach m.stageMoor m.tile (m.stageAddr, m.stageDepth * (d.c + 64))
    && x.reserves 5 (m.creditMoor % 32768) d.phase && moorCovers x.reach m.creditMoor m.tile (m.creditAddr, 8 * (1 + d.edgeSlots))

/-- The wharf slots of a member's collective on its node. -/
def memberSlots (d : CollDesc) (m : CollMember) : List Nat := (List.range d.slots).map (fun k => m.slotFirst + k)

/-- The slots of a reducing collective on this node are reserved, and the staging of any collective fits its SLOTS (R296, R303). -/
def slotsOk (x : CollCtx) (d : CollDesc) (ms : List CollMember) : Bool :=
  let mine := x.mine d ms
  (!d.reducing || mine.all (fun e => (memberSlots d e.2).all (fun s => decide (s < 64) && x.reserves 1 s d.phase)))
    && decide ((mine.map (fun e => e.2.stageDepth * 2 * d.c)).foldl (· + ·) 0 ≤ 131072 * d.slots)

/-- Two reducing collectives of one phase share a slot on this node. -/
def shareSlot (x : CollCtx) (ms : List CollMember) (a b : CollDesc) : Bool :=
  a.reducing && b.reducing && a.phase == b.phase
    && (x.mine a ms).any (fun m => (x.mine b ms).any (fun n =>
        (memberSlots a m.2).any (fun s => (memberSlots b n.2).contains s)))

/-- The first descriptor that R296 refuses with PLAN_BAD_FIELD. -/
def collBadField (x : CollCtx) (log2L : Nat) (ds : List CollDesc) (ms : List CollMember) (es : List CollEdge) : Option Nat :=
  ds.zipIdx.findIdx? (fun e =>
    let d := e.1
    !(descOk d log2L ms es && edgesComplete x d ms es && (d.edgesOf es).all (edgeQpOk x d ms)
      && (x.mine d ms).all (fun m => memberMoorOk x d m.2) && slotsOk x d ms
      && !(ds.take e.2).any (fun b => shareSlot x ms b d)))

/-- The first descriptor whose first hop of an edge has no window WIN (R296): the planned route of (WIN, host of TO) on this
reach leaves on a port that carries the window. -/
def collBadWindow (x : CollCtx) (r : ReachId) (ds : List CollDesc) (ms : List CollMember) (es : List CollEdge)
    (routes : List RouteEntry) (wins : List WindowEntry) : Option Nat :=
  ds.findIdx? (fun d => d.win != 0xFFFF && (d.edgesOf es).any (fun e =>
    let here := (x.mine d ms).any (fun m => m.1 == e.from_)
    let host := match (d.membersOf ms)[e.dest]? with
      | some m => x.host m
      | none => 0xFFFF
    here && e.qpn != 0xFFFFFF &&
      !routes.any (fun t => t.reach == r.val && t.win == d.win && t.dst == host.toNat
        && wins.any (fun w => w.reach == r.val && w.rport == t.outPort && w.win == d.win))))

end Sys2Proof.Machine
end

