-- ==== Sys2Proof/Machine/PlanFile.lean ====
section
/-!
DEFINITION. The plan container (R57 to R65, R111, R154, R155, R167, R269): its header and sections taken out of its bytes.
-/

namespace Sys2Proof.Machine

/-- The plan header (R58). -/
def planHeaderOf (b : List Byte) : PlanHeader :=
  let w4 := leAt b 4 4
  let w18 := leAt b 0x18 8
  let w38 := leAt b 0x38 8
  { magic := leAt b 0 4, fmt := natBits w4 0 4, hdrLen := natBits w4 8 8, detOnly := natBit w4 16,
    planId := BitVec.ofNat 64 (leAt b 8 8), totalLen := leAt b 0x10 8, log2L := natBits w18 0 8, phases := natBits w18 8 8,
    sections := natBits w18 16 16, peers := natBits w18 32 16, lockCycle := BitVec.ofNat 64 (leAt b 0x20 8),
    cycleBase := BitVec.ofNat 64 (leAt b 0x28 8), start := BitVec.ofNat 64 (leAt b 0x30 8),
    roundCycles := natBits w38 0 16, pkey := BitVec.ofNat 16 (natBits w38 16 16), asid := BitVec.ofNat 16 (natBits w38 32 16),
    function := natBits w38 48 8, floorMhz := leAt b 0x40 2, stopThresh := leAt b 0x42 2, collTimeout := leAt b 0x44 4,
    roundSeed := BitVec.ofNat 64 (leAt b 0x48 8), digest := leAt b 0x50 48 }

/-- A directory entry (R59). -/
def dirEntryOf (b : List Byte) : DirEntry :=
  { type := leAt b 0 2, fmt := natBits (leAt b 2 1) 0 4, len := leAt b 4 4, off := leAt b 8 8 }

/-- A phase entry (R62). -/
def phaseEntryOf (b : List Byte) : PhaseEntry :=
  { fmt := natBits (leAt b 0 1) 0 4, phase := leAt b 2 2, rounds := leAt b 4 4, schedFirst := leAt b 8 4,
    schedCount := leAt b 0xC 4, winFirst := leAt b 0x10 2, winCount := leAt b 0x12 2, xpos := leAt b 0x14 4 }

/-- A schedule entry (R63). -/
def schedEntryOf (b : List Byte) : SchedEntry :=
  { fmt := natBits (leAt b 0 1) 0 4, tile := leAt b 2 2, step := leAt b 4 4, startOff := BitVec.ofNat 64 (leAt b 8 8),
    freeboard := leAt b 0x10 4, budget := leAt b 0x14 4, winRef := leAt b 0x18 2 }

/-- A window entry (R64). -/
def windowEntryOf (b : List Byte) : WindowEntry :=
  let w := leAt b 0 4
  { fmt := natBits w 0 4, rport := natBits w 4 4, reach := natBits w 8 2, win := natBits w 16 16,
    openOff := BitVec.ofNat 64 (leAt b 8 8), length := BitVec.ofNat 64 (leAt b 0x10 8), tcMask := leAt b 0x18 1 }

/-- A reservation entry (R65). -/
def resvEntryOf (b : List Byte) : ResvEntry :=
  { fmt := natBits (leAt b 0 1) 0 4, kind := leAt b 1 1, reach := leAt b 2 1, first := leAt b 4 4, count := leAt b 8 2,
    firstPhase := leAt b 10 1, lastPhase := leAt b 11 1 }

/-- A planned-route entry (R269). -/
def routeEntryOf (b : List Byte) : RouteEntry :=
  let w := leAt b 0 4
  { fmt := natBits w 0 4, reach := natBits w 4 2, win := natBits w 16 16, dst := leAt b 4 2, outPort := natBits (leAt b 6 1) 0 4,
    next := leAt b 8 2 }

/-- A placement entry (R155). -/
def placeEntryOf (b : List Byte) : PlaceEntry :=
  let w := leAt b 0 4
  { fmt := natBits w 0 4, tier := natBits w 4 1, reach := natBits w 5 2, mask := natBits w 8 8, tid := leAt b 4 4,
    vaddr := natBits (leAt b 8 8) 0 57, bytes := leAt b 0x10 6, firstPhase := leAt b 0x18 1, lastPhase := leAt b 0x19 1 }

/-- A transposition descriptor (R167). -/
def xposDescOf (b : List Byte) : XposDesc :=
  { fmt := natBits (leAt b 0 1) 0 4, cellBytes := leAt b 2 2, tid := leAt b 4 4, rows := leAt b 8 4, cols := leAt b 0xC 4,
    srcGr := leAt b 0x10 2, srcGc := leAt b 0x12 2, dstGr := leAt b 0x14 2, dstGc := leAt b 0x16 2, srcMap := leAt b 0x18 4,
    dstMap := leAt b 0x1C 4, win := leAt b 0x20 2, tc := natBits (leAt b 0x22 1) 0 3 }

/-- A block-map entry (R167). -/
def blockMapOf (b : List Byte) : BlockMap :=
  let w := leAt b 0x10 8
  { peer := leAt b 0 2, sigTile := leAt b 2 1, sigAddr := natBits (leAt b 4 4) 0 23, vaddr := natBits (leAt b 8 8) 0 57,
    rowStride := natBits w 0 40, moorIdx := natBits w 40 17, thresh := leAt b 0x18 8 }

/-- Steps taken out of a program's words: a header word and the NWORDS operand words it names (R114). The last step is cut
short where the words run out. -/
def stepsOf : Nat → List Word64 → List StepWords
  | 0, _ => []
  | _, [] => []
  | n + 1, h :: ws => { hdr := h, ops := ws.take (fld h 8 3) } :: stepsOf n (ws.drop (fld h 8 3))

/-- The words of a step-program section. -/
def wordsAt (b : List Byte) (off n : Nat) : List Word64 :=
  (List.range n).map (fun i => BitVec.ofNat 64 (leAt b (off + 8 * i) 8))

/-- A program directory entry with its program's steps (R111). -/
def programOf (sec d : List Byte) : Program :=
  let w := leAt d 0xC 4
  let n := natBits w 0 16
  { tile := leAt d 0 2, phase := leAt d 2 1, firstStep := leAt d 4 4, nwords := n, iqBase := BitVec.ofNat 11 (natBits w 16 11),
    steps := stepsOf n (wordsAt sec (8 * leAt d 8 4) n) }

/-- The bytes of the section of a type; none where the directory lists none. -/
def sectionOf (b : List Byte) (dir : List DirEntry) (t : Nat) : List Byte :=
  match dir.find? (fun d => d.type == t) with
  | some d => (b.drop d.off).take d.len
  | none => []

/-- All the entries of a section of one size. -/
def allEntries {α : Type} (b : List Byte) (size : Nat) (f : List Byte → α) : List α :=
  (List.range (b.length / size)).map (fun i => f (sliceBytes b (size * i) size))

/-- The container in its bytes. -/
def containerOf (b : List Byte) : Container :=
  let hdr := planHeaderOf b
  let dir := entriesAt b 128 16 hdr.sections dirEntryOf
  let progs := sectionOf b dir 6
  let routes := sectionOf b dir 7
  let colls := collSection (sectionOf b dir 8)
  let pl := sectionOf b dir 9
  let up := fun (a : Nat) => (a + 63) / 64 * 64
  let np := leAt pl 4 4
  let nr := leAt pl 8 4
  let nx := leAt pl 12 4
  let nm := leAt pl 16 4
  let runAt := up (64 + 32 * np)
  let xposAt := up (runAt + 16 * nr)
  let mapAt := xposAt + 64 * nx
  { hdr := hdr, dir := dir, phases := allEntries (sectionOf b dir 1) 32 phaseEntryOf,
    sched := allEntries (sectionOf b dir 2) 32 schedEntryOf, windows := allEntries (sectionOf b dir 3) 32 windowEntryOf,
    resv := allEntries (sectionOf b dir 4) 16 resvEntryOf,
    peers := allEntries (sectionOf b dir 5) 4 (fun e => BitVec.ofNat 16 (leAt e 0 2)),
    progFmt := natBits (leAt progs 0 1) 0 4, progWords := leAt progs 4 4,
    progs := entriesAt progs 16 16 (leAt progs 2 2) (programOf progs),
    routeFmt := natBits (leAt routes 0 1) 0 4, routes := entriesAt routes 16 16 (leAt routes 4 4) routeEntryOf,
    collFmt := colls.1, colls := colls.2.1, members := colls.2.2.1, edges := colls.2.2.2,
    placeFmt := natBits (leAt pl 0 1) 0 4, places := entriesAt pl 64 32 np placeEntryOf,
    runs := entriesAt pl runAt 16 nr (fun e => (leAt e 0 4, leAt e 4 4)),
    xpos := entriesAt pl xposAt 64 nx xposDescOf, maps := entriesAt pl mapAt 32 nm blockMapOf }

/-- The container's bytes with the digest field set to zero (R57). -/
def digestInput (b : List Byte) : List Byte := b.take 0x50 ++ List.replicate 48 0 ++ b.drop 0x80

/-- The section is in the directory. -/
def Container.has (k : Container) (t : Nat) : Bool := k.dir.any (fun d => d.type == t)

/-! ### Phases, rounds and steps -/

/-- A round of the plan (R60). -/
def Container.roundTime (k : Container) : Time := k.hdr.lockCycle * BitVec.ofNat 64 k.hdr.roundCycles

/-- The step program of a tile in a phase. -/
def Container.program (k : Container) (tile phase : Nat) : Option Program :=
  k.progs.find? (fun p => p.tile == tile && p.phase == phase)

/-- The phases of a plan in the order in which they run: ascending PHASE, whatever their order in the table (R62). -/
def Container.phaseOrder (k : Container) : List PhaseEntry := orderBy (fun a b => decide (a.phase < b.phase)) k.phases

/-- The schedule entries of a phase (R62). -/
def Container.schedOf (k : Container) (phase : Nat) : List SchedEntry :=
  match k.phases.find? (fun p => p.phase == phase) with
  | some p => (k.sched.drop p.schedFirst).take p.schedCount
  | none => []

/-- The schedule entry of a step. -/
def Container.schedEntry (k : Container) (tile step phase : Nat) : Option SchedEntry :=
  (k.schedOf phase).find? (fun e => e.tile == tile && e.step == step)

/-- The module tile numbers that a plan uses on a reach: those with a program. -/
def Container.tilesOn (k : Container) (r : ReachId) : List Nat :=
  ((k.progs.map (fun p => p.tile)).filter (fun t => t / 64 == r.val)).eraseDups

/-- The entries of a run of transposition descriptors: first and past-the-end index (R168). -/
def Container.runRange (k : Container) (i : Nat) : Nat × Nat :=
  match k.runs[i]? with
  | some (f, n) => (f, f + n)
  | none => (0, 0)

end Sys2Proof.Machine
end

