-- ==== Sys2Proof/Machine/VectorUnit.lean ====
section
/-!
DEFINITION. The vector unit (R99 to R101, R540) and the conversion step (R95): lanes, the functions of R100, reductions in
their fixed order.
-/

namespace Sys2Proof.Machine

/-- A vector operand widened to the lane format (R73). A finite value that the lane format does not hold
is an MX element beyond the range of FP32, and widens to a free FP32 value. -/
def widen (bf16 : Bool) (v : Val) : Val :=
  match v with
  | .fin n m e => if (laneRound bf16 v).2 = 0 then v else decodeElem 0 (Config.mxWiden n m e) 0 0
  | _ => v

/-- Element `i` of a vector operand as its lane takes it (R73). -/
def laneVal (sp : Mem) (bf16 : Bool) (o : Operand) (i : Nat) : Val := widen bf16 (readVal sp o.elem o.data o.scale 0 i)

/-- The value of an FP32 code. -/
def fp32Val (code : Nat) : Val := decodeElem 0 code 0 0

/-- Flags of consuming values: NAN_IN where one is NaN (R108). -/
def nanFlag (vs : List Val) : Nat := flagIf (vs.any Val.isNan) fNanIn

/-! ### The functions of R100 and their accuracy -/

/-- The working precision of the approximations, in bits. -/
def approxBits : Nat := 128

/-- The square root of a number, rounded down, by its bits from `n - 1` down. -/
def rootFrom (x : Nat) : Nat → Nat → Nat
  | 0, r => r
  | n + 1, r => let s := r + 2 ^ n; rootFrom x n (if s * s ≤ x then s else r)

/-- 2^(f / 2^128) in units of 2^-128, for f below 2^128: the product of 2^(2^-k) over the bits of f, each the square root of the one before. -/
def exp2Frac (f : Nat) : Nat → Nat → Nat → Nat → Nat
  | 0, _, _, acc => acc
  | n + 1, k, w, acc =>
    let w := rootFrom (w * 2 ^ approxBits) (approxBits + 2) 0
    exp2Frac f n (k + 1) w (if f.testBit (approxBits - k) then acc * w / 2 ^ approxBits else acc)

/-- The first `n` fraction bits of log2 of a number in [1, 2), in units of 2^-128: by squaring. -/
def log2Frac : Nat → Nat → Nat → Nat
  | 0, _, acc => acc
  | n + 1, x, acc =>
    let y := x * x / 2 ^ approxBits
    if 2 ^ (approxBits + 1) ≤ y then log2Frac n (y / 2) (2 * acc + 1) else log2Frac n y (2 * acc)

/-- The value of exp2 (8), log2 (9), 1 / x (10) or 1 / sqrt(x) (11) for a finite non-zero argument of its domain, to within a part in 2^100. -/
def laneApprox (op : Nat) (n : Bool) (m : Nat) (e : Int) : Val :=
  let f : Int := approxBits
  if op = 8 then
    let fixed := signedAt n m (max e (-f)) (-f) / (2 ^ (max 0 (-f - e)).toNat : Nat)
    let whole := fixed / (2 ^ approxBits : Nat)
    .fin false (exp2Frac (fixed % (2 ^ approxBits : Nat)).toNat approxBits 1 (2 * 2 ^ approxBits) (2 ^ approxBits)) (whole - f)
  else if op = 9 then
    let l : Int := ilog m e * (2 ^ 100 : Nat) + (log2Frac 100 (shiftBy m (f - Nat.log2 m)) 0 : Nat)
    .fin (decide (l < 0)) l.natAbs (-100)
  else if op = 10 then .fin n (2 ^ (2 * approxBits + Nat.log2 m) / m) (-e - (2 * f + Nat.log2 m))
  else
    let s : Int := if e % 2 = 0 then e else e - 1
    let k := if e % 2 = 0 then m else 2 * m
    .fin false (2 ^ (2 * approxBits + Nat.log2 k) / rootFrom (k * 2 ^ (2 * approxBits)) (approxBits + Nat.log2 k + 1) 0)
      (-(s / 2) - (f + Nat.log2 k))

/-- The distance of two finite values is at most `k` × 2^`u`, give or take a part in 2^80 of the first. -/
def withinUnits (m : Nat) (e : Int) (n : Bool) (v : Val) (k : Nat) (u : Int) : Bool :=
  match v with
  | .fin s j q =>
    let b := min (min (e - 80) q) u
    decide ((signedAt n m e b - signedAt s j q b).natAbs ≤ k * shiftBy 1 (u - b) + shiftBy m (e - 80 - b))
  | _ => false

/-- A lane result meets the accuracy of the table "Vector function accuracy" (R100) for a finite non-zero argument outside the special cases. -/
def laneAccurate (op : Nat) (bf16 : Bool) (n : Bool) (m : Nat) (e : Int) (v : Val) : Bool :=
  let x := laneFmt bf16
  match laneApprox op n m e with
  | .fin s k q =>
    let normal := decide (k ≠ 0) && decide (1 - x.bias ≤ ilog k q)
    let u := if k = 0 then 1 - x.bias - x.man else x.unit k q
    (match v with
    | .inf t => t == s && x.overflows .even k q
    | .nan => false
    | .fin .. =>
      if op = 8 && !bf16 && !normal then !v.neg && (v.isZero || v.lt (.fin false 1 (2 - x.bias)))
      else if op = 9 && !bf16 then
        if magLt m e 1 (-1) || magLt 1 1 m e then withinUnits k q s v 2 u else withinUnits k q s v 1 (-23)
      else withinUnits k q s v 1 u)
  | _ => false

/-- The fixed lane result of a function outside its special cases (R100), with OVF where a finite input gave an infinity: the module's own
function where it meets the table's accuracy, and the nearest value where it would not, so that every result lies within the table's
bounds and no other thing is known of it. DESIGN CHOICE (assumption 92): such a result never sets INEXACT where OUT_FMT is the lane format;
R99 has it rounded only where the formats differ. -/
def laneFunction (op : Nat) (bf16 : Bool) (a : Val) : Val × Nat :=
  let x := laneFmt bf16
  let own := x.decode (Config.laneFn op bf16 (roundFloat x .even true a).1)
  let v := match a with
    | .fin n m e =>
      if laneAccurate op bf16 n m e own then own
      else x.decode (roundFloat x .even true (laneApprox op n m e)).1
    | _ => own
  (v, flagIf v.isInf fOvf)

/-- exp2 (R100). -/
def laneExp2 (bf16 : Bool) (a : Val) : Val × Nat :=
  match a with
  | .nan => (.nan, 0)
  | .inf n => if n then (.zero, 0) else (.inf false, 0)
  | .fin n m e =>
    if !n && !(magLt m e 128 0) then (.inf false, fOvf)
    else if n && magLt (if bf16 then 133 else 149) 0 m e then (.zero, fUnf)
    else laneFunction 8 bf16 a

/-- log2 (R100). -/
def laneLog2 (bf16 : Bool) (a : Val) : Val × Nat :=
  if a.isNan then (.nan, 0)
  else if a.isZero then (.inf true, fDivz)
  else if a.neg then (.nan, fInv)
  else if a.isInf then (.inf false, 0)
  else laneFunction 9 bf16 a

/-- Reciprocal (R100). -/
def laneRcp (bf16 : Bool) (a : Val) : Val × Nat :=
  if a.isNan then (.nan, 0)
  else if a.isZero then (.inf a.neg, fDivz)
  else if a.isInf then (.fin a.neg 0 0, 0)
  else laneFunction 10 bf16 a

/-- Reciprocal square root (R100). -/
def laneRsqrt (bf16 : Bool) (a : Val) : Val × Nat :=
  if a.isNan then (.nan, 0)
  else if a.isZero then (.inf a.neg, fDivz)
  else if a.neg then (.nan, fInv)
  else if a.isInf then (.zero, 0)
  else laneFunction 11 bf16 a

/-- The exact lane result of an element-wise operation other than the functions (R99, R540): a, b, and the destination's element or the
immediate. DESIGN CHOICE (assumption 91): SEL consumes its condition and the value it selects, so a NaN of the source that it does not select
sets no NAN_IN; R108 and R540 do not say which it consumes. -/
def laneOp (op : Nat) (a b d : Val) : Val × Nat :=
  match op with
  | 0 => let (v, f) := a.add b; (v, f ||| nanFlag [a, b])
  | 1 => let (v, f) := a.add b.flip; (v, f ||| nanFlag [a, b])
  | 2 => let (v, f) := a.mul b; (v, f ||| nanFlag [a, b])
  | 3 =>
    let (p, f) := a.mul b
    let (v, f') := p.add d
    (v, f ||| (if p.isNan then 0 else f') ||| nanFlag [a, b, d])
  | 4 => (if a.lt b then .one else .zero, nanFlag [a, b])
  | 5 => (a.min b, nanFlag [a, b])
  | 6 => (a.max b, nanFlag [a, b])
  | _ =>
    let v := if a.isNan || a.isZero then d else b
    (v, nanFlag [a, v])

/-- The functions of R100 by operation code. -/
def laneUnary (op : Nat) (bf16 : Bool) (a : Val) : Val × Nat :=
  let (v, f) := match op with
    | 8 => laneExp2 bf16 a
    | 9 => laneLog2 bf16 a
    | 10 => laneRcp bf16 a
    | _ => laneRsqrt bf16 a
  (v, f ||| nanFlag [a])

/-! ### Reductions (R101) -/

/-- A partial result: its value in the lane format, the exact value of its last combination, the flags of rounding it. -/
structure RedNode where
  lane : Val
  exact : Val
  flags : Nat
  deriving DecidableEq, Repr

/-- One combination, the lower lane or earlier element first: sum (12), maximum (13), minimum (14). -/
def redCombine (op : Nat) (bf16 : Bool) (p q : RedNode) : RedNode × Nat :=
  let (s, f) := match op with
    | 12 => p.lane.add q.lane
    | 13 => (p.lane.max q.lane, 0)
    | _ => (p.lane.min q.lane, 0)
  let (r, f') := laneRound bf16 s
  ({ lane := r, exact := s, flags := f' }, f ||| p.flags ||| q.flags)

/-- A lane's elements combined in ascending order. -/
def redLane (op : Nat) (bf16 : Bool) : List Val → Option RedNode × Nat
  | [] => (none, 0)
  | v :: vs =>
    let (n, f) := vs.foldl (fun (s : RedNode × Nat) x =>
      let (m, g) := redCombine op bf16 s.1 { lane := x, exact := x, flags := 0 }
      (m, s.2 ||| g)) ({ lane := v, exact := v, flags := 0 }, 0)
    (some n, f)

/-- One level: lane 2j with lane 2j + 1, a lane without a value taking no part. -/
def redLevel (op : Nat) (bf16 : Bool) : List (Option RedNode) → List (Option RedNode) × Nat
  | a :: b :: rest =>
    let (n, f) := match a, b with
      | some p, some q => let (m, g) := redCombine op bf16 p q; (some m, g)
      | some p, none => (some p, 0)
      | none, q => (q, 0)
    let (ns, g) := redLevel op bf16 rest
    (n :: ns, f ||| g)
  | l => (l, 0)

/-- Levels until one value remains. -/
def redTree (op : Nat) (bf16 : Bool) : Nat → List (Option RedNode) → Option RedNode × Nat
  | 0, l => (l.headD none, 0)
  | n + 1, l =>
    let (l', f) := redLevel op bf16 l
    let (r, g) := redTree op bf16 n l'
    (r, f ||| g)

/-- The reduction of a list in the order of R101. -/
def reduce (op : Nat) (bf16 : Bool) (vs : List Val) : Option RedNode × Nat :=
  let w := if bf16 then 256 else 128
  let lanes := (List.range w).map (fun j => redLane op bf16 ((vs.zipIdx.filter (fun e => e.2 % w == j)).map (fun e => e.1)))
  let (r, f) := redTree op bf16 8 (lanes.map (fun e => e.1))
  (r, lanes.foldl (fun f e => f ||| e.2) f)

/-! ### Steps -/

/-- A step runs on BF16 lanes where every source it names is BF16, else on FP32 lanes (assumption 41). -/
def bf16Lanes (w1 w2 : Word64) : Bool := (operandOf w1).elem == 1 && (w2 == 0 || (operandOf w2).elem == 1)

/-- The format of the lanes is the step's output format. -/
def laneIsOut (bf16 : Bool) (out : Nat) : Bool := if bf16 then out == 1 else out == 0

/-- The second rounding of R99: to the lane format first where OUT_FMT is another. -/
def laneOut (bf16 : Bool) (out : Nat) (v : Val) : Val × Nat :=
  if laneIsOut bf16 out then (v, 0) else laneRound bf16 v

/-- Write the values of a vector-unit step as one stored row (R116). -/
def Tile.vectorOut (t : Tile) (g : EmitCfg) (hdr : Word64) (flags : Nat) (vs : List Val) : Comp :=
  t.comp g ((t.emitStart hdr flags).row g 0 0 vs) vs.length

/-- A VECTOR step of an element-wise operation, 0 to 7 (R540). -/
def Tile.vectorElementwise (t : Tile) (op : Nat) (seed : Word64) (hdr w1 w2 w3 w4 : Word64) : Comp :=
  let acw := acwOf hdr
  let bf16 := bf16Lanes w1 w2
  let o := operandOf w3
  let imm := fp32Val (fld w4 32 32)
  let out := (List.range (fld w4 0 32)).map (fun i =>
    let a := laneVal t.spad bf16 (operandOf w1) i
    let b := if w2 == 0 then imm else laneVal t.spad bf16 (operandOf w2) i
    let d := if op == 3 then widen false (readVal t.spad acw.out o.data o.scale 0 i) else imm
    let (v, f) := laneOp op a b d
    let (v, f') := laneOut bf16 acw.out v
    (v, f ||| f'))
  t.vectorOut (t.emitCfg acw seed o false) hdr (out.foldl (fun f e => f ||| e.2) 0) (out.map (fun e => e.1))

/-- A VECTOR step of a function of R100, 8 to 11. -/
def Tile.vectorFunction (t : Tile) (op : Nat) (seed : Word64) (hdr w1 w3 w4 : Word64) : Comp :=
  let acw := acwOf hdr
  let bf16 := bf16Lanes w1 0
  let out := (List.range (fld w4 0 32)).map (fun i =>
    laneUnary op bf16 (laneVal t.spad bf16 (operandOf w1) i))
  t.vectorOut (t.emitCfg acw seed (operandOf w3) (laneIsOut bf16 acw.out)) hdr (out.foldl (fun f e => f ||| e.2) 0)
    (out.map (fun e => e.1))

/-- A VECTOR step of a reduction, 12 to 14 (R101, R540): one element. -/
def Tile.vectorReduce (t : Tile) (op : Nat) (seed : Word64) (hdr w1 w3 w4 : Word64) : Comp :=
  let acw := acwOf hdr
  let bf16 := bf16Lanes w1 0
  let xs := (List.range (fld w4 0 32)).map (laneVal t.spad bf16 (operandOf w1))
  let (r, f) := reduce op bf16 xs
  let f := f ||| nanFlag xs
  let (v, f) := match r with
    | some n => if laneIsOut bf16 acw.out then (n.exact, f) else (n.lane, f ||| n.flags)
    | none => (.zero, f)
  t.vectorOut (t.emitCfg acw seed (operandOf w3) false) hdr f [v]

/-- A CONVERT step (R95): each element rounded once to OUT_FMT; an AP128 source is read at ACW.P. -/
def Tile.convert (t : Tile) (seed : Word64) (hdr w1 w2 w3 : Word64) : Comp :=
  let acw := acwOf hdr
  let a := operandOf w1
  let vs := (List.range (fld w3 0 32)).map (readVal t.spad a.elem a.data a.scale acw.p)
  t.vectorOut (t.emitCfg acw seed (operandOf w2) false) hdr (nanFlag vs) vs

end Sys2Proof.Machine
end

