-- ==== Sys2Proof/Machine/SelectUnit.lean ====
section
/-!
DEFINITION. SELECT steps (R102 to R107, R118): top-k, sort and merge in the total order, gathers and scatters, and expert
routing under bounded dynamism.
-/

namespace Sys2Proof.Machine

/-- The first scratchpad address beyond it (R120). -/
def spadEnd : Nat := 0x600000

/-- An address rounded up to a multiple of 64. -/
def align64 (a : Nat) : Nat := (a + 63) / 64 * 64

/-- The values of a SELECT step's source, COUNT of them. -/
def selectSource (sp : Mem) (w1 : Word64) (n : Nat) : List Val :=
  let a := operandOf w1
  (List.range n).map (readVal sp a.elem a.data a.scale 0)

/-! ### Orders (R102) -/

/-- A value with its logical element index. -/
structure Ranked where
  v : Val
  idx : Nat
  deriving DecidableEq, Repr

/-- `x` stands before `y` in the total order, ascending or descending, the lower index first among equals. -/
def Ranked.before (desc : Bool) (x y : Ranked) : Bool :=
  let (lo, hi) := if desc then (y.v, x.v) else (x.v, y.v)
  lo.below hi || (!hi.below lo && decide (x.idx < y.idx))

/-- The source values with their logical indices, in order. -/
def rankAll (sp : Mem) (w1 : Word64) (base n : Nat) (desc : Bool) : List Ranked :=
  orderBy (Ranked.before desc) ((selectSource sp w1 n).zipIdx.map (fun e => { v := e.1, idx := base + e.2 }))

/-- Store 32-bit words from an address. -/
def writeWords (sp : Mem) (a n : Nat) (ws : List Nat) : Mem :=
  Mem.writeBytes sp a (ws.flatMap (leBytes n))

/-- A top-k step (R103): k values in descending order at the destination, then their logical indices as 32-bit words from the
next 64-byte boundary (assumption 43). DESIGN CHOICE (assumption 91): a k above COUNT is accepted, and COUNT values are written; R103 bounds k
by 64 alone. -/
def Tile.topK (t : Tile) (seed : Word64) (hdr w1 w3 w4 : Word64) : Comp :=
  let acw := acwOf hdr
  let o := operandOf w3
  let n := fld w4 0 32
  let top := (rankAll t.spad w1 (recLidx (t.record (operandOf w1).rec_)) n true).take (fld w4 32 16)
  let g := t.emitCfg acw seed o false
  let x := (t.emitStart hdr (nanFlag (selectSource t.spad w1 n))).row g 0 0 (top.map (fun e => e.v))
  let at_ := align64 (o.data + pad32 top.length * elemBits acw.out / 8)
  let is := top.map (fun e => e.idx)
  t.comp g ({ x with spad := writeWords x.spad at_ 4 is }.foldWords g top.length (is.map (fun i => (i, Val.zero)))) top.length

/-- A sort step, and a merge of sorted runs (R102): the one order of the values. -/
def Tile.sortStep (t : Tile) (seed : Word64) (hdr w1 w2 w3 w4 : Word64) : Comp :=
  let n := fld w4 0 32
  let desc := Config.selectDescending [hdr, w1, w2, w3, w4]
  let vs := (rankAll t.spad w1 (recLidx (t.record (operandOf w1).rec_)) n desc).map (fun e => e.v)
  t.vectorOut (t.emitCfg (acwOf hdr) seed (operandOf w3) false) hdr (nanFlag vs) vs

/-- The indices of a gather or scatter: 32-bit words at the index source (assumption 43). -/
def selectIndices (sp : Mem) (w2 : Word64) (n : Nat) : List Nat :=
  (List.range n).map (fun i => Mem.readLe sp ((operandOf w2).data + 4 * i) 4)

/-- Elements of the source of a gather or the destination of a scatter, no more than the scratchpad holds. -/
def selectLimit (ws : List Word64) (data fmt : Nat) : Nat :=
  min (Config.selectExtent ws) ((spadEnd - data) * 8 / elemBits fmt)

/-- A gather (R104): an index outside the source reads zero and sets OOB. -/
def Tile.gather (t : Tile) (seed : Word64) (hdr w1 w2 w3 w4 : Word64) : Comp :=
  let a := operandOf w1
  let limit := selectLimit [hdr, w1, w2, w3, w4] a.data a.elem
  let is := selectIndices t.spad w2 (fld w4 0 32)
  let vs := is.map (fun i => if i < limit then readVal t.spad a.elem a.data a.scale 0 i else .zero)
  t.vectorOut (t.emitCfg (acwOf hdr) seed (operandOf w3) false) hdr
    (nanFlag vs ||| flagIf (is.any (fun i => decide (limit ≤ i))) fOob) vs

/-- One element of a scatter acts on the destination elements touched so far (R104); a NaN that an add consumes, in the source or in the
destination, sets NAN_IN (R108). DESIGN CHOICE (assumption 91): a NaN or infinite source adds zero into AP128, which holds neither, with no
failure, and a sum past 128 bits wraps; a scatter-add into FP16, which R104 does not name, rounds after each add as into FP32 and BF16,
and into an MX format adds exactly and is rounded once as its block is converted. -/
def scatterOne (t : Tile) (g : EmitCfg) (add : Bool) (s : Tab Val × Nat) (i : Nat) (v : Val) : Tab Val × Nat :=
  if !add then (Tab.set s.1 i v, s.2)
  else
    let f := g.acw.out
    let old := Tab.getD s.1 i (readVal t.spad f g.data g.scale g.acw.p i)
    if f == 9 then
      let q := g.acw.p - 96
      let k : Int := match v with
        | .fin n m e => if q ≤ e || shiftBy (shiftBy m (e - q)) (q - e) == m then signedAt n m e q
                        else Config.apInexact n m (e - q)
        | _ => 0
      let o : Int := (BitVec.ofNat 128 (apCode g.acw.p old)).toInt
      let r := (BitVec.ofInt 128 (o + k)).toInt
      (Tab.set s.1 i (.fin (decide (r < 0)) r.natAbs q), s.2)
    else
      let (x, fl) := old.add v
      let fl := fl ||| nanFlag [old]
      match (if isMx f then none else floatFmt f) with
      | some l =>
        let (code, fl') := roundFloat l (g.rounding i) g.acw.ovfInf x
        (Tab.set s.1 i (l.decode code), s.2 ||| fl ||| fl')
      | none => (Tab.set s.1 i x, s.2 ||| fl)

/-- Write what a scatter touched; an MX destination is converted block by block (R97). -/
def scatterOut (t : Tile) (g : EmitCfg) (limit : Nat) (x : Emit) (touched : Tab Val) : Emit :=
  if isMx g.acw.out then
    let blocks := (touched.map (fun e => e.1 / 32)).eraseDups
    blocks.foldl (fun x b =>
      let n := min 32 (limit - 32 * b)
      x.block g (32 * b) (32 * b) 1 ((List.range n).map (fun j =>
        Tab.getD touched (32 * b + j) (readVal t.spad g.acw.out g.data g.scale 0 (32 * b + j))))) x
  else touched.foldl (fun x e => x.block g e.1 e.1 1 [e.2]) x

/-- A scatter-write or scatter-add (R104): elements act in ascending source index; an index outside the destination writes
nothing and sets OOB. -/
def Tile.scatter (t : Tile) (add : Bool) (seed : Word64) (hdr w1 w2 w3 w4 : Word64) : Comp :=
  let acw := acwOf hdr
  let n := fld w4 0 32
  let g := t.emitCfg acw seed (operandOf w3) false
  let limit := selectLimit [hdr, w1, w2, w3, w4] g.data acw.out
  let src := selectSource t.spad w1 n
  let pairs := (selectIndices t.spad w2 n).zip src
  let inside := pairs.filter (fun e => decide (e.1 < limit))
  let (touched, flags) := inside.foldl (fun s e => scatterOne t g add s e.1 e.2) (([] : Tab Val), 0)
  let flags := flags ||| nanFlag src ||| flagIf (pairs.any (fun e => decide (limit ≤ e.1))) fOob
  t.comp g (scatterOut t g limit (t.emitStart hdr flags) touched) limit

/-! ### Expert routing (R105 to R107) -/

/-- What the procedure of R106 has assigned: counts used by expert, experts and weights by 16 × token + slot, spill and
passed. -/
structure Routing where
  used : Tab Nat
  dest : Tab (Nat × Val)
  spill : Nat
  passed : Nat
  deriving DecidableEq, Repr

/-- Try the candidates of one token from rank `c` for slot `j`, `n` of them. -/
def routeSlot (cand : Nat → Nat) (gate : Nat → Val) (cap : Nat → Nat) (j tok : Nat) : Nat → Nat → Routing → Routing
  | 0, _, s => { s with passed := s.passed + 1, dest := Tab.set s.dest (16 * tok + j) (0xFFFF, .zero) }
  | n + 1, c, s =>
    let e := cand c
    let taken := (List.range j).any (fun i => (Tab.getD s.dest (16 * tok + i) (0xFFFF, .zero)).1 == e)
    if !taken && decide (Tab.getD s.used e 0 < cap e) then
      { s with dest := Tab.set s.dest (16 * tok + j) (e, gate c), used := Tab.modify s.used e 0 (· + 1),
               spill := if j < c then s.spill + 1 else s.spill }
    else routeSlot cand gate cap j tok n (c + 1) s

/-- The expert-route step (R105 to R107, R118): COUNT tokens, gate weights at the source token by token with the candidates'
expert numbers as 32-bit words from the next 64-byte boundary, capacities at the index source; at the destination the expert
numbers, the weights and the count table, each from a 64-byte boundary (assumption 43). DESIGN CHOICE (assumption 91): the output record gets
the smallest ceiling of OUT_FMT; R84 and R83 do not say what the ceiling of these outputs is, and the FP32 weights do not count. -/
def Tile.expertRoute (t : Tile) (seed : Word64) (hdr w1 w2 w3 w4 : Word64) : Comp :=
  let a := operandOf w1
  let o := operandOf w3
  let tokens := fld w4 0 32
  let experts := fld w4 32 16
  let depth := fld w4 48 8
  let slots := fld w4 56 8
  let candAt := align64 (a.data + pad32 (tokens * depth) * elemBits a.elem / 8)
  let gate := fun tok c => readVal t.spad a.elem a.data a.scale 0 (tok * depth + c)
  let cand := fun tok c => Mem.readLe t.spad (candAt + 4 * (tok * depth + c)) 4
  let cap := fun e => if e < experts then Mem.readLe t.spad ((operandOf w2).data + 4 * e) 4 else 0
  let s := (List.range slots).foldl (fun s j => (List.range tokens).foldl (fun s tok =>
    routeSlot (cand tok) (gate tok) cap j tok (depth - j) j s) s)
    ({ used := [], dest := [], spill := 0, passed := 0 } : Routing)
  let pairs := (List.range tokens).flatMap (fun tok => (List.range slots).map (fun j =>
    Tab.getD s.dest (16 * tok + j) (0xFFFF, .zero)))
  let weightAt := align64 (o.data + 2 * (tokens * slots))
  let tableAt := align64 (weightAt + 4 * (tokens * slots))
  let sp := writeWords t.spad o.data 2 (pairs.map (fun e => e.1))
  let weights := pairs.map (fun e => (roundFloat ⟨8, 127, 23, .ieee⟩ .even true e.2).1)
  let counts := (List.range experts).map (fun e => Tab.getD s.used e 0) ++ [s.spill, s.passed]
  let sp := writeWords sp weightAt 4 weights
  let sp := writeWords sp tableAt 4 counts
  let flags := flagIf (s.spill != 0) fSpill ||| flagIf (s.passed != 0) fPass
    ||| nanFlag (pairs.map (fun e => e.2))
  let g := t.emitCfg (acwOf hdr) seed o false
  t.comp g ({ t.emitStart hdr flags with spad := sp }.foldWords g 0
    (pairs.map (fun (e : Nat × Val) => (e.1, Val.zero)) ++ weights.map (fun w => (w, fp32Val w)) ++ counts.map (fun n => (n, Val.zero)))) 0

end Sys2Proof.Machine
end

