-- ==== Sys2Proof/Machine/StepUse.lean ====
section
/-!
DEFINITION. What a step of a program touches (R114 to R121, R131, R132): its class and operand words, its scratchpad ranges,
bank masks and records, and the checks that plan validation makes of it.
-/

namespace Sys2Proof.Machine

/-! ### The header word (R114) -/

/-- CLASS of a step. -/
def stepClass (h : Word64) : Nat := fld h 0 4
/-- OP of a step. -/
def stepOp (h : Word64) : Nat := fld h 4 4
/-- SCHED, STREAM and DIGEST_EN of a step. -/
def stepSched (h : Word64) : Bool := flag h 11
def stepStream (h : Word64) : Bool := flag h 12
def stepDigest (h : Word64) : Bool := flag h 13

/-- An operand word of a step; zero beyond those it has. -/
def StepWords.op (s : StepWords) (i : Nat) : Word64 := s.ops.getD i 0

/-- Operand words of a class and operation (table "Step classes"); none where either is reserved. -/
def stepWordCount (cls op : Nat) : Option Nat :=
  match cls with
  | 0 => if op ≤ 1 then some 5 else none
  | 1 => if op ≤ 14 then some 4 else none
  | 2 => if op ≤ 6 then some 4 else none
  | 3 => if op = 0 then some 3 else none
  | 4 => if op = 0 then some 4 else none
  | 5 => if op = 0 then some 1 else none
  | 6 => if op = 0 then some 1 else none
  | 7 => if op = 0 then some 2 else none
  | 8 => if op ≤ 2 then some 1 else if op = 3 then some 2 else none
  | 9 => if op ≤ 1 then some 1 else none
  | 10 => if op ≤ 1 then some 0 else if op = 2 then some 2 else none
  | _ => none

/-! ### The tile-mover descriptor (R131) -/

/-- A tile-mover descriptor. -/
structure Move where
  fmt : Nat
  kind : Nat
  rows : Nat
  spad : Nat
  mem : Nat
  rowBytes : Nat
  spadStride : Nat
  memStride : Nat
  sigEn : Bool
  sigAddr : Nat
  deriving DecidableEq, Repr

/-- The descriptor in a MOVE step's four operand words. -/
def moveOf (ws : List Word64) : Move :=
  let a := ws.getD 0 0
  let b := ws.getD 1 0
  let c := ws.getD 2 0
  let d := ws.getD 3 0
  { fmt := fld a 0 4, kind := fld a 4 4, rows := fld a 16 16, spad := fld a 32 23, mem := fld b 0 57, rowBytes := fld c 0 24,
    spadStride := fld c 32 24, memStride := fld d 0 40, sigEn := flag d 40, sigAddr := fld d 41 23 }

/-- The memory rows of a LOAD, STORE, RECLOAD or RECSTORE: addresses and lengths (R131, R132). -/
def Move.memRows (m : Move) : List (Nat × Nat) :=
  if m.kind = 0 ∨ m.kind = 1 then (List.range m.rows).map (fun i => (m.mem + i * m.memStride, m.rowBytes))
  else if m.kind = 3 ∨ m.kind = 4 then [(m.mem, 16 * m.rows)]
  else []

/-- The scratchpad rows at SPAD_ADDR. -/
def Move.spadRows (m : Move) : List (Nat × Nat) :=
  if m.kind ≤ 2 then (List.range m.rows).map (fun i => (m.spad + i * m.spadStride, m.rowBytes)) else []

/-- The destination rows of a COPY. -/
def Move.copyRows (m : Move) : List (Nat × Nat) :=
  (List.range m.rows).map (fun i => (m.mem % 2 ^ 23 + i * m.memStride, m.rowBytes))

/-! ### Ranges (R116 to R121) -/

/-- What a step reads and writes: scratchpad ranges and record indices. -/
structure StepUse where
  reads : List (Nat × Nat)
  writes : List (Nat × Nat)
  recReads : List Nat
  recWrites : List Nat
  deriving DecidableEq, Repr

/-- Bytes of `n` positions of a format: whole blocks of 32 in an MX format. -/
def planeBytes (fmt n : Nat) : Nat := if isMx fmt then pad32 n * elemBits fmt / 8 else n * (elemBits fmt / 8)

/-- The planes of `n` positions of a tensor. -/
def planes (data scale fmt n : Nat) : List (Nat × Nat) :=
  (data, planeBytes fmt n) :: (if isMx fmt then [(scale, pad32 n / 32)] else [])

/-- The ranges of a matrix operand; a patched one reads its descriptor and its feature maps (R117). -/
def matRanges (sp : Mem) (o : Operand) (rows ks batch : Nat) : List (Nat × Nat) :=
  if o.patch then
    let d := patchAt sp o.data
    (o.data, 32) :: planes d.base o.scale o.elem (batch * (d.h * d.w * d.ch))
  else planes o.data o.scale o.elem (storedSize o rows ks batch)

/-- The ranges of a source vector of `n` elements. -/
def vecRanges (w : Word64) (n : Nat) : List (Nat × Nat) :=
  let o := operandOf w
  planes o.data o.scale o.elem n

/-- The ranges of a destination vector of `n` elements in OUT_FMT. -/
def outRanges (w : Word64) (out n : Nat) : List (Nat × Nat) :=
  let o := operandOf w
  planes o.data o.scale out n

/-- Ranges of a SELECT step (R103 to R107, R118; assumption 43). -/
def selectUse (h : Word64) (s : StepWords) : StepUse :=
  let w1 := s.op 0
  let w2 := s.op 1
  let w3 := s.op 2
  let w4 := s.op 3
  let n := fld w4 0 32
  let out := (acwOf h).out
  let a := operandOf w1
  let o := operandOf w3
  let k := fld w4 32 16
  let depth := fld w4 48 8
  let slots := fld w4 56 8
  let limitIn := selectLimit [h, w1, w2, w3, w4] a.data a.elem
  let limitOut := selectLimit [h, w1, w2, w3, w4] o.data out
  let reads := match stepOp h with
    | 3 => (operandOf w2).data |> fun d => (d, 4 * n) :: vecRanges w1 limitIn
    | 4 => ((operandOf w2).data, 4 * n) :: vecRanges w1 n
    | 5 => ((operandOf w2).data, 4 * n) :: (vecRanges w1 n ++ outRanges w3 out limitOut)
    | 6 => ((operandOf w2).data, 4 * k) :: (align64 (a.data + pad32 (n * depth) * elemBits a.elem / 8), 4 * (n * depth))
        :: vecRanges w1 (n * depth)
    | _ => vecRanges w1 n
  let writes := match stepOp h with
    | 0 => (align64 (o.data + pad32 (min k n) * elemBits out / 8), 4 * min k n) :: outRanges w3 out (min k n)
    | 4 => outRanges w3 out limitOut
    | 5 => outRanges w3 out limitOut
    | 6 =>
      let weightAt := align64 (o.data + 2 * (n * slots))
      [(o.data, 2 * (n * slots)), (weightAt, 4 * (n * slots)), (align64 (weightAt + 4 * (n * slots)), 4 * (k + 2))]
    | _ => outRanges w3 out n
  let recs := if 3 ≤ stepOp h ∧ stepOp h ≤ 6 then [a.rec_, (operandOf w2).rec_] else [a.rec_]
  { reads := reads, writes := writes, recReads := recs, recWrites := [o.rec_] }

/-- What a step touches, its patch descriptors read from the scratchpad. `iqBase` is the issue queue's address. -/
def stepUse (sp : Mem) (iqBase : Nat) (s : StepWords) : StepUse :=
  let h := s.hdr
  let out := (acwOf h).out
  match stepClass h with
  | 0 =>
    let a := operandOf (s.op 0)
    let b := operandOf (s.op 1)
    let o := operandOf (s.op 2)
    let m := matShape h (s.op 3) (s.op 4)
    { reads := matRanges sp a m.m m.k m.batch ++ matRanges sp b m.n m.k m.batch,
      writes := planes o.data o.scale out (outPositions o out m), recReads := [a.rec_, b.rec_], recWrites := [o.rec_] }
  | 1 =>
    let n := fld (s.op 3) 0 32
    let b := s.op 1
    let o := operandOf (s.op 2)
    let two := decide (stepOp h ≤ 7) && b != 0
    let fma := stepOp h == 3
    { reads := vecRanges (s.op 0) n ++ (if two then vecRanges b n else [])
        ++ (if fma then outRanges (s.op 2) out n else []),
      writes := outRanges (s.op 2) out (if 12 ≤ stepOp h then 1 else n),
      recReads := (operandOf (s.op 0)).rec_ :: ((if two then [(operandOf b).rec_] else []) ++ (if fma then [o.rec_] else [])),
      recWrites := [o.rec_] }
  | 2 => selectUse h s
  | 3 =>
    let n := fld (s.op 2) 0 32
    { reads := vecRanges (s.op 0) n, writes := outRanges (s.op 1) out n, recReads := [(operandOf (s.op 0)).rec_],
      recWrites := [(operandOf (s.op 1)).rec_] }
  | 4 =>
    let m := moveOf s.ops
    let recs := (List.range m.rows).map (fun i => m.spad % 1024 + i)
    match m.kind with
    | 0 => { reads := [], writes := m.spadRows, recReads := [], recWrites := [] }
    | 1 => { reads := m.spadRows, writes := [], recReads := [], recWrites := [] }
    | 2 => { reads := m.spadRows, writes := m.copyRows, recReads := [], recWrites := [] }
    | 3 => { reads := [], writes := [], recReads := [], recWrites := recs }
    | _ => { reads := [], writes := [], recReads := recs, recWrites := [] }
  | 5 => { reads := [(fld (s.op 0) 0 23, 64 * fld (s.op 0) 32 9)], writes := [(iqBase, 4096)], recReads := [], recWrites := [] }
  | 7 => { reads := [(fld (s.op 0) 0 23, 8)], writes := [], recReads := [], recWrites := [] }
  | 8 => { reads := [], writes := if stepOp h == 3 then [(fld (s.op 1) 0 23, 8)] else [], recReads := [], recWrites := [] }
  | 9 => { reads := [], writes := if stepOp h == 1 then [(fld (s.op 0) 0 23, 64)] else [], recReads := [], recWrites := [] }
  | 10 => { reads := if stepOp h == 2 then [(fld (s.op 0) 0 23, 8)] else [], writes := [], recReads := [], recWrites := [] }
  | _ => { reads := [], writes := [], recReads := [], recWrites := [] }

/-- The bank mask of ranges (R120, R121). -/
def bankMask (rs : List (Nat × Nat)) : BitVec 48 :=
  BitVec.ofNat 48 (rs.foldl (fun m r => if r.2 = 0 then m else
    (List.range 48).foldl (fun m b =>
      if r.1 / 0x20000 ≤ b ∧ b ≤ (r.1 + r.2 - 1) / 0x20000 then m ||| 2 ^ b else m) m) 0)

/-- The masks and record sets of what a step touches (R121). -/
def StepUse.hold (u : StepUse) : Hold :=
  { readMask := bankMask u.reads, writeMask := bankMask u.writes, recReads := u.recReads, recWrites := u.recWrites }

/-! ### Checks of one step (R73, R80, R88, R94, R115, R118 to R120, R128, R131, R132) -/

/-- A format a matrix operand may have (R73). -/
def matFormat (f : Nat) : Bool := decide (1 ≤ f) && decide (f ≤ 8)
/-- A format a vector operand may have. -/
def vecFormat (f : Nat) : Bool := decide (f ≤ 8)

/-- A pair of matrix operand formats may meet (R80): both MX, or both BF16 or FP16. -/
def pairFormats (a b : Nat) : Bool := matFormat a && matFormat b && isMx a == isMx b

/-- Alignment of an operand's planes, 64 bytes (R120). -/
def operandAligned (o : Operand) (fmt : Nat) : Bool := o.data % 64 == 0 && (!isMx fmt || o.scale % 64 == 0)

/-- Ranges lie in the scratchpad (R119). -/
def inSpad (rs : List (Nat × Nat)) : Bool := rs.all (fun r => decide (r.1 + r.2 ≤ spadEnd))

/-- The fields of a tile-mover descriptor are as R131 and R132 ask; its memory range is checked by translation. -/
def moveFieldsOk (m : Move) : Bool :=
  decide (m.kind ≤ 4) && m.rows != 0 && (!m.sigEn || (m.sigAddr % 8 == 0 && decide (m.sigAddr + 8 ≤ spadEnd)))
    && (if m.kind ≤ 2 then
          m.rowBytes % 64 == 0 && decide (64 ≤ m.rowBytes) && decide (m.rowBytes ≤ 0x600000)
            && m.spadStride % 64 == 0 && m.memStride % 64 == 0 && m.spad % 64 == 0 && m.mem % 64 == 0
            && decide (m.rows * m.rowBytes ≤ 0x600000) && inSpad m.spadRows
            && (m.kind != 2 || inSpad m.copyRows)
        else decide (m.spad % 1024 + m.rows ≤ 1024))

/-- The operands of a compute step are as its class asks. -/
def computeOk (s : StepWords) : Bool :=
  let h := s.hdr
  let acw := acwOf h
  match stepClass h with
  | 0 =>
    let a := operandOf (s.op 0)
    let b := operandOf (s.op 1)
    let m := matShape h (s.op 3) (s.op 4)
    let kt := fld (s.op 4) 0 32
    pairFormats a.elem b.elem && operandAligned a a.elem && operandAligned b b.elem
      && operandAligned (operandOf (s.op 2)) acw.out && m.m != 0 && m.n != 0 && m.k != 0 && decide (m.k ≤ 2 ^ 24)
      && decide (acw.out ≤ 9) && (acw.out != 9 || acw.plan)
      && (!acw.plan || (decide (m.k ≤ kt) && decide (kt ≤ 2 ^ 31)))
  | 1 =>
    let n := fld (s.op 3) 0 32
    vecFormat (operandOf (s.op 0)).elem && operandAligned (operandOf (s.op 0)) (operandOf (s.op 0)).elem
      && (s.op 1 == 0 || decide (7 < stepOp h) || (vecFormat (operandOf (s.op 1)).elem && operandAligned (operandOf (s.op 1)) (operandOf (s.op 1)).elem))
      && operandAligned (operandOf (s.op 2)) acw.out && n != 0 && decide (acw.out ≤ 8)
      && (stepOp h != 7 || s.op 1 != 0)
  | 2 =>
    let n := fld (s.op 3) 0 32
    let k := fld (s.op 3) 32 16
    let depth := fld (s.op 3) 48 8
    let slots := fld (s.op 3) 56 8
    vecFormat (operandOf (s.op 0)).elem && operandAligned (operandOf (s.op 0)) (operandOf (s.op 0)).elem
      && (s.op 1 == 0 || (operandOf (s.op 1)).data % 64 == 0)
      && operandAligned (operandOf (s.op 2)) acw.out && n != 0
      && (decide (acw.out ≤ 8) || (acw.out == 9 && acw.plan && stepOp h == 5))
      && (stepOp h != 0 || (decide (1 ≤ k) && decide (k ≤ 64) && decide (n ≤ 65536)))
      && (stepOp h != 6 || (decide (n ≤ 65536) && decide (1 ≤ k) && decide (k ≤ 1024) && decide (1 ≤ slots)
            && decide (slots ≤ 8) && decide (slots ≤ depth) && decide (depth ≤ 16)))
  | _ =>
    let a := operandOf (s.op 0)
    decide (a.elem ≤ 9) && operandAligned a a.elem && operandAligned (operandOf (s.op 1)) acw.out
      && fld (s.op 2) 0 32 != 0 && decide (acw.out ≤ 8)

/-- A patched operand's feature map is tensor data: its address in the patch descriptor is 64-byte aligned (R119, R120). -/
def patchAligned (sp : Mem) (s : StepWords) : Bool :=
  stepClass s.hdr != 0 || [s.op 0, s.op 1].all (fun w =>
    let o := operandOf w
    !o.patch || (patchAt sp o.data).base % 64 == 0)

/-- Signal words, stamp targets and digest targets are aligned. -/
def wordsAligned (s : StepWords) : Bool :=
  match stepClass s.hdr with
  | 5 => fld (s.op 0) 0 23 % 64 == 0 && decide (1 ≤ fld (s.op 0) 32 9) && decide (fld (s.op 0) 32 9 ≤ 256)
  | 7 => fld (s.op 0) 0 23 % 8 == 0
  | 8 => stepOp s.hdr != 3 || fld (s.op 1) 0 23 % 8 == 0
  | 9 => stepOp s.hdr != 1 || fld (s.op 0) 0 23 % 64 == 0
  | 10 => stepOp s.hdr != 2 || fld (s.op 0) 0 23 % 8 == 0
  | _ => true

/-- The static checks of a step: everything but its schedule entry, its memory, the digest slots and its collective. -/
def stepOk (sp : Mem) (iqBase : Nat) (round : Time) (s : StepWords) : Bool :=
  let h := s.hdr
  let u := stepUse sp iqBase s
  (stepWordCount (stepClass h) (stepOp h) == some (fld h 8 3)) && s.ops.length == fld h 8 3
    && (!stepStream h || stepClass h == 0) && (!stepDigest h || decide (stepClass h ≤ 3))
    && (decide (4 ≤ stepClass h) || computeOk s)
    && (stepClass h != 4 || moveFieldsOk (moveOf s.ops))
    && (stepClass h != 6 || ((s.op 0).toNat % 65536 == 0 && decide ((s.op 0).toNat < round.toNat)))
    && wordsAligned s && patchAligned sp s && inSpad u.reads && inSpad u.writes

end Sys2Proof.Machine
end

