-- ==== Sys2Proof/Machine/Notice.lean ====
section
/-!
DEFINITION. What the keeper services of a reach send and declare: frames put into egress queues, keeper frames (R260), and
stoppages of plans (R72) with their events, notices and timing-dependent choices.
-/

namespace Sys2Proof.Machine

/-- The address of a router port (R323). -/
def portAddress (r : ReachId) (p : PortId) : BitVec 48 :=
  Config.macBlock + BitVec.ofNat 48 (if p.val < 4 then 4 * r.val + p.val else 16 + 3 * r.val + (p.val - 4))

/-- Put a frame at the end of one egress queue of a port (R338). -/
def Mac.enqueue (m : Mac) (tc sub : Nat) (x : EgressFrame) : Mac :=
  if m.queues.any (fun q => q.tc == tc && q.sub == sub) then
    { m with queues := m.queues.map (fun q => if q.tc == tc && q.sub == sub then { q with frames := q.frames ++ [x] } else q) }
  else { m with queues := m.queues ++ [{ tc := tc, sub := sub, frames := [x] }] }

/-- Payload bytes of a keeper frame; the spec lays out CMAP (R277) and echoes (R504), the others are the model's choice
(assumption 22). -/
def keeperLen : KeeperBody → Nat
  | .survey _ => 32
  | .lsa p => 24 + 4 * p.links.length
  | .linkNotice _ _ => 8
  | .cmap _ => 608
  | .tableWrite _ e v => 16 + 8 * e.length + 2 * v.length
  | .tableAck _ _ => 8
  | .flip _ _ => 16
  | .flipAck _ => 8
  | .hello => 0
  | .echoReq _ => 32
  | .echoResp _ => 32
  | .planArm _ => 48
  | .planStop _ _ => 16
  | .other _ => 0

/-- Bytes of a frame from the destination address through the FCS, at least 64 (R323). -/
def etherLen (payload : Nat) : Nat := max 64 (18 + payload)

/-- A keeper frame as its source sends it (R260). -/
def mkKeeper (src dst : Word16) (b : KeeperBody) : KeeperFrame :=
  { fmt := 1, epoch := false, pkey := 1, dst := dst, src := src, hops := 32, body := b, crcOk := true }

/-- Bytes on the wire of a keeper frame: header, payload and CRC trailer. -/
def keeperFrameLen (b : KeeperBody) : Nat := etherLen (16 + keeperLen b)

/-- The keepers of a reach send a keeper frame: it enters the router on port 8. -/
def Chip.sendKeeper (c : Chip) (r : ReachId) (dst : Word16) (b : KeeperBody) : Chip :=
  let x : RtrFrame := { ingress := 8, body := .keeper (mkKeeper (c.nodeId r) dst b), len := keeperFrameLen b,
                        arrived := c.now r, queue := 7 }
  c.onReach r (fun y => { y with rtr := { y.rtr with inbox := y.rtr.inbox ++ [x] } })

/-- A frame of the node's own that travels on no more than one link, in TC7 of one port (R260, R43). -/
def Chip.sendLink (c : Chip) (r : ReachId) (p : PortId) (b : FrameBody) (len : Nat) : Chip :=
  c.onReach r (fun x => x.onMac p (fun m =>
    m.enqueue 7 0 { body := b, len := len, ingress := 8, tenancy := 64, inQueue := 7, vid := none }))

/-- A link-local keeper frame on one port (R260). -/
def Chip.sendLocal (c : Chip) (r : ReachId) (p : PortId) (b : KeeperBody) : Chip :=
  c.sendLink r p (.keeper (mkKeeper (c.nodeId r) 0xFFFF b)) (keeperFrameLen b)

/-- Ports of a reach in USABLE. -/
def Reach.usablePorts (x : Reach) : List PortId := allPorts.filter (fun p => (x.port p).state == .usable)

/-! ### Stoppages -/

/-- CAUSE of a stoppage body (R366). -/
def StopCause.code : StopCause → Nat
  | .late => 0 | .detour => 1 | .time => 2 | .fault => 3 | .collective => 4 | .driver => 5

/-- The cause a PLAN_STOP frame names. -/
def StopCause.ofCode (n : Nat) : StopCause :=
  match n with
  | 0 => .late | 1 => .detour | 2 => .time | 3 => .fault | 4 => .collective | _ => .driver

/-- What a stoppage event says beside its cause (table "Stoppage body"). -/
structure StopInfo where
  code : Nat
  tile : Nat
  coll : Nat
  step : Nat
  node : Nat
  /-- The round of a failed invocation (R313); else the plan's. -/
  round : Option Nat
  deriving DecidableEq, Repr

/-- Nothing to say. -/
def StopInfo.none : StopInfo := { code := 0, tile := 0xFFFF, coll := 0xFFFF, step := 0, node := 0xFFFF, round := Option.none }

/-- The 32 bytes of a stoppage body. -/
def stopBytes (r : ReachId) (cause : StopCause) (i : StopInfo) (p : PlanInst) : List Byte :=
  leBytes 4 (1 + cause.code * 2 ^ 4 + r.val * 2 ^ 8 + i.code * 2 ^ 16) ++ leBytes 2 i.tile ++ leBytes 2 i.coll
    ++ leBytes 8 p.con.hdr.planId.toNat ++ leBytes 4 i.step ++ leBytes 4 (i.round.getD p.round) ++ leBytes 8 i.node

/-- The function a plan belongs to. -/
def PlanInst.fn (p : PlanInst) : FnId := ⟨p.con.hdr.function % 64, Nat.mod_lt _ (by decide)⟩

/-- Change the plans of a reach that a test picks. -/
def Reach.mapPlans (x : Reach) (sel : PlanInst → Bool) (f : PlanInst → PlanInst) : Reach :=
  { x with plan := { x.plan with plans := x.plan.plans.map (fun p => if sel p then f p else p) } }

/-- TIME_STATUS.STATE of a servo state (R56). -/
def Servo.code : Servo → Nat
  | .freeRun => 0 | .acquire => 1 | .locked => 2 | .holdover => 3 | .holdoverExpired => 4 | .aheadOfMaster => 5

/-- Count what a stoppage counts under R183. -/
def Chip.stopTdc (c : Chip) (r : ReachId) (cause : StopCause) (i : StopInfo) (p : PlanInst) : Chip :=
  match cause with
  | .late => c.tdc r 7 (some p.fn) 73 (BitVec.ofNat 32 i.tile) (BitVec.ofNat 64 i.step)
  | .time => c.tdc r 9 (some p.fn) 73 (BitVec.ofNat 32 (c.reach r).time.servo.code) p.con.hdr.planId
  | .detour => c.tdc r 0xA (some p.fn) 73 (BitVec.ofNat 32 i.node) p.con.hdr.planId
  | _ => c

/-- A stoppage reaches a tile (R127): it starts no further step, a wait is abandoned, and it reports STOPPED. -/
def Tile.freeze (t : Tile) : Tile := if t.seqState == 7 then t else { t with seqState := 6, wait := none }

/-- Change the tiles of a reach that belong to a plan. -/
def Reach.onPlanTiles (x : Reach) (planId : Word64) (f : Tile → Tile) : Reach :=
  { x with tiles := Tab.mapVals x.tiles (fun t => if t.plan == some planId then f t else t) }

/-- Declare a stoppage of one plan on a reach (R72): its tiles freeze, the event, the notice to every peer and the choice
counted unless a peer's notice brought it, and a KIND 3 trigger. -/
def Chip.declareStop (c : Chip) (r : ReachId) (cause : StopCause) (i : StopInfo) (tell : Bool) (p : PlanInst) : Chip :=
  let c := c.onReach r (fun x => x.mapPlans (fun q => q.con.hdr.planId == p.con.hdr.planId)
    (fun q => { q with st := .stopped, cause := some cause }))
  let c := c.onReach r (fun x => x.onPlanTiles p.con.hdr.planId Tile.freeze)
  let c := if tell then
      forEach (p.con.peers.filter (fun n => n != c.nodeId r)) (c.stopTdc r cause i p) (fun c n =>
        c.sendKeeper r n (.planStop p.con.hdr.planId (BitVec.ofNat 3 cause.code)))
    else c
  let c := c.event r p.fn true 3 (stopBytes r cause i p) p.handle
  c.fire r 3

/-- Every plan of a reach that a test picks and that runs, or whose start is agreed, enters a stoppage. -/
def Chip.stopPlans (c : Chip) (r : ReachId) (sel : PlanInst → Bool) (cause : StopCause) (i : StopInfo)
    (tell : Bool) : Chip :=
  forEach ((c.reach r).plan.plans.filter (fun p => sel p && (p.st == .running || p.st == .agreed))) c
    (fun c p => c.declareStop r cause i tell p)

/-- The plan that a tile belongs to. -/
def Reach.planOf (x : Reach) (planId : Word64) : Option PlanInst :=
  x.plan.plans.find? (fun p => p.con.hdr.planId == planId)

end Sys2Proof.Machine
end

