-- ==== Sys2Proof/Machine/PlanRelease.lean ====
section
/-!
DEFINITION. What a plan holds on a reach and how it is taken off again (R64 to R66, R68, R343, R344): compiled gate lists, reservations, the
release of a plan, and a load or resume that fails.
-/

namespace Sys2Proof.Machine

/-! ### Compiled gate lists (R64, R343) -/

/-- A window as it lies in the lock cycle, in ns: opening, length, gates, window number. -/
structure WinSpan where
  lo : Nat
  len : Nat
  gates : BitVec 8
  win : Word16
  deriving DecidableEq, Repr

/-- The windows of a container on one port of a reach. -/
def Container.spans (k : Container) (r : ReachId) (p : Nat) : List WinSpan :=
  (k.windows.filter (fun w => w.reach == r.val && w.rport == p)).map (fun w =>
    { lo := timeNs w.openOff, len := timeNs w.length, gates := BitVec.ofNat 8 w.tcMask,
      win := if w.tcMask.testBit 6 then BitVec.ofNat 16 w.win else 0xFFFF })

/-- Windows in order of opening. -/
def sortSpans (l : List WinSpan) : List WinSpan := orderBy (fun a b => decide (a.lo < b.lo)) l

/-- Windows cut at the lock-cycle boundary: the part beyond it opens entry 0. -/
def cutSpans (cycle : Nat) (l : List WinSpan) : List WinSpan :=
  sortSpans (l.flatMap (fun w =>
    if cycle < w.lo + w.len then [{ w with len := cycle - w.lo }, { w with lo := 0, len := w.lo + w.len - cycle }] else [w]))

/-- Gates of an interval between windows: TC0 to TC5 and TC7. -/
def openGates : BitVec 8 := 0xBF

/-- Entries from time `t` on: one for each window and one for each interval between windows. -/
def compileFrom (cycle : Nat) : Nat → List WinSpan → List GateEntry
  | t, [] => if t < cycle then [{ gates := openGates, win := 0xFFFF, interval := cycle - t }] else []
  | t, w :: ws =>
    (if t < w.lo then [{ gates := openGates, win := 0xFFFF, interval := w.lo - t }] else [])
      ++ { gates := w.gates, win := w.win, interval := w.len } :: compileFrom cycle (w.lo + w.len) ws

/-- The gate list of a port with the given windows. -/
def compileGates (cycle : Nat) (ws : List WinSpan) : List GateEntry := compileFrom cycle 0 (cutSpans cycle ws)

/-- The windows of several containers on one port. -/
def portSpans (ks : List Container) (r : ReachId) (p : Nat) : List WinSpan := ks.flatMap (fun k => k.spans r p)

/-! ### Plans of a reach -/

/-- Change the plan service of a reach. -/
def Chip.onPlan (c : Chip) (r : ReachId) (f : PlanService → PlanService) : Chip :=
  c.onReach r (fun x => { x with plan := f x.plan })

/-- The plan of a handle on a reach. -/
def Reach.planBy (x : Reach) (handle : Word64) : Option PlanInst := x.plan.plans.find? (fun p => p.handle == handle)

/-- Change the plan of a handle on a reach. -/
def Chip.onPlanBy (c : Chip) (r : ReachId) (handle : Word64) (f : PlanInst → PlanInst) : Chip :=
  c.onReach r (fun x => x.mapPlans (fun p => p.handle == handle) f)

/-- The reaches that hold a plan of a handle. -/
def Chip.planReaches (c : Chip) (handle : Word64) : List ReachId :=
  allReaches.filter (fun r => ((c.reach r).planBy handle).isSome)

/-- The plan service writes the inactive bank of each port with the windows of the plans on the reach and asks for a switch
2 µs on; with no plan left the lists are disabled. -/
def Chip.writeGates (c : Chip) (r : ReachId) : Chip :=
  c.onReach r (fun x =>
    let ks := x.plan.plans.map (fun p => p.con)
    match ks with
    | [] => { forEach allPorts x (fun x p => x.onMac p (fun m =>
        { m with bank0 := [], bank1 := [], gateEn := false, switchAt := none })) with plan := { x.plan with clock := none } }
    | k :: _ =>
      let cycle := timeNs k.hdr.lockCycle
      forEach allPorts x (fun x p => x.onMac p (fun m =>
        let l := compileGates cycle (portSpans ks r p.val)
        let m : Mac := { m with switchAt := some (x.time.now + nsTime 2000) }
        if m.gateActive == 0 then { m with bank1 := l } else { m with bank0 := l })))

/-! ### Reservations (R65) -/

/-- Indices of a kind that a plan reserves on a reach. -/
def Container.reserved (k : Container) (r : ReachId) (kind : Nat) : List Nat :=
  (k.resv.filter (fun e => e.reach == r.val && e.kind == kind)).flatMap (fun e => (List.range e.count).map (fun i => e.first + i))

/-- The bits of wharf slots. -/
def slotBits (l : List Nat) : Word64 := l.foldl (fun w s => w ||| BitVec.ofNat 64 (2 ^ s)) 0

/-- Slots that an invocation outside any plan holds. -/
def CollInv.slotsHeld (i : CollInv) : Word64 :=
  match i.plan, i.slot with
  | none, some s => slotBits ((List.range i.desc.slots).map (fun n => s + n))
  | _, _ => 0

/-- Slots held by unplanned invocations of a reach. -/
def Coll.unplanned (x : Coll) : Word64 := x.invs.foldl (fun w i => w ||| i.slotsHeld) 0

/-- Mark the contexts, moorings and slots that a plan reserves, or free them. A slot that an unplanned invocation holds is
waited for (R305). -/
def Reach.reserve (x : Reach) (r : ReachId) (k : Container) (on : Bool) : Reach :=
  let slots := slotBits (k.reserved r 1)
  let busy := x.coll.unplanned
  let rme := { x.rme with
    qps := (k.reserved r 2).foldl (fun t i => Tab.update t i (fun q => { q with plan := on })) x.rme.qps,
    moorings := (k.reserved r 5).foldl (fun t i => Tab.update t i (fun m => { m with plan := on })) x.rme.moorings }
  let coll := if on then { x.coll with held := x.coll.held ||| slots, waiting := x.coll.waiting ||| (slots &&& busy) }
    else { x.coll with held := (x.coll.held &&& ~~~ slots) ||| busy, waiting := x.coll.waiting &&& ~~~ slots }
  { x with rme := rme, coll := coll }

/-! ### Taking a plan off -/

/-- A tile whose plan has gone: idle, its program memory empty. What already runs on it ends. -/
def Tile.uninstall (t : Tile) : Tile :=
  { t with plan := none, progs := [], masks := [], seqState := 0, step := 0, phase := 0, copy := none, wait := none, redo := [],
           remoteOk := [], remoteRuns := [], failStep := 0, phaseEnded := false, passes := 0, resumeAt := none, digests := [] }

/-- Take a plan off a reach with all it holds (R344): reservations, routes, windows, programs, collectives, transpositions. -/
def Chip.releasePlan (c : Chip) (r : ReachId) (handle : Word64) : Chip :=
  match (c.reach r).planBy handle with
  | none => c
  | some p =>
    let id := p.con.hdr.planId
    let c := c.onReach r (fun x =>
      let x := (x.onPlanTiles id Tile.uninstall).reserve r p.con false
      { x with plan := { x.plan with plans := x.plan.plans.filter (fun q => q.handle != handle) },
               coll := { x.coll with invs := x.coll.invs.filter (fun i => i.plan != some handle) },
               mem := { x.mem with xposArmed := x.mem.xposArmed.filter (fun e => e.1 != handle),
                                   xposDone := x.mem.xposDone.filter (fun e => e.plan != handle),
                                   xposFlight := x.mem.xposFlight.filter (fun e => e.plan != handle) } })
    c.writeGates r

/-- A load or resume that fails in the agreement (R66): a loaded plan leaves nothing behind on any reach, a resumed one stays
stopped. -/
def Chip.planFail (c : Chip) (r : ReachId) (handle : Word64) (code idx : Nat) : Chip :=
  match (c.reach r).planBy handle with
  | none => c
  | some p =>
    let mine := c.planReaches handle
    let c := if p.resuming then
        forEach mine c (fun c q => c.onPlanBy q handle (fun p => { p with st := .stopped, cmd := none, resuming := false }))
      else forEach mine c (fun c q => c.releasePlan q handle)
    c.completeOpt p.cmd r.val code (BitVec.ofNat 64 idx)

/-- Plans of a reach that are being armed when it leaves LOCKED fail with PLAN_NO_TIME: arming requires LOCKED (R68). -/
def Chip.failArming (c : Chip) (r : ReachId) : Chip :=
  forEach ((c.reach r).plan.plans.filter (fun p => p.st == .arming)) c (fun c p => c.planFail r p.handle 0x03 0)

end Sys2Proof.Machine
end

