-- ==== Sys2Proof/Machine/TimeService.lean ====
section
/-!
DEFINITION. The time service of a reach (chapter 02, R38 to R56, R541): sources, the servo with its states, PTP as a
boundary clock, discontinuities and the timing domain.
-/

namespace Sys2Proof.Machine

/-- Change the timing domain of a reach. -/
def Chip.onTime (c : Chip) (r : ReachId) (f : TimeDom → TimeDom) : Chip :=
  c.onReach r (fun x => { x with time := f x.time })

/-- Change what the time service holds of a PTP port. -/
def TimeDom.onPort (t : TimeDom) (p : PortId) (f : PtpPort → PtpPort) : TimeDom :=
  { t with ptp := Tab.modify t.ptp p.val PtpPort.reset f }

/-- What the time service holds of a PTP port. -/
def TimeDom.port (t : TimeDom) (p : PortId) : PtpPort := Tab.getD t.ptp p.val PtpPort.reset

/-- The one-hop latency between two reaches of the module, in ns (R20, R29). -/
def crossHopNs : Nat := 90

/-- Latency in whole ns that HOP_BASE and the plan service give the link of a port (R238, R66): of an external port the measured path delay and
the fixed latencies of both ends, of a cross-reach link the 90 ns hop without the 26 FCLK cycles of the next router, which R223 counts in it
and R238 in that router's own figure; rounded up. DEDUCED (assumption 26). -/
def Reach.linkLatency (x : Reach) (p : PortId) : Nat :=
  let path := (x.time.port p).pathDelay.toNat
  if p.val < 4 then (path * 9 + 210 * 5 * 65536 + (9 * 65536 - 1)) / (9 * 65536)
  else (crossHopNs * 9 - 26 * 5 + 8) / 9

/-- The reach at the other end of a cross-reach link: ports 4 to 6 lead to the other three reaches in ascending order (R21). -/
def crossPeer (r : ReachId) (p : PortId) : Option ReachId := if p.val < 4 then none else (allReaches.filter (· != r))[p.val - 4]?

def TimeDom.refEn (t : TimeDom) : Bool := flag t.ctrl 0
def TimeDom.ptpEn (t : TimeDom) : Bool := flag t.ctrl 1
def TimeDom.synceEn (t : TimeDom) : Bool := flag t.ctrl 2
def TimeDom.gmCapable (t : TimeDom) : Bool := flag t.ctrl 3

/-- TIME_CTRL.DOMAIN: the one PTP domain of the reach (R43, R55). -/
def TimeDom.domain (t : TimeDom) : BitVec 8 := BitVec.ofNat 8 (fld t.ctrl 8 8)

/-- TIME_CTRL.STEP_THRESH in ns, at least 100 (R55). -/
def TimeDom.stepThresh (t : TimeDom) : Nat := max 100 (fld t.ctrl 32 16)

/-- TIME_STATUS.SOURCE (R56). -/
def sourceCode : TimeSource → Nat
  | .none => 0 | .external => 1 | .ptpFreq => 2 | .ptpOnly => 3 | .holdover => 4 | .ownScale => 5

/-- A number of nanoseconds in units of 2^-16 ns. -/
def nsUnits (n : Int) : Int := n * 65536

/-! ### Discontinuities (R50, R51) -/

/-- The 32 bytes of a time-discontinuity record (R51). -/
def discBytes (d : DiscRecord) : List Byte :=
  leBytes 4 (1 + d.cause.toNat * 2 ^ 4 + d.reach.val * 2 ^ 8 + d.seq.toNat * 2 ^ 16)
    ++ leBytes 4 (d.stateBefore.code + sourceCode d.sourceAfter * 2 ^ 3) ++ leBytes 8 d.timeBefore.toNat
    ++ leBytes 8 d.timeAfter.toNat ++ leBytes 8 d.eraAfter.toNat

/-- A reach writes a discontinuity record: into its table of the last 64, and as event 0x01 for the PF. `before` is the
timing domain before the event, the reach holds the one after it. -/
def Chip.discontinuity (c : Chip) (r : ReachId) (cause : Nat) (before : TimeDom) : Chip :=
  let t := (c.reach r).time
  let d : DiscRecord := { cause := BitVec.ofNat 4 cause, reach := r, seq := t.discCount, stateBefore := before.servo,
                          sourceAfter := t.source, timeBefore := before.now, timeAfter := t.now, eraAfter := t.era }
  let c := c.onTime r (fun t => { t with discCount := t.discCount + 1, disc := (t.disc ++ [d]).drop (t.disc.length - 63) })
  c.event r 0 false 1 (discBytes d) 0

/-- Plans of a reach stop with cause time, and none is armed any more (R68). -/
def Chip.stopForTime (c : Chip) (r : ReachId) : Chip :=
  (c.stopPlans r (fun _ => true) .time StopInfo.none true).failArming r

/-! ### The servo (R46, R48, R541) -/

/-- Change the servo's state, write the discontinuity records R50 asks for, and stop plans as R68 says. -/
def Chip.enterServo (c : Chip) (r : ReachId) (s : Servo) (f : TimeDom → TimeDom) : Chip :=
  let before := (c.reach r).time
  let c := c.onTime r (fun t => f { t with servo := s, lockRun := 0, insideSince := none })
  let c := if before.servo == .aheadOfMaster && s != .aheadOfMaster then c.discontinuity r 3 before else c
  let c := if s == .aheadOfMaster && before.servo != .aheadOfMaster then
      (c.discontinuity r 2 before).health r 0 7 0x0F 0 0 0 0
    else c
  let c := if s == .holdoverExpired && before.servo != .holdoverExpired then c.discontinuity r 4 before else c
  match s with
  | .locked => c
  | .holdover => c.failArming r
  | _ => c.stopForTime r

/-- A 32-bit count that saturates. -/
def sat32 (x : Word32) : Word32 := if x == 0xFFFFFFFF then x else x + 1

/-- A step meets the frame on a port's wire: it completes, and is counted where it now runs past its interval (R347). -/
def Mac.timeStep (m : Mac) (before : Time) (off : Int) : Mac :=
  if later before m.busyUntil then
    let fin := m.busyUntil + BitVec.ofInt 64 off
    let ovr := m.gateEn && (match m.busyRun with | some e => later e fin | none => false)
    { m with busyUntil := fin, overruns := if ovr then sat32 m.overruns else m.overruns }
  else m

/-- The count moves by an offset in one step, and with it every stamp of it from which the time service measures an interval. -/
def TimeDom.shift (t : TimeDom) (off : Time) : TimeDom :=
  { t with now := t.now + off, lockedSince := t.lockedSince + off, holdoverSince := t.holdoverSince + off, syncAt := t.syncAt + off,
           insideSince := t.insideSince.map (· + off), ppsLast := t.ppsLast.map (· + off),
           ptp := Tab.mapVals t.ptp (fun x => { x with
             annAt := x.annAt + off, upSince := x.upSince.map (· + off), sync := x.sync.map (fun e => (e.1, e.2 + off)),
             pdelayTx := x.pdelayTx.map (fun e => (e.1, e.2 + off)), pdelayRx := x.pdelayRx.map (fun e => (e.1, e.2 + off)) }) }

/-- Fabric time steps forward by an offset in units of 2^-16 ns (R48): record with CAUSE 0, and plans stop (R68). -/
def Chip.stepTime (c : Chip) (r : ReachId) (off : Int) (era : Word16) : Chip :=
  let before := (c.reach r).time
  let c := c.onTime r (fun t => { t.shift (BitVec.ofInt 64 off) with era := era })
  let c := c.onReach r (fun x => { x with macs := Tab.mapVals x.macs (fun m => m.timeStep before.now off) })
  (c.discontinuity r 0 before).stopForTime r

/-- The servo takes one measured offset, positive when the source's time is later (R46, R48): the filtered offset moves the
lock count and LOCKED, a measured offset above STEP_THRESH is one forward step, one earlier than -1 ms is not followed.
DESIGN CHOICE (assumption 85): R48 does not say which offset its limits are meant for. The limits of -1 ms and of STEP_THRESH are held to the
measured offset; an offset earlier than -1 ms, which is not followed, leaves OFFSET as it was. A step starts the count for lock entry again. -/
def Chip.servoOffset (c : Chip) (r : ReachId) (measured : Int) (era : Word16) : Chip :=
  let t := (c.reach r).time
  if measured < nsUnits (-1000000) then
    if t.servo == .aheadOfMaster then c else c.enterServo r .aheadOfMaster id
  else
    let prev := t.offset.toInt * 256
    let filt := Config.servoFilter measured prev
    let c := c.onTime r (fun t => { t with offset := BitVec.ofInt 32 (filt / 256) })
    let c := if t.servo == .aheadOfMaster then c.enterServo r .acquire id else c
    if nsUnits t.stepThresh < measured then
      let c := (c.stepTime r measured era).onTime r (fun t => { t with lockRun := 0, insideSince := none })
      if t.servo == .locked then c.enterServo r .acquire id else c
    else
      let c := c.onTime r (fun t => { t with era := era })
      let inside := decide (nsUnits (-8) ≤ filt) && decide (filt ≤ nsUnits 8)
      let near := decide (nsUnits (-10) ≤ filt) && decide (filt ≤ nsUnits 10)
      match (c.reach r).time.servo with
      | .acquire => c.onTime r (fun t => { t with
          lockRun := if inside then t.lockRun + 1 else 0, insideSince := if inside then some (t.insideSince.getD t.now) else none })
      | .locked => if near then c.onTime r (fun t => { t with freshSource := false })
                   else c.enterServo r .acquire id
      | _ => c

/-! ### PTP messages (R43) -/

/-- PTP runs on a reach that is in service or starting: its timing domain runs, and PTP_EN is 1. -/
def Chip.ptpOn (c : Chip) (r : ReachId) : Bool :=
  (c.reach r).time.ptpEn && (c.reach r).service == .inService

/-- PTP runs, and a message is of the reach's one domain: those of other domains are not heard (R43, R55). -/
def Chip.ptpHears (c : Chip) (r : ReachId) (dom : BitVec 8) : Bool := c.ptpOn r && dom == (c.reach r).time.domain

/-- A PTP message of the reach's domain leaves by a port. -/
def Chip.sendPtp (c : Chip) (r : ReachId) (p : PortId) (m : PtpMsg) (len : Nat) : Chip :=
  c.sendLink r p (.ptp (c.reach r).time.domain m) len

/-- SYNC_RX: a two-step Sync is time-stamped at the PMA (R43). One from the selected master ends the count of missing ones (R46). -/
def syncRx (r : ReachId) (now : Time) (p : PortId) (dom : BitVec 8) (seq : Word16) (arrival : Time) (c : Chip) : Chip :=
  let c := c.at r now
  if c.ptpHears r dom then
    c.onTime r (fun t => { t.onPort p (fun x => { x with sync := some (seq, arrival) }) with
      syncAt := if t.masterPort.toNat = p.val then t.now else t.syncAt })
  else c

/-- The grandmaster's nanoseconds at a Sync's departure, in units of 2^-16 ns: seconds, nanoseconds, correction (R38). -/
def ptpStamp (sec : BitVec 48) (ns : Word32) (corr : BitVec 64) : Int :=
  (sec.toNat * 10 ^ 9 + ns.toNat : Nat) * 65536 + corr.toInt

/-- The era of a number of nanoseconds (R39). -/
def eraOf (stamp : Int) : Word16 := BitVec.ofInt 16 (stamp / 65536 / 2 ^ 48)

/-- FOLLOW_UP_RX: accepted from the selected master for the Sync that is pending; the reach takes the era and the servo
takes the offset (R38, R39, R48). -/
def followUpRx (r : ReachId) (now : Time) (p : PortId) (dom : BitVec 8) (seq : Word16) (sec : BitVec 48) (ns : Word32) (corr : BitVec 64)
    (c : Chip) : Chip :=
  let c := c.at r now
  let t := (c.reach r).time
  let x := t.port p
  match x.sync with
  | some (s, arrival) =>
    if s == seq && c.ptpHears r dom then
      let c := c.onTime r (fun t => t.onPort p (fun x => { x with sync := none }))
      if t.sourced && t.masterPort.toNat == p.val && (t.source == .ptpFreq || t.source == .ptpOnly
          || t.servo == .aheadOfMaster) then
        let stamp := ptpStamp sec ns corr + x.pathDelay + x.asym
        let measured := timeDiff arrival (BitVec.ofInt 64 stamp)
        c.servoOffset r measured (eraOf (stamp + timeDiff arrival t.now))
      else c
    else c
  | none => c

/-- Accuracy and variance that a reach announces of its own clock: 1588's "unknown" (assumption 23). -/
def ownAccuracy : BitVec 8 := 0xFE
def ownVariance : Word16 := 0xFFFF

/-- clockClass that a reach announces as its own (R45). -/
def TimeDom.clockClass (t : TimeDom) : BitVec 8 :=
  if !t.gmCapable then 255
  else if t.source == .external && t.servo != .freeRun then 6
  else if t.servo == .holdover && t.heldRank1 then 7
  else 248

/-- The clock identity of a reach: its node identifier in the low 16 bits of an EUI-64 of the module's MAC block (R45; how
48 bits become 64 is not stated: assumption 86). -/
def Chip.clockIdentity (c : Chip) (r : ReachId) : Word64 :=
  (Config.euiOf Config.macBlock &&& 0xFFFFFFFFFFFF0000) ||| (c.nodeId r).setWidth 64

/-- The reach's own grandmaster fields (R45). -/
def Chip.ownClock (c : Chip) (r : ReachId) : PtpClock :=
  let t := (c.reach r).time
  { prio1 := BitVec.ofNat 8 (fld t.ctrl 16 8), clockClass := t.clockClass, accuracy := ownAccuracy,
    variance := ownVariance, prio2 := BitVec.ofNat 8 (fld t.ctrl 24 8), identity := c.clockIdentity r, steps := 0 }

/-- A clock as one number whose order is the order of R45: priority1, class, accuracy, variance, priority2, identity, and
then the steps removed. -/
def clockOrder (x : PtpClock) : Nat :=
  (((((x.prio1.toNat * 2 ^ 8 + x.clockClass.toNat) * 2 ^ 8 + x.accuracy.toNat) * 2 ^ 16 + x.variance.toNat) * 2 ^ 8
    + x.prio2.toNat) * 2 ^ 64 + x.identity.toNat) * 2 ^ 16 + x.steps.toNat

/-- The announce receipt timeout: three intervals of 125 ms (R43, R49). -/
def announceTimeout : Int := nsUnits 375000000

/-- The neighbour's clock as the best-master algorithm sees it: its newest Announce in the reach's domain, until the announce receipt timeout
expires (R43). -/
def TimeDom.heard (t : TimeDom) (p : PortId) : Option PtpClock :=
  let x := t.port p
  if x.annDom == t.domain && decide (timeDiff x.annAt t.now < announceTimeout) then x.foreign else none

/-- The port the best-master algorithm selects, and 15 where the reach itself is best (R45). -/
def Chip.bestMaster (c : Chip) (r : ReachId) : Nat :=
  let t := (c.reach r).time
  let own := c.ownClock r
  let best := allPorts.foldl (fun (acc : Nat × Nat) p =>
    match t.heard p with
    | some x => if clockOrder x < acc.2 then (p.val, clockOrder x) else acc
    | none => acc) (15, if t.gmCapable then clockOrder own else 2 ^ 200)
  best.1

/-- PDELAY_REQ_RX: answered with Pdelay_Resp, which carries the receipt time, and Pdelay_Resp_Follow_Up with the departure
time of the answer (R43). -/
def pdelayReqRx (r : ReachId) (now : Time) (p : PortId) (dom : BitVec 8) (seq : Word16) (t2 t3 : Time) (c : Chip) : Chip :=
  let c := c.at r now
  if c.ptpHears r dom then (c.sendPtp r p (.pdelayResp seq t2) 72).sendPtp r p (.pdelayFollowUp seq t3) 72
  else c

/-- PDELAY_RESP_RX: the response brings the peer's receipt time and its own arrival; its Follow_Up brings the peer's
departure time, and the mean path delay is half of what the peer did not hold (R43). -/
def pdelayRespRx (r : ReachId) (now : Time) (p : PortId) (dom : BitVec 8) (seq : Word16) (followUp : Bool) (stamp arrival : Time)
    (c : Chip) : Chip :=
  let c := c.at r now
  let x := (c.reach r).time.port p
  if !c.ptpHears r dom then c
  else match x.pdelayTx with
    | none => c
    | some (s, t1) =>
      if s != seq then c
      else if !followUp then
        c.onTime r (fun t => t.onPort p (fun x => { x with pdelayRx := some (stamp, arrival) }))
      else match x.pdelayRx with
        | none => c
        | some (t2, t4) =>
          c.onTime r (fun t => t.onPort p (fun x =>
            { x with pathDelay := (timeDiff t1 t4 - timeDiff t2 stamp) / 2, pdelayTx := none, pdelayRx := none }))

/-- PTP_MANAGEMENT_RX: ignored and counted (R43). -/
def ptpManagementRx (r : ReachId) (c : Chip) : Chip :=
  c.onTime r (fun t => { t with mgmtIgnored := sat48 (t.mgmtIgnored + 1) })

/-- Seconds, nanoseconds and correction of a reach's own time, from its era and its counter (R39). -/
def TimeDom.stamp (t : TimeDom) : BitVec 48 × Word32 × BitVec 64 :=
  let n := t.era.toNat * 2 ^ 48 + timeNs t.now
  (BitVec.ofNat 48 (n / 10 ^ 9), BitVec.ofNat 32 (n % 10 ^ 9), BitVec.ofNat 64 (t.now.toNat % 65536))

/-- SYNC_TX_TIMER: a port that is not the slave port sends Sync and Follow_Up (R43). -/
def syncTxTimer (r : ReachId) (now : Time) (p : PortId) (c : Chip) : Chip :=
  let c := c.at r now
  let t := (c.reach r).time
  if c.ptpOn r && t.masterPort.toNat != p.val then
    let seq := (t.port p).syncSeq
    let s := t.stamp
    let c := c.onTime r (fun t => t.onPort p (fun x => { x with syncSeq := x.syncSeq + 1 }))
    (c.sendPtp r p (.sync seq) 64).sendPtp r p (.followUp seq s.1 s.2.1 s.2.2) 64
  else c

/-- ANNOUNCE_TX_TIMER: a port sends Announce with the reach's own clock, or as a boundary clock the grandmaster its master
announces (R45). -/
def announceTxTimer (r : ReachId) (now : Time) (p : PortId) (c : Chip) : Chip :=
  let c := c.at r now
  let t := (c.reach r).time
  if c.ptpOn r && t.masterPort.toNat != p.val then
    let seq := (t.port p).annSeq
    let clk :=
      match allPorts.find? (fun q => q.val == t.masterPort.toNat) with
      | some q =>
        match t.heard q with
        | some x => { x with steps := x.steps + 1 }
        | none => c.ownClock r
      | none => c.ownClock r
    let c := c.onTime r (fun t => t.onPort p (fun x => { x with annSeq := x.annSeq + 1 }))
    c.sendPtp r p (.announce seq clk) 82
  else c

/-- PDELAY_REQ_TIMER: a port sends Pdelay_Req (R43). -/
def pdelayReqTimer (r : ReachId) (now : Time) (p : PortId) (c : Chip) : Chip :=
  let c := c.at r now
  if c.ptpOn r then
    let seq := ((c.reach r).time.port p).pdelaySeq
    let c := c.onTime r (fun t => t.onPort p (fun x =>
      { x with pdelaySeq := x.pdelaySeq + 1, pdelayTx := some (seq, t.now), pdelayRx := none }))
    c.sendPtp r p (.pdelayReq seq) 72
  else c

/-! ### Sources (R42, R46, R54) -/

/-- Nanoseconds of a second. -/
def secondNs : Int := 1000000000

/-- The offset of the nearest whole second from a time, in units of 2^-16 ns: what a PPS edge measures (R42). -/
def TimeDom.ppsOffset (t : TimeDom) (edge : Time) : Int :=
  let total : Int := ((t.era.toNat * 2 ^ 48 : Nat) : Int) * 65536 + edge.toNat
  let m := nsUnits secondNs
  let x := total % m
  if 2 * x ≤ m then -x else m - x

/-- One PPS_IN edge at one reach: an edge 1 s ± 1 µs after the one before advances the qualification count, any other, or one without the
10 MHz reference, starts it again; on a reach of rank 1 that stays qualified the edge marks a whole second (R42). -/
def Chip.ppsEdge (c : Chip) (r : ReachId) (edge : Time) (refOk : Bool) : Chip :=
  let c := c.at r edge
  let t := (c.reach r).time
  let good := refOk && (match t.ppsLast with
    | some e => decide (nsUnits (secondNs - 1000) ≤ timeDiff e edge) && decide (timeDiff e edge ≤ nsUnits (secondNs + 1000))
    | none => false)
  let c := c.onTime r (fun t => { t with ppsLast := some edge, ppsRun := if good then t.ppsRun + 1 else 0, refGood := refOk })
  if t.source == .external && t.sourced && good then c.servoOffset r (t.ppsOffset edge) t.era else c

/-- PPS_IN_EDGE: the gatehouse distributes the edge and the 10 MHz reference to all four timing domains (R24); `marks` holds what
each sees of them. -/
def ppsInEdge (marks : Quad PpsMark) (c : Chip) : Chip :=
  forEach allReaches c (fun c r => c.ppsEdge r (marks.get r).edge (marks.get r).refOk)

/-- The rank of a source in R42; 7 for none. -/
def sourceRank : TimeSource → Nat
  | .external => 1 | .ptpFreq => 2 | .ptpOnly => 3 | .holdover => 4 | .ownScale => 5 | .none => 7

/-- The port's link has been up with FEC lock for at least 1 s (R42). -/
def TimeDom.upSecond (t : TimeDom) (p : PortId) : Bool :=
  match (t.port p).upSince with
  | some s => decide (nsUnits secondNs ≤ timeDiff s t.now)
  | none => false

/-- The external reference is enabled and qualified (R42): eight good edges in a row, the last no longer than a PPS period ago. -/
def TimeDom.refQualified (t : TimeDom) : Bool :=
  t.refEn && decide (8 ≤ t.ppsRun) && t.refGood
    && (match t.ppsLast with | some e => decide (timeDiff e t.now ≤ nsUnits (secondNs + 1000)) | none => false)

/-- A source is enabled and qualified (R42). A reach's own timescale is so where no higher rank is. -/
def Chip.qualified (c : Chip) (r : ReachId) (s : TimeSource) (p : PortId) : Bool :=
  let t := (c.reach r).time
  match s with
  | .external => t.refQualified
  | .ptpFreq => t.ptpEn && t.synceEn && t.upSecond p && c.bestMaster r == p.val
  | .ptpOnly => t.ptpEn && c.bestMaster r == p.val
  | .ownScale => t.ptpEn && t.gmCapable && c.bestMaster r == 15 && t.servo != .holdover && !t.refQualified
  | _ => false

/-- Take a source: its name and, for PTP, the master's port. The counts of lock entry and of missing Syncs start again. -/
def TimeDom.take (t : TimeDom) (s : TimeSource) (p : PortId) : TimeDom :=
  { t with source := s, masterPort := if s == .ptpFreq || s == .ptpOnly then BitVec.ofNat 4 p.val else 15, syncAt := t.now, lockRun := 0,
           insideSince := if s == .ownScale then some t.now else none }

/-- The servo measures its first offset to a source just taken; to its own timescale the offset is zero (R42). -/
def Chip.firstOffset (c : Chip) (r : ReachId) (s : TimeSource) (off : Int) (era : Word16) : Chip :=
  if s == .ownScale then c.onTime r (fun t => { t with offset := 0 }) else c.servoOffset r off era

/-! ### Losing a source (R42, R46, R49) -/

/-- Ten minutes in fabric time. -/
def lock600 : Int := nsUnits (600 * secondNs)

/-- The source that the servo follows is lost (R46): LOCKED for at least 600 s goes to HOLDOVER, for less to HOLDOVER_EXPIRED; ACQUIRE and
AHEAD_OF_MASTER to HOLDOVER_EXPIRED or, not LOCKED since the domain started, to FREE_RUN. -/
def Chip.loseSource (c : Chip) (r : ReachId) : Chip :=
  let t := (c.reach r).time
  let lost (src : TimeSource) (t : TimeDom) : TimeDom :=
    { t with source := src, masterPort := 15, heldRank1 := t.source == .external, holdoverSince := t.now }
  match t.servo with
  | .locked =>
    if lock600 ≤ timeDiff t.lockedSince t.now then c.enterServo r .holdover (lost .holdover)
    else c.enterServo r .holdoverExpired (lost .none)
  | .acquire | .aheadOfMaster =>
    if t.everLocked then c.enterServo r .holdoverExpired (lost .none) else c.enterServo r .freeRun (lost .none)
  | _ => c

/-- Eight Sync intervals (R49). -/
def syncTimeout : Int := nsUnits 62500000

/-- The conditions of R46 and of the table "Servo limits" (R49) under which a source is lost, and the end of its enable (R42): of PTP, 62.5 ms
without a Sync or 375 ms without an Announce of the master; of the external reference, its qualification. -/
def TimeDom.sourceGone (t : TimeDom) : Bool :=
  match t.source with
  | .external => !t.refQualified
  | .ptpFreq | .ptpOnly =>
    !t.ptpEn || decide (syncTimeout ≤ timeDiff t.syncAt t.now)
      || !allPorts.any (fun p => p.val == t.masterPort.toNat && (t.heard p).isSome)
  | .ownScale => !t.ptpEn || !t.gmCapable
  | _ => false

/-- SOURCE_LOSS. A master that is lost is not selected again before its next Announce (assumption 87). -/
def sourceLoss (r : ReachId) (now : Time) (c : Chip) : Chip :=
  let c := c.at r now
  let t := (c.reach r).time
  if !t.sourceGone then c
  else
    (c.onTime r (fun t => forEach (allPorts.filter (fun p => p.val == t.masterPort.toNat)) t (fun t p =>
      t.onPort p (fun x => { x with foreign := none })))).loseSource r

/-- PTP of rank 2 where the master's port qualifies for it, else of rank 3 (R42). -/
def TimeDom.ptpRank (t : TimeDom) (p : PortId) : TimeSource := if t.synceEn && t.upSecond p then .ptpFreq else .ptpOnly

/-- The best-master algorithm has run (R42, R541): a reach that follows PTP or its own timescale takes the master now selected, at the rank
that its port qualifies for; one whose own clock is now the best has no master any more and goes into holdover first (assumption 87). -/
def Chip.reselect (c : Chip) (r : ReachId) : Chip :=
  let t := (c.reach r).time
  let follows := t.source == .ptpFreq || t.source == .ptpOnly
  match allPorts.find? (fun p => p.val == c.bestMaster r) with
  | none => if follows then c.loseSource r else c
  | some p =>
    if (follows && p.val != t.masterPort.toNat) || t.source == .ownScale then
      c.onTime r (fun t => { t.take (t.ptpRank p) p with freshSource := true })
    else c

/-- ANNOUNCE_RX: the neighbour's clock is kept and the best-master algorithm is run again (R43, R45). -/
def announceRx (r : ReachId) (now : Time) (p : PortId) (dom : BitVec 8) (clk : PtpClock) (c : Chip) : Chip :=
  let c := c.at r now
  if c.ptpHears r dom then
    (c.onTime r (fun t => t.onPort p (fun x => { x with foreign := some clk, annDom := dom, annAt := t.now }))).reselect r
  else c

/-- What a write of TIME_CTRL does beside its fields (R42, R55): a source that it has switched off is left, PTP of rank 2 without SYNCE_EN for
rank 3, and the best-master algorithm runs again over the clocks heard in its domain. -/
def Chip.timeCtrlAfter (c : Chip) (r : ReachId) : Chip :=
  let t := (c.reach r).time
  if t.source == .none || t.source == .holdover then c
  else if (t.source == .external && !t.refEn) || (t.source != .external && !t.ptpEn) || (t.source == .ownScale && !t.gmCapable) then c.loseSource r
  else
    (if t.source == .ptpFreq && !t.synceEn then c.onTime r (fun t => { t with source := .ptpOnly, freshSource := true }) else c).reselect r

/-! ### Taking a source (R42, R46, R54) -/

/-- SOURCE_QUALIFIES: the first source after module reset is taken in one step whatever its offset (R54); later ones by the
servo's states (R46), by a LOCKED reach under R541. `srcTime` and `srcEra` are the source's time at this moment; a reach's
own timescale is its own count. -/
def sourceQualifies (r : ReachId) (now : Time) (s : TimeSource) (p : PortId) (srcTime : Time) (srcEra : Word16)
    (c : Chip) : Chip :=
  let c := c.at r now
  let t := (c.reach r).time
  if !c.qualified r s p then c
  else
    let st := if s == .ownScale then t.now else srcTime
    let era := if s == .ownScale then t.era else srcEra
    let off := timeDiff t.now st
    if !t.sourced then
      let c := c.onTime r (fun t => { (t.shift (st - t.now)).take s p with era := era, servo := .acquire, sourced := true })
      if st == t.now && era == t.era then c else c.discontinuity r 0 t
    else match t.servo with
      | .freeRun | .holdoverExpired =>
        let c := c.enterServo r .acquire (fun t => t.take s p)
        c.firstOffset r s off era
      | .holdover =>
        if decide (nsUnits (-8) ≤ off) && decide (off ≤ nsUnits 8) then
          c.enterServo r .locked (fun t => { t.take s p with lockedSince := t.now })
        else
          let c := c.enterServo r .acquire (fun t => t.take s p)
          c.firstOffset r s off era
      | .locked =>
        if sourceRank s < sourceRank t.source then
          let c := c.onTime r (fun t => { t.take s p with freshSource := true })
          c.firstOffset r s off era
        else c
      | .acquire | .aheadOfMaster =>
        if sourceRank s < sourceRank t.source then
          let c := c.onTime r (fun t => t.take s p)
          c.firstOffset r s off era
        else c

/-- The filtered offset has stayed within ±8 ns for 64 Sync intervals (R46, R49): by the Syncs of a master, and for an external reference or a
reach's own timescale, which bring none, for the 0.5 s that they last. -/
def TimeDom.lockReady (t : TimeDom) : Bool :=
  if t.source == .external || t.source == .ownScale then
    match t.insideSince with
    | some s => decide (nsUnits 500000000 ≤ timeDiff s t.now)
    | none => false
  else decide (64 ≤ t.lockRun)

/-- LOCK_ENTRY (R46). -/
def lockEntry (r : ReachId) (now : Time) (c : Chip) : Chip :=
  let c := c.at r now
  let t := (c.reach r).time
  if t.servo == .acquire && t.lockReady then
    c.enterServo r .locked (fun t => { t with lockedSince := t.now, everLocked := true, freqHeld := true })
  else c

/-- HOLDOVER_EXPIRY: 10 s in HOLDOVER (R46). -/
def holdoverExpiry (r : ReachId) (now : Time) (c : Chip) : Chip :=
  let c := c.at r now
  let t := (c.reach r).time
  if t.servo == .holdover && decide (nsUnits (10 * secondNs) ≤ timeDiff t.holdoverSince t.now) then
    c.enterServo r .holdoverExpired (fun t => { t with source := .none })
  else c

/-- TIME_ERA_WRAP: the integer part wraps; a reach that keeps its own timescale counts the era, the others take it from
their master (R39). -/
def timeEraWrap (r : ReachId) (now : Time) (c : Chip) : Chip := c.at r now

/-- TIME_NOW_LOW_READ: the high half is latched in the same cycle (R41). -/
def timeNowLowRead (r : ReachId) (c : Chip) : Chip :=
  c.onTime r (fun t => { t with nowLatch := BitVec.ofNat 32 (t.now.toNat / 2 ^ 32) })

/-- The domain stops: it captures its last time in TIME_FLOOR and stands still, in FREE_RUN and without a source (R54). -/
def Chip.domainStop (c : Chip) (r : ReachId) : Chip :=
  c.onTime r (fun t =>
    { t with floor := t.now, stopped := some (t.stopped.getD t.servo), servo := .freeRun, source := .none, masterPort := 15, everLocked := false, heldRank1 := false,
             freqHeld := false, lockRun := 0, insideSince := none, freshSource := false, ppsRun := 0, ppsLast := none,
             ptp := Tab.mapVals t.ptp (fun x => { x with sync := none, foreign := none, pdelayTx := none, pdelayRx := none }) })

/-- The domain restarts: it counts on from TIME_FLOOR, and writes a record with CAUSE 1 (R50, R54). DESIGN CHOICE (assumption 88): a domain that
stopped in AHEAD_OF_MASTER writes this one record and none with CAUSE 3 for having left that state; R50 does not say whether both apply. -/
def Chip.domainStart (c : Chip) (r : ReachId) : Chip :=
  let t := (c.reach r).time
  match t.stopped with
  | none => c
  | some s => (c.onTime r (fun t => { t with stopped := none }.advance t.floor)).discontinuity r 1 { t with servo := s }

/-- TIMING_DOMAIN_STOP: the domain stops and restarts, and plans stop (R54, R68). -/
def timingDomainStop (r : ReachId) (c : Chip) : Chip := ((c.domainStop r).domainStart r).stopForTime r

end Sys2Proof.Machine
end

