-- ==== Sys2Proof/Machine/PlanCheck.lean ====
section
/-!
DEFINITION. Plan validation (R66, R67): the checks of the table "Plan validation" in its order, the compilation of windows
into gate lists (R64), and what a plan reserves (R65).
-/

namespace Sys2Proof.Machine

/-- What validation looks at: the module, the reach, the function that loads, the container and its bytes. -/
structure PlanCtx where
  c : Chip
  r : ReachId
  fn : FnId
  k : Container
  bytes : List Byte

/-- The first index a list of findings names. -/
def firstOf (l : List (Option Nat)) : Option Nat := (l.filterMap id).head?

/-- A finding without an entry of its own: index 0. -/
def badIf (b : Bool) : Option Nat := if b then some 0 else none

/-- The plans loaded on the reach. -/
def PlanCtx.others (x : PlanCtx) : List PlanInst := (x.c.reach x.r).plan.plans

/-- The reaches of the module that a plan names: those in its peer list (assumption 44). -/
def Chip.namedReaches (c : Chip) (k : Container) : List ReachId := allReaches.filter (fun r => k.peers.contains (c.nodeId r))

/-- TCLK floor in force on a reach (R488, R492). -/
def Chip.floorMhz (c : Chip) (r : ReachId) : Nat :=
  let f := clampNat 2700 3600 (fld c.gate.cap 12 12)
  if flag (c.reach r).pwr.clkActive 0 then min f 3582 else f

/-! ### Times -/

/-- Fraction bits are zero (R61). -/
def wholeNs (t : Time) : Bool := t.toNat % 65536 == 0

/-- 2^46 ns in fabric-time units. -/
def horizon : Int := nsUnits (2 ^ 46)

/-- A time lies within 2^46 ns of another (R40). -/
def near (a b : Time) : Bool := decide ((timeDiff a b).natAbs ≤ horizon.toNat)

/-- A time is a round boundary of a plan (R60). -/
def Container.isRound (k : Container) (t : Time) : Bool :=
  let n := k.roundTime.toNat
  n != 0 && (timeDiff k.hdr.cycleBase t) % n == 0

/-! ### Windows -/

/-- Two windows overlap or lie closer than 20 ns, the second opening after the first, counted across the boundary. -/
def tooClose (cycle : Nat) : List WinSpan → Bool
  | [] => false
  | [w] => decide (cycle < w.len + 20)
  | ws =>
    let starts := (ws.drop 1).map (fun w => w.lo) ++ (ws.take 1).map (fun w => w.lo + cycle)
    (ws.zip starts).any (fun e => decide (e.2 < e.1.lo + e.1.len + 20))

/-! ### Checks 0x01 to 0x05 -/

/-- Index of the first entry of a list whose format version is not 1. -/
def badFmt {α : Type} (l : List α) (f : α → Nat) : Option Nat := l.findIdx? (fun e => f e != 1)

/-- PLAN_BAD_FORMAT: MAGIC, and every format version (R15). -/
def checkFormat (x : PlanCtx) : Option Nat :=
  let k := x.k
  firstOf [badIf (k.hdr.magic != 0x4C505850 || k.hdr.fmt != 1),
    badFmt k.dir (fun e => e.fmt), badFmt k.phases (fun e => e.fmt), badFmt k.sched (fun e => e.fmt),
    badFmt k.windows (fun e => e.fmt), badFmt k.resv (fun e => e.fmt), badIf (k.has 6 && k.progFmt != 1),
    badIf (k.has 7 && k.routeFmt != 1), badFmt k.routes (fun e => e.fmt), badIf (k.has 8 && k.collFmt != 1),
    badFmt k.colls (fun e => e.fmt), badFmt k.members (fun e => e.fmt), badIf (k.has 9 && k.placeFmt != 1),
    badFmt k.places (fun e => e.fmt), badFmt k.xpos (fun e => e.fmt),
    k.progs.findIdx? (fun p => p.steps.any (fun s => stepClass s.hdr == 4 && (moveOf s.ops).fmt != 1))]

/-- PLAN_BAD_DIGEST (R57). -/
def checkDigest (x : PlanCtx) : Option Nat :=
  badIf (beBytes 48 (sha384 (digestInput x.bytes)).toNat != sliceBytes x.bytes 0x50 48)

/-- PLAN_NO_TIME: a named reach is not LOCKED. -/
def checkTime (x : PlanCtx) : Option Nat :=
  badIf ((x.c.namedReaches x.k).any (fun r => !(x.c.inService r && (x.c.reach r).time.servo == .locked)))

/-- A placement entry on this reach whose range is unmapped, meets a host window, or lies in another tier or reach (R155,
R389). -/
def badPlace (x : PlanCtx) (e : PlaceEntry) : Bool :=
  e.reach == x.r.val && (match x.c.translate x.k.hdr.asid.toNat e.vaddr e.bytes false false with
    | .error _ => true
    | .ok runs => runs.any (fun q => q.run.host || q.reach != x.r || (decide (lpBase ≤ q.run.pa) != (e.tier == 1))))

/-- The rows of one block of a transposition descriptor, in the node's own reach (R168). -/
def badBlock (x : PlanCtx) (d : XposDesc) (gr gc : Nat) (m : BlockMap) : Bool :=
  let rows := d.rows / max 1 gr
  let width := d.cols / max 1 gc * d.cellBytes
  x.k.peers.getD m.peer 0xFFFF == x.c.nodeId x.r &&
    ((List.range rows).any (fun i =>
      match x.c.translate x.k.hdr.asid.toNat (m.vaddr + i * m.rowStride) width false false with
      | .error _ => true
      | .ok runs => runs.any (fun q => q.run.host || q.reach != x.r)))

/-- A transposition descriptor that R168 refuses. -/
def badXpos (x : PlanCtx) (d : XposDesc) : Bool :=
  let k := x.k
  let src := (k.maps.drop d.srcMap).take (d.srcGr * d.srcGc)
  let dst := (k.maps.drop d.dstMap).take (d.dstGr * d.dstGc)
  d.srcGr == 0 || d.srcGc == 0 || d.dstGr == 0 || d.dstGc == 0 || d.rows % d.srcGr != 0 || d.rows % d.dstGr != 0
    || d.cols % d.srcGc != 0 || d.cols % d.dstGc != 0 || src.length != d.srcGr * d.srcGc
    || dst.length != d.dstGr * d.dstGc || d.cellBytes == 0 || decide (4096 < d.cellBytes)
    || (src ++ dst).any (fun m => decide (k.hdr.peers ≤ m.peer))
    || src.any (badBlock x d d.srcGr d.srcGc)
    || dst.any (fun m => badBlock x d d.dstGr d.dstGc m
        || (k.peers.getD m.peer 0xFFFF == x.c.nodeId x.r && !(m.moorIdx / 32768 == x.r.val && k.resv.any (fun e =>
            e.kind == 5 && e.reach == x.r.val && decide (e.first ≤ m.moorIdx % 32768) && decide (m.moorIdx % 32768 < e.first + e.count)))))

/-- What the checks of collectives may ask (R296). -/
def PlanCtx.coll (x : PlanCtx) : CollCtx :=
  { reach := x.c.reach x.r, peers := x.k.peers, me := x.c.nodeId x.r,
    resv := x.k.resv.filter (fun e => e.reach == x.r.val) }

/-- Upper bounds of the index of a reservation kind (R65). -/
def resvLimit : Nat → Nat
  | 1 => 64 | 2 => 16384 | 3 => 8 | 4 => 16 | 5 => 131072 | _ => 0

/-- Two planned routes of one (WIN, DST_NODE) on this reach: in the plan, or with a plan already loaded (R270). -/
def doubleRoute (x : PlanCtx) : Option Nat :=
  let mine := x.k.routes
  let old := x.others.flatMap (fun p => p.con.routes)
  let same := fun (a b : RouteEntry) => a.reach == b.reach && a.win == b.win && a.dst == b.dst
  mine.zipIdx.findIdx? (fun e => e.1.reach == x.r.val && (old.any (same e.1) || (mine.take e.2).any (same e.1)))

/-- PLAN_BAD_FIELD. DESIGN CHOICE (assumption 90): a header or entry value outside the range of its field (HDR_LEN, TOTAL_LEN, the counts of
phases, peers and sections, an index beyond its table, a window of length 0 or opening at LOCK_CYCLE or later) is refused with this code,
for which the table of R66 names none. The order of the phase table is free (R62). -/
def checkField (x : PlanCtx) : Option Nat :=
  let k := x.k
  let h := k.hdr
  firstOf [
    badIf (decide (12 < h.log2L) || decide (h.lockCycle.toNat < (nsTime 1000).toNat)
      || decide ((nsTime 100000000).toNat < h.lockCycle.toNat) || h.roundCycles == 0 || !wholeNs h.lockCycle
      || !wholeNs h.cycleBase || !wholeNs h.start || h.hdrLen != 8 || h.totalLen != x.bytes.length
      || h.sections == 0 || decide (64 < h.sections) || h.phases == 0 || h.peers == 0 || decide (4096 < h.peers)),
    badIf (!(k.has 1 && k.has 2 && k.has 5 && k.has 6)),
    k.dir.zipIdx.findIdx? (fun e => e.1.off % 64 != 0 || decide (x.bytes.length < e.1.off + e.1.len)
      || (k.dir.take e.2).any (fun d => d.type == e.1.type)),
    badIf (k.phases.length != h.phases || k.peers.length != h.peers),
    k.phases.findIdx? (fun e => decide (254 < e.phase)
      || decide (k.sched.length < e.schedFirst + e.schedCount)
      || decide (k.windows.length < e.winFirst + e.winCount)
      || (e.xpos != 0xFFFFFFFF && decide (k.runs.length ≤ e.xpos))),
    k.sched.findIdx? (fun e => !wholeNs e.startOff || decide (255 < e.tile)),
    k.windows.findIdx? (fun e => !wholeNs e.openOff || !wholeNs e.length || decide (h.lockCycle.toNat ≤ e.openOff.toNat)
      || e.length == 0 || decide (h.lockCycle.toNat < e.length.toNat) || decide (6 < e.rport)),
    k.resv.findIdx? (fun e => decide (resvLimit e.kind < e.first + e.count) || decide (e.lastPhase < e.firstPhase)
      || decide (3 < e.reach)),
    k.places.findIdx? (badPlace x),
    doubleRoute x,
    badIf (decide (4096 < ((x.others.flatMap (fun p => p.con.routes) ++ k.routes).filter
      (fun e => e.reach == x.r.val)).length)),
    k.runs.findIdx? (fun e => decide (k.xpos.length < e.1 + e.2)),
    k.xpos.findIdx? (badXpos x),
    collBadField x.coll h.log2L k.colls k.members k.edges]

/-- PLAN_RANGE. -/
def checkRange (x : PlanCtx) : Option Nat :=
  let k := x.k
  let now := x.c.now x.r
  firstOf [badIf (k.hdr.start != 0 && (!k.isRound k.hdr.start || !near now k.hdr.start)), badIf (!near now k.hdr.cycleBase),
    k.sched.findIdx? (fun e => decide (horizon.toNat < e.startOff.toNat))]

/-! ### Checks 0x06 to 0x0C -/

/-- A reservation names something outside the function's grant. -/
def resvOutside (x : PlanCtx) (e : ResvEntry) : Bool :=
  let y := x.c.reach x.r
  e.reach == x.r.val && (List.range e.count).any (fun i =>
    let n := e.first + i
    match e.kind with
    | 2 => (match Tab.find? y.rme.qps n with | some q => q.function != x.fn | none => true)
    | 3 => !x.c.holdsSet x.fn x.r n
    | 4 => !x.c.holdsTile x.fn (16 * n)
    | 5 => (match Tab.find? y.rme.moorings n with | some m => !m.inUse || m.function != x.fn | none => true)
    | _ => false)

/-- The windows of a function's plans exceed its WIN_SHARE or GATE_QUOTA on a port (R403, R404). -/
def overShare (x : PlanCtx) : Bool :=
  match (x.c.ten x.fn).grant with
  | none => false
  | some g =>
    let ks := x.k :: (x.others.filter (fun p => p.fn == x.fn)).map (fun p => p.con)
    (List.range 7).any (fun p =>
      let ws := portSpans ks x.r p
      let cycle := timeNs x.k.hdr.lockCycle
      let sum := ((ws.filter (fun w => w.gates.toNat.testBit 6)).map (fun w => w.len)).foldl (· + ·) 0
      !ws.isEmpty && (decide (g.winShare.toNat * cycle < sum * 1024) || decide (g.gateQuota.toNat < (compileGates cycle ws).length)))

/-- PLAN_NOT_OWNED. -/
def checkOwned (x : PlanCtx) : Option Nat :=
  let k := x.k
  firstOf [badIf (k.hdr.function != x.fn.val || !x.c.holdsAsid x.fn k.hdr.asid.toNat || !x.c.holdsKey x.fn x.r k.hdr.pkey.toNat || overShare x),
    k.progs.findIdx? (fun p => p.tile / 64 == x.r.val && !x.c.holdsTile x.fn p.tile),
    k.sched.findIdx? (fun e => e.tile / 64 == x.r.val && !x.c.holdsTile x.fn e.tile),
    k.resv.findIdx? (resvOutside x),
    k.places.findIdx? (fun e => e.reach == x.r.val && e.tier == 0 &&
      (match x.c.translate k.hdr.asid.toNat e.vaddr e.bytes false false with
      | .ok runs => runs.any (fun q => (List.range 8).any (fun s =>
          rangesMeet (q.run.pa, q.run.len) (s * 0x400000000, 0x400000000)
            && (!e.mask.testBit s || !x.c.holdsSet x.fn x.r s)))
      | .error _ => false))]

/-- PLAN_CYCLE_MISMATCH. -/
def checkCycle (x : PlanCtx) : Option Nat :=
  badIf (x.others.any (fun p => p.con.hdr.lockCycle != x.k.hdr.lockCycle || p.con.hdr.cycleBase != x.k.hdr.cycleBase))

/-- A window opens too soon after the window of the hop before it, both of them in the container (R66, R270). -/
def hopTooSoon (x : PlanCtx) (e : RouteEntry) : Bool :=
  let k := x.k
  let win := fun (r p w : Nat) => k.windows.find? (fun v => v.reach == r && v.rport == p && v.win == w)
  e.reach == x.r.val && decide (e.outPort ≤ 6) && e.next / 4 == x.c.gate.modid.toNat &&
    (match win e.reach e.outPort e.win,
        k.routes.find? (fun f => f.reach == e.next % 4 && f.win == e.win && f.dst == e.dst) with
    | some a, some f =>
      (match win f.reach f.outPort e.win with
      | some b =>
        let cycle := timeNs k.hdr.lockCycle
        let gap := (timeNs b.openOff + cycle - timeNs a.openOff) % cycle
        decide (f.outPort ≤ 6) && (if h : e.outPort < 7 then
          decide (gap < (x.c.reach x.r).linkLatency ⟨e.outPort, h⟩ + 20) else false)
      | none => false)
    | _, _ => false)

/-- PLAN_WINDOW. -/
def checkWindow (x : PlanCtx) : Option Nat :=
  let k := x.k
  let cycle := timeNs k.hdr.lockCycle
  let ks := k :: x.others.map (fun p => p.con)
  firstOf [
    k.windows.findIdx? (fun w => w.reach == x.r.val && tooClose cycle (sortSpans (portSpans ks x.r w.rport))),
    k.routes.findIdx? (fun e => e.reach == x.r.val && decide (e.outPort ≤ 6)
      && !k.windows.any (fun w => w.reach == e.reach && w.rport == e.outPort && w.win == e.win)),
    k.routes.findIdx? (hopTooSoon x),
    collBadWindow x.coll x.r k.colls k.members k.edges k.routes k.windows]

/-- PLAN_GATE_FULL. -/
def checkGates (x : PlanCtx) : Option Nat :=
  let ks := x.k :: x.others.map (fun p => p.con)
  x.k.windows.findIdx? (fun w => w.reach == x.r.val
    && decide (1024 < (compileGates (timeNs x.k.hdr.lockCycle) (portSpans ks x.r w.rport)).length))

/-- PLAN_RESERVED: another plan holds a reserved index, or a tile of the plan (assumption 44). -/
def checkReserved (x : PlanCtx) : Option Nat :=
  firstOf [
    x.k.resv.findIdx? (fun e => e.reach == x.r.val && x.others.any (fun p => p.con.resv.any (fun o =>
      o.reach == e.reach && o.kind == e.kind && rangesMeet (e.first, e.count) (o.first, o.count)))),
    x.k.progs.findIdx? (fun p => p.tile / 64 == x.r.val && x.others.any (fun o => (o.con.tilesOn x.r).contains p.tile))]

/-- F_min of R67 in ns: D (1 / f_floor - 1 / 3.6 GHz) + 20 ns, rounded up. -/
def minFreeboard (d floor : Nat) : Nat := (d * 1000 * (3600 - floor) + (3600 * floor - 1)) / (3600 * floor) + 20

/-- PLAN_FREEBOARD. -/
def checkFreeboard (x : PlanCtx) : Option Nat :=
  let f := x.k.hdr.floorMhz
  firstOf [badIf (f == 0 || decide (x.c.floorMhz x.r < f)),
    x.k.sched.findIdx? (fun e => e.tile / 64 == x.r.val && decide (e.freeboard < minFreeboard e.budget f))]

/-- PLAN_ROUTE: a hop's port is not USABLE, or its far end is not the node that survey has found there (R270). -/
def checkRoute (x : PlanCtx) : Option Nat :=
  x.k.routes.findIdx? (fun e => e.reach == x.r.val && e.outPort != 7 &&
    (if h : e.outPort < 7 then
      let p := (x.c.reach x.r).port ⟨e.outPort, h⟩
      p.state != .usable || p.peer != some (BitVec.ofNat 16 e.next)
    else true))

/-! ### Checks 0x0D and 0x0E -/

/-- The tile that a module tile number names on its reach. -/
def PlanCtx.tile (x : PlanCtx) (t : Nat) : Tile := (x.c.reach x.r).tile (t % 64)

/-- A work entry's OP, RET, TC and QPN in 64 bytes. -/
def entryHead (b : List Byte) : Nat × Bool × Nat × Nat :=
  let w := leAt b 0 4
  (natBits w 4 4, natBit w 12, natBits w 8 3, leAt b 4 4 % 2 ^ 24)

/-- The prepared work entries of a REMOTE step as they stand in the scratchpad. -/
def remoteEntries (sp : Mem) (s : StepWords) : List (List Byte) :=
  (List.range (fld (s.op 0) 32 9)).map (fun i => Mem.readBytes sp (fld (s.op 0) 0 23 + 64 * i) 64)

/-- A step of non-deterministic class (R138, R177, R178). -/
def nonDet (x : PlanCtx) (t : Tile) (s : StepWords) : Bool :=
  (stepClass s.hdr == 8 && stepOp s.hdr == 3) || (stepClass s.hdr == 5 && (remoteEntries t.spad s).any (fun b =>
    let (op, ret, _, qpn) := entryHead b
    (op == 5 && ret) || (op == 4 && !x.coll.resv.any (fun e => e.kind == 2 && decide (e.first ≤ qpn % 2 ^ 14)
      && decide (qpn % 2 ^ 14 < e.first + e.count)))))

/-- The programs of the reach's tiles. -/
def PlanCtx.progs (x : PlanCtx) : List Program := x.k.progs.filter (fun p => p.tile / 64 == x.r.val)

/-- Step index of the first step of any program on the reach that a test picks. -/
def PlanCtx.firstStep (x : PlanCtx) (bad : Program → Nat → StepWords → Bool) : Option Nat :=
  firstOf (x.progs.map (fun p => (p.steps.zipIdx.find? (fun e => bad p (p.firstStep + e.2) e.1)).map
    (fun e => p.firstStep + e.2)))

/-- PLAN_NONDET. -/
def checkNondet (x : PlanCtx) : Option Nat :=
  if x.k.hdr.detOnly then x.firstStep (fun p _ s => nonDet x (x.tile p.tile) s) else none

/-- Words that a program's steps take. -/
def Program.words (p : Program) : Nat := (p.steps.map (fun s => 1 + fld s.hdr 8 3)).foldl (· + ·) 0

/-- The programs of one tile in ascending phase order. -/
def tileProgs (k : Container) (t : Nat) : List Program :=
  orderBy (fun a b => decide (a.phase < b.phase)) (k.progs.filter (fun p => p.tile == t))

/-- A program directory entry that R111 to R113 refuse. -/
def badProgram (k : Container) (i : Nat) (p : Program) : Bool :=
  let before := (tileProgs k p.tile).filter (fun q => decide (q.phase < p.phase))
  decide (255 < p.tile) || decide (254 < p.phase) || p.nwords == 0 || decide (32768 < p.nwords) || p.words != p.nwords
    || (k.progs.take i).any (fun q => q.tile == p.tile && q.phase == p.phase)
    || decide (32768 < ((tileProgs k p.tile).map (fun q => q.nwords)).foldl (· + ·) 0)
    || decide (0x600000 < p.iqBase.toNat * 4096 + 4096)
    || (match before.reverse with
      | q :: _ => p.firstStep != q.firstStep + q.steps.length
      | [] => false)

/-- The memory rows of a move are mapped, in the tile's own reach, outside every host window (R131, R389), with the right the
move needs. -/
def moveMapped (x : PlanCtx) (m : Move) : Bool :=
  m.memRows.all (fun e =>
    match x.c.translate x.k.hdr.asid.toNat e.1 e.2 (m.kind == 0 || m.kind == 3) (m.kind == 1 || m.kind == 4) with
    | .ok runs => runs.all (fun q => !q.run.host && q.reach == x.r)
    | .error _ => false)

/-- The wire format that an output format streams as (R141). -/
def wireOf : Nat → Option Nat
  | 9 => some 0 | 0 => some 1 | 1 => some 2 | _ => none

/-- Output bytes of a MATRIX step. -/
def matOutBytes (s : StepWords) : Nat :=
  let m := matShape s.hdr (s.op 3) (s.op 4)
  planeBytes (acwOf s.hdr).out (outPositions (operandOf (s.op 2)) (acwOf s.hdr).out m)

/-- A streaming step's collective is as R141 asks. -/
def streamOk (x : PlanCtx) (p : Program) (s : StepWords) : Bool :=
  match x.k.colls.find? (fun d => d.coll == fld (s.op 4) 32 16 && d.phase == p.phase) with
  | some d =>
    d.op == 1 && wireOf (acwOf s.hdr).out == some d.wire && matOutBytes s % d.c == 0
      && (x.coll.mine d x.k.members).any (fun m => m.2.tile == p.tile)
  | none => false

/-- Digest slots opened and closed over a tile's programs in order (R143): true where a step breaks the rule. -/
def digestBad : List Nat → List StepWords → Bool
  | _, [] => false
  | openL, s :: rest =>
    let layer := fld s.hdr 48 16
    if stepClass s.hdr == 9 then
      if stepOp s.hdr == 0 then openL.contains layer || decide (16 ≤ openL.length) || digestBad (layer :: openL) rest
      else !openL.contains layer || digestBad (openL.erase layer) rest
    else (stepDigest s.hdr && !openL.contains layer) || digestBad openL rest

/-- A step that PLAN_BAD_STEP refuses. -/
def badStep (x : PlanCtx) (p : Program) (i : Nat) (s : StepWords) : Bool :=
  let t := x.tile p.tile
  let e := x.k.schedEntry p.tile i p.phase
  !stepOk t.spad (p.iqBase.toNat * 4096) x.k.roundTime s || (stepSched s.hdr != e.isSome)
    || (stepClass s.hdr == 4 && !moveMapped x (moveOf s.ops))
    || (stepStream s.hdr && !streamOk x p s)
    || (stepClass s.hdr == 5 && (match e with | some y => y.winRef == 0xFFFF | none => true)
        && (remoteEntries t.spad s).any (fun b => (entryHead b).2.2.1 == 6))

/-- Two schedule entries of one tile overlap at nominal duration, 3.6 GHz. -/
def schedOverlap (a b : SchedEntry) : Bool :=
  a.tile == b.tile && decide (a.startOff.toNat ≤ b.startOff.toNat)
    && decide ((b.startOff.toNat - a.startOff.toNat) * 18 < a.budget * 5 * 65536)

/-- PLAN_BAD_STEP. -/
def checkStep (x : PlanCtx) : Option Nat :=
  let k := x.k
  firstOf [
    k.progs.zipIdx.findIdx? (fun e => e.1.tile / 64 == x.r.val && badProgram k e.2 e.1),
    x.firstStep (badStep x),
    firstOf ((k.tilesOn x.r).map (fun t => if digestBad [] ((tileProgs k t).flatMap (fun p => p.steps)) then
      (tileProgs k t).head?.map (fun p => p.firstStep) else none)),
    firstOf (k.phases.map (fun ph =>
      let l := k.schedOf ph.phase
      (l.zipIdx.findIdx? (fun e => e.1.tile / 64 == x.r.val &&
        ((match k.program e.1.tile ph.phase with
          | some p => !(decide (p.firstStep ≤ e.1.step) && decide (e.1.step < p.firstStep + p.steps.length))
          | none => true)
        || l.zipIdx.any (fun f => e.2 != f.2 && schedOverlap e.1 f.1)))).map (fun i => ph.schedFirst + i)))]

/-! ### The table -/

/-- A LENGTH that differs from TOTAL_LEN gives PLAN_BAD_FIELD (table "PLAN_LOAD parameters"): neither the sections nor the digest of such
a container can be read, so only MAGIC and the header's format version are looked at before. -/
def checkLength (x : PlanCtx) : Option Nat :=
  badIf (x.k.hdr.magic == 0x4C505850 && x.k.hdr.fmt == 1 && (decide (x.bytes.length < 128) || x.k.hdr.totalLen != x.bytes.length))

/-- The first check of the table "Plan validation" that fails on a reach: code and index of the offending entry. -/
def planRefused (x : PlanCtx) : Option (Nat × Nat) :=
  ([(0x04, checkLength), (0x01, checkFormat), (0x02, checkDigest), (0x03, checkTime), (0x04, checkField), (0x05, checkRange),
    (0x06, checkOwned), (0x07, checkCycle), (0x08, checkWindow), (0x09, checkGates), (0x0A, checkReserved),
    (0x0B, checkFreeboard), (0x0C, checkRoute), (0x0D, checkNondet), (0x0E, checkStep)] :
      List (Nat × (PlanCtx → Option Nat))).findSome? (fun e => (e.2 x).map (fun i => (e.1, i)))

end Sys2Proof.Machine
end

