-- ==== Sys2Proof/Machine/Gcm.lean ====
section
/-!
DEFINITION. AES-256-GCM (NIST SP 800-38D) over the block cipher and the product of Crypto.lean, the choice of a fabric
key by transmit time (R438, R440), and the IV of an FRT packet (R236).
-/

namespace Sys2Proof.Machine

/-! ### GCM -/

/-- Cut a byte string into `n` pieces of 16 bytes; the last may be short. -/
def blocks16 : Nat → List Byte → List (List Byte)
  | 0, _ => []
  | n + 1, bs => bs.take 16 :: blocks16 n (bs.drop 16)

/-- The 16-byte pieces of a byte string. -/
def gcmBlocks (bs : List Byte) : List (List Byte) := blocks16 ((bs.length + 15) / 16) bs

/-- Sixteen bytes, zero-padded, as GHASH reads them. -/
def blockBits (b : List Byte) : BitVec 128 := BitVec.ofNat 128 (leNat (sliceBytes b 0 16).reverse)

/-- Fold bytes into a GHASH value, zero-padded to whole blocks. -/
def ghash (h : BitVec 128) (y : BitVec 128) (bs : List Byte) : BitVec 128 :=
  (gcmBlocks bs).foldl (fun y b => ghashMul (y ^^^ blockBits b) h) y

/-- The hash subkey of a key. -/
def hashKey (key : List Byte) : BitVec 128 := blockBits (aesBlock key (List.replicate 16 0))

/-- A counter block: 96-bit IV, then the counter. -/
def ctrBlock (iv : BitVec 96) (n : Nat) : List Byte := beBytes 12 iv.toNat ++ beBytes 4 n

/-- Exclusive OR of a byte string with the key stream from counter `n` on. -/
def gctr (key : List Byte) (iv : BitVec 96) (n : Nat) (bs : List Byte) : List Byte :=
  (gcmBlocks bs).zipIdx.flatMap (fun e =>
    (e.1.zip (aesBlock key (ctrBlock iv ((n + e.2) % 2 ^ 32)))).map (fun p => p.1 ^^^ p.2))

/-- The tag over additional data and ciphertext that have been folded into `y`, of the given lengths in bytes. -/
def gcmTag (key : List Byte) (iv : BitVec 96) (y : BitVec 128) (aad data : Nat) : List Byte :=
  let y := ghashMul (y ^^^ BitVec.ofNat 128 (8 * aad * 2 ^ 64 + 8 * data)) (hashKey key)
  ((beBytes 16 y.toNat).zip (aesBlock key (ctrBlock iv 1))).map (fun p => p.1 ^^^ p.2)

/-- Seal: ciphertext and 16-byte tag. -/
def gcmSeal (key : List Byte) (iv : BitVec 96) (aad plain : List Byte) : List Byte × List Byte :=
  let c := gctr key iv 2 plain
  (c, gcmTag key iv (ghash (hashKey key) (ghash (hashKey key) 0 aad) c) aad.length c.length)

/-- Open: the plaintext, and whether the tag passes. -/
def gcmOpen (key : List Byte) (iv : BitVec 96) (aad cipher tag : List Byte) : List Byte × Bool :=
  (gctr key iv 2 cipher,
    gcmTag key iv (ghash (hashKey key) (ghash (hashKey key) 0 aad) cipher) aad.length cipher.length == tag)

/-! ### Fabric keys -/

/-- A fabric key serves a transmit time: its T_ACT is not after it, and less than 2^46 ns before it (R438, R440). -/
def KeySlot.serves (k : KeySlot) (pkey : Word16) (tx : Time) : Bool :=
  k.kind == 1 && k.pkey == pkey && decide (0 ≤ timeDiff k.tAct tx)
    && decide (timeDiff k.tAct tx < (2 : Int) ^ 46 * 65536)

/-- The key of a partition key that a transmit time selects: the one whose T_ACT is the latest. -/
def CipherEngine.fabricKey (x : CipherEngine) (pkey : Word16) (tx : Time) : Option (List Byte) :=
  ((x.slots.vals.filter (fun k => k.serves pkey tx)).foldl (fun (best : Option KeySlot) k =>
    match best with
    | some b => if later b.tAct k.tAct then some k else best
    | none => some k) none).map (fun k => k.key)

/-- The IV of a packet (R236): SRC_NODE, SRC_QPN [15:0], TX_TIME. -/
def frtIv (src : Word16) (srcQpn : BitVec 24) (tx : Time) : BitVec 96 :=
  BitVec.ofNat 96 (src.toNat * 2 ^ 80 + srcQpn.toNat % 65536 * 2 ^ 64 + tx.toNat)

end Sys2Proof.Machine
end

