-- ==== Sys2Proof/Machine/Log.lean ====
section
/-!
DEFINITION. The logbook (R428 to R432): entries with their chain of digests, seals, room and warning; and role sessions as a
check of R12 and R427 asks for them.
-/

namespace Sys2Proof.Machine

/-! ### Entries -/

/-- The 128 bytes of a logbook entry (R429). -/
def logBytes (e : LogEntry) : List Byte :=
  leBytes 4 (1 + e.role.toNat * 2 ^ 4 + e.result.toNat * 2 ^ 8 + e.kind.toNat * 2 ^ 16) ++ leBytes 4 e.seq.toNat
    ++ leBytes 8 e.time.toNat ++ leBytes 4 (e.path.toNat + e.function.toNat * 2 ^ 8 + e.eid.toNat * 2 ^ 16)
    ++ leBytes 4 0 ++ leBytes 8 e.keyId.toNat ++ sliceBytes e.detail 0 48 ++ beBytes 48 e.prev.toNat

/-- Who makes a change: role, path, function and endpoint, and the key it is signed with. -/
structure Who where
  role : Nat
  path : Nat
  fn : Nat
  eid : Nat
  keyId : Word64
  deriving DecidableEq, Repr

/-- The module itself. -/
def Who.module : Who := { role := 0, path := 3, fn := 0xFF, eid := 0, keyId := 0 }

/-- A function over the host port, without a role. -/
def Who.function (f : FnId) : Who := { role := 0, path := if f = 0 then 0 else 1, fn := f.val, eid := 0, keyId := 0 }

/-- Entries that the logbook holds, and the count at which it warns (R431, R432). -/
def logMax : Nat := 65536
def logWarn : Nat := 58982

/-- The logbook can take an entry of a change: its flash region checks (R420) and it has room (R432). -/
def Sec.logRoom (s : Sec) : Bool := s.logFlashOk && decide (s.log.length < logMax)

/-- The status a change is refused with for want of an entry: SEC_FLASH or SEC_LOG_FULL; none where it can be logged. -/
def Sec.logRefusal (s : Sec) : Option Nat :=
  if !s.logFlashOk then some 0xBB else if logMax ≤ s.log.length then some 0xB5 else none

/-- The SHA-384 of the newest entry, as the next one carries it. -/
def Sec.newest (s : Sec) : BitVec 384 := s.lastDigest

/-- The 128 bytes that a seal signs (R430). -/
def sealBytes (seq : Nat) (digest : BitVec 384) (now : Time) (eui : Word64) : List Byte :=
  leBytes 4 0x534C5850 ++ leBytes 4 1 ++ leBytes 8 seq ++ beBytes 48 digest.toNat ++ leBytes 8 now.toNat
    ++ leBytes 8 eui.toNat ++ List.replicate 48 0

/-- A fresh seal over the newest entry; the flash holds the latest 256. -/
def Sec.seal (s : Sec) (now : Time) : Sec :=
  let seq := (s.logNext - 1).toNat
  let b := sealBytes seq s.lastDigest now s.eui
  let x : Seal := { seq := BitVec.ofNat 64 seq, digest := s.lastDigest, time := now, ed := Config.edSign b, ml := Config.mlSign b }
  { s with seals := (s.seals ++ [x]).drop (s.seals.length - 255) }

/-- Append one entry (R428, R429), with the status its change ends in, and a seal after every 256. Boot entries and repair
records of a full logbook go to the reserve of 64 (R432). -/
def Chip.log (c : Chip) (kind : Nat) (w : Who) (result : Nat) (detail : List Byte) : Chip :=
  let s := c.sec
  let e : LogEntry := { role := BitVec.ofNat 4 w.role, result := BitVec.ofNat 8 result, kind := BitVec.ofNat 16 kind,
                        seq := s.logNext, time := c.gateTime, path := BitVec.ofNat 8 w.path,
                        function := BitVec.ofNat 8 w.fn, eid := BitVec.ofNat 16 w.eid, keyId := w.keyId,
                        detail := sliceBytes detail 0 48, prev := s.lastDigest }
  let full := decide (logMax ≤ s.log.length)
  if !s.logFlashOk || (full && kind != 0xC && kind != 0xE && kind != 0xD) then c
  else
    let s := { s with log := if full then s.log else s.log ++ [e],
                      reserve := if full then (s.reserve ++ [e]).drop (s.reserve.length - 63) else s.reserve,
                      logNext := s.logNext + 1, lastDigest := sha384 (logBytes e) }
    let c := { c with sec := if s.logNext.toNat % 256 == 0 then s.seal c.gateTime else s }
    if !full && s.log.length == logWarn then c.alert 0x0F 4 (BitVec.ofNat 64 logWarn) else c

/-- Write the RESULT of an entry whose change has ended (R428). -/
def Chip.logResult (c : Chip) (seq : Word32) (result : Nat) : Chip :=
  { c with sec := { c.sec with log := c.sec.log.map (fun e =>
      if e.seq == seq then { e with result := BitVec.ofNat 8 result } else e) } }

/-! ### Role sessions (R423, R427) -/

/-- A session that holds passes a check for a role: 1 maker, 2 installer, 3 operator (R423: the installer passes every check
that names the operator). -/
def Session.passes (s : Session) (role : Nat) : Bool := s.role.toNat == role || (s.role.toNat == 2 && role == 3)

/-- The session of a path that holds now. A VF has none. -/
def Chip.session (c : Chip) (p : RegPath) : Option Session :=
  let live := fun (s : Session) => if later c.gateTime s.expiry then some s else none
  match p with
  | .pf => c.sec.pfSession.bind live
  | .vf _ => none
  | .mctp eid => c.sec.mctpSession.bind (fun s => if s.eid == eid then live s else none)

/-- A path passes a role check now. -/
def Chip.allows (c : Chip) (p : RegPath) (role : Nat) : Bool :=
  match c.session p with
  | some s => s.passes role
  | none => false

/-- Who a register path is, with the role of its session. -/
def Chip.whoOf (c : Chip) (p : RegPath) : Who :=
  let role := match c.session p with | some s => s.role.toNat | none => 0
  match p with
  | .pf => { role := role, path := 0, fn := 0, eid := 0, keyId := 0 }
  | .vf f => { role := 0, path := 1, fn := f.val, eid := 0, keyId := 0 }
  | .mctp eid => { role := role, path := 2, fn := 0xFF, eid := eid.toNat, keyId := 0 }

/-- Key of a path in the counts of refused register accesses: the function, 64 for the management path (R12, R466). -/
def pathKey : RegPath → Nat
  | .pf => 0
  | .vf f => f.val
  | .mctp _ => 64

/-- A write to an RWL field that the path's session does not pass is ignored and counted (R12). -/
def Chip.ignoreWrite (c : Chip) (p : RegPath) : Chip :=
  { c with gate := { c.gate with rwlIgnored := Tab.modify c.gate.rwlIgnored (pathKey p) 0 (fun n => sat48 (n + 1)) } }

/-- A write to RWL fields (R12, R427, R428): ignored without the role, nothing where the value stays, else logged with the register's
offset and the old and new value, and applied. A change that cannot be logged is not made. -/
def Chip.rwlWrite (c : Chip) (p : RegPath) (role offset : Nat) (old new : Word64) (apply : Chip → Chip) : Chip :=
  if !c.allows p role then c.ignoreWrite p
  else if old == new || c.sec.logRefusal.isSome then c
  else apply (c.log 6 (c.whoOf p) 0 (leBytes 8 offset ++ leBytes 8 old.toNat ++ leBytes 8 new.toNat))

/-- The PF session ends with an entry (R427, R428). -/
def Chip.endPfSession (c : Chip) : Chip :=
  match c.sec.pfSession with
  | none => c
  | some s =>
    let c := c.log 2 Who.module 0 (leBytes 2 0 ++ leBytes 2 s.eid.toNat ++ leBytes 4 0 ++ leBytes 8 s.expiry.toNat)
    { c with sec := { c.sec with pfSession := none } }

end Sys2Proof.Machine
end

