-- ==== Sys2Proof/Machine/MemOps.lean ====
section
/-!
DEFINITION. Errors of the memory tiers and their handling (R151 to R165): where a line lies, the memory error record, the
gauges of a channel, repair records, and the dredging read.
-/

namespace Sys2Proof.Machine

/-! ### Where a line lies (R148, R151 to R153) -/

/-- A place in memory: tier (0 HBM3E, 1 LPDDR5X, 2 scratchpad), device, channel and byte offset within the channel. -/
structure MemPlace where
  tier : Nat
  device : Nat
  channel : Nat
  offset : Nat
  deriving DecidableEq, Repr

/-- The place of a device physical address. -/
def memPlace (pa : Nat) : MemPlace :=
  if spadWindow ≤ pa then
    let a := (pa - spadWindow) % 0x800000
    { tier := 2, device := (pa - spadWindow) / 0x800000, channel := a / 0x20000, offset := a }
  else if lpBase ≤ pa then
    let a := pa - lpBase
    let g := a / 4096
    { tier := 1, device := g % 24 / 4, channel := g % 24 % 4, offset := g / 24 * 4096 + a % 4096 }
  else
    let s := pa / 0x400000000
    let a := pa % 0x400000000
    let q := natBits a 8 3 ^^^ natBits a 11 3 ^^^ natBits a 14 3
    { tier := 0, device := q / 4, channel := 4 * s + q % 4, offset := a / 2048 * 256 + a % 256 }

/-- The row of a place. -/
def MemPlace.row (p : MemPlace) : MemRow :=
  let (b, w) := Config.rowOf p.tier p.device p.channel p.offset
  { tier := BitVec.ofNat 1 p.tier, device := BitVec.ofNat 8 p.device, channel := BitVec.ofNat 8 p.channel, bank := b, row := w }

/-- Number of the check line that covers a line of LPDDR5X, the channel that holds it, and its place: the upper 0.5 GiB of the channel's 16 GiB
(R153, R158). -/
def checkLine (pa : Nat) : Nat := (pa - lpBase) / 2048
def checkChannel (k : Nat) : Nat := k / 2 % 24
def checkPlace (k : Nat) : MemPlace :=
  { tier := 1, device := checkChannel k / 4, channel := checkChannel k % 4, offset := 0x3E0000000 + (k / 48 * 2 + k % 2) * 64 }

/-- An access to a line needs its check line: the channel's controller caches it, evicting another where it holds 512 (R158). -/
def MemState.touchCheck (m : MemState) (k : Nat) : MemState :=
  if m.checks.contains k then m
  else
    let own := m.checks.filter (fun e => checkChannel e == checkChannel k)
    if own.length < 512 then { m with checks := k :: m.checks }
    else { m with checks := k :: m.checks.erase (own.getD (Config.checkVictim own % own.length) 0) }

/-- An address lies in LPDDR5X. -/
def inLp (pa : Nat) : Bool := decide (lpBase ≤ pa) && decide (pa < lpEnd)

/-- Object of a channel in gauge group 9: pseudo-channels 0 to 63 of the reach, LPDDR5X channels from 64. -/
def MemPlace.gauge (p : MemPlace) : Nat := if p.tier = 0 then 32 * p.device + p.channel else 64 + 4 * p.device + p.channel

/-- The function that owns a byte of a reach's memory: the address space that maps it, or the holder of a tile; none of the
keeper region and of pages that nothing maps. -/
def Chip.ownerOf (c : Chip) (r : ReachId) (pa : Nat) : Option FnId :=
  if spadWindow ≤ pa then some (c.tileOwner r ((pa - spadWindow) / 0x800000))
  else (List.find? (fun e => e.2.pages.any (fun p => p.reach == r && decide (p.pa ≤ pa)
    && decide (pa < p.pa + pageBytes p.size))) c.xlt.asids).map (fun e => e.2.function)

/-- Count the accesses of a range in the gauges of its channels, one for each line; those of LPDDR5X use their check lines. -/
def Reach.countLines (x : Reach) (pa n : Nat) (write : Bool) : Reach :=
  if n = 0 ∨ spadWindow ≤ pa then x
  else (List.range ((pa + n - 1) / 64 - pa / 64 + 1)).foldl (fun x i =>
    let a := 64 * (pa / 64 + i)
    let x := x.gaugeAdd 9 (memPlace a).gauge (if write then 1 else 0) 1
    if inLp a then { x with mem := x.mem.touchCheck (checkLine a) } else x) x

/-! ### Writes that controllers serve (R160) -/

/-- Two ranges share lines: the first of them, and how many. -/
def sharedLines (a n b m : Nat) : Nat × Nat :=
  let lo := max (a / 64) (b / 64)
  let hi := min ((a + n - 1) / 64) ((b + m - 1) / 64)
  (lo, if n = 0 ∨ m = 0 then 0 else hi + 1 - lo)

/-- A requester writes bytes of HBM3E or LPDDR5X. Where another wrote the same line in the same cycle, the lower number is served first and
the data of the later stays; each such line is a tie (R160, R182). -/
def Chip.serveWrite (c : Chip) (r : ReachId) (by_ pa : Nat) (bs : List Byte) : Chip :=
  let x := c.reach r
  let now := c.now r
  let own : MemWrite := { pa := pa, len := bs.length, at_ := now, by_ := by_ }
  let l := x.mem.writes.filter (fun e => e.at_ == now)
  let tied := l.filter (fun e => e.by_ != by_ && (sharedLines e.pa e.len pa bs.length).2 != 0)
  let later := (tied.filter (fun e => decide (by_ < e.by_))).map (fun e => (e.pa, x.readPhys e.pa e.len))
  let c := c.onReach r (fun y => (y.writePhys pa bs).countLines pa bs.length true)
  let c := c.onReach r (fun y => later.foldl (fun y e => y.writePhys e.1 e.2) { y with mem := { y.mem with writes := own :: l } })
  forEach tied c (fun c e =>
    let s := sharedLines e.pa e.len pa bs.length
    forEach (List.range s.2) c (fun c i =>
      c.tdc r 1 (c.ownerOf r (64 * (s.1 + i))) by_ (BitVec.ofNat 32 (4 + (s.1 + i) % 2 ^ 24 * 2 ^ 8))
        (BitVec.ofNat 64 (min by_ e.by_ + max by_ e.by_ * 2 ^ 32))))

/-- A requester (a reach-local tile, 64 the RME) writes through runs: host memory, a tile's scratchpad, or lines of memory. -/
def Chip.storeRuns (c : Chip) (r : ReachId) (by_ : Nat) (runs : List Run) (off : Nat) (bs : List Byte) : Chip :=
  ((runSlice runs off bs.length).foldl (fun (s : Chip × Nat) x =>
    let part := (bs.drop s.2).take x.len
    let c := if x.host then { s.1 with host := { s.1.host with mem := Mem.writeBytes s.1.host.mem x.pa part } }
      else if spadWindow ≤ x.pa then s.1.onReach r (fun y => y.writePhys x.pa part)
      else s.1.serveWrite r by_ x.pa part
    (c, s.2 + x.len)) (c, 0)).1

/-- Count the lines that a read through runs takes from memory. -/
def Reach.countRuns (x : Reach) (runs : List Run) (off n : Nat) : Reach :=
  (runSlice runs off n).foldl (fun x q => if q.host then x else x.countLines q.pa q.len false) x

/-! ### Records (R161, R164) -/

/-- The 32 bytes of a memory error record. -/
def memErrBytes (x : MemErrRecord) : List Byte :=
  leBytes 4 (1 + x.cls.toNat * 2 ^ 4 + x.reach.val * 2 ^ 8 + x.seq.toNat * 2 ^ 16)
    ++ leBytes 4 (x.tier.toNat + x.device.toNat * 2 ^ 2 + x.channel.toNat * 2 ^ 8 + x.function.toNat * 2 ^ 16)
    ++ leBytes 8 (x.paddr + x.bit.toNat * 2 ^ 48) ++ leBytes 8 x.time.toNat ++ leBytes 8 x.handle.toNat

/-- Post a memory error record for the owner of the line and the PF (R161). -/
def Chip.memRecord (c : Chip) (r : ReachId) (cls pa bit : Nat) (handle : Word64) : Chip :=
  let p := memPlace pa
  let owner := c.ownerOf r pa
  let x : MemErrRecord := { cls := BitVec.ofNat 4 cls, reach := r, seq := (c.reach r).mem.errSeq, tier := BitVec.ofNat 2 p.tier,
                            device := BitVec.ofNat 6 p.device, channel := BitVec.ofNat 8 p.channel,
                            function := match owner with | some f => BitVec.ofNat 8 f.val | none => 0xFF,
                            paddr := pa / 64 * 64, bit := BitVec.ofNat 16 bit, time := c.now r, handle := handle }
  let c := c.onReach r (fun y => { y with mem := { y.mem with errSeq := y.mem.errSeq + 1 } })
  c.event r (owner.getD 0) true 2 (memErrBytes x) handle

/-- Correctable events that a reach has seen in a row. -/
def MemState.rowEvents (m : MemState) (row : MemRow) : Nat :=
  match m.rows.find? (fun e => e.row == row) with | some e => e.total | none => 0

/-- A repair record is written to the reach's table, which holds 256, and entered in the logbook (R164). DESIGN CHOICE (assumption 94): a
row whose request is still pending takes no second one. -/
def Chip.repairRecord (c : Chip) (r : ReachId) (row : MemRow) (cause : Nat) : Chip :=
  let m := (c.reach r).mem
  let count := m.rowEvents row
  if m.repair.any (fun x => x.at_ == row && x.state == 0) || decide (256 ≤ m.repair.length) then c
  else
    let x : RepairRecord := { reach := r, at_ := row, cause := BitVec.ofNat 8 cause, state := 0,
                              ceCount := BitVec.ofNat 16 (min count 65535), logSeq := c.sec.logNext }
    let body := leBytes 4 (1 + row.tier.toNat * 2 ^ 4 + r.val * 2 ^ 8 + row.device.toNat * 2 ^ 16 + row.channel.toNat * 2 ^ 24)
      ++ leBytes 4 (row.bank.toNat + row.row.toNat * 2 ^ 8) ++ leBytes 4 (cause + x.ceCount.toNat * 2 ^ 16)
      ++ leBytes 4 x.logSeq.toNat
    let c := c.log 0xC Who.module 0 body
    c.onReach r (fun y => { y with mem := { y.mem with repair := y.mem.repair ++ [x] } })

/-- An uncorrectable error is met (R159): the record, the gauge, and for classes 1 to 3 a repair request for the row, of class 3 that of the
check line. The line is left unchanged. -/
def Chip.memUe (c : Chip) (r : ReachId) (cls pa : Nat) (handle : Word64) : Chip :=
  let p := memPlace pa
  let c := c.memRecord r cls pa 0xFFFF handle
  if p.tier = 2 then c
  else
    let c := c.onReach r (fun y => y.gaugeAdd 9 p.gauge 3 1)
    if cls = 4 then c else c.repairRecord r (if cls = 3 then checkPlace (checkLine pa) else p).row 1

/-- First address of a range that holds an uncorrectable error. -/
def Reach.firstUe (x : Reach) (pa n : Nat) : Option Nat :=
  if n = 0 then none
  else ((List.range ((pa + n - 1) / 64 - pa / 64 + 1)).find? (fun i => x.hasUe (64 * (pa / 64 + i)) 1)).map
    (fun i => 64 * (pa / 64 + i))

/-- Class of an uncorrectable error that a consuming read meets at an address. -/
def ueClass (pa : Nat) : Nat := if spadWindow ≤ pa then 5 else 1

/-- 24 hours. -/
def dayTime : Int := 86400 * 1000000000 * 65536

/-- CE_ROW_THRESH, 0 taken as 1 (R163). -/
def MemState.ceThresh (m : MemState) : Nat := max 1 (fld m.dredge 24 8)

/-- A correctable error of a line (R159 class 0): the gauge, at most one record in 24 hours, and a repair request when the
row's events of 24 hours reach the threshold (R161, R164). -/
def Chip.memCe (c : Chip) (r : ReachId) (pa bit : Nat) : Chip :=
  let p := memPlace pa
  let now := c.now r
  let m := (c.reach r).mem
  let line := pa / 64
  let recent := m.posted.any (fun e => e.1 == line && decide (timeDiff e.2 now < dayTime))
  let c := c.onReach r (fun y => y.gaugeAdd 9 p.gauge 2 1)
  let c := if recent then c
    else (c.memRecord r 0 pa bit 0).onReach r (fun y => { y with mem := { y.mem with
      posted := (line, now) :: y.mem.posted.filter (fun e => e.1 != line && decide (timeDiff e.2 now < dayTime)) } })
  if p.tier = 2 then c
  else
    let row := p.row
    let old := (m.rows.find? (fun e => e.row == row)).getD { row := row, total := 0, times := [] }
    let k : RowCount := { row := row, total := old.total + 1,
                          times := now :: (old.times.filter (fun t => decide (timeDiff t now < dayTime))).take 254 }
    let c := c.onReach r (fun y => { y with mem := { y.mem with rows := k :: y.mem.rows.filter (fun e => e.row != row) } })
    if m.ceThresh ≤ k.times.length then c.repairRecord r row 0 else c

/-! ### Dredging (R162, R163) -/

/-- Hours of a pass, 0 taken as 1 and more than 168 as 168. -/
def passHours (n : Nat) : Nat := clampNat 1 168 n

/-- Lines of HBM3E, and of LPDDR5X with its check lines, that a pass reads. -/
def hbmLines : Nat := hbmEnd / 64
def lpData : Nat := (lpEnd - lpBase) / 64
def lpLines : Nat := lpData + lpData / 32

/-- The pass moves on by one line, and begins with its first; one that ends later than its period is counted (R162). -/
def Reach.patrolNext (x : Reach) (lp : Bool) : Reach :=
  let now := x.time.now
  let m := x.mem
  let pos := if lp then m.lpPos else m.hbmPos
  let start := if pos = 0 then now else if lp then m.lpStart else m.hbmStart
  let hours := passHours (if lp then fld m.dredge 16 8 else fld m.dredge 8 8)
  let ends := decide ((if lp then lpLines else hbmLines) ≤ pos + 1)
  let late := ends && decide ((hours : Int) * 3600 * 1000000000 * 65536 < timeDiff start now)
  let pos' := if ends then 0 else pos + 1
  let m := if late then { m with latePass := sat48 (m.latePass + 1) } else m
  { x with mem := if lp then { m with lpPos := pos', lpStart := start }
                  else { m with hbmPos := pos', hbmStart := start } }

/-- The 32 consecutive data lines of its channel that a check line covers (R158). -/
def coveredLines (k : Nat) : List Nat := (List.range 32).map (fun i => lpBase / 64 + 32 * k + i)

/-- Lines read as uncorrectable from now on, until each is rewritten. -/
def Chip.addUe (c : Chip) (r : ReachId) (l : List Nat) : Chip :=
  c.onReach r (fun x => { x with mem := { x.mem with ue := x.mem.ue ++ l.filter (fun i => !x.mem.ue.contains i) } })

/-- A command or address parity error outlasts its retries: the record, and the pseudo-channel is held in fault (R159 class 4). -/
def Chip.memParity (c : Chip) (r : ReachId) (pa : Nat) (handle : Word64) : Chip :=
  (c.memUe r 4 pa handle).onReach r (fun x => { x with mem := { x.mem with chFault := x.mem.chFault ++ [(memPlace pa).gauge] } })

/-- What the read of a line finds, by a patrol (class 2) or by its consumer (class 1, in a scratchpad 5), and whether the read fails. Parity
guards the commands of HBM3E, check lines the data of LPDDR5X. -/
def Chip.readFinds (c : Chip) (r : ReachId) (patrol : Bool) (pa : Nat) (f : DredgeFind) : Chip × Bool :=
  match f with
  | .clean => (c, false)
  | .corrected bit => (c.memCe r pa bit, false)
  | .onDie => (if spadWindow ≤ pa then c else c.onReach r (fun x => x.gaugeAdd 9 (memPlace pa).gauge 4 1), false)
  | .parityRetried _ => (c, false)
  | .bad =>
    if spadWindow ≤ pa then
      let t := (pa - spadWindow) / 0x800000
      ((c.onTile r t (fun y => { y with spadUe := (pa - spadWindow) % 0x800000 / 64 :: y.spadUe })).memUe r 5 pa 0, true)
    else ((c.addUe r [pa / 64]).memUe r (if patrol then 2 else 1) pa 0, true)
  | .badCheckLine => if inLp pa then ((c.addUe r (coveredLines (checkLine pa))).memUe r 3 pa 0, true) else (c, false)
  | .parity => if pa < hbmEnd then (c.memParity r pa 0, true) else (c, false)

/-- DREDGE_READ: the controller of a tier reads the next line of its pass and handles what it finds (R159, R162). A line that
the model already holds as uncorrectable is found so. -/
def dredgeRead (r : ReachId) (now : Time) (lp : Bool) (f : DredgeFind) (c : Chip) : Chip :=
  let c := c.at r now
  let m := (c.reach r).mem
  if !c.inService r || !flag m.dredge (if lp then 1 else 0) then c
  else
    if lp && decide (lpData ≤ m.lpPos) then
      let k := m.lpPos - lpData
      let c := c.onReach r (fun x => x.patrolNext lp)
      if f = .badCheckLine ∨ f = .bad then (c.readFinds r true (lpBase + 2048 * k) .badCheckLine).1 else c
    else
      let pa := if lp then lpBase + 64 * m.lpPos else 64 * m.hbmPos
      let c := c.onReach r (fun x => (x.patrolNext lp).countLines pa 64 false)
      if (c.reach r).hasUe pa 64 then c.memUe r 2 pa 0 else (c.readFinds r true pa f).1

end Sys2Proof.Machine
end

