-- ==== Sys2Proof/Machine/FrtWire.lean ====
section
/-!
DEFINITION. FRT packets as bytes (R228 to R234): the header and extension words in network order, the CRC-32C trailer, and
the incremental UDP checksum of R226.
-/

namespace Sys2Proof.Machine

/-! ### CRC-32C (R234) -/

/-- One bit of the reflected CRC with polynomial 0x1EDC_6F41, whose reflection is 0x82F6_3B78. -/
def crcBit (x : Word32) : Word32 := if x.getLsbD 0 then (x >>> 1) ^^^ 0x82F63B78 else x >>> 1

/-- One byte. -/
def crcByte (x : Word32) (b : Byte) : Word32 :=
  let y := x ^^^ b.setWidth 32
  crcBit (crcBit (crcBit (crcBit (crcBit (crcBit (crcBit (crcBit y)))))))

/-- CRC-32C of a byte string: initial value and final exclusive OR 0xFFFF_FFFF. -/
def crc32c (bs : List Byte) : Word32 := (bs.foldl crcByte 0xFFFFFFFF) ^^^ 0xFFFFFFFF

/-! ### Packet types -/

def frtData : BitVec 4 := 0
def frtReadReq : BitVec 4 := 1
def frtReadResp : BitVec 4 := 2
def frtAck : BitVec 4 := 3
def frtNak : BitVec 4 := 4

/-! ### Header words -/

/-- A 32-bit word in network order. -/
def be32 (n : Nat) : List Byte := beBytes 4 n

/-- The base header with its mutable fields (ECN, EPOCH, HOPS, HOP_BASE, VIA) as given (R228, R233). -/
def frtBase (p : FrtPacket) (epoch ecn hops hopBase via : Nat) : List Byte :=
  be32 (p.fmt.toNat * 2 ^ 28 + p.type.toNat * 2 ^ 24 + p.tc.toNat * 2 ^ 21 + epoch * 2 ^ 20 + ecn * 2 ^ 18 + p.pkey.toNat)
  ++ be32 (p.dst.toNat * 2 ^ 16 + p.src.toNat)
  ++ be32 (p.first.toNat * 2 ^ 31 + p.last.toNat * 2 ^ 30 + p.ackReq.toNat * 2 ^ 29 + p.retx.toNat * 2 ^ 28
      + p.timeOk.toNat * 2 ^ 27 + p.ciph.toNat * 2 ^ 26 + p.dstQpn.toNat)
  ++ be32 (hops * 2 ^ 24 + p.srcQpn.toNat) ++ be32 p.psn.toNat
  ++ be32 (p.txTime.toNat / 2 ^ 32) ++ be32 (p.txTime.toNat % 2 ^ 32)
  ++ be32 (hopBase * 2 ^ 16 + p.payload.length) ++ be32 (p.win.toNat * 2 ^ 16 + via) ++ be32 0

/-- The operation extension (R229). -/
def opExtBytes (e : OpExt) : List Byte :=
  be32 (e.op.toNat * 2 ^ 28 + e.ret.toNat * 2 ^ 24 + e.msn.toNat) ++ be32 e.rkey.toNat
  ++ be32 (e.roff.toNat / 2 ^ 32) ++ be32 (e.roff.toNat % 2 ^ 32) ++ be32 e.length.toNat ++ be32 e.boff.toNat
  ++ be32 e.skey.toNat ++ be32 (e.soff.toNat / 2 ^ 32) ++ be32 (e.soff.toNat % 2 ^ 32) ++ be32 0
  ++ be32 (e.add.toNat / 2 ^ 32) ++ be32 (e.add.toNat % 2 ^ 32)

/-- An extension in network order (R229 to R232). -/
def extBytes : FrtExt → List Byte
  | .op e => opExtBytes e
  | .resp e => be32 e.msn.toNat ++ be32 e.boff.toNat
  | .ack e => be32 (e.vis.toNat * 2 ^ 31 + e.cumPsn.toNat) ++ be32 e.visMsn.toNat ++ be32 e.qdelay.toNat
      ++ be32 (e.pkts.toNat * 2 ^ 24 + e.ecnCnt.toNat * 2 ^ 16) ++ beBytes 16 e.sack.toNat
  | .nak e => be32 (e.code.toNat * 2 ^ 24 + e.status.toNat * 2 ^ 16) ++ be32 e.msn.toNat ++ be32 e.cumPsn.toNat ++ be32 0
  | .none => []

/-- The header with its mutable fields as zero: what the CRC and the GCM additional data cover (R234, R236). -/
def frtFixedHeader (p : FrtPacket) : List Byte := frtBase p 0 0 0 0 0 ++ extBytes p.ext

/-- The CRC-32C trailer a packet should carry (R234). -/
def frtCrc (p : FrtPacket) : Word32 := crc32c (frtFixedHeader p ++ p.payload ++ p.tag)

/-- The trailer passes. -/
def frtCrcOk (p : FrtPacket) : Bool := p.crc == frtCrc p

/-- Give a packet the trailer it should carry: a source computes it afresh for each transmission (R234). -/
def frtSeal (p : FrtPacket) : FrtPacket := { p with crc := frtCrc p }

/-- Bytes of a packet from the FRT header through the trailer. -/
def frtLen (p : FrtPacket) : Nat := (frtFixedHeader p).length + p.payload.length + p.tag.length + 4

/-- Bytes of the Ethernet frame that carries a packet (R225 to R227): Ethernet header and FCS, and for a routed packet the
tag, the IP header and UDP. -/
def frtFrameLen (p : FrtPacket) : Nat :=
  let extra := match p.routed with
    | none => 0
    | some h => if h.v6 then 4 + 40 + 8 else 4 + 20 + 8
  max 64 (18 + extra + frtLen p)

/-! ### UDP checksum (R226) -/

/-- One's complement sum of two 16-bit words. -/
def ocAdd (a b : Nat) : Nat := let s := a + b; s % 65536 + s / 65536

/-- The one's complement sum of a byte string taken as big-endian 16-bit words. -/
def ocSum : List Byte → Nat
  | [] => 0
  | [a] => a.toNat * 256
  | a :: b :: t => ocAdd (a.toNat * 256 + b.toNat) (ocSum t)

/-- The whole FRT content of a packet, mutable fields as they stand. -/
def frtBytes (p : FrtPacket) : List Byte :=
  frtBase p p.epoch.toNat p.ecn.toNat p.hops.toNat p.hopBase.toNat p.via.toNat ++ extBytes p.ext ++ p.payload ++ p.tag
    ++ be32 p.crc.toNat

/-- The UDP checksum over pseudo-header, UDP header and content, 0xFFFF in place of zero (R226, R330). -/
def udpChecksum (p : FrtPacket) (h : RoutedHdr) : Word16 :=
  let len := frtLen p + 8
  let addr := if h.v6 then beBytes 16 h.ipSrc.toNat ++ beBytes 16 h.ipDst.toNat
              else beBytes 4 h.ipSrc.toNat ++ beBytes 4 h.ipDst.toNat
  let s := ocSum (addr ++ beBytes 4 17 ++ beBytes 4 len ++ beBytes 2 h.sport.toNat ++ beBytes 2 h.dport.toNat
    ++ beBytes 2 len ++ frtBytes p)
  let x := 65535 - s
  if x == 0 then 0xFFFF else BitVec.ofNat 16 x

/-- Incremental update of a non-zero checksum when one 16-bit word changes (RFC 1624), 0xFFFF in place of zero. -/
def udpUpdate (h : Word16) (old new : Nat) : Word16 :=
  if h == 0 then 0
  else
    let x := 65535 - ocAdd (ocAdd (65535 - h.toNat) (65535 - old)) new
    if x == 0 then 0xFFFF else BitVec.ofNat 16 x

/-- The 16-bit words of the header that hold mutable fields: EPOCH and ECN, HOPS, HOP_BASE, VIA (R228, R233). -/
def mutableWords (p : FrtPacket) : List Nat :=
  [p.fmt.toNat * 2 ^ 12 + p.type.toNat * 2 ^ 8 + p.tc.toNat * 2 ^ 5 + p.epoch.toNat * 2 ^ 4 + p.ecn.toNat * 2 ^ 2,
   p.hops.toNat * 2 ^ 8 + p.srcQpn.toNat / 2 ^ 16, p.hopBase.toNat, p.via.toNat]

/-- The IPv4 header checksum (R226, R330): version 4, five words, DF set, identification zero, protocol 17. -/
def ipChecksum (p : FrtPacket) (h : RoutedHdr) : Word16 :=
  if h.v6 then 0
  else BitVec.ofNat 16 (65535 - ocSum (beBytes 2 (0x4500 + h.dscp.toNat * 4 + h.ipEcn.toNat) ++ beBytes 2 (28 + frtLen p) ++ beBytes 2 0
    ++ beBytes 2 0x4000 ++ beBytes 2 (h.ttl.toNat * 256 + 17) ++ beBytes 4 h.ipSrc.toNat ++ beBytes 4 h.ipDst.toNat))

/-- The MAC writes the IPv4 header checksum of a routed packet that it sends. -/
def ipSeal (p : FrtPacket) : FrtPacket :=
  match p.routed with
  | none => p
  | some h => { p with routed := some { h with ipCsum := ipChecksum p h } }

/-- The IPv4 header checksum of a packet fails, which every port checks on arrival (R330). -/
def ipFails (p : FrtPacket) : Bool :=
  match p.routed with
  | none => false
  | some h => !h.v6 && h.ipCsum != ipChecksum p h

/-- An address-table entry is VALID (R226). -/
def addrValid (b : List Byte) : Bool := natBit (leAt b 0 1) 4

/-- VID and NEXT_MAC of an address-table entry (R226). -/
def addrVid (b : List Byte) : BitVec 12 := BitVec.ofNat 12 (leAt b 2 2)
def addrNextMac (b : List Byte) : BitVec 48 := BitVec.ofNat 48 (leNat (sliceBytes b 0x14 6).reverse)

/-- A router rewrites the tag of a routed packet by its own address-table entry of the destination (R226): the entry's VID, where it is
VALID, and a PCP equal to the class. -/
def retag (entry : List Byte) (p : FrtPacket) : FrtPacket :=
  match p.routed with
  | none => p
  | some h => { p with routed := some { h with vid := if addrValid entry then addrVid entry else h.vid, pcp := p.tc } }

/-- A router has changed the mutable fields of a packet: a routed one's checksum follows and its hop limit falls by one
(R226). -/
def frtReroute (old new : FrtPacket) : FrtPacket :=
  match new.routed with
  | none => new
  | some h =>
    let sum := ((mutableWords old).zip (mutableWords new)).foldl (fun s w => udpUpdate s w.1 w.2) h.udpCsum
    { new with routed := some { h with udpCsum := sum, ttl := h.ttl - 1 } }

end Sys2Proof.Machine
end

