-- ==== Sys2Proof/Machine/Routing.lean ====
section
/-!
DEFINITION. Routing tables of a reach (R262 to R273) and the fabric manager's (R276): the link-state database, shortest
paths, banks and epochs, the election, and changes of epoch.
-/

namespace Sys2Proof.Machine

/-- Change the router of a reach. -/
def Chip.onRtr (c : Chip) (r : ReachId) (f : Router → Router) : Chip :=
  c.onReach r (fun x => { x with rtr := f x.rtr })

/-! ### Shortest paths over the link-state database (R266) -/

/-- The LSA of an origin. -/
def lsaOf (db : List Lsa) (n : Nat) : Option Lsa := db.find? (fun x => x.origin.toNat == n)

/-- One round of distances: every node that is not yet reached and has a link to a reached node is one hop further. -/
def distRound (db : List Lsa) (d : Tab Nat) : Tab Nat :=
  db.foldl (fun acc x =>
    if (Tab.find? d x.origin.toNat).isSome then acc
    else
      match x.links.filterMap (fun l => Tab.find? d l.2.toNat) with
      | [] => acc
      | k :: ks => Tab.set acc x.origin.toNat (ks.foldl min k + 1)) d

/-- Hops from every node that can reach `dst`: every hop costs 1. -/
def distances (db : List Lsa) (dst : Nat) : Tab Nat :=
  (List.range db.length).foldl (fun d _ => distRound db d) [(dst, 0)]

/-- Ports of a node with the cost of each toward a destination whose distances are `d`. -/
def portCosts (x : Lsa) (d : Tab Nat) : List (Nat × Nat × Nat) :=
  x.links.filterMap (fun l => (Tab.find? d l.2.toNat).map (fun k => (l.1.val, l.2.toNat, k + 1)))

/-- PRIMARY (R266): the tied port at position (destination mod n) in ascending order, with its peer and cost. -/
def primaryPort (x : Lsa) (d : Tab Nat) (dst : Nat) : Option (Nat × Nat × Nat) :=
  let costs := (portCosts x d).mergeSort (fun a b => decide (a.1 ≤ b.1))
  match costs.map (fun e => e.2.2) with
  | [] => none
  | k :: ks =>
    let best := ks.foldl min k
    let tied := costs.filter (fun e => e.2.2 == best)
    tied[dst % tied.length]?

/-- The primary path from a node avoids another node. -/
def pathAvoids (db : List Lsa) (d : Tab Nat) (dst avoid : Nat) : Nat → Nat → Bool
  | 0, n => n == dst
  | fuel + 1, n =>
    if n == dst then true
    else if n == avoid then false
    else match lsaOf db n with
      | none => false
      | some x =>
        match primaryPort x d dst with
        | none => false
        | some e => pathAvoids db d dst avoid fuel e.2.1

/-- BACKUP (R266): the lowest-cost port other than PRIMARY whose neighbour's shortest path does not return through this
node, ties to the lower port; 15 none. -/
def backupPort (db : List Lsa) (x : Lsa) (d : Tab Nat) (dst prim : Nat) : Nat :=
  let costs := (portCosts x d).mergeSort (fun a b => decide (a.1 ≤ b.1))
  let ok := costs.filter (fun e => e.1 != prim && pathAvoids db d dst x.origin.toNat db.length e.2.1)
  (ok.foldl (fun (acc : Nat × Nat) e => if e.2.2 < acc.2 then (e.1, e.2.2) else acc) (15, 2 ^ 32)).1

/-- A routing entry (R264). -/
def routeEntry (prim backup : Nat) (valOk : Bool) (dist : Nat) : Word32 :=
  BitVec.ofNat 32 (prim + backup * 2 ^ 4 + 2 ^ 8 + bitAt valOk 9 + (dist % 256) * 2 ^ 16)

/-- The table that a node builds from a database (R266). -/
def buildTable (db : List Lsa) (node : Nat) : Tab Word32 :=
  match lsaOf db node with
  | none => []
  | some me =>
    db.foldl (fun acc x =>
      let dst := x.origin.toNat
      if dst == node then acc
      else
        let d := distances db dst
        match primaryPort me d dst with
        | none => acc
        | some e => Tab.set acc dst (routeEntry e.1 (backupPort db me d dst e.1) (dst / 4 != node / 4) e.2.2)) []

/-- The Valiant list that a node fills for itself: the first 256 other nodes that its database shows reachable, ascending
(R268). -/
def ownValiant (t : Tab Word32) : List Word16 := (t.map (fun e => BitVec.ofNat 16 e.1)).take 256

/-! ### Banks and epochs (R271, R272) -/

/-- A bank by number. -/
def Router.bank (x : Router) (b : BitVec 1) : Bank := if b == 0 then x.bank0 else x.bank1

/-- Change a bank. -/
def Router.onBank (x : Router) (b : BitVec 1) (f : Bank → Bank) : Router :=
  if b == 0 then { x with bank0 := f x.bank0 } else { x with bank1 := f x.bank1 }

/-- RTR_EPOCH.DRAIN in µs, 10 to 1,000 (R283). -/
def Router.drain (x : Router) : Nat := clampNat 10 1000 x.drainUs.toNat

/-- The flip (R272): the STAGED inactive bank becomes ACTIVE and the ACTIVE one DRAINING, in one cycle. -/
def Router.flip (x : Router) (now : Time) : Router :=
  let i := x.active ^^^ 1
  if (x.bank i).state == .staged then
    let x := x.onBank x.active (fun b => { b with state := .draining })
    let x := x.onBank i (fun b => { b with state := .active })
    { x with active := i, drainEnd := some (now + nsTime (1000 * x.drain)), tFlip := none }
  else x

/-- A node builds its own tables into the inactive bank and flips its own epoch (R266); while that bank is still DRAINING
the rebuild waits until it is CLOSED. -/
def Router.rebuildOwn (x : Router) (node : Nat) (now : Time) : Router :=
  let i := x.active ^^^ 1
  if (x.bank i).state == .draining then { x with rebuild := true }
  else
    let t := buildTable x.lsdb node
    let num := (x.bank x.active).epochNum + 1
    let x := x.onBank i (fun _ => { entries := t, epochNum := num, state := .staged })
    ({ x with rebuild := false, valiant := ownValiant t }).flip now

/-- The first tables of a node, and those after a reach reset: bank 0, epoch 0, active (R266, R281). -/
def Router.buildFirst (x : Router) (node : Nat) : Router :=
  let t := buildTable x.lsdb node
  { x with bank0 := { entries := t, epochNum := 0, state := .active }, active := 0, valiant := ownValiant t,
           bank1 := { x.bank1 with state := .closed }, drainEnd := none, tFlip := none, rebuild := false }

/-! ### Election (R276) -/

/-- Nodes of a database that a node's part of the fabric reaches, itself among them. -/
def partOf (db : List Lsa) (node : Nat) : List Nat := (distances db node).map (fun e => e.1)

/-- Candidates of a part of the fabric that have not fallen silent, in order of PRIO and node identifier. -/
def candidates (db : List Lsa) (part : List Nat) (silent : List Word16) : List (Nat × Nat) :=
  ((db.filter (fun x => x.cand && part.contains x.origin.toNat && !silent.contains x.origin)).map (fun x => (x.prio.toNat, x.origin.toNat))).mergeSort
    (fun a b => decide (a.1 < b.1) || (a.1 == b.1 && decide (a.2 ≤ b.2)))

/-- The node at a place of the candidates' order; 0xFFFF none. -/
def Router.electAt (x : Router) (node : Word16) (i : Nat) : Word16 :=
  match (candidates x.lsdb (partOf x.lsdb node.toNat) x.silent)[i]? with
  | some e => BitVec.ofNat 16 e.2
  | none => 0xFFFF

/-- Every node elects from its database: the manager, the standby, and whether the node itself is manager. Each part of a split fabric
elects its own (R276). -/
def Router.elect (x : Router) (node : Word16) : Router :=
  let e := x.electAt node 0
  { x with elected := e, standby := x.electAt node 1, self := e == node && e != 0xFFFF }

/-- A manager has fallen silent: it is no candidate until it is heard again, and the next is elected. -/
def Router.lose (x : Router) (node gone : Word16) : Router :=
  ({ x with silent := if x.silent.contains gone || gone == 0xFFFF then x.silent else gone :: x.silent }).elect node

/-! ### Changes of epoch by the fabric manager (R272, R273) -/

/-- RTR_FM.FLIP_LEAD in µs, 50 to 10,000 (R286). -/
def Router.flipLead (x : Router) : Nat := clampNat 50 10000 (fld x.fm 48 16)

/-- Entries that one TABLE_WRITE frame carries beside a whole Valiant list: its payload is at most 1,024 bytes (R260). -/
def pieceEntries : Nat := 62

/-- The TABLE_WRITE frames of a table: pieces of its entries, the Valiant list with the first. -/
def tablePieces (num : BitVec 24) (t : Tab Word32) : List KeeperBody :=
  (List.range (max 1 ((t.length + pieceEntries - 1) / pieceEntries))).map (fun i =>
    .tableWrite num ((t.drop (pieceEntries * i)).take pieceEntries) (if i = 0 then ownValiant t else []))

/-- Number of the next epoch: its lowest bit names the inactive bank, and no change that was abandoned had it, so no piece of one can
be taken for another's (DESIGN CHOICE, assumption 95). -/
def Router.nextEpoch (x : Router) : BitVec 24 :=
  let n := (x.bank x.active).epochNum + 1
  let after := fun (m k : BitVec 24) => if decide (0 ≤ (k - m).toInt) && k.getLsbD 0 == m.getLsbD 0 then k + 2 else m
  let b := x.bank (x.active ^^^ 1)
  after (if b.state == .staged then after n b.epochNum else n) x.fmWork.epochNum

/-- The last FLIP's T_flip + DRAIN has not passed (R272 step 5). -/
def Router.flipStands (x : Router) (now : Time) : Bool :=
  x.fmWork.flip.any (fun t => !notBefore (t + nsTime (1000 * x.drain)) now)

/-- The manager starts a change of epoch: a table for every node of its database, by TABLE_WRITE. It waits while a change
is in hand or an old bank may still drain (R272 step 5). -/
def Chip.startEpoch (c : Chip) (r : ReachId) : Chip :=
  let x := (c.reach r).rtr
  if !x.self then c
  else if x.fmWork.busy || x.flipStands (c.now r) || (x.bank (x.active ^^^ 1)).state == .draining then
    c.onRtr r (fun x => { x with rebuild := true })
  else
    let num := x.nextEpoch
    let frames := x.lsdb.flatMap (fun l => (tablePieces num (buildTable x.lsdb l.origin.toNat)).map (fun b => (l.origin, b)))
    let c := c.onRtr r (fun x => { x with rebuild := false, fmWork := { x.fmWork with
      written := frames.map (fun f => f.1), acked := [], epochNum := num, since := c.now r, busy := true, flip := none, flipWait := [] } })
    forEach frames c (fun c f => c.sendKeeper r f.1 f.2)

/-- A change of epoch is over: one that waited for it starts. -/
def Chip.epochOver (c : Chip) (r : ReachId) : Chip := if (c.reach r).rtr.rebuild then c.startEpoch r else c

/-! ### The database (R262) -/

/-- The peer that survey has found on a port is another holder of its identifier than the one whose LSA stands, with a higher EUI-64: no
table leads to it (R263). -/
def Reach.peerLeftOut (x : Reach) (p : PortId) (n : Word16) : Bool :=
  match lsaOf x.rtr.lsdb n.toNat with
  | some l => decide (l.eui.toNat < (x.port p).peerEui.toNat)
  | none => false

/-- The LSA that a node floods: its USABLE ports and the peer on each. -/
def Chip.ownLsa (c : Chip) (r : ReachId) : Lsa :=
  let x := c.reach r
  { origin := c.nodeId r, seq := x.rtr.lsaSeq, eui := c.sec.eui, cand := flag x.rtr.fm 0,
    prio := BitVec.ofNat 8 (fld x.rtr.fm 8 8),
    links := x.usablePorts.filterMap (fun p => (x.port p).peer.bind (fun n => if x.peerLeftOut p n then none else some (p, n))) }

/-- Put the newest LSA of an origin into a database. -/
def putLsa (db : List Lsa) (l : Lsa) : List Lsa :=
  if db.any (fun x => x.origin == l.origin) then db.map (fun x => if x.origin == l.origin then l else x) else db ++ [l]

/-- Two LSAs say the same of the fabric. -/
def sameLsa (a b : Lsa) : Bool := a.links == b.links && a.cand == b.cand && a.prio == b.prio && a.eui == b.eui

/-- Send an LSA on every USABLE port but one (assumption 24: flooding is link-local, each node passes on what is new). -/
def Chip.passLsa (c : Chip) (r : ReachId) (l : Lsa) (except : Option PortId) : Chip :=
  forEach ((c.reach r).usablePorts.filter (fun p => some p != except)) c (fun c p => c.sendLocal r p (.lsa l))

/-- The database of a node has changed: elect, and build tables: the manager for all, and a node that hears no manager for
itself (R266, R276). -/
def Chip.dbChanged (c : Chip) (r : ReachId) : Chip :=
  let node := c.nodeId r
  let c := c.onRtr r (fun x => x.elect node)
  let x := (c.reach r).rtr
  let c := if x.fmHeard then c else c.onRtr r (fun x => x.rebuildOwn node.toNat (c.now r))
  if x.self then c.startEpoch r else c

/-- A node floods its LSA, on a change and every 1 s (R262). -/
def Chip.floodOwn (c : Chip) (r : ReachId) : Chip :=
  let c := c.onRtr r (fun x => { x with lsaSeq := x.lsaSeq + 1 })
  let l := c.ownLsa r
  let changed := match lsaOf (c.reach r).rtr.lsdb l.origin.toNat with
    | some o => !sameLsa o l
    | none => true
  let c := c.onRtr r (fun x => { x with lsdb := putLsa x.lsdb l })
  let c := c.passLsa r l none
  if changed then c.dbChanged r else c

end Sys2Proof.Machine
end

