-- ==== Sys2Proof/Machine/Fabric.lean ====
section
/-!
DEFINITION. What the router and the survey of a reach do (chapter 09): forwarding a frame, ports and their states, the
link-state database, epochs, the fabric manager, congestion maps and link faults.
-/

namespace Sys2Proof.Machine

/-! ### Rates and ingress queues -/

/-- Gb/s of a rate code of MAC_PORT (R321). -/
def rateGbps (code : BitVec 2) : Nat :=
  match code with
  | 0 => 800 | 1 => 400 | 2 => 200 | 3 => 100

/-- Gb/s of a port 0 to 6: the trained rate of an external port, 1,600 of a cross-reach link (R319, R322). -/
def Reach.gbps (x : Reach) (p : PortId) : Nat := if p.val < 4 then rateGbps (x.mac p).curRate else 1600

/-- Gb/s of an ingress: port 7 counts as 3,200 and port 8 as 100 (R327, R329). -/
def Reach.ingressGbps (x : Reach) (i : Nat) : Nat :=
  if h : i < 7 then x.gbps ⟨i, h⟩ else if i == 7 then 3200 else 100

/-- Bytes that an ingress port's frames hold in one ingress queue (R331). -/
def Mac.ingressBytes (m : Mac) (q : Nat) : Nat := Tab.getD m.ingress q 0

/-- MAC_PAUSE fields (R337). -/
def Mac.xoff (m : Mac) : Nat := clampNat 64 1920 (fld m.pauseReg 32 11)
def Mac.xon (m : Mac) : Nat := let v := fld m.pauseReg 43 11; if v < m.xoff then v else m.xoff - 64
def Mac.wdNs (m : Mac) : Nat := max 1000 (fld m.pauseReg 0 16)
def Mac.wdHoldMs (m : Mac) : Nat := max 1 (fld m.pauseReg 16 8)

/-- A frame of an ingress queue leaves the router: its room is free, and a queue that falls below XON releases its class
(R331, R337). -/
def Chip.freeIngress (c : Chip) (r : ReachId) (ingress q len : Nat) : Chip :=
  if h : ingress < 7 then
    let p : PortId := ⟨ingress, h⟩
    let m := (c.reach r).mac p
    let left := m.ingressBytes q - len
    let release := (Tab.find? m.pfcSent q).isSome && decide (left < 1024 * m.xon)
    let c := c.onReach r (fun x => x.onMac p (fun m =>
      { m with ingress := Tab.set m.ingress q left, pfcSent := if release then Tab.erase m.pfcSent q else m.pfcSent }))
    if release then c.emit (.pfc r p (BitVec.ofNat 8 (2 ^ q)) 0) else c
  else c

/-! ### Choosing the egress (R265, R268, R270) -/

/-- What routing reads of a frame. -/
structure RouteKey where
  isFrt : Bool
  dst : Nat
  src : Nat
  tc : Nat
  win : Nat
  pkey : Nat
  epoch : Nat
  via : Nat
  srcQpn : Nat
  psn : Nat
  deriving DecidableEq, Repr

/-- Where a frame goes. -/
inductive RouteTo where
  | port (p : PortId) (primary : Nat) (backup : Bool)
  | rme | keepers
  | noRoute | policed | down
  deriving DecidableEq, Repr

/-- A routing decision with what it changes in the frame. -/
structure RouteOut where
  dest : RouteTo
  epoch : Nat
  via : Nat
  late : Bool
  deriving DecidableEq, Repr

/-- The mix function of R187. -/
def mix64 (x : Word64) : Word64 :=
  let x := (x ^^^ (x >>> 30)) * 0xBF58476D1CE4E5B9
  let x := (x ^^^ (x >>> 27)) * 0x94D049BB133111EB
  x ^^^ (x >>> 31)

/-- The intermediate node of a Valiant-routed frame (R268). -/
def Router.pick (x : Router) (k : RouteKey) : Nat :=
  let n := x.valiant.length
  let seed := BitVec.ofNat 64 (fld x.valiantReg 32 32)
  let h := (mix64 (seed ^^^ BitVec.ofNat 64 (k.src * 2 ^ 48) ^^^ BitVec.ofNat 64 (k.srcQpn * 2 ^ 24)
    ^^^ BitVec.ofNat 64 k.psn)).toNat
  let at_ (i : Nat) : Nat := match x.valiant[i % n]? with | some v => v.toNat | none => 0xFFFF
  let v := at_ h
  let v := if v == k.src || v == k.dst then at_ ((h + 1) % 2 ^ 64) else v
  if v == k.src || v == k.dst then 0xFFFF else v

/-- An entry of a bank. -/
def Router.entry (x : Router) (b : BitVec 1) (dst : Nat) : Word32 := Tab.getD (x.bank b).entries dst 0

/-- A port 0 to 6 is USABLE. -/
def Reach.usable (x : Reach) (p : Nat) : Bool := if h : p < 7 then (x.port ⟨p, h⟩).state == .usable else false

/-- The planned route of a (WIN, DST_NODE) pair among the plans loaded on the node (R270). -/
def Reach.plannedRoute (x : Reach) (r : ReachId) (win dst : Nat) : Option RouteEntry :=
  (x.plan.plans.flatMap (fun p => p.con.routes)).find? (fun e => e.reach == r.val && e.win == win && e.dst == dst)

/-- The window of a partition key on an egress port among the plans loaded on the node (R250). -/
def Reach.windowOf (x : Reach) (r : ReachId) (port win pkey : Nat) : Option WindowEntry :=
  ((x.plan.plans.filter (fun p => p.con.hdr.pkey.toNat == pkey)).flatMap (fun p => p.con.windows)).find?
    (fun w => w.reach == r.val && w.rport == port && w.win == win)

/-- Bytes that wait in one egress queue. -/
def Mac.queueBytes (m : Mac) (tc sub : Nat) : Nat :=
  match m.queues.find? (fun q => q.tc == tc && q.sub == sub) with
  | some q => q.frames.foldl (fun n f => n + f.len) 0
  | none => 0

/-- Bytes that wait in all queues of a class. -/
def Mac.classBytes (m : Mac) (tc : Nat) : Nat :=
  (m.queues.filter (fun q => q.tc == tc)).foldl (fun n q => q.frames.foldl (fun n f => n + f.len) n) 0

/-- The route of a frame that arrived on `ingress` (R265, R270, R250). A planned route that leads back to the port on which the frame
arrived is none (R265). -/
def Chip.route (c : Chip) (r : ReachId) (k : RouteKey) (ingress : Nat) : RouteOut :=
  let x := c.reach r
  let self := (c.nodeId r).toNat
  let same (t : RouteTo) : RouteOut := { dest := t, epoch := k.epoch, via := k.via, late := false }
  if k.dst == self then same (if k.isFrt then .rme else .keepers)
  else if k.isFrt && k.tc == 6 then
    match x.plannedRoute r k.win k.dst with
    | none => same .policed
    | some e =>
      if h : e.outPort < 7 then
        match x.windowOf r e.outPort k.win k.pkey with
        | none => same .policed
        | some w =>
          let cap := timeNs w.length * x.gbps ⟨e.outPort, h⟩ / 8
          if e.outPort == ingress || decide (2 * cap ≤ (x.mac ⟨e.outPort, h⟩).queueBytes 6 k.win) then same .policed
          else if !x.usable e.outPort then same .down
          else same (.port ⟨e.outPort, h⟩ e.outPort false)
      else same .rme
  else
    let rt := x.rtr
    let first := ingress == 7 || ingress == 8
    let active := rt.active
    let epoch := if first then active.toNat else k.epoch
    let valiant := first && k.isFrt && decide (k.tc < 6) && (fld rt.valiantReg 0 6).testBit k.tc
      && (rt.entry active k.dst).getLsbD 9 && !rt.valiant.isEmpty
    let via := if valiant then rt.pick k else k.via
    let via := if via == self then 0xFFFF else via
    let target := if via != 0xFFFF then via else k.dst
    let bank : BitVec 1 := BitVec.ofNat 1 epoch
    let st := (rt.bank bank).state
    let late := st == .closed || st == .staged
    let bank := if late then active else bank
    let e := rt.entry bank target
    let out (t : RouteTo) : RouteOut := { dest := t, epoch := bank.toNat, via := via, late := late }
    if !e.getLsbD 8 then out .noRoute
    else
      let prim := natBits e.toNat 0 4
      let back := natBits e.toNat 4 4
      if x.usable prim && prim != ingress then
        if h : prim < 7 then out (.port ⟨prim, h⟩ prim false) else out .noRoute
      else if back != 15 && x.usable back && back != ingress then
        if h : back < 7 then out (.port ⟨back, h⟩ prim true) else out .noRoute
      else out .noRoute

/-! ### Forwarding one frame -/

/-- What routing reads of a frame body; none of a body that is never forwarded. -/
def routeKey : FrameBody → Option RouteKey
  | .frt p => some { isFrt := true, dst := p.dst.toNat, src := p.src.toNat, tc := p.tc.toNat, win := p.win.toNat,
                     pkey := p.pkey.toNat, epoch := p.epoch.toNat, via := p.via.toNat, srcQpn := p.srcQpn.toNat,
                     psn := p.psn.toNat }
  | .keeper k => some { isFrt := false, dst := k.dst.toNat, src := k.src.toNat, tc := 7, win := 0xFFFF,
                        pkey := k.pkey.toNat, epoch := k.epoch.toNat, via := 0xFFFF, srcQpn := 0, psn := 0 }
  | _ => none

/-- Change the counts of one router port, 0 to 8 (R275, R277). -/
def Chip.portDrop (c : Chip) (r : ReachId) (i : Nat) (f : RtrPort → RtrPort) : Chip :=
  c.onRtr r (fun x => { x with ports := Tab.set x.ports i (f (Tab.getD x.ports i RtrPort.reset)) })

/-- A frame is dropped at a router's egress, whatever the cause (R277). -/
def RtrPort.addDrop (q : RtrPort) : RtrPort := { q with drops := q.drops + 1 }

/-- A frame goes out through port 7 or 8 (R277). -/
def Chip.innerSent (c : Chip) (r : ReachId) (i len : Nat) (tc6 : Bool) : Chip :=
  c.portDrop r i (fun q => if tc6 then { q with txTc6 := q.txTc6 + BitVec.ofNat 64 len } else { q with txUnpl := q.txUnpl + BitVec.ofNat 64 len })

/-- An entry of the partition table admits a frame at ingress (R275). -/
def partAdmits (e : Word64) (isFrt : Bool) (key ingress : Nat) : Bool :=
  flag e 34 && fld e 0 16 == key && flag e (16 + ingress) && !(isFrt && flag e 35)

/-- Ingress check of R275. -/
def Router.partIn (x : Router) (isFrt : Bool) (key ingress : Nat) : Bool := x.parts.any (fun e => partAdmits e.2 isFrt key ingress)

/-- Egress check of R275: the index of an entry that admitted the packet at ingress and has the egress port in OUT_MASK. -/
def Router.partOut (x : Router) (isFrt : Bool) (key ingress egress : Nat) : Option Nat :=
  (List.find? (fun e => partAdmits e.2 isFrt key ingress && flag e.2 (25 + egress)) x.parts).map (fun e => e.1)

/-- HOP_BASE that a router adds (R238, R329): the fixed figure of the ports in FCLK cycles and the ingress wait of the bytes
it holds, rounded up; then the egress link's latency. -/
def Chip.hopAdd (c : Chip) (r : ReachId) (ingress : Nat) (egress : Option PortId) (len : Nat) (whole : Bool) : Nat :=
  let x := c.reach r
  let cycles := if ingress == 7 then (if egress.isSome then 20 else 46) else (if egress.isSome then 46 else 26)
  let gin := x.ingressGbps ingress
  let held := match egress with
    | some p =>
      let lvl := (x.mac p).level
      if whole || decide (9 ≤ lvl) || decide (gin < x.gbps p) then len else min len (1024 * lvl)
    | none => if gin < 3200 then len else min len 1024
  let router := (cycles * 5 * gin + 72 * held + (9 * gin - 1)) / (9 * gin)
  let link := match egress with
    | some p => x.linkLatency p
    | none => 0
  router + link

/-- Tenancy queue of a TC0 to TC5 frame of a partition entry: SHP_PKMAP, at most 64 (R339). -/
def Reach.tenancyQueue (x : Reach) (i : Nat) : Nat := min 64 (Tab.getD x.pkmap i 64)

/-- Put a routed frame into its egress queue (R338). -/
def Chip.toEgress (c : Chip) (r : ReachId) (p : PortId) (f : RtrFrame) (b : FrameBody) (tc win part : Nat) : Chip :=
  let x := c.reach r
  let ten := x.tenancyQueue part
  let sub := if tc == 6 then win else if tc == 7 then 0 else ten
  let vid := match b with
    | .frt q => q.routed.map (fun h => h.vid)
    | _ => none
  c.onReach r (fun x => x.onMac p (fun m =>
    m.enqueue tc sub { body := b, len := f.len, ingress := f.ingress, tenancy := ten, inQueue := f.queue, vid := vid }))

/-- The header changes of one router (R226, R233, R238, R247): epoch, VIA, HOPS, HOP_BASE and the ECN mark. -/
def forwardFrt (q : FrtPacket) (o : RouteOut) (hops hopAdd : Nat) (mark : Bool) : FrtPacket :=
  frtReroute q { q with epoch := decide (o.epoch = 1), via := BitVec.ofNat 16 o.via, hops := BitVec.ofNat 8 hops,
                        hopBase := BitVec.ofNat 16 (min 0xFFFF (q.hopBase.toNat + hopAdd)),
                        ecn := if mark && q.ecn == 2 then 3 else q.ecn }

/-- A frame that leaves the router without going on: its room is free. -/
def Chip.dropFrame (c : Chip) (r : ReachId) (f : RtrFrame) : Chip := c.freeIngress r f.ingress f.queue f.len

/-- Hand a frame to a port 0 to 6: the egress check, HOPS, the mark and the queue (R265, R275, R278). -/
def Chip.egress (c : Chip) (r : ReachId) (f : RtrFrame) (k : RouteKey) (o : RouteOut) (p : PortId) (prim : Nat)
    (backup : Bool) : Chip :=
  let x := c.reach r
  match x.rtr.partOut k.isFrt k.pkey f.ingress p.val with
  | none => (c.dropFrame r f).portDrop r p.val (fun q => { q with dropOut := q.dropOut + 1, drops := q.drops + 1 })
  | some part =>
    let hops := match f.body with
      | .frt q => q.hops.toNat
      | .keeper q => q.hops.toNat
      | _ => 32
    if hops ≤ 1 then ((c.dropFrame r f).portDrop r p.val RtrPort.addDrop).onRtr r (fun y => { y with hopsOut := sat48 (y.hopsOut + 1) })
    else
      let c := if backup then
          let c := c.tdc r 3 (c.keyOwner r k.pkey) (65 + p.val) (BitVec.ofNat 32 k.dst)
            (BitVec.ofNat 64 (prim + p.val * 2 ^ 4))
          (c.portDrop r p.val (fun q => { q with backup := q.backup + 1 })).onReach r (fun y => y.gaugeAdd 7 0 7 1)
        else c
      let ovr := decide (1024 * clampNat 16 4096 (fld x.rtr.ecn 0 16) < (x.mac p).classBytes k.tc)
      match f.body with
      | .frt q =>
        let mark := ovr && k.tc < 6 && q.ecn == 2
        let c := if mark then c.portDrop r p.val (fun q => { q with marks := q.marks + 1 }) else c
        let whole := match q.routed with | some h => f.ingress == 7 && h.udpCsum != 0 | none => false
        let q' := ipSeal (retag (Tab.getD x.addr q.dst.toNat []) (forwardFrt q o (hops - 1) (c.hopAdd r f.ingress (some p) f.len whole) mark))
        c.toEgress r p f (.frt q') k.tc k.win part
      | .keeper q =>
        c.toEgress r p f (.keeper { q with epoch := decide (o.epoch = 1), hops := q.hops - 1 }) 7 0xFFFF part
      | b => c.toEgress r p f b 7 0xFFFF part

/-- The keepers act on a keeper frame: its CRC trailer passes, and its KIND is none of the reserved ones (R260). -/
def keeperTaken (k : KeeperFrame) : Bool := k.crcOk && (match k.body with | .other _ => false | _ => true)

/-- Hand a frame to the keepers through port 8: the egress check, and of a keeper frame its trailer and its KIND (R260, R275). -/
def Chip.toKeepers (c : Chip) (r : ReachId) (f : RtrFrame) (pkey : Nat) : Chip :=
  let ok := fun (c : Chip) => (c.innerSent r 8 f.len false).onRtr r (fun y => { y with keeperIn := y.keeperIn ++ [f] })
  match f.body with
  | .keeper k =>
    if ((c.reach r).rtr.partOut false pkey f.ingress 8).isNone then
      c.portDrop r 8 (fun q => { q with dropOut := q.dropOut + 1, drops := q.drops + 1 })
    else if keeperTaken k then ok c
    else c.onRtr r (fun y => { y with unsupported := sat48 (y.unsupported + 1) })
  | _ => ok c

/-- Route one frame that has passed the ingress checks. -/
def Chip.forwardRouted (c : Chip) (r : ReachId) (f : RtrFrame) (k : RouteKey) : Chip :=
  let o := c.route r k f.ingress
  let c := if o.late then c.onRtr r (fun y => { y with epochLate := sat48 (y.epochLate + 1) }) else c
  match o.dest with
  | .noRoute => (c.dropFrame r f).onRtr r (fun y => { y with noRoute := sat48 (y.noRoute + 1) })
  | .policed => (c.dropFrame r f).onRtr r (fun y => { y with tc6Policed := sat48 (y.tc6Policed + 1) })
  | .down =>
    let c := c.dropFrame r f
    match (c.reach r).plannedRoute r k.win k.dst with
    | some e => c.portDrop r e.outPort (fun q => { q with dropHeld := q.dropHeld + 1, drops := q.drops + 1 })
    | none => c
  | .rme =>
    let c := c.dropFrame r f
    match f.body, (c.reach r).rtr.partOut true k.pkey f.ingress 7 with
    | .frt q, some _ =>
      let c := c.innerSent r 7 f.len (k.tc == 6)
      let q' := { q with hopBase := BitVec.ofNat 16 (min 0xFFFF (q.hopBase.toNat + c.hopAdd r f.ingress none f.len false)) }
      c.onReach r (fun y => { y with rme := { y.rme with inbox := y.rme.inbox ++ [frtReroute q { q' with
        epoch := decide (o.epoch = 1) }] } })
    | _, _ => c.portDrop r 7 (fun q => { q with dropOut := q.dropOut + 1, drops := q.drops + 1 })
  | .keepers => (c.dropFrame r f).toKeepers r f k.pkey
  | .port p prim backup => c.egress r f k o p prim backup

/-- Only a USABLE port passes more than link-local keeper frames and PTP frames (R261). -/
def Reach.portAdmits (x : Reach) (f : RtrFrame) : Bool :=
  if h : f.ingress < 7 then
    (x.port ⟨f.ingress, h⟩).state == .usable || (match f.body with
      | .ptp .. => true
      | .keeper k => k.dst == 0xFFFF
      | _ => false)
  else true

/-- A frame whose format version the module does not support: no other field of it is acted on (R15). Nor does it support IP options,
extension headers or fragments (R226). -/
def bodyUnsupported : FrameBody → Bool
  | .frt q => q.fmt != 1 || q.routed.any (fun h => h.extras)
  | .keeper k => k.fmt != 1
  | _ => false

/-- One frame at the router (R15, R260, R261, R265, R275). -/
def Chip.forward (c : Chip) (r : ReachId) (f : RtrFrame) : Chip :=
  let dropIn := fun (c : Chip) => (c.dropFrame r f).portDrop r f.ingress (fun q => { q with dropIn := q.dropIn + 1 })
  if bodyUnsupported f.body then (c.dropFrame r f).onRtr r (fun y => { y with unsupported := sat48 (y.unsupported + 1) })
  else if !(c.reach r).portAdmits f then
    (c.dropFrame r f).portDrop r f.ingress (fun q => { q with dropHeld := q.dropHeld + 1 })
  else match f.body with
    | .other .. => (c.dropFrame r f).onRtr r (fun y => { y with unknownType := sat48 (y.unknownType + 1) })
    | .ptp .. => (c.dropFrame r f).toKeepers r f 0
    | .keeper k =>
      if !(c.reach r).rtr.partIn false k.pkey.toNat f.ingress then dropIn c
      else if k.dst == 0xFFFF then (c.dropFrame r f).toKeepers r f k.pkey.toNat
      else match routeKey f.body with
        | some key => c.forwardRouted r f key
        | none => c
    | .frt q =>
      if !(c.reach r).rtr.partIn true q.pkey.toNat f.ingress then dropIn c
      else match routeKey f.body with
        | some key => c.forwardRouted r f key
        | none => c

/-- The tag of R182 at an egress queue: the FRT transmit time, else the arrival at the ingress port. -/
def RtrFrame.tag (f : RtrFrame) : Time :=
  match f.body with
  | .frt q => q.txTime
  | _ => f.arrived

/-- The egress port and class that a frame claims, if any. -/
def Chip.claim (c : Chip) (r : ReachId) (f : RtrFrame) : Option (PortId × Nat) :=
  match routeKey f.body with
  | some k =>
    match (c.route r k f.ingress).dest with
    | .port p _ _ => some (p, k.tc)
    | _ => none
  | none => none

/-- Of two frames that claim one egress queue in one cycle the older tag wins, and the lower router port between equal tags
(R182). -/
def beats (a b : RtrFrame) : Bool :=
  later a.tag b.tag || (a.tag == b.tag && decide (a.ingress < b.ingress))

/-- FRAME_FORWARD: of the frames that arrived in one cycle and claim one egress queue with the oldest frame of the router,
the winner of R182 goes on; equal tags count one ARB_TIE. -/
def frameForward (r : ReachId) (now : Time) (c : Chip) : Chip :=
  let c := c.at r now
  match (c.reach r).rtr.inbox with
  | [] => c
  | f :: fs =>
    let cl := c.claim r f
    let rivals := fs.filter (fun g => g.arrived == f.arrived && g.ingress != f.ingress && cl.isSome && c.claim r g == cl)
    let w := rivals.foldl (fun a b => if beats b a then b else a) f
    let tied := (f :: rivals).filter (fun g => g.tag == w.tag && g.ingress != w.ingress)
    let c := match tied, cl with
      | g :: _, some (p, _) =>
        c.tdc r 1 (match routeKey w.body with | some k => c.keyOwner r k.pkey | none => none) (65 + p.val)
          (BitVec.ofNat 32 (1 + p.val * 2 ^ 8)) (BitVec.ofNat 64 (w.ingress + g.ingress * 2 ^ 32))
      | _, _ => c
    let c := c.onRtr r (fun y => { y with inbox := (f :: fs).erase w })
    c.forward r w

/-! ### Survey (R261 to R263) -/

/-- A keeper frame that a command carries has come out of the router: it is no longer held there. -/
def Chip.takeKeeper (c : Chip) (r : ReachId) (p : RtrFrame → Bool) : Chip :=
  c.onRtr r (fun y => { y with keeperIn := y.keeperIn.eraseP p })

/-- A held frame is a keeper frame of a kind. -/
def isKeeper (b : KeeperBody) (f : RtrFrame) : Bool :=
  match f.body with
  | .keeper k => k.body == b
  | _ => false

/-- SURVEY_TX_TIMER: a SURVEY on every port that is not DOWN (R261). -/
def surveyTxTimer (r : ReachId) (now : Time) (c : Chip) : Chip :=
  let c := c.at r now
  let x := c.reach r
  let usable := x.usablePorts.foldl (fun n p => n + 2 ^ p.val) 0
  if x.service != .inService then c
  else forEach (allPorts.filter (fun p => (x.port p).state != .down)) c (fun c p =>
    c.sendLocal r p (.survey
      { eui := c.sec.eui, node := c.nodeId r, rport := BitVec.ofNat 4 p.val, rateGbps := x.gbps p, cand := flag x.rtr.fm 0,
        prio := BitVec.ofNat 8 (fld x.rtr.fm 8 8), usable := BitVec.ofNat 7 usable,
        heard := ((x.port p).peer).getD 0xFFFF, mac := portAddress r p }))

/-- Another holder of this node's identifier has been found: the one with the higher EUI-64 keeps its external ports in HELD
and raises an alert (R263). -/
def Chip.duplicate (c : Chip) (r : ReachId) (eui : Word64) : Chip :=
  if eui != c.sec.eui && decide (eui.toNat < c.sec.eui.toNat) && !(c.reach r).rtr.dupNode then
    let c := c.onRtr r (fun y => { y with dupNode := true })
    let c := c.onReach r (fun x => forEach ([0, 1, 2, 3] : List PortId) x (fun x p =>
      x.onPort p (fun q => if q.state == .usable then { q with state := .held } else q)))
    (c.health r 0 7 0x09 0 0 0 0).floodOwn r
  else c

/-- One millisecond. -/
def msTime : Time := nsTime 1000000

/-- SURVEY_RX: the peer is learned; three in a row that name this node move TRAINING to HELD, and a SURVEY missed in HELD
starts its 100 ms again (R261). -/
def surveyRx (r : ReachId) (now : Time) (p : PortId) (s : Survey) (c : Chip) : Chip :=
  let c := c.at r now
  let c := c.takeKeeper r (fun f => isKeeper (.survey s) f && f.ingress == p.val)
  let node := c.nodeId r
  if (c.reach r).service != .inService then c
  else
    let c := if s.node == node then c.duplicate r s.eui else c
    let old := (c.reach r).port p
    -- A cross-reach link leads to the reach that R21 gives its number.
    let from_ := match crossPeer r p with | some q => c.nodeId q | none => s.node
    let run := if s.heard == node then old.heardRun + 1 else 0
    let missed := decide (nsUnits 2000000 ≤ timeDiff old.lastSurvey (c.now r))
    let c := c.onReach r (fun x => x.onPort p (fun q =>
      let q := { q with peer := some from_, peerEui := s.eui, peerPort := s.rport, peerMac := s.mac, heardRun := run, lastSurvey := x.time.now }
      match q.state with
      | .training => if 3 ≤ run then { q with state := .held, heldSince := x.time.now } else q
      | .held => if missed then { q with heldSince := x.time.now } else q
      | _ => q))
    if old.state == .usable && old.peer != some from_ then c.floodOwn r else c

/-- PORT_USABLE_TIMER: 100 ms in HELD with no SURVEY missed make the port USABLE (R261); the external ports of a module
whose straps fail parity, and of a node with a duplicate identifier, stay HELD (R263, R519). -/
def portUsableTimer (r : ReachId) (now : Time) (p : PortId) (c : Chip) : Chip :=
  let c := c.at r now
  let x := c.reach r
  let q := x.port p
  let barred := decide (p.val < 4) && (!c.gate.parity || x.rtr.dupNode)
  if q.state == .held && !barred && decide (nsUnits 100000000 ≤ timeDiff q.heldSince x.time.now)
      && decide (timeDiff q.lastSurvey x.time.now < nsUnits 2000000) then
    (c.onReach r (fun x => x.onPort p (fun q => { q with state := .usable }))).floodOwn r
  else c

/-- A node tells the manager that a port has left USABLE (LINK_NOTICE), and floods its LSA (R262, R279). -/
def Chip.noticeLoss (c : Chip) (r : ReachId) (p : PortId) : Chip :=
  let c := c.floodOwn r
  let fm := (c.reach r).rtr.elected
  if fm != 0xFFFF then c.sendKeeper r fm (.linkNotice (c.nodeId r) p) else c

/-- A port goes DOWN: what survey knew of its peer is gone. -/
def Chip.portDown (c : Chip) (r : ReachId) (p : PortId) : Chip :=
  c.onReach r (fun x => x.onPort p (fun q => { q with state := .down, peer := none, peerEui := 0, peerPort := 0, peerMac := 0,
                                                      heardRun := 0 }))

/-- Plans with a planned route or a window on a port enter a detour stoppage that names the lost node (R32, R280). -/
def Chip.detour (c : Chip) (r : ReachId) (p : PortId) (lost : Nat) : Chip :=
  c.stopPlans r (fun q => q.con.routes.any (fun e => e.reach == r.val && e.outPort == p.val)
    || q.con.windows.any (fun w => w.reach == r.val && w.rport == p.val)) .detour { StopInfo.none with node := lost } true

/-- SURVEY_LOSS: three SURVEY intervals without a frame take a USABLE port DOWN (R261). -/
def surveyLoss (r : ReachId) (now : Time) (p : PortId) (c : Chip) : Chip :=
  let c := c.at r now
  let q := (c.reach r).port p
  if q.state == .usable && decide (nsUnits 3000000 ≤ timeDiff q.lastSurvey (c.now r)) then
    let lost := (q.peer.getD 0xFFFF).toNat
    ((c.portDown r p).noticeLoss r p).detour r p lost
  else c

/-- LSA `a` is newer than `b` (R262); sequence numbers compare as R40 compares times. -/
def newerLsa (a b : Lsa) : Bool := decide (0 < (a.seq - b.seq).toInt)

/-- LSA_RX: the newest of an origin is kept and passed on; a node without a fabric manager builds its inactive bank from
what changed (R262, R266). Of two holders of one identifier the one with the lower EUI-64 stands (R263). -/
def lsaRx (r : ReachId) (now : Time) (p : PortId) (l : Lsa) (c : Chip) : Chip :=
  let c := c.at r now
  let c := c.takeKeeper r (isKeeper (.lsa l))
  if (c.reach r).service != .inService then c
  else if l.origin == c.nodeId r then
    if l.eui == c.sec.eui then c else c.duplicate r l.eui
  else
    let old := lsaOf (c.reach r).rtr.lsdb l.origin.toNat
    let newer := match old with | some o => if o.eui == l.eui then newerLsa l o else decide (l.eui.toNat < o.eui.toNat) | none => true
    if !newer then c
    else
      let changed := match old with | some o => !sameLsa l o | none => true
      let c := c.onRtr r (fun y => { y with lsdb := putLsa y.lsdb l })
      let c := c.passLsa r l (some p)
      let c := if changed then c.dbChanged r else c
      if old.any (fun o => o.eui != l.eui) && !sameLsa (c.ownLsa r) ((lsaOf (c.reach r).rtr.lsdb (c.nodeId r).toNat).getD (c.ownLsa r)) then
        c.floodOwn r
      else c

/-- LSA_FLOOD_TIMER: every 1 s each node floods its LSA (R262). -/
def lsaFloodTimer (r : ReachId) (now : Time) (c : Chip) : Chip :=
  let c := c.at r now
  if c.inService r then c.floodOwn r else c

/-! ### Epochs (R272, R273) -/

/-- A piece of a table goes into the bank of its epoch number: the first of a number clears the bank and the Valiant list. -/
def Router.stage (x : Router) (num : BitVec 24) (entries : List (Nat × Word32)) (valiant : List Word16) : Router :=
  let old := x.bank (num.setWidth 1)
  let more := old.state == .staged && old.epochNum == num
  let t := entries.foldl (fun acc e => Tab.set acc (e.1 % 4096) e.2) (if more then old.entries else [])
  { x.onBank (num.setWidth 1) (fun _ => { entries := t, epochNum := num, state := .staged }) with
    valiant := ((if more then x.valiant else []) ++ valiant).take 256 }

/-- TABLE_WRITE_RX: the bank whose number is the epoch's lowest bit is written and STAGED, unless it is ACTIVE or DRAINING:
then the write is refused, and TABLE_ACK says so (R271, R272, R283). -/
def tableWriteRx (r : ReachId) (now : Time) (src : Word16) (num : BitVec 24) (entries : List (Nat × Word32))
    (valiant : List Word16) (c : Chip) : Chip :=
  let c := c.at r now
  let c := c.takeKeeper r (isKeeper (.tableWrite num entries valiant))
  let b : BitVec 1 := num.setWidth 1
  let st := ((c.reach r).rtr.bank b).state
  if !c.inService r then c
  else if st == .active || st == .draining then c.sendKeeper r src (.tableAck num true)
  else
    let c := c.onRtr r (fun y => y.stage num entries valiant)
    c.sendKeeper r src (.tableAck num false)

/-- TABLE_ACK_RX: the manager holds the acknowledgement; once all are held it sends FLIP with T_flip = its time plus
FLIP_LEAD (R272). A refusal ends the change (R273). -/
def tableAckRx (r : ReachId) (now : Time) (src : Word16) (num : BitVec 24) (refused : Bool) (c : Chip) : Chip :=
  let c := c.at r now
  let c := c.takeKeeper r (fun f => isKeeper (.tableAck num refused) f && (match f.body with
    | .keeper k => k.src == src | _ => false))
  let w := (c.reach r).rtr.fmWork
  if !(c.reach r).rtr.self || !w.busy || w.epochNum != num || w.flip.isSome || !w.written.contains src then c
  else if refused then (c.onRtr r (fun y => { y with fmWork := { y.fmWork with busy := false } })).epochOver r
  else
    let acked := src :: w.acked
    let nodes := w.written.eraseDups
    let c := c.onRtr r (fun y => { y with fmWork := { y.fmWork with acked := acked } })
    if nodes.all (fun n => decide (w.written.count n ≤ acked.count n)) then
      let t := c.now r + nsTime (1000 * (c.reach r).rtr.flipLead)
      let c := c.onRtr r (fun y => { y with fmWork := { y.fmWork with flip := some t, flipWait := nodes } })
      forEach nodes c (fun c n => c.sendKeeper r n (.flip num t))
    else c

/-- TABLE_ACK_TIMEOUT: an acknowledgement is missing after 1 ms and the manager abandons the change (R273). -/
def tableAckTimeout (r : ReachId) (now : Time) (c : Chip) : Chip :=
  let c := c.at r now
  let w := (c.reach r).rtr.fmWork
  if w.busy && w.flip.isNone && decide (nsUnits 1000000 ≤ timeDiff w.since (c.now r)) then
    (c.onRtr r (fun y => { y with fmWork := { y.fmWork with busy := false, written := [], acked := [] } })).epochOver r
  else c

/-- FLIP_RX: T_flip is set and answered with FLIP_ACK (R272). -/
def flipRx (r : ReachId) (now : Time) (src : Word16) (num : BitVec 24) (tFlip : Time) (c : Chip) : Chip :=
  let c := c.at r now
  let c := c.takeKeeper r (isKeeper (.flip num tFlip))
  if !c.inService r then c
  else
    let b := (c.reach r).rtr.bank (num.setWidth 1)
    let c := if b.state == .staged && b.epochNum == num then c.onRtr r (fun y => { y with tFlip := some tFlip }) else c
    c.sendKeeper r src (.flipAck num)

/-- FLIP_ACK_RX: the node is no longer awaited; the last one ends the change (R272, R273). -/
def flipAckRx (r : ReachId) (now : Time) (src : Word16) (num : BitVec 24) (c : Chip) : Chip :=
  let c := c.at r now
  let c := c.takeKeeper r (fun f => isKeeper (.flipAck num) f && (match f.body with
    | .keeper k => k.src == src | _ => false))
  let w := (c.reach r).rtr.fmWork
  if w.busy && w.epochNum == num && w.flip.isSome then
    let left := w.flipWait.filter (fun n => n != src)
    let c := c.onRtr r (fun y => { y with fmWork := { y.fmWork with flipWait := left, busy := !left.isEmpty } })
    if left.isEmpty then c.epochOver r else c
  else c

/-- FLIP_REPEAT_TIMER: every 100 µs FLIP goes again to the nodes that have not answered (R273). -/
def flipRepeatTimer (r : ReachId) (now : Time) (c : Chip) : Chip :=
  let c := c.at r now
  let w := (c.reach r).rtr.fmWork
  match w.flip with
  | some t => if w.busy then forEach w.flipWait c (fun c n => c.sendKeeper r n (.flip w.epochNum t)) else c
  | none => c

/-- EPOCH_FLIP: fabric time has reached T_flip (R272). -/
def epochFlip (r : ReachId) (now : Time) (c : Chip) : Chip :=
  let c := c.at r now
  match (c.reach r).rtr.tFlip with
  | some t => if notBefore t (c.now r) then c.onRtr r (fun y => { y.flip (c.now r) with tFlip := none }) else c
  | none => c

/-- EPOCH_DRAIN_END: the DRAINING bank becomes CLOSED; what waited for it is built now (R266, R272). -/
def epochDrainEnd (r : ReachId) (now : Time) (c : Chip) : Chip :=
  let c := c.at r now
  let x := (c.reach r).rtr
  match x.drainEnd with
  | some t =>
    if notBefore t (c.now r) then
      let b := x.active ^^^ 1
      let c := c.onRtr r (fun y =>
        { y.onBank b (fun k => if k.state == .draining then { k with state := .closed } else k) with drainEnd := none })
      if x.rebuild then
        if x.self then c.startEpoch r
        else if x.fmHeard then c.onRtr r (fun y => { y with rebuild := false })
        else c.onRtr r (fun y => y.rebuildOwn (c.nodeId r).toNat (c.now r))
      else c
    else c
  | none => c

/-! ### The fabric manager (R276, R277) -/

/-- FM_HELLO_TIMER: the manager sends FM_HELLO to every node (R276). -/
def fmHelloTimer (r : ReachId) (now : Time) (c : Chip) : Chip :=
  let c := c.at r now
  let x := (c.reach r).rtr
  if x.self && c.inService r then
    let c := c.onRtr r (fun y => { y with fmHeard := true, lastHello := c.now r })
    forEach ((x.lsdb.map (fun l => l.origin)).filter (fun n => n != c.nodeId r)) c (fun c n => c.sendKeeper r n .hello)
  else c

/-- FM_HELLO_RX: the manager has been heard (R276). The standby's own says that it has taken over; that of a manager which had fallen
silent makes it a candidate again. -/
def fmHelloRx (r : ReachId) (now : Time) (src : Word16) (c : Chip) : Chip :=
  let c := c.at r now
  let c := c.takeKeeper r (fun f => isKeeper .hello f && (match f.body with | .keeper k => k.src == src | _ => false))
  let x := (c.reach r).rtr
  let node := c.nodeId r
  if !c.inService r then c
  else if x.silent.contains src then
    c.onRtr r (fun y => { ({ y with silent := y.silent.erase src }).elect node with fmHeard := true, lastHello := c.now r })
  else if src == x.elected then c.onRtr r (fun y => { y with fmHeard := true, lastHello := c.now r })
  else if src == x.standby then c.onRtr r (fun y => { y.lose node x.elected with fmHeard := true, lastHello := c.now r })
  else c

/-- FM_TAKEOVER: after 1 ms without FM_HELLO the standby takes over; another node returns to its own tables (R276). -/
def fmTakeover (r : ReachId) (now : Time) (c : Chip) : Chip :=
  let c := c.at r now
  let node := c.nodeId r
  let x := (c.reach r).rtr
  if x.self || decide (timeDiff x.lastHello (c.now r) < nsUnits 1000000) then c
  else if x.standby == node then
    let c := c.onRtr r (fun y => { y.lose node y.elected with self := true, elected := node, fmHeard := true, lastHello := c.now r,
                                                              fmWork := FmState.reset })
    c.startEpoch r
  else
    let c := c.onRtr r (fun y => { y with fmHeard := false })
    c.onRtr r (fun y => y.rebuildOwn node.toNat (c.now r))

/-- LINK_NOTICE_RX: the manager takes the link out of its database and starts a change (R272, R279). -/
def linkNoticeRx (r : ReachId) (now : Time) (node : Word16) (port : PortId) (c : Chip) : Chip :=
  let c := c.at r now
  let c := c.takeKeeper r (isKeeper (.linkNotice node port))
  if (c.reach r).rtr.self && c.inService r then
    let c := c.onRtr r (fun y =>
      { y with fmWork := { y.fmWork with notices := y.fmWork.notices ++ [(node, port)] },
               lsdb := y.lsdb.map (fun l => if l.origin == node then { l with links := l.links.filter (fun e => e.1 != port) }
                                            else l) })
    c.startEpoch r
  else c

/-- STATE of a congestion-map port record (R277). -/
def PortState.code : PortState → Nat
  | .down => 0 | .training => 1 | .held => 2 | .usable => 3

/-- Port record of a congestion map. -/
def cmapPort (q : RtrPort) : CmapPort :=
  { hist := q.hist, marks := q.marks, drops := q.drops, txUnpl := q.txUnpl, txTc6 := q.txTc6, backup := q.backup,
    state := BitVec.ofNat 2 q.state.code, peer := q.peer.getD 0xFFFF }

/-- Port record of router port 7 or 8, which has no survey: USABLE, no peer. -/
def cmapInner (x : Reach) (i : Nat) : CmapPort :=
  { cmapPort (Tab.getD x.rtr.ports i RtrPort.reset) with state := 3, peer := 0xFFFF }

/-- CMAP_TX_TIMER: the congestion map of the interval goes to the manager, and a new interval begins (R277). The samples of
the interval, one every 128 FCLK cycles, come with the command: eight bins for each of ports 0 to 8. -/
def cmapTxTimer (r : ReachId) (now : Time) (hist : List (List Word16)) (c : Chip) : Chip :=
  let c := c.at r now
  let x := c.reach r
  if !c.inService r || x.rtr.elected == 0xFFFF then c
  else
    let recs := (allPorts.map (fun p => cmapPort (x.port p)) ++ [cmapInner x 7, cmapInner x 8]).zipIdx.map (fun e =>
      { e.1 with hist := (hist[e.2]?).getD [] })
    let m : Cmap := { fmt := 1, reach := r, node := c.nodeId r, epochNum := (x.rtr.bank x.rtr.active).epochNum, seq := x.rtr.cmapSeq,
                      start := x.rtr.cmapStart, ports := recs }
    let c := c.sendKeeper r x.rtr.elected (.cmap m)
    c.onRtr r (fun y => { y with
      ports := Tab.mapVals y.ports (fun q => { q with hist := [], marks := 0, drops := 0, txUnpl := 0, txTc6 := 0, backup := 0 }),
      cmapSeq := y.cmapSeq + 1, cmapStart := c.now r })

/-- CMAP_RX: the manager keeps the newest map of each node (R277); one of an unsupported format version it drops and counts (R15). -/
def cmapRx (r : ReachId) (now : Time) (m : Cmap) (c : Chip) : Chip :=
  let c := c.at r now
  let c := c.takeKeeper r (isKeeper (.cmap m))
  if !(c.reach r).rtr.self || !c.inService r then c
  else if m.fmt != 1 then c.onRtr r (fun y => { y with unsupported := sat48 (y.unsupported + 1) })
  else
    c.onRtr r (fun y => { y with fmWork := { y.fmWork with
      maps := (y.fmWork.maps.filter (fun k => k.node != m.node)) ++ [m] } })

/-! ### Links (R261, R279) -/

/-- LINK_FAULT: Local or Remote Fault, or FEC alignment lost: the port is DOWN, its router uses backups from then on, LSA and
LINK_NOTICE go out at once, and plans over the port are in a detour stoppage (R279, R280). -/
def linkFault (r : ReachId) (now : Time) (p : PortId) (c : Chip) : Chip :=
  let c := c.at r now
  let q := (c.reach r).port p
  let c := c.onReach r (fun x => { (x.onMac p (fun m => { m with up := false })) with
    time := x.time.onPort p (fun t => { t with upSince := none, sync := none, foreign := none }) })
  if q.state == .down then c
  else
    let lost := (q.peer.getD 0xFFFF).toNat
    let c := c.portDown r p
    if q.state == .usable then (c.noticeLoss r p).detour r p lost else c

/-- Rates that a port advertises, ADV 0 taken as 0xF (R321). -/
def Mac.adv (m : Mac) : Nat := let a := fld m.port 4 4; if a == 0 then 15 else a

/-- The rate at which a port trains with a peer that advertises `peer`: the highest common one, or RATE when forced (R321);
none where there is none. -/
def Mac.trainRate (m : Mac) (peer : BitVec 4) : Option (BitVec 2) :=
  if flag m.port 1 then some (BitVec.ofNat 2 (fld m.port 2 2))
  else
    let common := m.adv &&& peer.toNat
    if common.testBit 0 then some 0 else if common.testBit 1 then some 1 else if common.testBit 2 then some 2
    else if common.testBit 3 then some 3 else none

/-- LINK_UP: a link has trained with FEC lock: rate, lane order and polarity as found, LEVEL back to 1, and the port enters
TRAINING (R261, R321, R328, R522); a cross-reach link needs the reach at its other end (R21). Without SerDes firmware every port stays DOWN (R416). -/
def linkUp (r : ReachId) (now : Time) (p : PortId) (peerAdv rxInv : BitVec 4) (rxOrder : BitVec 8) (c : Chip) : Chip :=
  let c := c.at r now
  let x := c.reach r
  let m := x.mac p
  let ext := decide (p.val < 4)
  let rate := if ext then m.trainRate peerAdv else some 0
  match rate with
  | none => c
  | some rt =>
    let laneBad := ext && decide (2 ≤ rt.toNat) && natBits rxOrder.toNat 0 2 != 0
    if (ext && !flag m.port 0) || laneBad || c.sec.bootFail.contains 3 || !c.inService r || (x.port p).state != .down
        || (crossPeer r p).any (fun q => !c.inService q) then c
    else
      c.onReach r (fun x =>
        let x := x.onMac p (fun m => { m with up := true, curRate := rt, level := 1 })
        let x := x.onPort p (fun q => { q with state := .training, heardRun := 0, peer := none })
        let x := { x with time := x.time.onPort p (fun t => { t with upSince := some x.time.now }) }
        if ext then
          let old := Tab.getD x.lanemap p.val laneMapReset
          { x with lanemap := Tab.set x.lanemap p.val (putFld (putFld old 4 4 rxInv.toNat) 8 8 rxOrder.toNat) }
        else x)

end Sys2Proof.Machine
end

