-- ==== Sys2Proof/Machine/MacOps.lean ====
section
/-!
DEFINITION. What a port does (chapter 11): receive filters and ingress queues, PAUSE and PFC, and the choice of the next
frame by gate, fit rule, sluices and round robin.
-/

namespace Sys2Proof.Machine

/-! ### Receiving (R323 to R333) -/

/-- The two group addresses that a port accepts. -/
def ptpAddress : BitVec 48 := 0x0180C200000E
def macCtlAddress : BitVec 48 := 0x0180C2000001

/-- EtherType after any tag of a frame. -/
def frameEtype (f : EthFrame) : Word16 :=
  match f.body with
  | .frt p => match p.routed with
    | none => 0x88B5
    | some h => if h.v6 then 0x86DD else 0x0800
  | .keeper _ => 0x88B6
  | .ptp .. => 0x88F7
  | .other e _ => e

/-- Partition key of an FRT or keeper frame. -/
def framePkey (f : EthFrame) : Option Word16 :=
  match f.body with
  | .frt p => some p.pkey
  | .keeper k => some k.pkey
  | _ => none

/-- UDP destination port of an IP frame without options or extension headers. -/
def frameUdp (f : EthFrame) : Option Word16 :=
  match f.body with
  | .frt p => match p.routed with
    | some h => if h.extras then none else some h.dport
    | none => none
  | .other _ u => u
  | _ => none

/-- Class of a received frame: the header TC of an FRT frame, 7 of a keeper or PTP frame (R331). -/
def frameClass (f : EthFrame) : Nat :=
  match f.body with
  | .frt p => p.tc.toNat
  | .keeper _ => 7
  | .ptp .. => 7
  | .other .. => 0

/-- A filter entry matches a frame: every enabled field matches, and M_VID with M_UNTAG never does (R332). -/
def FilterEntry.hits (e : FilterEntry) (f : EthFrame) : Bool :=
  e.valid && (!e.mVid || f.vid == some e.vid) && (!e.mUntag || f.vid.isNone)
    && (!e.mEtype || frameEtype f == e.etype) && (!e.mUdp || frameUdp f == some e.udp)
    && (!e.mPkey || (match framePkey f with
      | some k => (k &&& e.pkeyMask) == (e.pkey &&& e.pkeyMask)
      | none => false))

/-- The lowest-numbered VALID entry that matches (R332). -/
def Mac.filterOf (m : Mac) (f : EthFrame) : Option (Nat × FilterEntry) := List.find? (fun e => e.2.hits f) m.filters

/-- Ingress queue of a frame that an entry accepts: QUEUE, or the frame's class for 8 to 15 (R332). -/
def FilterEntry.queueOf (e : FilterEntry) (f : EthFrame) : Nat := if e.queue.toNat < 8 then e.queue.toNat else frameClass f

/-- Bytes that a port's frames hold in all (R331). -/
def Mac.ingressTotal (m : Mac) : Nat := (m.ingress.map (fun e => e.2)).foldl (· + ·) 0

/-- Room for a received frame: 2 MiB in all, of which 128 KiB are kept for Q7 (R331). -/
def Mac.ingressRoom (m : Mac) (q len : Nat) : Bool :=
  decide (m.ingressTotal + len ≤ 2097152)
    && (q == 7 || decide (m.ingressTotal - m.ingressBytes 7 + len ≤ 2097152 - 131072))

/-- Send PFC with pause_time 0xFFFF for a class whose ingress queue has risen above XOFF (R337). -/
def Chip.pfcCheck (c : Chip) (r : ReachId) (p : PortId) (q : Nat) : Chip :=
  let m := (c.reach r).mac p
  if q < 6 && (fld m.pauseReg 24 6).testBit q && (Tab.find? m.pfcSent q).isNone
      && decide (1024 * m.xoff < m.ingressBytes q) then
    (c.onReach r (fun x => x.onMac p (fun m => { m with pfcSent := Tab.set m.pfcSent q x.time.now }))).emit
      (.pfc r p (BitVec.ofNat 8 (2 ^ q)) 0xFFFF)
  else c

/-- Change one port's MAC of the module. -/
def Chip.onMac (c : Chip) (r : ReachId) (p : PortId) (f : Mac → Mac) : Chip := c.onReach r (fun x => x.onMac p f)

/-- The IPv4 header checksum of a frame fails (R330). -/
def frameIpFails (f : EthFrame) : Bool :=
  match f.body with
  | .frt p => ipFails p
  | _ => !f.ipOk

/-- The FEC of a port has corrected codewords that carried a frame (R322). -/
def Chip.countCorrected (c : Chip) (r : ReachId) (p : PortId) (f : EthFrame) : Chip :=
  if f.corrected = 0 then c else c.onReach r (fun x => x.gaugeAdd 6 p.val 25 f.corrected)

/-- MAC_FRAME_RX: FCS, size, address, IP checksum, filter and room, in that order; an accepted frame goes to the router
(R323, R326, R330 to R332). -/
def macFrameRx (r : ReachId) (now : Time) (p : PortId) (f : EthFrame) (c : Chip) : Chip :=
  let c := c.at r now
  let m := (c.reach r).mac p
  if !m.up then c
  else
    let c := c.countCorrected r p f
    match f.fcs with
    | .bad => c.onMac r p (fun m => { m with fcsErr := sat48 (m.fcsErr + 1) })
    | .stomped => c.onMac r p (fun m => { m with stomped := sat48 (m.stomped + 1) })
    | .good =>
      if f.len < 64 || 9216 < f.len then c.onMac r p (fun m => { m with sizeDrop := sat48 (m.sizeDrop + 1) })
      else if f.dst != portAddress r p && f.dst != ptpAddress && f.dst != macCtlAddress then
        c.onMac r p (fun m => { m with addrDrop := sat48 (m.addrDrop + 1) })
      else if frameIpFails f then c.onMac r p (fun m => { m with ipDrop := sat48 (m.ipDrop + 1) })
      else if frameEtype f == 0x8808 then c.onMac r p (fun m => { m with macCtl := sat48 (m.macCtl + 1) })
      else match m.filterOf f with
        | none => c.onMac r p (fun m => { m with filterDrops := Tab.modify m.filterDrops 64 0 (fun n => sat48 (n + 1)) })
        | some (i, e) =>
          if e.action != 1 then
            c.onMac r p (fun m => { m with filterDrops := Tab.modify m.filterDrops i 0 (fun n => sat48 (n + 1)) })
          else
            let q := e.queueOf f
            if !m.ingressRoom q f.len then c.onMac r p (fun m => { m with roomDrop := sat48 (m.roomDrop + 1) })
            else
              let c := c.onMac r p (fun m => { m with ingress := Tab.modify m.ingress q 0 (fun n => n + f.len) })
              let x : RtrFrame := { ingress := p.val, body := f.body, len := f.len, arrived := c.now r, queue := q }
              (c.onRtr r (fun y => { y with inbox := y.inbox ++ [x] })).pfcCheck r p q

/-! ### PAUSE and PFC (R334 to R337) -/

/-- Pause state of a class. -/
def Mac.pauseOf (m : Mac) (tc : Nat) : PauseClass := Tab.getD m.pause tc PauseClass.reset

/-- A pause time of `quanta` × 512 bit times at a rate, as a fabric-time interval (R334). -/
def pauseTime (quanta gbps : Nat) : Time := BitVec.ofNat 64 (quanta * 512 * 65536 / gbps)

/-- The port disregards pause for a class while its watchdog holds (R335). -/
def PauseClass.ignored (x : PauseClass) (now : Time) : Bool :=
  match x.hold with
  | some h => later now h
  | none => false

/-- One class is told to stop for a pause time, or released by zero; a later frame replaces the time (R334). -/
def Mac.pauseSet (m : Mac) (tc quanta gbps : Nat) (now : Time) : Mac :=
  let f (x : PauseClass) : PauseClass :=
    if x.ignored now then x
    else if quanta == 0 then { x with until_ := none, since := none }
    else { x with until_ := some (now + pauseTime quanta gbps), since := some (x.since.getD now) }
  { m with pause := Tab.modify m.pause tc PauseClass.reset f }

/-- PAUSE_RX: all eight classes (R334). -/
def pauseRx (r : ReachId) (now : Time) (p : PortId) (quanta : Word16) (c : Chip) : Chip :=
  let c := c.at r now
  let g := (c.reach r).gbps p
  c.onReach r (fun x => (x.onMac p (fun m =>
    { (List.range 8).foldl (fun m tc => m.pauseSet tc quanta.toNat g x.time.now) m with macCtl := sat48 (m.macCtl + 1) })).gaugeAdd 6 p.val 16 1)

/-- PFC_RX: the classes that the frame names, each with its own time (R334). -/
def pfcRx (r : ReachId) (now : Time) (p : PortId) (classes : BitVec 8) (times : List Word16) (c : Chip) : Chip :=
  let c := c.at r now
  let g := (c.reach r).gbps p
  let named := (List.range 8).filter (fun tc => classes.toNat.testBit tc)
  c.onReach r (fun x => named.foldl (fun x tc => x.gaugeAdd 6 p.val (17 + tc) 1) (x.onMac p (fun m =>
    { named.foldl (fun m tc => m.pauseSet tc ((times[tc]?).getD 0).toNat g x.time.now) m with macCtl := sat48 (m.macCtl + 1) })))

/-- PAUSE_EXPIRY: the time of a class has run out (R334). -/
def pauseExpiry (r : ReachId) (now : Time) (p : PortId) (tc : Fin 8) (c : Chip) : Chip :=
  let c := c.at r now
  c.onReach r (fun x => x.onMac p (fun m => { m with pause := Tab.update m.pause tc.val (fun k =>
    match k.until_ with
    | some t => if notBefore t x.time.now then { k with until_ := none, since := none } else k
    | none => k) }))

/-- PAUSE_WATCHDOG: TC6 or TC7 stopped for WD_NS without a break: pause is disregarded for WD_HOLD ms, one event is counted
and an alert raised (R335). -/
def pauseWatchdog (r : ReachId) (now : Time) (p : PortId) (tc7 : Bool) (c : Chip) : Chip :=
  let c := c.at r now
  let tc := if tc7 then 7 else 6
  let m := (c.reach r).mac p
  match (m.pauseOf tc).since with
  | some s =>
    if nsUnits m.wdNs ≤ timeDiff s (c.now r) then
      let k : PauseClass := { until_ := none, since := none, hold := some (c.now r + nsTime (1000000 * m.wdHoldMs)) }
      let c := c.onMac r p (fun m => { m with wdEvents := sat48 (m.wdEvents + 1), pause := Tab.set m.pause tc k })
      c.health r 0 7 0x0E p.val 0 0 0
    else c
  | none => c

/-- PAUSE_WATCHDOG_HOLD_END: the port obeys pause for the class again (R335). -/
def pauseWatchdogHoldEnd (r : ReachId) (now : Time) (p : PortId) (tc7 : Bool) (c : Chip) : Chip :=
  let c := c.at r now
  let tc := if tc7 then 7 else 6
  c.onReach r (fun x => x.onMac p (fun m => { m with pause := Tab.update m.pause tc (fun k =>
    if k.ignored x.time.now then k else { k with hold := none }) }))

/-- PFC_REPEAT_TIMER: 32,768 quanta after the last stopping frame it is repeated while the queue stays at XON or above, for a class of
GEN_MASK (R337). -/
def pfcRepeatTimer (r : ReachId) (now : Time) (p : PortId) (tc : Fin 6) (c : Chip) : Chip :=
  let c := c.at r now
  let x := c.reach r
  let m := x.mac p
  match Tab.find? m.pfcSent tc.val with
  | some t =>
    if (fld m.pauseReg 24 6).testBit tc.val && decide ((pauseTime 32768 (x.gbps p)).toInt ≤ timeDiff t x.time.now) && decide (1024 * m.xon ≤ m.ingressBytes tc.val) then
      (c.onMac r p (fun m => { m with pfcSent := Tab.set m.pfcSent tc.val x.time.now })).emit
        (.pfc r p (BitVec.ofNat 8 (2 ^ tc.val)) 0xFFFF)
    else c
  | none => c

/-! ### Sluices (R340) -/

/-- Units of a token count: 1 / (8,000 × 2^16) byte, so that RATE Mb/s adds RATE units per 2^-16 ns. -/
def tokenUnit : Int := 8000 * 65536

/-- A sluice of a port. -/
def Mac.sluice (m : Mac) (i : Nat) : Sluice := Tab.getD m.sluices i Sluice.reset

/-- BURST × 256 bytes, values below 36 taken as 36. -/
def Sluice.full (x : Sluice) : Int := (max 36 (fld x.cfg 24 16) * 256 : Nat) * tokenUnit

/-- Tokens of a sluice at a time: they grow at RATE up to the burst; a sluice with RATE 0 stays full (R340). -/
def Sluice.tokensAt (x : Sluice) (now : Time) : Int :=
  let rate := fld x.cfg 0 21
  if rate == 0 then x.full else min x.full (x.tokens + rate * max 0 (timeDiff x.at_ now))

/-- Tokens as SHP_SLUICE_TOK shows them: bytes, signed, rounded down. -/
def Sluice.bytesAt (x : Sluice) (now : Time) : Int := x.tokensAt now / tokenUnit

/-- A sluice lets a frame start. -/
def Sluice.opens (x : Sluice) (now : Time) : Bool := decide (0 ≤ x.tokensAt now)

/-- A frame of `w` wire bytes starts: the sluice loses them. -/
def Sluice.spend (x : Sluice) (now : Time) (w : Nat) : Sluice :=
  { x with tokens := x.tokensAt now - w * tokenUnit, at_ := now }

/-- A write of a sluice's configuration: tokens zero, or full with FILL (R340). -/
def Sluice.configure (cfg : Word64) (now : Time) : Sluice :=
  let x : Sluice := { cfg := cfg, tokens := 0, at_ := now }
  if flag cfg 21 then { x with tokens := x.full } else x

/-! ### Gates (R342 to R346) -/

/-- A bank of the gate list. -/
def Mac.gateBank (m : Mac) (b : BitVec 1) : List GateEntry := if b == 0 then m.bank0 else m.bank1

/-- The bank in force after the next boundary: the other one where a switch is due by then (R344). -/
def Mac.nextBank (m : Mac) (boundary : Time) : BitVec 1 :=
  match m.switchAt with
  | some t => if notBefore t boundary then m.gateActive ^^^ 1 else m.gateActive
  | none => m.gateActive

/-- The rest of a bank from the entry that holds offset `u`, with that entry's end as an offset. -/
def gateFrom : List GateEntry → Nat → Nat → Option (GateEntry × Nat × List GateEntry)
  | [], _, _ => none
  | e :: es, lo, u =>
    let hi := lo + e.interval * 65536
    if u < hi then some (e, hi, es) else gateFrom es hi u

/-- The offset u = t - B of a time in its lock cycle (R343). -/
def Reach.cycleOffset (x : Reach) (t : Time) : Nat :=
  match x.plan.clock with
  | some k => (t - k.boundary).toNat
  | none => 0

/-- The entry of a port's gate list in force at a time, its end as an offset, and the entries that follow it: the rest of the
bank, then the banks of the next two cycles. -/
def Reach.gateAt (x : Reach) (p : PortId) (t : Time) : Option (GateEntry × Nat × List GateEntry) :=
  let m := x.mac p
  match x.plan.clock with
  | none => none
  | some k =>
    let next := m.gateBank (m.nextBank (k.boundary + k.cycle))
    let after := m.gateBank (m.nextBank (k.boundary + k.cycle + k.cycle))
    match gateFrom (m.gateBank m.gateActive) 0 (x.cycleOffset t) with
    | some (e, hi, rest) => some (e, hi, rest ++ next ++ after)
    | none =>
      match gateFrom next k.cycle.toNat (x.cycleOffset t) with
      | some (e, hi, rest) => some (e, hi, rest ++ after)
      | none => none

/-- An entry opens a class, and for TC6 carries the window (R345). -/
def GateEntry.opens (e : GateEntry) (tc win : Nat) : Bool :=
  e.gates.toNat.testBit tc && (tc != 6 || e.win.toNat == win)

/-- End of the run of entries that open a class, as an offset; none where the run does not end. -/
def runEnd (hi : Nat) : List GateEntry → Nat → Nat → Option Nat
  | [], _, _ => none
  | e :: es, tc, win => if e.opens tc win then runEnd (hi + e.interval * 65536) es tc win else some hi

/-- What the gate says of a class at a time: closed, or open until an end (none: without end). -/
inductive GateView where
  | closed
  | openTo (e : Option Time)
  deriving DecidableEq, Repr

/-- End of a class's opening while the list is disabled: the first plan's list comes into force at a boundary (R344), and the bank that is in
force after it says whether the class stays open. None: no switch is due, and the class stays open. -/
def Reach.firstSwitch (x : Reach) (p : PortId) (tc win : Nat) : Option Time :=
  let m := x.mac p
  match m.switchAt, x.plan.clock with
  | some s, some k =>
    let b := k.boundary + BitVec.ofNat 64 (((s - k.boundary).toNat + (k.cycle.toNat - 1)) / k.cycle.toNat * k.cycle.toNat)
    let next := m.gateBank (m.gateActive ^^^ 1)
    (runEnd 0 (next ++ next) tc win).map (fun o => b + BitVec.ofNat 64 o)
  | _, _ => none

/-- The gate of a class at a time (R343): with the list disabled TC0 to TC5 and TC7 are always open and TC6 is closed; a frame that would run
past the boundary at which a first list comes into force meets that list (R344). -/
def Reach.gateView (x : Reach) (p : PortId) (tc win : Nat) (t : Time) : GateView :=
  if !(x.mac p).gateEn then (if tc == 6 then .closed else .openTo (x.firstSwitch p tc win))
  else match x.gateAt p t, x.plan.clock with
    | some (e, hi, rest), some k =>
      if !e.opens tc win then .closed
      else .openTo ((runEnd hi rest tc win).map (fun o => k.boundary + BitVec.ofNat 64 o))
    | _, _ => .closed

/-- The fit rule (R345): 8 × (F + 20) ≤ floor((E - t) × R / 2^16). -/
def fits (len gbps : Nat) (t : Time) : GateView → Bool
  | .closed => false
  | .openTo none => true
  | .openTo (some e) => decide ((8 * (len + 20) : Nat) ≤ timeDiff t e * gbps / 65536)

/-! ### The choice of the next frame (R341) -/

/-- A frame chosen, with the queue it heads. -/
structure Chosen where
  tc : Nat
  sub : Nat
  frame : EgressFrame
  view : GateView
  deriving DecidableEq, Repr

/-- A class is stopped by pause at a time. -/
def Mac.paused (m : Mac) (tc : Nat) (t : Time) : Bool :=
  match (m.pauseOf tc).until_ with
  | some u => later t u
  | none => false

/-- The plan that holds a window on a port. -/
def Reach.windowPlan (x : Reach) (r : ReachId) (p : PortId) (win : Nat) : Option PlanInst :=
  x.plan.plans.find? (fun q => q.con.windows.any (fun w => w.reach == r.val && w.rport == p.val && w.win == win))

/-- A plan is in its stoppage until it starts again at the round boundary agreed after PLAN_RESUME (R72). -/
def PlanInst.inStoppage (p : PlanInst) : Bool := p.st == .stopped || p.resuming

/-- The window's plan is in a stoppage: the window carries no TC6 frames (R72). -/
def Reach.windowStopped (x : Reach) (r : ReachId) (p : PortId) (win : Nat) : Bool :=
  match x.windowPlan r p win with
  | some q => q.inStoppage
  | none => false

/-- Head of a queue that fits at a time. -/
def Reach.headFits (x : Reach) (r : ReachId) (p : PortId) (tc sub : Nat) (t : Time) : Option Chosen :=
  let m := x.mac p
  if m.paused tc t || (tc == 6 && x.windowStopped r p sub) then none
  else match m.queues.find? (fun q => q.tc == tc && q.sub == sub) with
    | some q =>
      match q.frames with
      | f :: _ =>
        let v := x.gateView p tc sub t
        if fits f.len (x.gbps p) t v then some { tc := tc, sub := sub, frame := f, view := v } else none
      | [] => none
    | none => none

/-- The tenancy queues of a class in round-robin order from the one after the last served (R341). -/
def Mac.tenOrder (m : Mac) (tc : Nat) : List Nat :=
  let start := (Tab.getD m.lastQ tc 64 + 1) % 65
  (List.range 65).map (fun i => (start + i) % 65)

/-- The frame a class would send: its service sluice and the port sluice open, and a tenancy queue with an open sluice whose
head fits. -/
def Reach.classHead (x : Reach) (r : ReachId) (p : PortId) (tc : Nat) (t : Time) : Option Chosen :=
  let m := x.mac p
  if !(m.sluice (65 + tc)).opens t || !(m.sluice 71).opens t then none
  else (m.tenOrder tc).findSome? (fun q => if (m.sluice q).opens t then x.headFits r p tc q t else none)

/-- Quantum of a class: WEIGHT × 1,024 bytes, WEIGHT 0 taken as 1. -/
def Mac.quantum (m : Mac) (tc : Nat) : Int := (max 1 (fld (m.sluice (65 + tc)).cfg 40 8) * 1024 : Nat)

/-- Where the deficit round robin of a port stands. -/
structure Turn where
  cls : Nat
  got : Bool
  deficit : Tab Int
  deriving DecidableEq, Repr

/-- The turn of a port. -/
def Mac.turn (m : Mac) : Turn := { cls := m.drrClass, got := m.drrGot, deficit := m.deficit }

/-- The turn passes to the next class. -/
def Turn.pass (u : Turn) (d : Tab Int) : Turn := { cls := (u.cls + 1) % 6, got := false, deficit := d }

/-- Deficit round robin over the classes (R341): a class gains its quantum once as its turn begins and sends while its deficit covers its
frames; then the turn passes. A class with nothing to send loses its deficit (assumption 25). -/
def drr (x : Reach) (r : ReachId) (p : PortId) (t : Time) : Nat → Turn → Option (Chosen × Turn)
  | 0, _ => none
  | n + 1, u =>
    match x.classHead r p u.cls t with
    | none => drr x r p t n (u.pass (Tab.set u.deficit u.cls 0))
    | some ch =>
      let w : Int := (ch.frame.len + 20 : Nat)
      let have_ := Tab.getD u.deficit u.cls 0 + if u.got then 0 else (x.mac p).quantum u.cls
      if w ≤ have_ then some (ch, { u with got := true, deficit := Tab.set u.deficit u.cls (have_ - w) })
      else drr x r p t n (u.pass (Tab.set u.deficit u.cls have_))

/-- The next frame of a free port at a time (R341): TC7 first, in a window only the window's queue, then the classes. -/
def Reach.select (x : Reach) (r : ReachId) (p : PortId) (t : Time) : Option (Chosen × Turn) :=
  let m := x.mac p
  match x.headFits r p 7 0 t with
  | some ch => some (ch, m.turn)
  | none =>
    let six : Option Nat :=
      if !m.gateEn then none
      else match x.gateAt p t with
        | some (e, _, _) => if e.gates.toNat.testBit 6 then some e.win.toNat else none
        | none => none
    match six with
    | some w => (x.headFits r p 6 w t).map (fun ch => (ch, m.turn))
    | none => drr x r p t 80 m.turn

/-- Take the head off its queue. -/
def Mac.pop (m : Mac) (tc sub : Nat) : Mac :=
  { m with queues := (m.queues.map (fun q =>
      if q.tc == tc && q.sub == sub then { q with frames := q.frames.drop 1 } else q)).filter (fun q => !q.frames.isEmpty) }

/-- Wire time of `w` bytes at a rate, rounded up to a unit of fabric time. -/
def wireTime (w gbps : Nat) : Nat := (w * 8 * 65536 + (gbps - 1)) / gbps

/-- The queue's frame starts: sluices pay, the wire is busy for W bytes, and the congestion map and gauges count. -/
def Mac.start (m : Mac) (ch : Chosen) (t : Time) (gbps : Nat) : Mac :=
  let w := ch.frame.len + 20
  let m := m.pop ch.tc ch.sub
  let m := if ch.tc < 6 then
      { m with sluices := [ch.sub, 65 + ch.tc, 71].foldl (fun s i => Tab.modify s i Sluice.reset (fun x => x.spend t w)) m.sluices,
               lastQ := Tab.set m.lastQ ch.tc ch.sub }
    else m
  { m with busyUntil := t + BitVec.ofNat 64 (wireTime w gbps),
           busyRun := match ch.view with | .openTo e => e | .closed => none,
           runBytes := if ch.tc == 6 then m.runBytes + ch.frame.len else m.runBytes }

/-- Bytes that a port's counters gain. -/
def RtrPort.sent (q : RtrPort) (tc len : Nat) : RtrPort :=
  if tc == 6 then { q with txTc6 := q.txTc6 + BitVec.ofNat 64 len } else { q with txUnpl := q.txUnpl + BitVec.ofNat 64 len }

/-- An underrun raises the start threshold by one, up to store-and-forward (R325, R328). -/
def Mac.underrun (m : Mac) : Mac := { m with level := min 9 (m.level + 1), underruns := sat32 m.underruns }

/-- Row of table "Frames ended with an inverted FCS" that an end falls under. -/
def endCause : FrameEnd → Option Nat
  | .whole => none
  | .underrun => some 0
  | .badFcs | .stomped => some 1
  | .ingressDown => some 2
  | .tooLong => some 3

/-- A frame ends as it does: an inverted FCS is counted by its cause, and an underrun raises the threshold (R325). -/
def Mac.endFrame (m : Mac) (e : FrameEnd) : Mac :=
  match endCause e with
  | none => m
  | some i =>
    let m := { m with endedInv := Tab.modify m.endedInv i 0 (fun n => sat48 (n + 1)) }
    if e == .underrun then m.underrun else m

/-- The receiver of a frame that was forwarded cut-through counts how the frame ended (R323, R326). -/
def Mac.copyEnded (m : Mac) : FrameEnd → Mac
  | .badFcs => { m with fcsErr := sat48 (m.fcsErr + 1) }
  | .stomped => { m with stomped := sat48 (m.stomped + 1) }
  | .tooLong => { m with sizeDrop := sat48 (m.sizeDrop + 1) }
  | _ => m

/-- A frame that travels on one link only: PTP and link-local keeper frames (R260, R261). -/
def linkLocal : FrameBody → Bool
  | .ptp .. => true
  | .keeper k => k.dst == 0xFFFF
  | _ => false

/-- Ethernet destination of a frame on a port (R225, R226, R323): the group address of link-local frames; the port that survey has found at
the other end; where it has found none, NEXT_MAC of the destination's address-table entry for a routed frame. -/
def Reach.frameDst (x : Reach) (p : PortId) (b : FrameBody) : BitVec 48 :=
  if linkLocal b then ptpAddress
  else if (x.port p).peer.isSome then (x.port p).peerMac
  else match b with
    | .frt q => if q.routed.isSome then addrNextMac (Tab.getD x.addr q.dst.toNat []) else 0
    | _ => 0

/-- PORT_FRAME_START: a free port selects its next frame and starts it; `ending` says how the frame ends (R325, R341). -/
def portFrameStart (r : ReachId) (now : Time) (p : PortId) (ending : FrameEnd) (c : Chip) : Chip :=
  let c := c.at r now
  let x := c.reach r
  let m := x.mac p
  let t := x.time.now
  if !m.up || later t m.busyUntil || x.service != .inService then c
  else match x.select r p t with
    | none => c
    | some (ch, turn) =>
      let m' := { m.start ch t (x.gbps p) with drrClass := turn.cls, drrGot := turn.got, deficit := turn.deficit }
      if (x.port p).state != .usable && !linkLocal ch.frame.body then
        -- the router sends nothing else on a port that is not USABLE (R261): the frame is dropped
        (c.onMac r p (fun _ => m.pop ch.tc ch.sub)).freeIngress r ch.frame.ingress ch.frame.inQueue ch.frame.len
          |>.onReach r (fun x =>
            let x := x.onPort p (fun q => { q with dropHeld := q.dropHeld + 1, drops := q.drops + 1 })
            if ch.tc < 6 then x.gaugeAdd 4 (p.val * 1024 + ch.tc * 128 + ch.sub) 2 1 else x)
      else
        let c := c.onMac r p (fun _ => m'.endFrame ending)
        let c := if h : ch.frame.ingress < 7 then c.onMac r ⟨ch.frame.ingress, h⟩ (fun m => m.copyEnded ending) else c
        let c := c.onReach r (fun x =>
          let x := x.onPort p (fun q => q.sent ch.tc ch.frame.len)
          let x := (x.gaugeAdd 6 p.val (2 * ch.tc) 1).gaugeAdd 6 p.val (2 * ch.tc + 1) ch.frame.len
          if ch.tc < 6 then
            let o := p.val * 1024 + ch.tc * 128 + ch.sub
            (x.gaugeAdd 4 o 0 1).gaugeAdd 4 o 1 ch.frame.len
          else x)
        let c := c.freeIngress r ch.frame.ingress ch.frame.inQueue ch.frame.len
        c.emit (.frame r p (x.frameDst p ch.frame.body) (portAddress r p) ch.frame.vid ch.frame.len
          (if (endCause ending).isSome then .stomped else .good) ch.frame.body)

/-- MAC_CT_RESET's effect: LEVEL returns to 1 (R328). -/
def Mac.levelReset (m : Mac) : Mac := { m with level := 1 }

/-- UNCORRECTABLE_CODEWORD: counted, and more than 64 within 1 ms raise the link-degrade alert; the port stays as it is
(R324). -/
def uncorrectableCodeword (r : ReachId) (now : Time) (p : PortId) (c : Chip) : Chip :=
  let c := c.at r now
  let t := c.now r
  let m := (c.reach r).mac p
  let recent := (m.uncorrTimes.filter (fun s => decide (timeDiff s t < nsUnits 1000000))) ++ [t]
  let alarm := decide (64 < recent.length)
  let c := c.onMac r p (fun m => { m with uncorr := sat48 (m.uncorr + 1), uncorrTimes := if alarm then [] else recent })
  if alarm then c.health r 0 7 0x0E p.val 0 0 0 else c

end Sys2Proof.Machine
end

