-- ==== Sys2Proof/Machine/PlanOps.lean ====
section
/-!
DEFINITION. What the plan service does with a plan outside its rounds (R66, R69 to R72, R131, R343, R344): load and
reservation, the start agreement, resume, unload, and the stop that a driver or a peer asks for.
-/

namespace Sys2Proof.Machine

/-- The largest boundary of a plan's lock cycle that is not later than a time (R343). -/
def clockAt (h : PlanHeader) (now : Time) : LockClock :=
  let k := timeDiff h.cycleBase now / h.lockCycle.toNat
  { cycle := h.lockCycle, base := h.cycleBase, roundCycles := h.roundCycles,
    boundary := h.cycleBase + BitVec.ofInt 64 (k * h.lockCycle.toNat), count := k }

/-- The plan service sets the credit words of the plan's collectives on this node to zero (R298). -/
def Reach.zeroCredits (x : Reach) (k : Container) (me : Word16) : Reach :=
  k.colls.foldl (fun x d => ((d.membersOf k.members).filter (fun m => k.peers.getD m.peer 0xFFFF == me)).foldl
    (fun x m => x.onTile (m.tile % 64) (fun t =>
      { t with spad := Mem.zeroRange t.spad m.creditAddr (m.creditAddr + 8 * (1 + d.edgeSlots)) })) x) x

/-! ### Runs pinned for moves and placements (R131, R155) -/

/-- The runs of one range as a plan keeps them. -/
def pinRuns (c : Chip) (asid tile step va len : Nat) : List PlanRun :=
  match c.translate asid va len false false with
  | .ok rs => (rs.foldl (fun (s : List PlanRun × Nat) q =>
      (s.1 ++ [{ tile := tile, step := step, va := s.2, pa := q.run.pa, len := q.run.len }], s.2 + q.run.len)) ([], va)).1
  | .error _ => []

/-- All runs that a plan pins on a reach. -/
def planRuns (c : Chip) (r : ReachId) (k : Container) : List PlanRun :=
  (k.progs.filter (fun p => p.tile / 64 == r.val)).flatMap (fun p =>
      (p.steps.zipIdx.filter (fun e => stepClass e.1.hdr == 4)).flatMap (fun e =>
        (moveOf e.1.ops).memRows.flatMap (fun row =>
          pinRuns c k.hdr.asid.toNat (p.tile % 64) (p.firstStep + e.2) row.1 row.2)))
    ++ (k.places.filter (fun e => e.reach == r.val)).flatMap (fun e => pinRuns c k.hdr.asid.toNat 0xFFFF 0 e.vaddr e.bytes)

/-! ### Installing and removing a plan -/

/-- The masks and record sets of a tile's steps, from its scratchpad as it stands at plan load (R121). -/
def loadMasks (t : Tile) (k : Container) (tile : Nat) : Tab Hold :=
  (tileProgs k tile).flatMap (fun p => p.steps.zipIdx.map (fun e => (p.firstStep + e.2, (stepUse t.spad (p.iqBase.toNat * 4096) e.1).hold)))

/-- A tile at plan load (R113): its programs in program memory, every CEIL_VALID cleared, idle. -/
def Tile.install (t : Tile) (k : Container) (tile : Nat) : Tile :=
  { t with plan := some k.hdr.planId, progs := tileProgs k tile, masks := loadMasks t k tile, failCode := 0, seqState := 0, step := 0, phase := 0,
           recs := (Tab.mapVals t.recs recClear).filter (fun e => e.2 != 0), digests := [], copy := none, wait := none,
           redo := [], remoteOk := [], remoteRuns := [], failStep := 0, phaseEnded := false, passes := 0, resumeAt := none }

/-- The arm frame of a plan on a reach (R70). -/
def Chip.armFrame (c : Chip) (r : ReachId) (p : PlanInst) : ArmFrame :=
  let h := p.con.hdr
  { node := c.nodeId r, planId := h.planId, lockCycle := h.lockCycle, cycleBase := h.cycleBase, roundCycles := h.roundCycles,
    log2L := h.log2L, armTime := p.armTime }

/-- The peers of a plan other than this node. -/
def Chip.planPeers (c : Chip) (r : ReachId) (p : PlanInst) : List Word16 := p.con.peers.filter (fun n => n != c.nodeId r)

/-- Send a plan's arm frame to every node of its peer list (R70). -/
def Chip.sendArm (c : Chip) (r : ReachId) (p : PlanInst) : Chip :=
  forEach (c.planPeers r p) c (fun c n => c.sendKeeper r n (.planArm (c.armFrame r p)))

/-- Take the arm frames that came early for a plan. -/
def PlanService.early? (x : PlanService) (planId : Word64) : List ArmFrame := x.early.filter (fun a => a.planId == planId)

/-- Steps 3 and 4 of R66 on one reach: reservations, programs, gate lists, and the plan is armed. -/
def Chip.armPlan (c : Chip) (r : ReachId) (ref : CmdRef) (k : Container) : Chip :=
  let now := c.now r
  let p : PlanInst := { con := k, st := .arming, cmd := some ref, resuming := false, armTime := now,
                        arms := (c.reach r).plan.early? k.hdr.planId, start := 0, phase := 0, round := 0, roundStart := 0,
                        begun := false, phaseOver := false, cause := none, runs := planRuns c r k, asidGen := c.asidGen k.hdr.asid.toNat,
                        handle := ref.handle }
  let c := c.onReach r (fun x => (x.reserve r k true).zeroCredits k (c.nodeId r))
  let c := forEach (k.tilesOn r) c (fun c t => c.onTile r (t % 64) (fun y => y.install k t))
  let c := c.onPlan r (fun s => { s with plans := s.plans ++ [p], early := s.early.filter (fun a => a.planId != k.hdr.planId),
                                         clock := match s.clock with | some q => some q | none => some (clockAt k.hdr now) })
  (c.writeGates r).sendArm r p

/-! ### The start agreement (R69, R70) -/

/-- PLAN_CTRL.ARM_MARGIN. -/
def PlanService.armMargin (x : PlanService) : Time := nsTime (1000 * clampNat 50 10000 (fld x.ctrl 0 16))

/-- The first round boundary of a plan no earlier than a time (R60, R70). -/
def firstRound (k : Container) (t : Time) : Time :=
  let n : Int := k.roundTime.toNat
  k.hdr.cycleBase + BitVec.ofInt 64 (-((-(timeDiff k.hdr.cycleBase t)) / n) * n)

/-- The start that every node computes from the arm times. -/
def PlanInst.agreed (p : PlanInst) (margin : Time) : Time :=
  let latest := (p.arms.foldl (fun t a => laterOf t a.armTime) p.armTime) + margin
  firstRound p.con (if p.con.hdr.start == 0 then latest else laterOf latest p.con.hdr.start)

/-- A peer's arm frame carries other values than the plan (PLAN_PEER_MISMATCH). -/
def PlanInst.mismatch (p : PlanInst) (a : ArmFrame) : Bool :=
  let h := p.con.hdr
  a.lockCycle != h.lockCycle || a.cycleBase != h.cycleBase || a.roundCycles != h.roundCycles || a.log2L != h.log2L

/-- Post the completion that a plan owes once every named reach has finished and no reserved slot is waited for (R66,
R305). -/
def Chip.planDone (c : Chip) (r : ReachId) (handle : Word64) : Chip :=
  let mine := c.planReaches handle
  let ready := mine.all (fun q => match (c.reach q).planBy handle with
    | some p => p.st != .arming && (slotBits (p.con.reserved q 1) &&& (c.reach q).coll.waiting) == 0
    | none => true)
  match (c.reach r).planBy handle with
  | some p =>
    if !ready then c
    else match p.cmd with
      | some ref => (forEach mine c (fun c q => c.onPlanBy q handle (fun p => { p with cmd := none }))).complete ref r.val 0 p.start
      | none => c
  | none => c

/-- The arm frames that a plan holds are looked at: a mismatch fails it, and once all peers' are held the start is computed;
a start later than a non-zero START counts one choice (R70, R183). Out of LOCKED no plan is armed (R68): it fails with PLAN_NO_TIME. -/
def Chip.tryAgree (c : Chip) (r : ReachId) (handle : Word64) : Chip :=
  match (c.reach r).planBy handle with
  | none => c
  | some p =>
    if p.st != .arming || (p.con.tilesOn r).any (fun t => c.tileResets r (t % 64)) then c
    else if (c.reach r).time.servo != .locked then c.planFail r handle 0x03 0
    else match p.arms.find? p.mismatch with
      | some a => c.planFail r handle 0x0F (p.con.peers.idxOf a.node)
      | none =>
        if (c.planPeers r p).all (fun n => p.arms.any (fun a => a.node == n)) then
          let start := p.agreed (c.reach r).plan.armMargin
          let c := c.onPlanBy r handle (fun p => { p with st := .agreed, start := start })
          let c := if !p.resuming && p.con.hdr.start != 0 && later p.con.hdr.start start then
              c.tdc r 6 (some p.fn) 73 0 p.con.hdr.planId
            else c
          c.planDone r handle
        else c

/-! ### Commands and frames -/

/-- The plan on the named reaches, once the container has been fetched and every check has passed on each (R66). -/
def Chip.planTake (c : Chip) (ref : CmdRef) (p : PlanLoad) : Chip :=
  let k := containerOf p.bytes
  let named := c.namedReaches k
  let check := fun (r : ReachId) => planRefused { c := c, r := r, fn := ref.fn, k := k, bytes := p.bytes }
  match named with
  | [] =>
    -- no reach of the module is named: the gatehouse answers with what is wrong, else with the peer list
    (match check 0 with
    | some (code, idx) => c.complete ref 4 code (BitVec.ofNat 64 idx)
    | none => c.complete ref 4 0x04 0)
  | _ =>
    match named.findSome? (fun r => (check r).map (fun e => (r, e))) with
    | some (r, code, idx) => c.complete ref r.val code (BitVec.ofNat 64 idx)
    | none => forEach named (forEach named c (fun c r => c.armPlan r ref k)) (fun c r => c.tryAgree r ref.handle)

/-- PLAN_LOAD. A container in device memory is translated in the ASID its header names; a fault stalls the command (R395,
R401). -/
def planLoad (ref : CmdRef) (p : PlanLoad) (c : Chip) : Chip :=
  if !p.device then c.planTake ref p
  else
    let asid := (containerOf p.bytes).hdr.asid
    match c.translate asid.toNat p.addr.toNat p.length.toNat true false with
    | .ok _ => c.planTake ref p
    | .error e =>
      let (c', ok) := c.xltFault ref.fn 4 asid e ref.handle (.load ref p)
      if ok then c' else c'.complete ref 4 0x93 0

/-- PLAN_ARM_RX: the frame joins the plan it names, or waits for its load or resume (R70). -/
def planArmRx (r : ReachId) (now : Time) (a : ArmFrame) (c : Chip) : Chip :=
  let c := c.at r now
  let c := c.takeKeeper r (isKeeper (.planArm a))
  let put := fun (l : List ArmFrame) => l.filter (fun b => !(b.node == a.node && b.planId == a.planId)) ++ [a]
  match (c.reach r).plan.plans.find? (fun p => p.con.hdr.planId == a.planId && p.st == .arming) with
  | some p =>
    if !p.con.peers.contains a.node then c
    else (c.onPlanBy r p.handle (fun p => { p with arms := put p.arms })).tryAgree r p.handle
  | none => c.onPlan r (fun s => { s with early := put s.early })

/-- PLAN_PEER_TIMEOUT: 1 s after arming a peer's frame is missing (R66). -/
def planPeerTimeout (r : ReachId) (now : Time) (handle : Word64) (c : Chip) : Chip :=
  let c := c.at r now
  match (c.reach r).planBy handle with
  | none => c
  | some p =>
    if p.st == .arming && decide (nsUnits 1000000000 ≤ timeDiff p.armTime (c.now r)) then
      let missing := (c.planPeers r p).find? (fun n => !p.arms.any (fun a => a.node == n))
      c.planFail r handle 0x10 (match missing with | some n => p.con.peers.idxOf n | none => 0)
    else c

/-- A command names a plan of its own function by its PLAN_LOAD handle. -/
def Chip.ownPlan (c : Chip) (ref : CmdRef) (handle : Word64) : Bool :=
  let l := c.planReaches handle
  !l.isEmpty && l.all (fun r => match (c.reach r).planBy handle with | some p => p.fn == ref.fn | none => true)

/-- Every reach that holds a plan of a handle has it in a state that a test picks. -/
def Chip.planAll (c : Chip) (handle : Word64) (f : PlanInst → Bool) : Bool :=
  (c.planReaches handle).all (fun r => match (c.reach r).planBy handle with | some p => f p | none => true)

/-- A tile of a plan gets its programs again before a resume (R113). -/
def Tile.reprogram (t : Tile) (k : Container) (tile : Nat) : Tile := { t with progs := tileProgs k tile }

/-- A stopped plan is armed again on a reach: it takes the arm frames that came early, its tiles get their programs, and its arm frame goes to
every peer. -/
def Chip.rearm (c : Chip) (r : ReachId) (ref : CmdRef) (handle : Word64) : Chip :=
  match (c.reach r).planBy handle with
  | none => c
  | some p =>
    let id := p.con.hdr.planId
    let p' := { p with st := .arming, cmd := some ref, resuming := true, armTime := c.now r, arms := (c.reach r).plan.early? id }
    let c := c.onPlanBy r handle (fun _ => p')
    let c := c.onPlan r (fun s => { s with early := s.early.filter (fun a => a.planId != id) })
    let c := forEach (p.con.tilesOn r) c (fun c t => c.onTile r (t % 64) (fun y => y.reprogram p.con t))
    c.sendArm r p'

/-- PLAN_RESUME: a stopped plan is armed again on every reach (R68, R70, R72). -/
def planResume (ref : CmdRef) (handle : Word64) (c : Chip) : Chip :=
  if !c.ownPlan ref handle || !c.planAll handle (fun p => p.st == .stopped) then c.complete ref 4 0x92 0
  else match (c.planReaches handle).find? (fun r => (c.reach r).time.servo != .locked) with
    | some r => c.complete ref r.val 0x03 0
    | none =>
      let mine := c.planReaches handle
      forEach mine (forEach mine c (fun c r => c.rearm r ref handle)) (fun c r => c.tryAgree r handle)

/-- A plan on every reach of the module enters a stoppage with cause driver request where it runs or its start is agreed. -/
def Chip.driverStop (c : Chip) (handle : Word64) : Chip :=
  forEach (c.planReaches handle) c (fun c r =>
    match (c.reach r).planBy handle with
    | some p => if p.st == .running || p.st == .agreed then c.declareStop r .driver StopInfo.none true p else c
    | none => c)

/-- PLAN_STOP (R72). -/
def planStop (ref : CmdRef) (handle : Word64) (c : Chip) : Chip :=
  if !c.ownPlan ref handle || !c.planAll handle (fun p => p.st != .arming) then c.complete ref 4 0x92 0
  else (c.driverStop handle).complete ref 4 0 0

/-- PLAN_UNLOAD (R344): a plan that runs is stopped first. -/
def planUnload (ref : CmdRef) (handle : Word64) (c : Chip) : Chip :=
  if !c.ownPlan ref handle || !c.planAll handle (fun p => p.st != .arming) then c.complete ref 4 0x92 0
  else
    let c := c.driverStop handle
    (forEach (c.planReaches handle) c (fun c r => c.releasePlan r handle)).complete ref 4 0 0

/-- PLAN_STOP_RX: a peer's notice brings the plan into the stoppage (R72). -/
def planStopRx (r : ReachId) (now : Time) (planId : Word64) (cause : BitVec 3) (c : Chip) : Chip :=
  let c := c.at r now
  let c := c.takeKeeper r (isKeeper (.planStop planId cause))
  c.stopPlans r (fun p => p.con.hdr.planId == planId) (StopCause.ofCode cause.toNat) StopInfo.none false

end Sys2Proof.Machine
end

