-- ==== Sys2Proof/Machine/SeqOps.lean ====
section
/-!
DEFINITION. The tile sequencer (R111 to R130, R144 to R147): the next step, the conditions under which it starts, the
interlock, lateness, failures, waits and phases; and the adds to signal words.
-/

namespace Sys2Proof.Machine

/-! ### The program -/

/-- The program of the tile's phase. -/
def Tile.program (t : Tile) : Option Program := t.progs.find? (fun p => p.phase == t.phase.toNat)

/-- The words of a step of the tile's phase. -/
def Tile.stepAt (t : Tile) (i : Nat) : Option StepWords :=
  match t.program with
  | some p => if p.firstStep ≤ i then p.steps[i - p.firstStep]? else none
  | none => none

/-- The program of any phase that holds a step: the steps of a tile are numbered through its programs (R111). -/
def Tile.programOf (t : Tile) (i : Nat) : Option Program :=
  t.progs.find? (fun p => decide (p.firstStep ≤ i) && decide (i < p.firstStep + p.steps.length))

/-- The phase of a step. -/
def Tile.phaseOf (t : Tile) (i : Nat) : Nat := match t.programOf i with | some p => p.phase | none => t.phase.toNat

/-- The next step to start: a failed step that runs again first, of whatever phase (R127, R139), else the one the sequencer stands at. -/
def Tile.nextStep (t : Tile) : Option (Nat × StepWords) :=
  match t.redo with
  | i :: _ => (match t.programOf i with | some p => (p.steps[i - p.firstStep]?).map (fun s => (i, s)) | none => none)
  | [] => (t.stepAt t.step).map (fun s => (t.step, s))

/-- The tile has ended its phase and no failed step is to run again. -/
def Tile.done (t : Tile) : Bool := t.phaseEnded && t.redo.isEmpty

/-- The sequencer has started step `i` and moves on. -/
def Tile.advance (t : Tile) : Tile :=
  match t.redo with
  | _ :: rest => { t with redo := rest }
  | [] => { t with step := t.step + 1 }

/-- Scratchpad address of the issue queue (R135). -/
def Tile.iqAddr (t : Tile) : Nat := t.iqBase.toNat * 4096

/-- The running plan of a tile. -/
def Chip.tilePlan (c : Chip) (r : ReachId) (t : Nat) : Option PlanInst :=
  match ((c.reach r).tile t).plan with
  | some id => (c.reach r).planOf id
  | none => none

/-! ### The interlock (R122) -/

/-- What a step of the tile holds: the masks of plan load, and for a step without them those of the scratchpad as it stands. -/
def Tile.holdOf (t : Tile) (i : Nat) (s : StepWords) : Hold :=
  match Tab.find? t.masks i with
  | some h => h
  | none => (stepUse t.spad t.iqAddr s).hold

/-- What running steps, moves and an issue-queue copy hold. -/
def Tile.holds (t : Tile) : List Hold :=
  t.running.map (fun x => ⟨x.readMask, x.writeMask, x.recReads, x.recWrites⟩)
    ++ (t.moves.filter (fun x => !x.ended)).map (fun x => ⟨x.readMask, x.writeMask, x.recReads, x.recWrites⟩)
    ++ (match t.copy with
      | some k => [⟨bankMask [(k.first, 64 * k.count)], bankMask [(t.iqAddr, 4096)], [], []⟩]
      | none => [])

/-- Two holders conflict. -/
def Hold.meets (a b : Hold) : Bool :=
  (a.writeMask &&& (b.readMask ||| b.writeMask)) != 0 || (a.readMask &&& b.writeMask) != 0
    || a.recWrites.any (fun i => b.recReads.contains i || b.recWrites.contains i)
    || a.recReads.any (fun i => b.recWrites.contains i)

/-! ### Starting a step (R125) -/

/-- The schedule entry of a step of a tile, where SCHED is 1. -/
def PlanInst.sched (p : PlanInst) (r : ReachId) (t : Nat) (phase i : Nat) (s : StepWords) : Option SchedEntry :=
  if stepSched s.hdr then p.con.schedEntry (64 * r.val + t) i phase else none

/-- The unit that runs a step is free. -/
def Tile.unitFree (t : Tile) (s : StepWords) : Bool :=
  match stepClass s.hdr with
  | 0 => !t.running.any (fun x => x.unit == .matrix)
  | 1 | 2 | 3 => !t.running.any (fun x => x.unit == .vector)
  | 4 => decide (t.moves.length < 16)
  | 5 => t.copy.isNone && decide (t.iqCount < 64)
  | _ => true

/-- Every condition of R125 holds for a step. -/
def Chip.mayStart (c : Chip) (r : ReachId) (t : Nat) (p : PlanInst) (i : Nat) (s : StepWords) : Bool :=
  let x := c.reach r
  let y := x.tile t
  let h := y.holdOf i s
  c.inService r && !x.trace.holding t && p.st == .running && y.seqState != 6 && y.seqState != 7 && y.wait.isNone && !y.done
    && notBefore y.roundStart x.time.now
    && (match p.sched r t (y.phaseOf i) i s with
      | some e => notBefore (y.roundStart + e.startOff) x.time.now
      | none => true)
    && y.unitFree s && !y.holds.any (fun k => h.meets k)

/-- Lateness of a step that starts now, in units of fabric time (R126). -/
def Chip.lateness (c : Chip) (r : ReachId) (t : Nat) (p : PlanInst) (i : Nat) (s : StepWords) : Option (Int × SchedEntry) :=
  let y := (c.reach r).tile t
  (p.sched r t (y.phaseOf i) i s).map (fun e => (timeDiff (y.roundStart + e.startOff) (c.now r), e))

/-- The lateness beyond which a late stoppage is declared (R71). -/
def PlanInst.lateLimit (p : PlanInst) (e : SchedEntry) : Int :=
  nsUnits e.freeboard + (if p.con.hdr.stopThresh = 0 then p.con.roundTime.toNat else p.con.hdr.stopThresh * p.con.hdr.lockCycle.toNat)

/-- A tile is traced (R470). -/
def Reach.traced (x : Reach) (t : Nat) : Bool := flag x.trace.tileMask t

/-- The STEP record of a step of a traced tile (R469): its start with the lateness in ns, or its end with its cycles. -/
def Chip.stepTrace (c : Chip) (r : ReachId) (t i cls : Nat) (ends : Bool) (v : Nat) : Chip :=
  let y := (c.reach r).tile t
  if !(c.reach r).traced t then c
  else c.trace r 2 t (c.tileOwner r t).val
    (BitVec.ofNat 64 (i % 2 ^ 32 + (cls + bitAt ends 4 + y.phase.toNat * 2 ^ 8) * 2 ^ 32))
    (BitVec.ofNat 64 (v % 2 ^ 32 + ((y.plan.getD 0).toNat % 2 ^ 32) * 2 ^ 32))

/-- Declare a late stoppage at a step of a tile. -/
def Chip.lateStop (c : Chip) (r : ReachId) (t i : Nat) (p : PlanInst) : Chip :=
  c.declareStop r .late { StopInfo.none with tile := 64 * r.val + t, step := i } true p

/-- Lateness in a tile's gauges, in units of 2^-16 ns: any counts as a late start, its whole nanoseconds in sum and maximum (R71, R466). -/
def Reach.lateStart (x : Reach) (t late : Nat) : Reach :=
  ((x.gaugeAdd 1 t 5 1).gaugeAdd 1 t 6 (late / 65536)).gaugeMax 1 t 7 (late / 65536)

/-- What every started step leaves: gauges of starts, interlock cycles and lateness, the trace record, and the tile RUNNING (R71, R466). -/
def Chip.begin (c : Chip) (r : ReachId) (t i : Nat) (s : StepWords) (late hold : Nat) : Chip :=
  let c := c.onReach r (fun x =>
    let x := (x.gaugeAdd 1 t 0 1).gaugeAdd 1 t 3 hold
    let x := if late = 0 then x else x.lateStart t late
    x.onTile t (fun y => { y with seqState := 3 }))
  c.stepTrace r t i (stepClass s.hdr) false (late / 65536)

/-- The sequencer starts its next step if a test picks it and R125 allows it: `k` is the step's effect. A step later than the
limit of R71 does not start: the late stoppage comes first. -/
def Chip.startStep (c : Chip) (r : ReachId) (t hold : Nat) (pick : StepWords → Bool)
    (k : PlanInst → Nat → StepWords → Chip → Chip) : Chip :=
  match c.tilePlan r t, ((c.reach r).tile t).nextStep with
  | some p, some (i, s) =>
    if !pick s || !c.mayStart r t p i s then c
    else match c.lateness r t p i s with
      | some (d, e) =>
        if p.lateLimit e < d then c.lateStop r t i p
        else k p i s (c.begin r t i s d.toNat hold)
      | none => k p i s (c.begin r t i s 0 hold)
  | _, _ => c

/-- LATE_STOPPAGE: the next step of a tile is later than the limit of R71. -/
def lateStoppage (r : ReachId) (now : Time) (t : TileId) (c : Chip) : Chip :=
  let c := c.at r now
  match c.tilePlan r t.val, ((c.reach r).tile t.val).nextStep with
  | some p, some (i, s) =>
    let y := (c.reach r).tile t.val
    if p.st != .running || y.seqState == 6 || y.seqState == 7 || y.done then c
    else match c.lateness r t.val p i s with
      | some (d, e) => if p.lateLimit e < d then c.lateStop r t.val i p else c
      | none => c
  | _, _ => c

/-! ### Failures (R109, R145) -/

/-- A tile takes the failure of a step: the first code stays, and the tile is FAILED. A step that had started runs again first on resume; one
that the sequencer still stands at, such as a wait, counts as not started (R127). -/
def Tile.failed (t : Tile) (i code : Nat) (started : Bool) : Tile :=
  { t with failCode := if t.failCode == 0 then BitVec.ofNat 8 code else t.failCode, failStep := if t.seqState == 7 then t.failStep else i,
           seqState := 7, wait := none, redo := if started && !t.redo.contains i then t.redo ++ [i] else t.redo }

/-- A step of a tile fails, and the plan enters a stoppage where it runs. -/
def Chip.tileFail (c : Chip) (r : ReachId) (t i code : Nat) (cause : StopCause) (coll : Nat) (started : Bool) : Chip :=
  let c := c.onTile r t (fun y => y.failed i code started)
  match c.tilePlan r t with
  | some p =>
    if p.st == .running || p.st == .agreed then
      c.declareStop r cause { code := code, tile := 64 * r.val + t, coll := coll, step := i, node := 0xFFFF, round := none } true p
    else c
  | none => c

/-- Stoppage cause of a failure code (tables "Arithmetic failures" and "Sequencer failures"). -/
def failCause (code : Nat) : StopCause := if code = 0x52 then .late else if code = 0x54 then .collective else .fault

/-- A step of a tile that had started fails with a code. -/
def Chip.stepFail (c : Chip) (r : ReachId) (t i code : Nat) : Chip := c.tileFail r t i code (failCause code) 0xFFFF true

/-- A step that the sequencer itself runs, and still stands at, fails with a code. -/
def Chip.waitFail (c : Chip) (r : ReachId) (t i code : Nat) : Chip := c.tileFail r t i code (failCause code) 0xFFFF false

/-! ### Free bytes -/

/-- Put free bytes into a range of a tile's scratchpad. -/
def Chip.scramble (c : Chip) (r : ReachId) (t a n : Nat) : Chip :=
  let (bs, c) := c.freeBytes n
  c.onTile r t (fun y => { y with spad := Mem.writeBytes y.spad a bs })

/-! ### Signal words (R130) -/

/-- Scratchpad ranges of a tile meet an uncorrectable error: the first line that does. -/
def Tile.spadErr (t : Tile) (rs : List (Nat × Nat)) : Option Nat :=
  t.spadUe.find? (fun l => rs.any (fun q => q.2 != 0 && decide (q.1 / 64 ≤ l) && decide (l ≤ (q.1 + q.2 - 1) / 64)))

/-- Scratchpad lines that ranges cover whole no longer hold an uncorrectable error once they are written. -/
def Tile.heal (t : Tile) (rs : List (Nat × Nat)) : Tile :=
  { t with spadUe := t.spadUe.filter (fun l => !rs.any (fun q => decide (q.1 ≤ 64 * l) && decide (64 * l + 64 ≤ q.1 + q.2))) }

/-- The value of a signal word. -/
def Tile.signal (t : Tile) (a : Nat) : Nat := Mem.readLe t.spad a 8

/-- Add to a signal word, mod 2^64. -/
def Tile.signalAdd (t : Tile) (a n : Nat) : Tile := { t with spad := Mem.writeLe t.spad a 8 (t.signal a + n) }

/-! ### Waits (R127 to R129) -/

/-- A sequencer-run step waits until a time. -/
def Chip.waitFor (c : Chip) (r : ReachId) (t i : Nat) (deadline : Time) (state : BitVec 4) : Chip :=
  c.onTile r t (fun y => { y with wait := some { step := i, since := c.now r, deadline := deadline }, seqState := state })

/-- A sequencer-run step completes: the sequencer moves on. -/
def Chip.doneStep (c : Chip) (r : ReachId) (t i cls cycles : Nat) : Chip :=
  (c.onTile r t (fun y => { y.advance with wait := none, seqState := if y.seqState == 6 || y.seqState == 7 then y.seqState else 3 })).stepTrace
    r t i cls true cycles

/-- The step that a tile's sequencer waits in, with its words. -/
def Tile.waiting (t : Tile) : Option (SeqWait × StepWords) :=
  match t.wait with
  | some w => (t.stepAt w.step).map (fun s => (w, s))
  | none => none

/-- A WAIT_SIGNAL step compares its word: the module where it completes, or meets an uncorrectable error. -/
def Chip.compareSignal (c : Chip) (r : ReachId) (t i : Nat) (s : StepWords) (cycles : Nat) : Option Chip :=
  let y := (c.reach r).tile t
  let a := fld (s.op 0) 0 23
  match y.spadErr [(a, 8)] with
  | some l => some ((c.memUe r 5 (spadWindow + t * 0x800000 + 64 * l) 0).waitFail r t i 0x50)
  | none => if (s.op 1).toNat ≤ y.signal a then some (c.doneStep r t i 7 cycles) else none

/-- After a write into a tile's scratchpad its waiting WAIT_SIGNAL step compares again (R129); the TCLK cycles of a step that so completes,
shown by its trace record alone, are free. -/
def Chip.wakeTile (c : Chip) (r : ReachId) (t : Nat) : Chip :=
  match ((c.reach r).tile t).waiting with
  | some (w, s) =>
    if stepClass s.hdr == 7 && (((c.reach r).tile t).spadErr [(fld (s.op 0) 0 23, 8)]).isNone
        && decide ((s.op 1).toNat ≤ ((c.reach r).tile t).signal (fld (s.op 0) 0 23)) then
      let (v, c) := c.free
      c.doneStep r t w.step 7 (v.toNat % 2 ^ 32)
    else c
  | none => c

/-- After writes into scratchpads of a reach every waiting WAIT_SIGNAL step compares again (R129). -/
def Chip.wake (c : Chip) (r : ReachId) : Chip :=
  forEach (((c.reach r).tiles.filter (fun e => e.2.wait.isSome)).map (fun e => e.1)) c (fun c t => c.wakeTile r t)

/-! ### SEQ_STATUS (R146) -/

/-- STATE of a tile. A tile that runs shows what its next step waits for: its planned start (1), the interlock or a full queue (4), or the next
round (5). -/
def Reach.seqState (x : Reach) (r : ReachId) (t : Nat) : BitVec 4 :=
  let y := x.tile t
  if (y.seqState != 1 && y.seqState != 3 && y.seqState != 5) || y.wait.isSome then y.seqState
  else if y.copy.isSome && decide (64 ≤ y.iqCount) then 4
  else if y.done then 0
  else if !notBefore y.roundStart x.time.now then (if y.seqState == 5 then 5 else 1)
  else match (match y.plan with | some id => x.planOf id | none => none), y.nextStep with
    | some p, some (i, s) =>
      let waits := match p.sched r t (y.phaseOf i) i s with
        | some e => !notBefore (y.roundStart + e.startOff) x.time.now
        | none => false
      let queueFull := (stepClass s.hdr == 4 && decide (16 ≤ y.moves.length)) || (stepClass s.hdr == 5 && decide (64 ≤ y.iqCount))
      if waits then 1 else if queueFull || y.holds.any (fun k => (y.holdOf i s).meets k) then 4 else 3
    | _, _ => 3

/-- SEQ_STATUS (R146): while STATE is 7, STEP is the failed step. -/
def Reach.seqStatus (x : Reach) (r : ReachId) (t : Nat) : Word64 :=
  let y := x.tile t
  let step := if y.seqState == 7 then y.failStep else (match y.redo with | i :: _ => i | [] => y.step)
  BitVec.ofNat 64 ((x.seqState r t).toNat + y.failCode.toNat * 2 ^ 8 + step % 2 ^ 32 * 2 ^ 16 + y.phase.toNat * 2 ^ 48)

/-! ### Phases (R62, R144) -/

/-- The number of a phase of a plan, by its place in the phase table. -/
def PlanInst.phaseNo (p : PlanInst) : Nat := match p.con.phaseOrder[p.phase]? with | some e => e.phase | none => 0

/-- A tile enters a phase at a round boundary: at its program's first step, or ended where it has none (R62, R144). -/
def Tile.enterPhase (t : Tile) (k : Container) (tile phase : Nat) (start : Time) : Tile :=
  let t := { t with phase := BitVec.ofNat 8 phase, wait := none, roundStart := start, passes := 0 }
  match k.program tile phase with
  | some p => { t with step := p.firstStep, iqBase := p.iqBase, phaseEnded := false, seqState := 1 }
  | none => { t with phaseEnded := true, seqState := 0 }

/-- Steps, moves and copies of a tile have all ended. -/
def Tile.quiet (t : Tile) : Bool := t.running.isEmpty && t.moves.all (fun m => m.ended) && t.copy.isNone

/-- A tile that has made one more round end has no further round in its phase: the phase has ROUNDS rounds (R62, R144), even where
a resumed round made the tile run ahead of the plan's count. -/
def Tile.lastRound (t : Tile) (p : PlanInst) : Bool :=
  match p.con.phaseOrder[p.phase]? with
  | some e => e.rounds != 0 && decide (e.rounds ≤ t.passes + 1)
  | none => false

/-- A round end: the phase's first step starts in the next round. A tile whose plan has moved to another phase enters that
one. -/
def Chip.roundEnd (c : Chip) (r : ReachId) (t : Nat) (p : PlanInst) : Chip :=
  c.onTile r t (fun y =>
    if p.phaseOver then { y with phaseEnded := true, seqState := 0, wait := none }
    else if y.phase.toNat != p.phaseNo then y.enterPhase p.con (64 * r.val + t) p.phaseNo p.roundStart
    else match y.program with
      | some g => { y with step := g.firstStep, seqState := 5, wait := none, roundStart := y.roundStart + p.con.roundTime,
                           passes := y.passes + 1, phaseEnded := y.lastRound p }
      | none => y)

/-- A phase end: the tile has ended the phase. -/
def Chip.phaseEnd (c : Chip) (r : ReachId) (t : Nat) (p : PlanInst) : Chip :=
  c.onTile r t (fun y =>
    if !p.phaseOver && y.phase.toNat != p.phaseNo then y.enterPhase p.con (64 * r.val + t) p.phaseNo p.roundStart
    else { y with phaseEnded := true, seqState := 0, wait := none })

end Sys2Proof.Machine
end

