-- ==== Sys2Proof/Machine/RmeCore.lean ====
section
/-!
DEFINITION. The remote-memory engine as it takes work (R190 to R201, R213): contexts and their registers, the submitters' next
entries, the checks and the translation of an entry, failures of a context, and what a submitter is told.
-/

namespace Sys2Proof.Machine

/-! ### Contexts and registers -/

/-- Change the RME of a reach. -/
def Chip.onRme (c : Chip) (r : ReachId) (f : Rme → Rme) : Chip := c.onReach r (fun x => { x with rme := f x.rme })

/-- Index of a queue-pair number on its reach (R196). -/
def qpIndex (qpn : BitVec 24) : Nat := qpn.toNat % 2 ^ 14

/-- The context of a queue-pair number on a reach. -/
def Reach.qp (x : Reach) (qpn : BitVec 24) : Option Qp :=
  match Tab.find? x.rme.qps (qpIndex qpn) with
  | some q => if q.qpn == qpn then some q else none
  | none => none

/-- Change a context. -/
def Chip.onQp (c : Chip) (r : ReachId) (qpn : BitVec 24) (f : Qp → Qp) : Chip :=
  c.onRme r (fun m => { m with qps := Tab.update m.qps (qpIndex qpn) (fun q => if q.qpn == qpn then f q else q) })

/-- FRT_RTX fields (R255). -/
def Rme.rto (m : Rme) (retries : Nat) : Time := nsTime (1000 * clampNat 5 1000 (fld m.rtx 0 16) * 2 ^ retries)
def Rme.dupThresh (m : Rme) : Nat := max 1 (fld m.rtx 16 4)
def Rme.ackEvery (m : Rme) : Nat := clampNat 1 64 (fld m.rtx 24 8)
def Rme.ackDelay (m : Rme) : Time := nsTime (max 100 (fld m.rtx 32 16))

/-- Bytes of a barge of a context (R227, R253). -/
def Rme.bargeOf (m : Rme) (q : Qp) : Nat := if q.encap then (fld m.encap 24 3 + 1) * 1024 else 8192

/-- Operations taken and not retired on the reach (R197). -/
def Rme.outstanding (m : Rme) : Nat := m.qps.foldl (fun n e => n + e.2.ops.length) 0

/-- RECVs that stand posted (R211). -/
def Qp.standing (q : Qp) : List PostedRecv := q.recvs.filter (fun x => !x.taken && x.status.isNone)

/-- READs and returning FETCH_ADDs outstanding (R210). -/
def Qp.reading (q : Qp) : Nat :=
  (q.ops.filter (fun o => o.status.isNone && (o.entry.op == 2 || (o.entry.op == 5 && o.entry.ret)))).length

/-! ### Work entries -/

/-- A work entry from its 64 bytes (R191). -/
def workOf (b : List Byte) : WorkEntry :=
  let w := leAt b 0 4
  { fmt := BitVec.ofNat 4 w, op := BitVec.ofNat 4 (natBits w 4 4), tc := BitVec.ofNat 3 (natBits w 8 3), lsigEn := natBit w 11,
    ret := natBit w 12, lspace := BitVec.ofNat 2 (natBits w 13 2), scope := natBit w 15, win := BitVec.ofNat 16 (w / 65536),
    qpn := BitVec.ofNat 24 (leAt b 4 3), laddr := BitVec.ofNat 64 (leAt b 8 8), length := BitVec.ofNat 32 (leAt b 0x10 4),
    rkey := BitVec.ofNat 32 (leAt b 0x14 4), roff := BitVec.ofNat 64 (leAt b 0x18 8), skey := BitVec.ofNat 32 (leAt b 0x20 4),
    soff := BitVec.ofNat 48 (leAt b 0x28 6), add := BitVec.ofNat 64 (leAt b 0x30 8),
    lsigAddr := BitVec.ofNat 23 (leAt b 0x38 4) }

/-- Bytes that an entry moves (R192): a FETCH_ADD always 8. -/
def workBytes (e : WorkEntry) : Nat := if e.op == 5 then 8 else e.length.toNat

/-- The entry has a local range: all but a FENCE, a FLUSH and a FETCH_ADD that returns nothing. -/
def hasLocal (e : WorkEntry) : Bool := decide (e.op.toNat ≤ 4) || (e.op == 5 && e.ret)

/-- The entry reads its local range: WRITE, WRITE_SIGNAL and SEND; the others write it. -/
def readsLocal (e : WorkEntry) : Bool := e.op == 0 || e.op == 1 || e.op == 3

/-- Packets of the operation that carry a PSN of this direction (R227): a barge for each piece of a WRITE, WRITE_SIGNAL or
SEND, one for any other that sends. -/
def workPackets (e : WorkEntry) (barge : Nat) : Nat :=
  if readsLocal e then max 1 ((workBytes e + barge - 1) / barge) else if e.op == 2 || e.op == 5 then 1 else 0

/-! ### Submitters -/

/-- A chain's next entry for the RME: the oldest chain of its ring that has an entry left. -/
def Chip.ringHead (c : Chip) (ref : CmdRef) : Option TakenChain :=
  match (c.fn ref.fn).out.find? (fun t => t.ring == ref.ring && !t.entries.isEmpty) with
  | some t => if t.handle == ref.handle then some t else none
  | none => none

/-- The module takes entries from the rings of a function: it is attached, the host port is up, its tenancy runs (R216, R379,
R407). -/
def Chip.ringsOpen (c : Chip) (f : FnId) : Bool :=
  (c.fn f).attached && !c.host.inReset && !c.host.d3hot && !(c.fn f).shutdown && (c.ten f).state == .running
    && c.gate.shutState == 0

/-- The entry at the head of a submitter, as an operation of who it is and of which function. -/
def Chip.headEntry (c : Chip) (r : ReachId) : RmeSource → Option (WorkEntry × Submitter × FnId)
  | .tile t =>
    let y := (c.reach r).tile t.val
    if y.iqCount = 0 then none
    else
      let tag := y.iqTags.headD (0, 0, 0)
      some (workOf (Mem.readBytes y.spad (y.iqAddr + 64 * y.iqHead.toNat) 64), .tile t tag.1 tag.2.1 tag.2.2, c.tileOwner r t.val)
  | .ring ref w =>
    match c.ringHead ref with
    | some t =>
      match t.entries with
      | b :: _ =>
        if natBits w.qpn.toNat 14 2 == r.val && workOf b == w then some (w, .ring ref (t.size - t.entries.length), ref.fn) else none
      | [] => none
    | none => none
  | .keeper w => some (w, .keeper, 0)

/-- The next entry that the RME may take from a submitter. -/
def Chip.nextEntry (c : Chip) (r : ReachId) (src : RmeSource) : Option (WorkEntry × Submitter × FnId) :=
  match src with
  | .ring ref _ => if c.ringsOpen ref.fn then c.headEntry r src else none
  | _ => c.headEntry r src

/-- Requester number of a submitter on the issue path (R182). -/
def issuer : RmeSource → Nat
  | .tile t => t.val
  | .ring ref _ => 64 + ref.fn.val * 256 + ref.ring.toNat
  | .keeper _ => 16448

/-- Tag of a submitter's next entry (R182): when it became visible to the RME. A keeper's becomes so as the keeper brings it. -/
def Chip.issueTag (c : Chip) (r : ReachId) (src : RmeSource) : Time :=
  match src with
  | .tile t => ((c.reach r).tile t.val).iqSeen.headD (c.now r)
  | .ring ref _ => ((c.ringHead ref).map (fun t => t.seen)).getD (c.now r)
  | .keeper _ => c.now r

/-- Function that owns a submitter; the keeper services belong to none. -/
def Chip.issueFn (c : Chip) (r : ReachId) : RmeSource → Option FnId
  | .tile t => some (c.tileOwner r t.val)
  | .ring ref _ => some ref.fn
  | .keeper _ => none

/-- The tiles and host rings that may have an entry for the RME of a reach at their head (R182, R195). -/
def Chip.rmeSources (c : Chip) (r : ReachId) : List RmeSource :=
  ((c.reach r).tiles.filter (fun e => decide (0 < e.2.iqCount))).map (fun e => .tile (Fin.ofNat 64 e.1))
    ++ c.host.fns.flatMap (fun e => e.2.out.filterMap (fun t =>
        match t.entries with
        | b :: _ =>
          if natBits (workOf b).qpn.toNat 14 2 == r.val then
            some (.ring { fn := Fin.ofNat 64 e.1, ring := t.ring, handle := t.handle } (workOf b))
          else none
        | [] => none))

/-- The RME takes a submitter's next entry away. -/
def Chip.consume (c : Chip) (r : ReachId) (src : RmeSource) : Chip :=
  match src with
  | .tile t => c.onTile r t.val (fun y => { y with iqHead := y.iqHead + 1, iqCount := y.iqCount - 1, iqTags := y.iqTags.tail, iqSeen := y.iqSeen.tail })
  | .ring ref _ => c.onChain ref (fun t => { t with entries := t.entries.tail })
  | .keeper _ => c

/-- A completion ring lets chains and entries be taken (R360): it has room, or does not exist and its records are held. -/
def Chip.cqOpen (c : Chip) (f : FnId) (cq : BitVec 8) : Bool :=
  match Tab.find? (c.fn f).rings cq.toNat with
  | some q => q.waiting.isEmpty && q.room
  | none => true

/-- Two sources are one submitter. -/
def sameSource : RmeSource → RmeSource → Bool
  | .tile a, .tile b => a == b
  | .ring a _, .ring b _ => a.fn == b.fn && a.ring == b.ring
  | .keeper _, .keeper _ => true
  | _, _ => false

/-- A submitter is stalled by a translation fault (R195). -/
def Chip.rmeStalled (c : Chip) (r : ReachId) (src : RmeSource) : Bool :=
  c.xlt.faults.any (fun e => e.stalled.any (fun s => match s with
    | .rme q t => q == r && sameSource t src
    | _ => false))

/-- Two operations have one submitter (FLUSH with SCOPE at 1). -/
def Submitter.same : Submitter → Submitter → Bool
  | .tile a _ _ _, .tile b _ _ _ => a == b
  | .ring a _, .ring b _ => a.fn == b.fn && a.ring == b.ring
  | .keeper, .keeper => true
  | _, _ => false

/-- The submitter owns a context (R193): its kind, and its function. -/
def Qp.ownedBy (q : Qp) (by_ : Submitter) (f : FnId) : Bool :=
  match by_ with
  | .tile _ _ _ _ => q.owner == 1 && q.function == f
  | .ring _ _ => q.owner == 0 && q.function == f
  | .keeper => q.owner == 2
  | _ => true

/-! ### What a submitter is told (R139, R215, R363) -/

/-- One entry of a chain has retired: the chain's status is that of the first that failed, and its record posts once all
have. -/
def Chip.entryDone (c : Chip) (source : Nat) (ref : CmdRef) (pos : Nat) (cq : BitVec 8) (recv : Bool) (status len : Nat) : Chip :=
  match c.chain? ref with
  | none => c
  | some t =>
    let t' := { t with left := t.left - 1, status := if t.status == 0 then BitVec.ofNat 8 status else t.status,
                       pos := if t.status == 0 && status != 0 then BitVec.ofNat 8 pos else t.pos }
    let c := c.onChain ref (fun _ => t')
    if t'.left != 0 then c
    else
      let x := c.record (if recv then 1 else 0) t'.status.toNat t'.pos.toNat source (if recv then len else 0) ref.handle 0
      ((c.postRecord ref.fn cq x t.nomod).dropChain ref).chainGone ref.fn ref.ring

/-- An operation of a context has completed: the gauges of operations completed and failed (R466). -/
def Chip.opGauge (c : Chip) (r : ReachId) (qpn : BitVec 24) (status : Nat) : Chip :=
  c.onReach r (fun x => x.gaugeAdd 2 (qpIndex qpn) (if status = 0 then 0 else 1) 1)

/-- An entry of a tile, a ring or a keeper has retired with a status: a tile's local signal, or the failure of its REMOTE
step; a ring's record. -/
def Chip.reportEntry (c : Chip) (r : ReachId) (by_ : Submitter) (cq : BitVec 8) (e : WorkEntry) (recv : Bool)
    (status len : Nat) : Chip :=
  match by_ with
  | .tile t step entry run =>
    if status = 0 then
      (c.onTile r t.val (fun y =>
        let y := if Tab.getD y.remoteRuns step 0 == run then { y with remoteOk := y.remoteOk ++ [(step, entry)] } else y
        if e.lsigEn then y.signalAdd e.lsigAddr.toNat 1 else y)).wakeTile r t.val
    else
      (c.onTile r t.val (fun y => { y with remoteOk := y.remoteOk.filter (fun k => k != (step, entry)) })).stepFail r t.val step 0x53
  | .ring ref pos => c.entryDone r.val ref pos cq recv status len
  | _ => c

/-- What the trace unit holds a submitter by (R473). -/
def Submitter.holdKey : Submitter → Option Nat
  | .tile t _ _ _ => some (100 + t.val)
  | .ring ref _ => some (1000 + 256 * ref.fn.val + ref.ring.toNat)
  | _ => none

/-- The RME record of an entry that the engine takes or completes, where it is traced: of a traced tile, or of a host ring while HOST_RME
is 1 (R469, R470). -/
def Chip.rmeTrace (c : Chip) (r : ReachId) (q : Qp) (by_ : Submitter) (e : WorkEntry) (complete : Bool) (status : Nat)
    (msn : BitVec 24) : Chip :=
  let traced := match by_ with
    | .tile t _ _ _ => (c.reach r).traced t.val
    | .ring _ _ => flag c.gate.trcCtrl 4
    | _ => false
  if !traced then c
  else c.traceFrom r 3 64 by_.holdKey q.function.val
    (BitVec.ofNat 64 (q.qpn.toNat + e.op.toNat * 2 ^ 24 + bitAt complete 28 + e.length.toNat * 2 ^ 32))
    (BitVec.ofNat 64 (status + q.peerNode.toNat * 2 ^ 16 + msn.toNat * 2 ^ 32))

/-! ### Failure of a context (R199, R220) -/

/-- Operations and receives that have no status yet. -/
def Qp.unretired (q : Qp) : Bool := q.ops.any (fun o => o.status.isNone) || q.recvs.any (fun x => x.status.isNone)

/-- Operation `seq` of a context fails. The first failure moves the context to ERROR: what was taken after it is flushed, what
was taken before goes on until the retransmission timer expires. -/
def Qp.fail (q : Qp) (seq : Nat) (status : BitVec 8) (due : Time) : Qp :=
  let first := q.failed.isNone
  let mark := fun (n : Nat) (s : Option (BitVec 8)) =>
    if s.isSome then s
    else if n = seq then some status
    else if first && decide (seq < n) then some 0x60
    else none
  let failed := if first then some seq else q.failed
  let ops := q.ops.map (fun (o : RmeOp) => { o with status := mark o.seq o.status, rnrDue := none })
  let recvs := q.recvs.map (fun (x : PostedRecv) => { x with status := mark x.seq x.status })
  let q : Qp := { q with state := .error, failed := failed, ops := ops, recvs := recvs, inOps := [], resps := [], held := [],
                         ackDue := none, drainCmd := if q.state == .error then q.drainCmd else none }
  { q with timer := if q.unretired then (match q.timer with | some t => some t | none => some due) else none }

/-- References on moorings are dropped (R205). -/
def Reach.dropRefs (x : Reach) (l : List Nat) : Reach :=
  let t := l.foldl (fun t i => Tab.update t i (fun m => { m with refs := m.refs - 1 })) x.rme.moorings
  { x with rme := { x.rme with moorings := t } }

/-- References that a context's arriving work holds. -/
def Qp.refs (q : Qp) : List Nat := q.inOps.flatMap (fun o => o.refs) ++ q.resps.flatMap (fun o => o.refs)

/-- Operation `seq` of a context fails: a drain in hand ends with its status. -/
def Chip.failOp (c : Chip) (r : ReachId) (qpn : BitVec 24) (seq status : Nat) : Chip :=
  match (c.reach r).qp qpn with
  | none => c
  | some q =>
    let c := c.onReach r (fun x => x.dropRefs q.refs)
    let c := c.onQp r qpn (fun q => q.fail seq (BitVec.ofNat 8 status) (c.now r + (c.reach r).rme.rto 0))
    if q.state == .error then c else c.completeOpt q.drainCmd r.val status 0

/-! ### Taking an entry (R193 to R197) -/

/-- An operation in the list of a context. -/
def mkOp (q : Qp) (e : WorkEntry) (by_ : Submitter) (runs : List Run) (tail : List Byte) (barge : Nat) (gen : BitVec 12) : RmeOp :=
  { seq := q.nextOp, entry := e, by_ := by_, runs := runs, tail := tail, msn := none, barge := barge,
    packets := workPackets e barge, sent := 0, lastPsn := 0, lastCarried := none, remoteDone := false, respGot := 0, respPkts := 0, flushWait := false, status := none,
    rnrCount := 0, waitSince := none, rnrDue := none, flushOf := [], asidGen := gen }

/-- A receive in the list of a context. -/
def mkRecv (q : Qp) (e : WorkEntry) (by_ : Submitter) (runs : List Run) (gen : BitVec 12) : PostedRecv :=
  { seq := q.nextOp, entry := e, by_ := by_, runs := runs, taken := false, status := none, rxLen := 0, asidGen := gen }

/-- Put an operation at the end of a context's list. -/
def Qp.addOp (q : Qp) (o : RmeOp) : Qp := { q with ops := q.ops ++ [o], nextOp := q.nextOp + 1 }

/-- Put a receive at the tail of a context's receive list. -/
def Qp.addRecv (q : Qp) (x : PostedRecv) : Qp := { q with recvs := q.recvs ++ [x], nextOp := q.nextOp + 1 }

/-- An entry that is refused takes its place in the order of completions with its status. `fails`: the context, if it serves, enters
ERROR (R198, R199); no other state leaves by a failed operation. -/
def Chip.refuse (c : Chip) (r : ReachId) (q : Qp) (e : WorkEntry) (by_ : Submitter) (status : Nat) (fails : Bool) : Chip :=
  let st : BitVec 8 := BitVec.ofNat 8 status
  let fails := fails && (q.state == .ready || q.state == .drain)
  let c := c.onQp r q.qpn (fun q =>
    if e.op == 4 then q.addRecv { mkRecv q e by_ [] 0 with status := if fails then none else some st }
    else q.addOp { mkOp q e by_ [] [] 8192 0 with status := if fails then none else some st })
  if fails then c.failOp r q.qpn q.nextOp status else c

/-- R193, R224 and R438: the entry is bad. -/
def Chip.badEntry (c : Chip) (r : ReachId) (q : Qp) (e : WorkEntry) (by_ : Submitter) : Bool :=
  let tile := match by_ with | .tile _ _ _ _ => true | _ => false
  e.fmt != 1 || decide (7 < e.op.toNat) || e.tc == 7 || (e.tc == 6 && (e.win == 0xFFFF || !tile || q.encap))
    || e.lspace == 3 || (e.lspace == 0 && !tile) || (e.lspace == 2 && tile)
    || (e.lsigEn && !tile)
    || (decide (e.op.toNat ≤ 2) && decide (0x80000000 < e.length.toNat))
    || ((e.op == 3 || e.op == 4) && decide (0x1000000 < e.length.toNat))
    || (q.ciphEn && ((c.reach r).cipher.fabricKey q.pkey (c.now r)).isNone)

/-- What the local range of an entry comes to. -/
inductive LocalRange where
  | ok (runs : List Run)
  | fail (status : Nat)
  | fault (f : XFault)
  deriving DecidableEq, Repr

/-- The local range of an entry (R194, R195). A signal word at LSIG_ADDR is 8-byte aligned. -/
def Chip.localRange (c : Chip) (r : ReachId) (q : Qp) (e : WorkEntry) (by_ : Submitter) : LocalRange :=
  let n := workBytes e
  if e.lsigEn && e.lsigAddr.toNat % 8 != 0 then .fail 0x67
  else if !hasLocal e then .ok []
  else if e.op == 5 && e.laddr.toNat % 8 != 0 then .fail 0x67
  else match e.lspace with
    | 0 =>
      let a := e.laddr.toNat % 2 ^ 23
      if a % 8 != 0 || n % 8 != 0 then .fail 0x67
      else if 0x600000 < a + n then .fail 0x62
      else match by_ with
        | .tile t _ _ _ => .ok [{ host := false, pa := spadWindow + t.val * 0x800000 + a, len := n }]
        | _ => .fail 0x62
    | 1 =>
      match c.translate q.asid.toNat e.laddr.toNat n (readsLocal e) (!readsLocal e) with
      | .error f => .fault f
      | .ok l =>
        let tile := match by_ with | .tile _ _ _ _ => true | _ => false
        if l.all (fun p => if p.run.host then !tile else p.reach == r) then .ok (l.map (fun p => p.run)) else .fail 0x62
    | _ => .ok [{ host := true, pa := hostKey q.function e.laddr.toNat, len := n }]

/-- The peer of a routed context can be reached (R226). -/
def Reach.peerKnown (x : Reach) (q : Qp) : Bool := !q.encap || addrValid (Tab.getD x.addr q.peerNode.toNat [])

/-- Handle that a fault record of a submitter carries. -/
def Chip.submitHandle (c : Chip) (r : ReachId) (by_ : Submitter) : Word64 :=
  match by_ with
  | .ring ref _ => ref.handle
  | .tile t _ _ _ => (match c.tilePlan r t.val with | some p => p.handle | none => 0)
  | _ => 0

/-- No limit of R197, R210 or R213 holds the entry back. -/
def Chip.roomFor (c : Chip) (r : ReachId) (q : Qp) (e : WorkEntry) : Bool :=
  !q.ops.any (fun o => o.entry.op == 6) && (e.op == 4 || (decide (q.ops.length < 256) && decide ((c.reach r).rme.outstanding < 8192)))
    && (!(e.op == 2 || (e.op == 5 && e.ret)) || decide (q.reading < q.maxRd.toNat + 1))

/-- The operations that a FLUSH of every queue pair of a submitter waits for (R213): all that stand on the contexts it owns, whoever
submitted them. -/
def Rme.opsOf (m : Rme) (by_ : Submitter) (f : FnId) : List (BitVec 24 × Nat) :=
  m.qps.flatMap (fun e => if e.2.ownedBy by_ f then e.2.ops.map (fun o => (e.2.qpn, o.seq)) else [])

/-- Runs of work that the RME of a reach has taken, of which it holds 262,144 (R396). -/
def Rme.runsHeld (m : Rme) : Nat :=
  m.qps.foldl (fun n e => n + (e.2.ops.map (fun o => o.runs.length)).sum + (e.2.recvs.map (fun x => x.runs.length)).sum) 0

/-- An entry whose context is READY, or a RECV in INIT, is checked and taken. None: the RME has no room for its
runs. -/
def Chip.takeReady (c : Chip) (r : ReachId) (src : RmeSource) (q : Qp) (e : WorkEntry) (by_ : Submitter) : Option Chip :=
  if c.badEntry r q e by_ then some ((c.consume r src).refuse r q e by_ 0x61 true)
  else match c.localRange r q e by_ with
    | .fail s => some ((c.consume r src).refuse r q e by_ s true)
    | .fault f =>
      let (c', ok) := c.xltFault q.function r.val q.asid f (c.submitHandle r by_) (.rme r src)
      some (if ok then c' else (c'.consume r src).refuse r q e by_ 0x63 true)
    | .ok runs =>
      let gen := c.asidGen q.asid.toNat
      if 262144 < (c.reach r).rme.runsHeld + runs.length then none
      else if e.op == 4 then
        if q.rqDepth.toNat ≤ q.standing.length then some ((c.consume r src).refuse r q e by_ 0x71 true)
        else some (((c.consume r src).onQp r q.qpn (fun q => q.addRecv (mkRecv q e by_ runs gen))).rmeTrace r q by_ e false 0 0)
      else if !(c.reach r).peerKnown q then some ((c.consume r src).refuse r q e by_ 0x6B true)
      else
        let l := if e.op == 7 && e.scope then (c.reach r).rme.opsOf by_ q.function else []
        let barge := (c.reach r).rme.bargeOf q
        some (((c.consume r src).onQp r q.qpn (fun q =>
          q.addOp { mkOp q e by_ runs [] barge gen with flushOf := l })).rmeTrace r q by_ e false 0 0)

/-- Completion ring that an entry without a context reports on (R363). -/
def Chip.sourceCq (c : Chip) : RmeSource → BitVec 8
  | .ring ref _ => c.cqOf ref
  | _ => 1

/-- What comes of a submitter's next entry if the RME chooses it (R193 to R198): it is refused, stalls its submitter by a fault, or is
taken. None: the submitter has no entry, or something holds it back, and it makes no claim on the issue path. Of an entry whose FMT is
not 1 no other field is looked at: it is reported bad and fails no context (R15, R193). -/
def Chip.rmeAnswer (c : Chip) (r : ReachId) (src : RmeSource) : Option Chip :=
  if !c.inService r || c.rmeStalled r src then none
  else match c.nextEntry r src with
    | none => none
    | some (e, by_, f) =>
      let bad := (c.consume r src).reportEntry r by_ (c.sourceCq src) e (e.op == 4) 0x61 0
      if by_.holdKey.any (c.reach r).trace.holding then none
      else if e.fmt != 1 then some ((c.consume r src).reportEntry r by_ (c.sourceCq src) e false 0x61 0)
      else match (c.reach r).qp e.qpn with
        | none => some bad
        | some q =>
          if !q.ownedBy by_ f then some bad
          else if q.owner == 0 && !c.cqOpen q.function (BitVec.ofNat 8 q.cqRing.toNat) then none
          else if ((c.ten q.function).state != .running || (c.fn q.function).shutdown) && q.owner != 2 then none
          else match q.state with
            | .reset | .error => some ((c.consume r src).refuse r q e by_ 0x60 false)
            | .drain | .frozen => none
            | .init => if e.op == 4 && c.roomFor r q e then c.takeReady r src q e by_ else none
            | .ready => if c.roomFor r q e then c.takeReady r src q e by_ else none

/-- Other submitters of the reach that claim the issue path too: their tags and requester numbers. -/
def Chip.rmeClaims (c : Chip) (r : ReachId) (src : RmeSource) : List (Time × Nat) :=
  ((c.rmeSources r).filter (fun s => !sameSource s src && (c.rmeAnswer r s).isSome)).map (fun s => (c.issueTag r s, issuer s))

/-- The RME chooses a submitter's entry: where others with the same tag and higher requester numbers claim the issue path, the choice
counts one ARB_TIE (R182, R195). -/
def Chip.issueTie (c : Chip) (r : ReachId) (src : RmeSource) (claims : List (Time × Nat)) : Chip :=
  match ((claims.filter (fun k => k.1 == c.issueTag r src)).map (fun k => k.2)).min? with
  | some n => c.tdc r 1 (c.issueFn r src) 64 3 (BitVec.ofNat 64 (issuer src + n * 2 ^ 32))
  | none => c

/-- The RME looks at a submitter's next entry, if it is of operation `op` or of a reserved one, and no other claim on the issue path
comes before it: an older tag, or an equal one with a lower requester number (R182, R193 to R198). -/
def rmeTake (op : BitVec 4) (r : ReachId) (now : Time) (src : RmeSource) (c : Chip) : Chip :=
  let c := c.at r now
  if (c.nextEntry r src).any (fun h => h.1.fmt == 1 && h.1.op != op && decide (h.1.op.toNat ≤ 7)) then c
  else
    let claims := c.rmeClaims r src
    let tag := c.issueTag r src
    if claims.any (fun k => k.1 < tag || (k.1 == tag && decide (k.2 < issuer src))) then c
    else ((c.issueTie r src claims).rmeAnswer r src).getD c

/-- A translation fault was refused (R402): the stalled entry fails with RME_XLT_FAULT. -/
def Chip.rmeRefuse (c : Chip) (r : ReachId) (src : RmeSource) : Chip :=
  match c.headEntry r src with
  | none => c
  | some (e, by_, _) =>
    match (c.reach r).qp e.qpn with
    | some q => (c.consume r src).refuse r q e by_ 0x63 true
    | none => (c.consume r src).reportEntry r by_ (c.sourceCq src) e (e.op == 4) 0x63 0

/-! ### Operations of the engine itself -/

/-- What comes of an operation that the engine forms: it must wait, its context refuses it, or it is taken. -/
inductive Submitted where
  | wait
  | refused (status : Nat)
  | taken (c : Chip)

/-- A collective invocation submitted it. -/
def Submitter.ofColl : Submitter → Bool
  | .coll _ _ _ => true
  | _ => false

/-- The engine takes an operation of its own on a context (R299, R169). While a freeze drains contexts, the invocations in flight run to
their end (R407). -/
def Chip.submit (c : Chip) (r : ReachId) (e : WorkEntry) (by_ : Submitter) (runs : List Run) (tail : List Byte) : Submitted :=
  match (c.reach r).qp e.qpn with
  | none => .refused 0x61
  | some q =>
    match q.state with
    | .reset | .error => .refused 0x60
    | .init | .frozen => .wait
    | .drain | .ready =>
      if q.state == .drain && !((c.ten q.function).state == .freezing && by_.ofColl) then .wait
      else if !c.roomFor r q e then .wait
      else if !(c.reach r).peerKnown q then .refused 0x6B
      else .taken (c.onQp r e.qpn (fun q => q.addOp (mkOp q e by_ runs tail ((c.reach r).rme.bargeOf q) (c.asidGen q.asid.toNat))))

end Sys2Proof.Machine
end

