-- ==== Sys2Proof/Machine/CollCore.lean ====
section
/-!
DEFINITION. What every part of a collective invocation uses (R287 to R315): its place on this node, the words it keeps in
scratchpad, chunk checks, staging entries and wharf slots, grants, and failure with its rollback.
-/

namespace Sys2Proof.Machine

/-! ### Invocations of a reach -/

/-- An invocation by its handle, its collective and the member. -/
def CollInv.is (i : CollInv) (key : Word64) (coll member : Nat) : Bool :=
  i.key == key && i.desc.coll == coll && i.member == member

/-- The invocation of a member. -/
def Reach.inv (x : Reach) (key : Word64) (coll member : Nat) : Option CollInv := x.coll.invs.find? (fun i => i.is key coll member)

/-- Two invocations are members of one exchange: of one plan, collective and round; or, unplanned, where each member has a handle of its
own, of one collective with the same member entries. -/
def CollInv.sameExchange (i j : CollInv) : Bool :=
  match i.plan with
  | some _ => j.plan == i.plan && j.key == i.key && j.desc.coll == i.desc.coll && j.round == i.round
  | none => j.plan.isNone && j.desc.coll == i.desc.coll && j.members == i.members && !j.finished

/-- The invocation of another member of the same exchange on this reach. -/
def Reach.partner (x : Reach) (i : CollInv) (m : Nat) : Option CollInv :=
  match i.plan with
  | some _ => x.inv i.key i.desc.coll m
  | none => x.coll.invs.find? (fun j => i.sameExchange j && j.member == m)

/-- Function that an invocation belongs to. -/
def Chip.collFn (c : Chip) (r : ReachId) (i : CollInv) : Option FnId :=
  match i.plan with
  | some h => ((c.reach r).planBy h).map (fun p => p.fn)
  | none => i.cmd.map (fun x => x.fn)

/-- An invocation is in flight: it has begun, and has neither ended nor failed (R311). -/
def CollInv.inFlight (i : CollInv) : Bool := !i.finished && i.code.isNone && (i.ready || !i.landed.isEmpty || !i.streamed.isEmpty)

/-- An invocation of a function is in flight on a reach. -/
def Chip.collsInFlight (c : Chip) (f : FnId) (r : ReachId) : Bool :=
  (c.reach r).coll.invs.any (fun i => i.inFlight && c.collFn r i == some f)

/-- Change one invocation. -/
def Chip.onInv (c : Chip) (r : ReachId) (i : CollInv) (f : CollInv → CollInv) : Chip :=
  c.onReach r (fun x => { x with coll := { x.coll with invs := x.coll.invs.map (fun j =>
    if j.is i.key i.desc.coll i.member then f j else j) } })

/-- The state of an invocation now. -/
def Chip.invNow (c : Chip) (r : ReachId) (i : CollInv) : CollInv := ((c.reach r).inv i.key i.desc.coll i.member).getD i

/-- A member entry of no member. -/
def CollMember.none : CollMember :=
  { fmt := 0, peer := 0, tile := 0, slotFirst := 0, inAddr := 0, wAddr := 0, tailAddr := 0, stageMoor := 0, stageDepth := 0,
    stageAddr := 0, creditAddr := 0, creditMoor := 0, readyAddr := 0, doneAddr := 0, readyBase := 0 }

/-- The entry of a member. -/
def CollInv.entry (i : CollInv) (m : Nat) : CollMember := i.members.getD m CollMember.none

/-- The invocation's own entry. -/
def CollInv.mine (i : CollInv) : CollMember := i.entry i.member

/-- The node that hosts a member. -/
def CollInv.host (i : CollInv) (m : Nat) : Word16 := i.hosts.getD m 0xFFFF

/-- What the member sends, and what it receives with each item's sender. -/
def CollInv.sends (i : CollInv) : List CollItem := sendList i.desc i.edges i.member
def CollInv.recvs (i : CollInv) : List (Nat × CollItem) := recvList i.desc i.edges i.member

/-- The edge between two members. -/
def CollInv.edge (i : CollInv) (a b : Nat) : Option CollEdge := i.edges.find? (fun e => e.from_ == a && e.dest == b)

/-- The edge slot of a credit word (R294): the level, 0 for a ring, the destination member for direct sends. -/
def CollDesc.slotOf (d : CollDesc) (x : CollItem) (dest : Nat) : Nat := if d.alg = 0 then x.level else if d.alg = 1 then 0 else dest

/-- Members that share an edge with this one. -/
def CollInv.partners (i : CollInv) : List Nat :=
  ((i.edges.filter (fun e => e.from_ == i.member)).map (fun e => e.dest)
    ++ (i.edges.filter (fun e => e.dest == i.member)).map (fun e => e.from_)).eraseDups

/-! ### Scratchpad of members on this node -/

/-- A word of a member's tile. -/
def Chip.memberWord (c : Chip) (r : ReachId) (m : CollMember) (a : Nat) : Nat := ((c.reach r).tile (m.tile % 64)).signal a

/-- Add to a word of a member's tile. -/
def Chip.memberAdd (c : Chip) (r : ReachId) (m : CollMember) (a n : Nat) : Chip :=
  (c.onTile r (m.tile % 64) (fun t => t.signalAdd a n)).wakeTile r (m.tile % 64)

/-- Bytes of a member's tile. -/
def Chip.memberRead (c : Chip) (r : ReachId) (m : CollMember) (a n : Nat) : List Byte :=
  Mem.readBytes ((c.reach r).tile (m.tile % 64)).spad a n

/-- Write bytes to a member's tile. -/
def Chip.memberWrite (c : Chip) (r : ReachId) (m : CollMember) (a : Nat) (bs : List Byte) : Chip :=
  (c.onReach r (fun x => x.writePhys (spadWindow + m.tile % 64 * 0x800000 + a) bs)).wakeTile r (m.tile % 64)

/-- Address of a chunk of IN or of W. -/
def CollInv.chunkAddr (i : CollInv) (fromIn : Bool) (k : Nat) : Nat :=
  (if fromIn then (if i.streaming then i.streamBase else i.mine.inAddr) else i.mine.wAddr) + k * i.desc.c

/-- Address of the tail of a chunk of W. -/
def CollInv.tailAddr (i : CollInv) (k : Nat) : Nat := i.mine.tailAddr + 64 * k

/-! ### Chunk checks (R292, R307, R308) -/

/-- M = 2^61 - 1. -/
def residueM : Nat := 2 ^ 61 - 1

/-- The residue of a chunk's element sum (R307). -/
def residue (bs : List Byte) : Nat :=
  (List.range (bs.length / 16)).foldl (fun s k =>
    (s + ((BitVec.ofNat 128 (leAt bs (16 * k) 16)).toInt % (residueM : Int)).toNat) % residueM) 0

/-- CHECK of a chunk by its wire format. -/
def chunkCheck (wire : Nat) (bs : List Byte) : Nat := if wire = 0 then residue bs else (crc32c bs).toNat

/-- A chunk tail (table "Chunk tail"). -/
def tailBytes (wire coll : Nat) (round : Word32) (chunk from_ step check contrib : Nat) : List Byte :=
  leBytes 4 (1 + wire * 2 ^ 4 + coll * 2 ^ 16) ++ leBytes 4 round.toNat ++ leBytes 4 chunk ++ leBytes 4 (from_ + step * 2 ^ 16)
    ++ leBytes 8 check ++ leBytes 8 contrib ++ List.replicate 32 0

/-- One add of two elements of a wire format (R291): AP128 exact, FP32 and BF16 rounded once, NaN canonical, infinity on
overflow; the sum of two negative zeros is negative zero. -/
def addElem (wire a b : Nat) : Nat :=
  let minus := if wire = 2 then 0x8000 else 0x80000000
  if wire = 0 then (a + b) % 2 ^ 128
  else if a = minus ∧ b = minus then minus
  else
    let x := laneFmt (wire == 2)
    (roundFloat x .even true (Val.add (x.decode a) (x.decode b)).1).1

/-- Bytes of an element. -/
def wireBytes (wire : Nat) : Nat := if wire = 0 then 16 else if wire = 1 then 4 else 2

/-- Add two chunks, the first operand first. -/
def addChunks (wire : Nat) (lo hi : List Byte) : List Byte :=
  let w := wireBytes wire
  (List.range (lo.length / w)).flatMap (fun k => leBytes w (addElem wire (leAt lo (w * k) w) (leAt hi (w * k) w)))

/-! ### Staging entries and wharf slots (R298, R303) -/

/-- Entries of the wharf group before those of this member: members of this node in member order. -/
def CollInv.slotBefore (i : CollInv) : Nat :=
  ((List.range i.member).filter (fun m => i.host m == i.host i.member)).foldl (fun n m => n + (i.entry m).stageDepth) 0

/-- Byte of the reduction memory at which the two operands of a staging entry stand. -/
def CollInv.wharfAt (i : CollInv) (slot entry : Nat) : Nat := slot * 131072 + (i.slotBefore + entry) * 2 * i.desc.c

/-- The item that holds a staging entry is one that adds: granted, and not done. -/
def CollInv.entryAdds (i : CollInv) (entry : Nat) : Bool :=
  match (List.range i.granted).find? (fun n => n % i.mine.stageDepth == entry && !i.done.contains n) with
  | some n => (i.recvs[n]?).any (fun e => e.2.adds)
  | none => false

/-- The slot in which the chunk of a staging entry stands: the invocation's, for an item that adds (R300). -/
def CollInv.slotOfEntry (i : CollInv) (entry : Nat) : Option Nat := if i.entryAdds entry then i.slot else none

/-- Bytes of an arriving chunk at their place: those of a chunk to be added in the slot where the invocation holds one, else in the
staging entry; the tail always in the staging entry. -/
def Chip.landChunk (c : Chip) (r : ReachId) (i : CollInv) (entry off : Nat) (bs : List Byte) : Chip :=
  let base := i.mine.stageAddr + entry * (i.desc.c + 64)
  match i.slotOfEntry entry with
  | some s =>
    let n := i.desc.c - off
    let c := c.onReach r (fun x => { x with coll := { x.coll with
      wharf := Mem.writeBytes x.coll.wharf (i.wharfAt s entry + i.desc.c + off) (bs.take n) } })
    if bs.length ≤ n then c else c.memberWrite r i.mine (base + off + n) (bs.drop n)
  | none => c.memberWrite r i.mine (base + off) bs

/-- The chunk that stands in a staging entry or its slot, and its tail. -/
def Chip.stagedChunk (c : Chip) (r : ReachId) (i : CollInv) (entry : Nat) : List Byte × List Byte :=
  let base := i.mine.stageAddr + entry * (i.desc.c + 64)
  let data := match i.slotOfEntry entry with
    | some s => Mem.readBytes (c.reach r).coll.wharf (i.wharfAt s entry + i.desc.c) i.desc.c
    | none => c.memberRead r i.mine base i.desc.c
  (data, c.memberRead r i.mine (base + i.desc.c) 64)

/-- The running invocation whose staging ring a mooring of this reach covers. -/
def Reach.stageOf (x : Reach) (moor : Nat) : Option CollInv :=
  x.coll.invs.find? (fun i => i.mine.stageMoor % 32768 == moor && !i.finished && i.code.isNone)

/-- The granted item that a staging entry's chunk is: not landed, not done. -/
def CollInv.itemAt (i : CollInv) (entry : Nat) : Option Nat :=
  (List.range i.granted).find? (fun n => n % i.mine.stageDepth == entry && !i.done.contains n && !i.landed.any (fun e => e.1 == n))

/-- A chunk stands whole in a staging entry. -/
def Chip.chunkLanded (c : Chip) (r : ReachId) (i : CollInv) (entry : Nat) (by_ : Option (BitVec 24 × BitVec 24)) : Chip :=
  match (c.invNow r i).itemAt entry with
  | some n => c.onInv r i (fun j => { j with landed := j.landed ++ [(n, by_)], lastProgress := c.now r })
  | none => c

/-- A burst runs on an adder (R453). -/
def burstOn (b : Option Time) (now : Time) : Bool := match b with | some t => later now t | none => false

/-- The wharf takes invocations (R306, R317). -/
def Coll.wharfOn (x : Coll) : Bool := x.wharfOk && flag x.ctrl 32

/-- Count the FALLBACK of an invocation on this node (R183, R306). -/
def Chip.countFallback (c : Chip) (r : ReachId) (i : CollInv) : Chip :=
  let plan := i.plan.bind (fun h => (c.reach r).planBy h)
  (c.onReach r (fun x => x.gaugeAdd 7 0 8 1)).tdc r 4 (match plan, i.cmd with | some p, _ => some p.fn | none, some ref => some ref.fn | _, _ => none) 73
    (BitVec.ofNat 32 i.desc.coll) (match plan with | some p => p.con.hdr.planId | none => 0)

/-- The lowest free group of slots. -/
def Coll.freeGroup (x : Coll) (n : Nat) : Option Nat :=
  let taken := x.held ||| x.waiting
  (List.range (65 - n)).find? (fun s => (taken &&& slotBits ((List.range n).map (fun k => s + k))) == 0)

/-- The RME loads a local operand into the slot beside the chunk that it is added to (R300). -/
def Chip.loadOperand (c : Chip) (r : ReachId) (i : CollInv) (entry : Nat) (bs : List Byte) : Chip :=
  match i.slotOfEntry entry with
  | some s => c.onReach r (fun x => { x with coll := { x.coll with wharf := Mem.writeBytes x.coll.wharf (i.wharfAt s entry) bs } })
  | none => c

/-- An invocation takes its place for adding on this node. -/
def Chip.placeInv (c : Chip) (r : ReachId) (i : CollInv) (slot : Option Nat) (fallback : Bool) : Chip :=
  (if fallback then c.countFallback r i else c).onInv r i (fun i => { i with claimed := true, slot := slot, fallback := fallback })

/-- The slot group of an unplanned invocation is released once no other member on the node holds it; loads that waited for it
may complete (R305). -/
def Chip.freeSlots (c : Chip) (r : ReachId) (i : CollInv) : Chip :=
  match i.plan, i.slot with
  | none, some s =>
    let c := c.onInv r i (fun i => { i with slot := none })
    if (c.reach r).coll.invs.any (fun j => j.plan.isNone && j.slot == some s) then c
    else
      let bits := slotBits ((List.range i.desc.slots).map (fun k => s + k))
      let reserved := (c.reach r).plan.plans.foldl (fun w p => w ||| slotBits (p.con.reserved r 1)) 0
      let c := c.onReach r (fun x =>
        let held := (x.coll.held &&& ~~~ bits) ||| (reserved &&& bits)
        { x with coll := { x.coll with held := held, waiting := x.coll.waiting &&& ~~~ bits } })
      forEach ((c.reach r).plan.plans.map (fun p => p.handle)) c (fun c h => c.planDone r h)
  | _, _ => c

/-- An invocation that holds a slot goes on at the endpoint, every member of it on this node with it: chunks that stand in the slot move to
their staging entries, and one FALLBACK counts (R306). -/
def Chip.leaveWharf (c : Chip) (r : ReachId) (i : CollInv) : Chip :=
  let mates := (c.reach r).coll.invs.filter (fun j => i.sameExchange j && j.slot.isSome && !j.finished)
  let c := forEach mates c (fun c j =>
    match j.slot with
    | none => c
    | some s =>
      let c := forEach ((List.range j.mine.stageDepth).filter j.entryAdds) c (fun c e =>
        c.memberWrite r j.mine (j.mine.stageAddr + e * (j.desc.c + 64))
          (Mem.readBytes (c.reach r).coll.wharf (j.wharfAt s e + j.desc.c) j.desc.c))
      (c.freeSlots r j).onInv r j (fun k => { k with slot := none, fallback := true }))
  c.countFallback r i

/-- An unplanned claim that lost to one of the same cycle with an older tag, or with an equal tag and a lower number (R182). -/
def CollInv.loses (j : CollInv) (now tag : Time) (node : Nat) : Bool :=
  match j.claim with
  | some (at_, t, n) => at_ == now && j.slot.isSome && (later t tag || (t == tag && decide (node < n)))
  | none => false

/-- The first chunk of a reducing invocation on this node settles where the node adds, for every member of it here: a planned one in its
reserved slots, an unplanned one in the group that it claims with the chunk's tag and node, either at the endpoint where that cannot be
(R303, R304, R306). One that holds a slot while the wharf is out of service leaves it. -/
def Chip.claimSlot (c : Chip) (r : ReachId) (i : CollInv) (tag : Time) (node : Word16) : Chip :=
  let x := (c.reach r).coll
  if !i.desc.reducing then c
  else if i.claimed then (if i.slot.isSome && !x.wharfOn then c.leaveWharf r i else c)
  else match x.invs.find? (fun j => i.sameExchange j && j.claimed) with
    | some j =>
      if x.wharfOn then c.placeInv r i (if i.plan.isSome then j.slot.map (fun _ => i.mine.slotFirst) else j.slot) false
      else (if j.slot.isSome then c.leaveWharf r j else c).placeInv r i none false
    | none =>
      if i.plan.isSome then (if x.wharfOn then c.placeInv r i (some i.mine.slotFirst) false else c.placeInv r i none true)
      else
      let c := c.grantClaim r (i.cmd.map (fun ref => ref.fn)) 73 0 { row := 2, index := 0, at_ := c.now r, tag := tag, by_ := node.toNat }
      let now := c.now r
      -- Where no group is free, a claim of the same cycle that loses to this one gives its group up.
      let c := match (if (x.freeGroup i.desc.slots).isNone then x.invs.find? (fun j => j.plan.isNone && j.desc.slots == i.desc.slots && j.loses now tag node.toNat) else none) with
        | some j => c.leaveWharf r j
        | none => c
      let c := c.onInv r i (fun i => { i with claim := some (now, tag, node.toNat) })
      let x := (c.reach r).coll
      match if x.wharfOn && !burstOn (c.reach r).bist.burstWharf (c.now r) then x.freeGroup i.desc.slots else none with
        | some s =>
          let bits := slotBits ((List.range i.desc.slots).map (fun k => s + k))
          (c.placeInv r i (some s) false).onReach r (fun x => { x with coll := { x.coll with held := x.coll.held ||| bits } })
        | none => c.placeInv r i none true

/-! ### Operations of an invocation (R298, R299, R313) -/

/-- Key of a mooring that the engine names: a plan key, its tag zero (R294, R543). -/
def collKey (key : Nat) : Word32 := BitVec.ofNat 32 (key % 2 ^ 17)

/-- The context of this reach through which it reaches a member for a grant or an abort: the other end of the queue pair of
an edge from that member, else the queue pair of an edge to it. -/
def Reach.qpToward (x : Reach) (i : CollInv) (m : Nat) : Option (BitVec 24) :=
  let back := (i.edge m i.member).bind (fun e =>
    (List.find? (fun q => q.2.peerNode == i.host m && q.2.peerQpn.toNat == e.qpn) x.rme.qps).map (fun q => q.2.qpn))
  match back with
  | some q => some q
  | none => (i.edge i.member m).map (fun e => BitVec.ofNat 24 e.qpn)

/-- A FETCH_ADD of 1 to a word of a member's credit array, nothing returned. -/
def addEntry (i : CollInv) (qpn : BitVec 24) (key : Word32) (off : Nat) : WorkEntry :=
  { fmt := 1, op := 5, tc := BitVec.ofNat 3 i.desc.tc, lsigEn := false, ret := false, lspace := 0, scope := false, win := 0xFFFF,
    qpn := qpn, laddr := 0, length := 8, rkey := key, roff := BitVec.ofNat 64 off, skey := 0, soff := 0, add := 1, lsigAddr := 0 }

/-- Add 1 to word `w` of another member's credit array: in this node's scratchpad, or by a FETCH_ADD. -/
def Chip.creditAdd (c : Chip) (r : ReachId) (i : CollInv) (m w : Nat) : Submitted :=
  if i.host m == c.nodeId r then .taken (c.memberAdd r (i.entry m) ((i.entry m).creditAddr + 8 * w) 1)
  else match (c.reach r).qpToward i m with
    | none => .refused 0x61
    | some q =>
      c.submit r (addEntry i q (collKey (i.entry m).creditMoor) (8 * w)) (.coll i.key i.desc.coll i.member) [] []

/-- Operations of an invocation that have not retired. -/
def Reach.collOps (x : Reach) (i : CollInv) : Nat :=
  x.rme.qps.foldl (fun n e => n + (e.2.ops.filter (fun o => o.by_ == .coll i.key i.desc.coll i.member)).length) 0

/-! ### Failure (R313) -/

/-- Tell the partners that are still to be told, while operations can be taken. -/
def Chip.tellAborts (c : Chip) (r : ReachId) (i : CollInv) : Chip :=
  forEach (c.invNow r i).abortLeft c (fun c m =>
    match c.creditAdd r i m 0 with
    | .wait => c
    | .refused _ => c.onInv r i (fun j => { j with abortLeft := j.abortLeft.filter (fun n => n != m) })
    | .taken c => c.onInv r i (fun j => { j with abortLeft := j.abortLeft.filter (fun n => n != m) }))

/-- Edge slots of a member's credit array. -/
def CollDesc.words (d : CollDesc) : List Nat := List.range d.edgeSlots

/-- Steps 3 to 6 of R313, once every operation of the invocation has retired: W and tails are discarded, the used counts
taken, the slots released, and the failure becomes a stoppage or completes the command. -/
def Chip.rollBack (c : Chip) (r : ReachId) (i : CollInv) : Chip :=
  let i := c.invNow r i
  match i.code with
  | none => c
  | some code =>
    if i.finished || !i.abortLeft.isEmpty || (c.reach r).collOps i != 0 then c
    else
      let m := i.mine
      let c := if i.doneAdded then c
        else (c.scramble r (m.tile % 64) m.wAddr i.desc.wBytes).scramble r (m.tile % 64) m.tailAddr (64 * i.desc.wChunks)
      let used := i.desc.words.map (fun e => (e, c.memberWord r m (m.creditAddr + 8 * (e + 1))))
      let c := c.onInv r i (fun i => { i with used := used, abortUsed := c.memberWord r m m.creditAddr, finished := true })
      let c := c.freeSlots r (c.invNow r i)
      match i.plan with
      | some h =>
        match (c.reach r).planBy h with
        | some p =>
          if p.st == .running || p.st == .agreed then
            c.declareStop r .collective { StopInfo.none with code := code.toNat, coll := i.desc.coll, step := i.rmeCode.toNat, round := some i.round } true p
          else c
        | none => c
      | none =>
        let c := c.completeOpt i.cmd r.val code.toNat 0
        c.onReach r (fun x => { x with coll := { x.coll with invs := x.coll.invs.filter (fun j => !j.is i.key i.desc.coll i.member) } })

/-- Chunks that stand in staging entries of a failed invocation are dropped: their operations are acknowledged, so that the senders'
work retires (R313). -/
def Chip.dropLanded (c : Chip) (r : ReachId) (i : CollInv) : Chip :=
  let c := forEach i.landed c (fun c e => match e.2 with
    | some (qpn, msn) => c.onQp r qpn (fun q => { q with inOps := q.inOps.map (fun o => if o.msn == msn then { o with collWait := false } else o) })
    | none => c)
  c.onInv r i (fun j => { j with landed := [] })

/-- A member fails its invocation, or learns of its failure: the first code stays (R313, R315). -/
def Chip.collFail (c : Chip) (r : ReachId) (i : CollInv) (code rme : Nat) : Chip :=
  let i := c.invNow r i
  if i.finished || i.code.isSome then c
  else
    let c := c.onInv r i (fun j => { j with code := some (BitVec.ofNat 8 code), rmeCode := BitVec.ofNat 8 rme, abortLeft := j.partners })
    ((c.dropLanded r i).tellAborts r i).rollBack r i

/-- A member finds its abort word above its used count (R313). -/
def Chip.lookAbort (c : Chip) (r : ReachId) (i : CollInv) : Chip :=
  if i.finished then c
  else if decide (i.abortUsed < c.memberWord r i.mine i.mine.creditAddr) then c.collFail r i 0x84 0 else c

/-! ### Grants (R298) -/

/-- Grant the next item of the receive list, if its staging entry is free. -/
def Chip.grantNext (c : Chip) (r : ReachId) (i : CollInv) : Chip :=
  let i := c.invNow r i
  let n := i.granted
  match i.recvs[n]? with
  | none => c
  | some (m, x) =>
    if i.code.isSome || (decide (i.mine.stageDepth ≤ n) && !i.done.contains (n - i.mine.stageDepth)) then c
    else match c.creditAdd r i m (i.desc.slotOf x i.member + 1) with
      | .wait => c
      | .refused s => c.collFail r i 0x83 s
      | .taken c =>
        let c := c.onInv r i (fun j => { j with granted := n + 1 })
        -- a member of this node sees its grant at once
        match (c.reach r).partner i m with
        | some k => c.onInv r k (fun j => { j with lastProgress := c.now r })
        | none => c

/-- Grant items while entries are free. -/
def Chip.grants (c : Chip) (r : ReachId) (i : CollInv) : Chip :=
  (List.range i.mine.stageDepth).foldl (fun c _ => c.grantNext r i) c

/-! ### Readiness and the end (R297, R301) -/

/-- The member's readiness: its READY word has reached the threshold of the round, or a streaming step takes the place of
IN. -/
def Chip.collReady (c : Chip) (r : ReachId) (i : CollInv) : Bool :=
  i.ready || (if i.streaming then true else
    decide (i.mine.readyBase + (if i.plan.isSome then i.round * i.desc.threshStep else 0) ≤ c.memberWord r i.mine i.mine.readyAddr))

/-- What a member copies from IN to W at its start: its own part (R289, R290): first chunk of IN and of W, and chunks. -/
def CollInv.ownCopy (i : CollInv) : Nat × Nat × Nat :=
  let n := i.desc.partChunks
  match i.desc.op with
  | 2 => (0, i.member * n, n)
  | 3 => (i.member * n, i.member * n, n)
  | 4 => if i.desc.root % i.desc.g = i.member then (0, 0, n) else (0, 0, 0)
  | _ => (0, 0, 0)

/-- The member becomes ready: its own part goes to W with its tails (CONTRIB 1). -/
def Chip.makeReady (c : Chip) (r : ReachId) (i : CollInv) : Chip :=
  let (a, b, n) := i.ownCopy
  if i.ready || !c.collReady r i || (i.streaming && !(List.range n).all (fun k => i.streamed.contains (a + k))) then c
  else
    let c := forEach (List.range n) c (fun c k =>
      let bs := c.memberRead r i.mine (i.chunkAddr true (a + k)) i.desc.c
      let t := tailBytes i.desc.wire i.desc.coll i.serial (b + k) i.member 0 (chunkCheck i.desc.wire bs) 1
      (c.memberWrite r i.mine (i.chunkAddr false (b + k)) bs).memberWrite r i.mine (i.tailAddr (b + k)) t)
    c.onInv r i (fun j => { j with ready := true, lastProgress := c.now r })

/-- The member's result defines a chunk of W: in OP 1 those of its own part, else all (R287, R301). -/
def CollInv.defines (i : CollInv) (k : Nat) : Bool := i.desc.op != 1 || k / max 1 i.desc.partChunks == i.member

/-- Every chunk that the member's result defines stands in W. -/
def CollInv.resultStands (i : CollInv) : Bool := i.recvs.zipIdx.all (fun e => !i.defines e.1.2.chunk || i.done.contains e.2)

/-- Every add of the member is done. -/
def CollInv.addsDone (i : CollInv) : Bool := i.recvs.zipIdx.all (fun e => !e.1.2.adds || i.done.contains e.2)

/-- The member's result stands: it adds 1 to DONE_ADDR, once (R301); and once all its chunks are in and its sends have retired the
invocation has ended. -/
def Chip.collEnd (c : Chip) (r : ReachId) (i : CollInv) : Chip :=
  let i := c.invNow r i
  if i.finished || i.code.isSome || !i.ready then c
  else
    let whole := decide (i.recvs.length ≤ i.done.length)
    let c := if i.resultStands && !i.doneAdded then
        (c.memberAdd r i.mine i.mine.doneAddr 1).onInv r i (fun j => { j with doneAdded := true })
      else c
    let sent := i.sent.foldl (fun n e => n + e.2) 0
    if whole && decide (i.sends.length ≤ sent) && (c.reach r).collOps i == 0 then
      let c := c.onInv r i (fun j => { j with finished := true })
      let c := c.freeSlots r (c.invNow r i)
      match i.plan with
      | some _ => c
      | none =>
        let c := c.completeOpt i.cmd r.val 0 0
        c.onReach r (fun x => { x with coll := { x.coll with invs := x.coll.invs.filter (fun j => !j.is i.key i.desc.coll i.member) } })
    else c

/-- An operation of an invocation has retired with a status (R313, R315). -/
def Chip.collRetired (c : Chip) (r : ReachId) (key : Word64) (coll member status : Nat) : Chip :=
  match (c.reach r).inv key coll member with
  | none => c
  | some i =>
    let c := if status = 0 then c else c.collFail r i 0x83 status
    let c := ((c.tellAborts r i).grants r i).rollBack r i
    c.collEnd r i

end Sys2Proof.Machine
end

