-- ==== Sys2Proof/Machine/FrtSend.lean ====
section
/-!
DEFINITION. Packets as the RME of a reach sends them (R225 to R237, R240 to R251): headers, routed encapsulation, encryption,
pacing, acknowledgements and answers, and the next packet of a queue pair's direction.
-/

namespace Sys2Proof.Machine

/-! ### Maintenance (R504, R505) -/

/-- A context of the maintenance service. -/
def isMaint (qpn : BitVec 24) : Bool := decide (0x3FC0 ≤ qpIndex qpn)

/-- Where the node mirror and the scratch window lie in the keeper region. -/
def mirrorPa : Nat := lpBase + 0x30000000
def scratchPa : Nat := lpBase + 0x31000000

/-- The two maintenance moorings of a reach. -/
def maintMooring (i : Nat) : Mooring :=
  { valid := true, space := 0, plan := false, rights := if i = 0 then 1 else 15, pkey := 1, tag := 1, bindEn := false, function := 0,
    base := 0, length := if i = 0 then 0x100000 else 0x1000000, asid := 0, bindQpn := 0, fnGen := 0,
    runs := [{ host := false, pa := if i = 0 then mirrorPa else scratchPa, len := if i = 0 then 0x100000 else 0x1000000 }],
    refs := 0, withdraw := none, inUse := true }

/-- The mooring of an index. -/
def Reach.mooring (x : Reach) (i : Nat) : Option Mooring :=
  if i < 2 then some (maintMooring i) else Tab.find? x.rme.moorings i

/-! ### Sequence numbers (R240) -/

/-- Distance from `a` to `b`, mod 2^24. -/
def dist24 (a b : BitVec 24) : Nat := (b - a).toNat

/-- `a` lies before `b`, over half the space. -/
def before24 (a b : BitVec 24) : Bool := decide (dist24 a b ≠ 0) && decide (dist24 a b < 2 ^ 23)

/-! ### One packet to the router -/

/-- One FCLK cycle, rounded up. -/
def fclkTime : Time := 36409

/-- The transmit time of a reach's next packet: no two share one (R236, R237). -/
def Chip.stamp (c : Chip) (r : ReachId) : Time × Chip :=
  let last := (c.reach r).rme.lastTxStamp
  let t := if later last (c.now r) then c.now r else last + fclkTime
  (t, c.onRme r (fun m => { m with lastTxStamp := t }))

/-- The address of a 32-byte address-table entry, as a number (R226). -/
def addrOf (b : List Byte) : BitVec 128 := BitVec.ofNat 128 (leNat (sliceBytes b 4 16).reverse)

/-- The outer headers of a routed packet (R226). -/
def Chip.routedFor (c : Chip) (r : ReachId) (dst : Word16) (tc : BitVec 3) (srcQpn dstQpn : BitVec 24) : RoutedHdr :=
  let x := c.reach r
  let e := Tab.getD x.addr dst.toNat []
  { v6 := natBit (leAt e 0 1) 5, vid := addrVid e, pcp := tc,
    ipSrc := addrOf (Tab.getD x.addr (c.nodeId r).toNat []), ipDst := addrOf e,
    dscp := BitVec.ofNat 6 (fld x.rme.dscp (6 * tc.toNat) 6), ipEcn := if tc.toNat < 6 then 2 else 0,
    ttl := BitVec.ofNat 8 (max 1 (fld x.rme.encap 32 8)), ipCsum := 0, flow := (srcQpn ^^^ dstQpn).setWidth 20,
    sport := BitVec.ofNat 16 (0xC000 + srcQpn.toNat % 2 ^ 14), dport := BitVec.ofNat 16 (fld x.rme.encap 0 16), udpCsum := 0,
    extras := false }

/-- Where a packet goes and under what (R228). -/
structure FrtTo where
  encap : Bool
  ciph : Bool
  pkey : Word16
  dst : Word16
  dstQpn : BitVec 24
  srcQpn : BitVec 24
  deriving DecidableEq, Repr

/-- The peer of a context. -/
def Qp.peer (q : Qp) : FrtTo :=
  { encap := q.encap, ciph := q.ciphEn, pkey := q.pkey, dst := q.peerNode, dstQpn := q.peerQpn, srcQpn := q.qpn }

/-- The source of a packet, as the target answers it. -/
def answerTo (p : FrtPacket) : FrtTo :=
  { encap := p.routed.isSome, ciph := p.ciph, pkey := p.pkey, dst := p.src, dstQpn := p.srcQpn, srcQpn := p.dstQpn }

/-- What a packet says beside where it goes. -/
structure FrtSay where
  type : BitVec 4
  tc : BitVec 3
  psn : BitVec 24
  win : Word16
  first : Bool
  last : Bool
  ackReq : Bool
  retx : Bool
  ext : FrtExt
  payload : List Byte
  deriving DecidableEq, Repr

/-- Build a packet, encrypt it, give it its trailer and checksum, and hand it to router port 7. Without a fabric key that its
transmit time selects, an encrypted packet is not sent (R438, R440). -/
def Chip.sendFrt (c : Chip) (r : ReachId) (dest : FrtTo) (y : FrtSay) : Chip × Option FrtPacket :=
  let (t, c) := c.stamp r
  let x := c.reach r
  let p : FrtPacket :=
    { fmt := 1, type := y.type, tc := y.tc, epoch := false, ecn := if y.tc.toNat < 6 then 2 else 0, pkey := dest.pkey, dst := dest.dst,
      src := c.nodeId r, first := y.first, last := y.last, ackReq := y.ackReq, retx := y.retx, timeOk := x.time.steady,
      ciph := dest.ciph, dstQpn := dest.dstQpn, hops := 32, srcQpn := dest.srcQpn, psn := y.psn, txTime := t, hopBase := 0,
      win := if y.tc == 6 then y.win else 0xFFFF, via := 0xFFFF, ext := y.ext, payload := y.payload, tag := [], crc := 0,
      routed := if dest.encap then some (c.routedFor r dest.dst y.tc dest.srcQpn dest.dstQpn) else none }
  let sealed : Option FrtPacket :=
    if !dest.ciph then some p
    else (x.cipher.fabricKey dest.pkey t).map (fun k =>
      let s := gcmSeal k (frtIv p.src p.srcQpn t) (frtFixedHeader p) p.payload
      { p with payload := s.1, tag := s.2 })
  match sealed with
  | none => (c, none)
  | some p =>
    let p := frtSeal p
    let p := match p.routed with
      | some h =>
        let sum := if h.v6 then !flag x.rme.encap 16 else flag x.rme.encap 17
        if sum then { p with routed := some { h with udpCsum := udpChecksum p h } } else p
      | none => p
    let p := ipSeal p
    let f : RtrFrame := { ingress := 7, body := .frt p, len := frtFrameLen p, arrived := c.now r, queue := y.tc.toNat }
    (c.onRtr r (fun q => { q with inbox := q.inbox ++ [f] }), some p)

/-! ### Acknowledgements and answers (R231, R232, R242) -/

/-- The SACK field of a context. -/
def Qp.sack (q : Qp) : BitVec 128 :=
  BitVec.ofNat 128 (q.ahead.foldl (fun n p => let i := dist24 q.rcvNxt p; if 1 ≤ i ∧ i ≤ 128 then n ||| 2 ^ (i - 1) else n) 0)

/-- Send an ACK of what a context has received. -/
def Chip.sendAck (c : Chip) (r : ReachId) (qpn : BitVec 24) : Chip :=
  match (c.reach r).qp qpn with
  | none => c
  | some q =>
    let e : AckExt := { vis := q.visSeen, cumPsn := q.rcvNxt, visMsn := q.visMsn, qdelay := q.rxQdelay, pkts := q.rxPkts,
                        ecnCnt := q.rxEcn, sack := q.sack }
    let (c, _) := c.sendFrt r q.peer { type := frtAck, tc := 7, psn := 0, win := 0xFFFF, first := false, last := false,
                                       ackReq := false, retx := false, ext := .ack e, payload := [] }
    c.onQp r qpn (fun q => { q with ackPend := 0, ackDue := none, rxQdelay := 0, rxPkts := 0, rxEcn := 0 })

/-- Send an answer to the source of a packet. -/
def Chip.sendNak (c : Chip) (r : ReachId) (dest : FrtTo) (code status : Nat) (msn cum : BitVec 24) : Chip :=
  (c.sendFrt r dest { type := frtNak, tc := 7, psn := 0, win := 0xFFFF, first := false, last := false, ackReq := false, retx := false,
                      ext := .nak { code := BitVec.ofNat 8 code, status := BitVec.ofNat 8 status, msn := msn, cumPsn := cum },
                      payload := [] }).1

/-- Answer codes of R232. -/
def nakGone : Nat := 1
def nakWait : Nat := 2
def nakNoRecv : Nat := 3
def nakStatus : Nat := 4

/-- FAIL_CODE of R252: answer 1 PEER_GONE, 2 no receive, 3 status with the low six bits of the code. -/
def failCodeOf (code status : Nat) : BitVec 8 :=
  BitVec.ofNat 8 ((if code = nakNoRecv then 2 else if code = nakStatus then 3 else 1) * 64 + status % 64)

/-- An operation fails at this target: the answer goes, and the context records it for duplicates (R232). -/
def Chip.nakOp (c : Chip) (r : ReachId) (qpn msn : BitVec 24) (code status : Nat) : Chip :=
  match (c.reach r).qp qpn with
  | none => c
  | some q =>
    (c.sendNak r q.peer code status msn q.rcvNxt).onQp r qpn (fun q => { q with failMsn := msn, failCode := failCodeOf code status })

/-! ### Pacing (R245, R257) -/

def Rme.rateInit (m : Rme) : Nat := min 800000 (fld m.cc2 0 20)
def Rme.rateMin (m : Rme) : Nat := max 1 (fld m.cc2 20 20)
def Rme.burst (m : Rme) : Nat := let v := fld m.cc2 40 12; (if v = 0 then 36 else v) * 256
def Rme.idle (m : Rme) : Int := nsUnits (1000 * max 1 (fld m.cc2 52 12))

/-- The rate and credit of a direction now: grown from the last packet, or begun anew. -/
def Qp.paced (q : Qp) (m : Rme) (now : Time) : Qp :=
  let gap := timeDiff q.lastTx now
  if !q.started || decide (m.idle ≤ gap) then
    { q with rate := BitVec.ofNat 20 m.rateInit, credit := m.burst, lastTx := now, intStart := if q.started then q.intStart else now }
  else { q with credit := min (m.burst : Int) (q.credit + (q.rate.toNat : Int) * gap / (8000 * 65536)) }

/-! ### The lock class (R248, R249) -/

/-- Close of the opening of a window that a packet handed over now leaves in: the next close, in the plan that holds the
window. -/
def Reach.windowClose (x : Reach) (r : ReachId) (win pkey : Word16) : Option Time :=
  (x.plan.plans.filter (fun p => p.con.hdr.pkey == pkey)).findSome? (fun p =>
    (p.con.windows.find? (fun w => w.reach == r.val && w.win == win.toNat)).map (fun w =>
      let k := clockAt p.con.hdr x.time.now
      let close := k.boundary + w.openOff + w.length
      if later x.time.now close then close else close + k.cycle))

/-- An operation whose every barge has been acknowledged still awaits the visibility acknowledgement (R244). -/
def Qp.awaitsVis (q : Qp) (o : RmeOp) : Bool :=
  o.status.isNone && !o.remoteDone && o.sent == o.packets && decide (0 < o.packets) && (readsLocal o.entry || (o.entry.op == 5 && !o.entry.ret))
    && !q.out.any (fun p => !p.isResp && p.op == o.seq)

/-- The PSN by which the timer runs: of the oldest outstanding packet, or with none outstanding of the LAST barge of the oldest operation
that awaits visibility; and the close of the window that carried it. -/
def Qp.lead (q : Qp) : Option (BitVec 24 × Option Time) :=
  match q.out.head? with
  | some p => some (p.psn, p.carried)
  | none => (q.ops.find? q.awaitsVis).map (fun o => (o.lastPsn, o.lastCarried))

/-- The retransmission timer's deadline for a class: for the lock class it runs from the close of the window that carried the packet it runs
by, or of the one that will (R249). -/
def Chip.timerDue (c : Chip) (r : ReachId) (q : Qp) (tc : BitVec 3) (win : Word16) : Time :=
  let base := if tc == 6 then (match q.lead.bind (fun l => l.2) with
      | some t => t
      | none => ((c.reach r).windowClose r win q.pkey).getD (c.now r)) else c.now r
  base + (c.reach r).rme.rto q.retries.toNat

/-- How long the opening of a window in which a packet handed over now may leave has been open, in units of 2^-16 ns; zero where none is open. -/
def Reach.windowLate (x : Reach) (r : ReachId) (win pkey : Word16) : Nat :=
  ((x.plan.plans.filter (fun p => p.con.hdr.pkey == pkey)).findSome? (fun p =>
    (p.con.windows.find? (fun w => w.reach == r.val && w.win == win.toNat)).map (fun w =>
      let k := clockAt p.con.hdr x.time.now
      let d := (x.time.now - (k.boundary + w.openOff)).toNat
      if d < w.length.toNat then d else 0))).getD 0

/-- A tile's output is first handed over after its window has opened: the lateness counts in the tile's gauges (R71), once an operation
(DESIGN CHOICE, assumption 96). -/
def Chip.outputLate (c : Chip) (r : ReachId) (q : Qp) (by_ : Option Submitter) (say : FrtSay) : Chip :=
  match by_ with
  | some (.tile t _ _ _) =>
    let d := if say.tc == 6 && say.first && !say.retx then (c.reach r).windowLate r say.win q.pkey else 0
    if d = 0 then c else c.onReach r (fun x => x.lateStart t.val d)
  | _ => c

/-- A packet of a queue pair still stands in a lock-class queue of the reach: no window has carried it yet. -/
def Chip.uncarried (c : Chip) (r : ReachId) (q : Qp) (psn : BitVec 24) : Bool :=
  (c.reach r).macs.any (fun e => e.2.queues.any (fun y => y.tc == 6 && y.frames.any (fun f => match f.body with
    | .frt p => p.src == c.nodeId r && p.srcQpn == q.qpn && p.psn == psn
    | _ => false)))

/-- A window that closes at a time carries a packet. -/
def Qp.carry (q : Qp) (psn : BitVec 24) (close : Option Time) : Qp :=
  { q with out := q.out.map (fun o => if o.psn == psn then { o with carried := close } else o),
           ops := q.ops.map (fun o => if o.lastPsn == psn && o.msn.isSome then { o with lastCarried := close } else o) }

/-- A window carries a frame: the timer of the queue pair whose oldest packet it is runs from the close of that window (R249). -/
def Chip.windowCarries (c : Chip) (r : ReachId) (f : FrameBody) : Chip :=
  match f with
  | .frt p =>
    if p.tc != 6 || p.src != c.nodeId r then c
    else match (c.reach r).qp p.srcQpn with
      | some q =>
        let q' := q.carry p.psn ((c.reach r).windowClose r p.win q.pkey)
        c.onQp r p.srcQpn (fun _ =>
          if q.timer.isSome && q.lead.any (fun l => l.1 == p.psn) then { q' with timer := some (c.timerDue r q' p.tc p.win) } else q')
      | none => c
  | _ => c

/-- PORT_FRAME_START, with the timer that a planned frame's window sets going. -/
def portFrame (r : ReachId) (now : Time) (p : PortId) (ending : FrameEnd) (c : Chip) : Chip :=
  let x := (c.at r now).reach r
  let sent := x.select r p x.time.now
  let was := ((x.mac p).queues.map (fun y => y.frames.length)).sum
  let c := portFrameStart r now p ending c
  if (((c.reach r).mac p).queues.map (fun y => y.frames.length)).sum == was then c
  else match sent with
    | some (ch, _) => c.windowCarries r ch.frame.body
    | none => c

/-! ### The next packet -/

/-- Packets outstanding on the reach, of the 32,768 places of its retransmission lists (R243). -/
def Rme.places (m : Rme) : Nat := m.qps.foldl (fun n e => n + e.2.out.length) 0

/-- What a direction sends next: a packet again, the LAST barge of an operation again (R244), response data, or the next packet
of the oldest operation that has one left. -/
inductive NextPkt where
  | again (p : OutPkt)
  | lastOf (o : RmeOp)
  | resp (x : Resp)
  | fresh (o : RmeOp)
  deriving DecidableEq, Repr

/-- The operation of a number. -/
def Qp.op? (q : Qp) (seq : Nat) : Option RmeOp := q.ops.find? (fun o => o.seq == seq)

/-- The response of an MSN. -/
def Qp.resp? (q : Qp) (msn : Nat) : Option Resp := q.resps.find? (fun x => x.msn.toNat == msn)

/-- The next packet of a direction; new packets only within the send window and while a place is free (R240, R243). -/
def Qp.next (q : Qp) (m : Rme) : Option NextPkt :=
  match q.out.find? (fun p => p.resend && !p.sacked && (if p.isResp then (q.resp? p.op).isSome else (q.op? p.op).isSome)) with
  | some p => some (.again p)
  | none =>
    match q.again.findSome? q.op? with
    | some o => some (.lastOf o)
    | none =>
      if 128 ≤ dist24 q.sndUna q.sndNxt || 32768 ≤ m.places then none
      else match q.resps.find? (fun x => decide (x.sent < x.packets)) with
        | some x => some (.resp x)
        | none => (q.ops.find? (fun o => o.status.isNone && decide (o.sent < o.packets))).map .fresh

/-- Bytes `off` to `off + n - 1` of a source: device memory through the runs, host memory from what it has answered. -/
def Chip.sourceBytes (c : Chip) (r : ReachId) (runs : List Run) (tail : List Byte) (off n : Nat) (host : List Byte) : List Byte :=
  let got := (runSlice runs off n).foldl (fun (s : List Byte × List Byte) x =>
    if x.host then (s.1 ++ sliceBytes s.2 0 x.len, s.2.drop x.len) else (s.1 ++ (c.reach r).readPhys x.pa x.len, s.2)) ([], host)
  let all := runs.foldl (fun k x => k + x.len) 0
  got.1 ++ (tail.drop (off - all)).take (n - got.1.length)

/-- The operation extension of an operation (R229). -/
def opExtOf (e : WorkEntry) (msn : BitVec 24) (boff : Nat) : OpExt :=
  { op := e.op, ret := e.op == 5 && e.ret, msn := msn, rkey := e.rkey, roff := e.roff, length := BitVec.ofNat 32 (workBytes e),
    boff := BitVec.ofNat 32 boff, skey := if e.op == 1 then e.skey else 0, soff := if e.op == 1 then e.soff else 0, add := e.add }

/-- The packet of an operation at an offset. -/
def Chip.opPacket (c : Chip) (r : ReachId) (o : RmeOp) (msn psn : BitVec 24) (boff : Nat) (retx : Bool) (host : List Byte) : FrtSay :=
  let e := o.entry
  let n := if readsLocal e then min o.barge (workBytes e - boff) else 0
  let last := !readsLocal e || decide (workBytes e ≤ boff + n)
  { type := if e.op == 2 then frtReadReq else frtData, tc := e.tc, psn := psn, win := e.win, first := boff == 0, last := last,
    ackReq := last || retx, retx := retx, ext := .op (opExtOf e msn boff), payload := c.sourceBytes r o.runs o.tail boff n host }

/-- A mooring's runs. -/
def Reach.moorRuns (x : Reach) (i : Nat) : List Run :=
  match x.mooring i with
  | some m => m.runs
  | none => []

/-- The response packet of a READ or FETCH_ADD at an offset (R230, R251). -/
def Chip.respPacket (c : Chip) (r : ReachId) (x : Resp) (psn : BitVec 24) (boff : Nat) (retx : Bool) (host : List Byte) : FrtSay :=
  let len := match x.prior with | some _ => 8 | none => x.ext.length.toNat
  let n := min x.barge (len - boff)
  let last := decide (len ≤ boff + n)
  let data := match x.prior with
    | some v => leBytes 8 v.toNat
    | none => c.sourceBytes r ((c.reach r).moorRuns (x.refs.headD 0)) [] (x.ext.roff.toNat + boff) n host
  { type := frtReadResp, tc := x.tc, psn := psn, win := 0xFFFF, first := boff == 0, last := last, ackReq := last || retx,
    retx := retx, ext := .resp { msn := x.msn, boff := BitVec.ofNat 32 boff }, payload := data }

/-- The source bytes that a packet reads meet an uncorrectable error. -/
def Chip.sourceUe (c : Chip) (r : ReachId) (runs : List Run) (off n : Nat) : Option Nat :=
  (runSlice runs off n).findSome? (fun x => if x.host then none else (c.reach r).firstUe x.pa x.len)

/-- The packet that a choice comes to: what it says, and the context after it has been sent. -/
structure Outgoing where
  say : FrtSay
  after : Qp
  retx : Bool
  /-- Local bytes it reads, whose errors fail the operation. -/
  runs : List Run
  off : Nat
  len : Nat
  op : Option Nat

/-- Work out the next packet of a context. -/
def Chip.outgoing (c : Chip) (r : ReachId) (q : Qp) (n : NextPkt) (host : List Byte) : Option Outgoing :=
  match n with
  | .again p =>
    let after := { q with out := q.out.map (fun x => if x.psn == p.psn then { x with resend := false } else x) }
    if p.isResp then (q.resp? p.op).map (fun x =>
      { say := c.respPacket r x p.psn p.boff true host, after := after, retx := true, runs := [], off := 0, len := 0, op := none })
    else (q.op? p.op).map (fun o =>
      let y := c.opPacket r o (o.msn.getD 0) p.psn p.boff true host
      { say := y, after := after, retx := true, runs := o.runs, off := p.boff, len := y.payload.length, op := some o.seq })
  | .lastOf o =>
    let boff := (o.packets - 1) * o.barge
    let y := c.opPacket r o (o.msn.getD 0) o.lastPsn boff true host
    some { say := y, after := { q with again := q.again.filter (fun s => s != o.seq) }, retx := true, runs := o.runs, off := boff,
           len := y.payload.length, op := some o.seq }
  | .resp x =>
    let boff := x.sent * x.barge
    let p : OutPkt :=
      { psn := q.sndNxt, op := x.msn.toNat, boff := boff, isResp := true, sacked := false, sentFast := false, resend := false, carried := none }
    some { say := c.respPacket r x q.sndNxt boff false host, retx := false, runs := [], off := 0, len := 0, op := none,
           after := { q with out := q.out ++ [p], sndNxt := q.sndNxt + 1,
                             resps := q.resps.map (fun z => if z.msn == x.msn then { z with sent := z.sent + 1 } else z) } }
  | .fresh o =>
    let boff := o.sent * o.barge
    let msn := o.msn.getD q.sndMsn
    let y := c.opPacket r o msn q.sndNxt boff false host
    let p : OutPkt :=
      { psn := q.sndNxt, op := o.seq, boff := boff, isResp := false, sacked := false, sentFast := false, resend := false, carried := none }
    some { say := y, retx := false, runs := o.runs, off := boff, len := y.payload.length, op := some o.seq,
           after := { q with out := q.out ++ [p], sndNxt := q.sndNxt + 1, sndMsn := if o.msn.isNone then q.sndMsn + 1 else q.sndMsn,
                             ops := q.ops.map (fun z => if z.seq == o.seq then
                               { z with sent := z.sent + 1, msn := some msn, lastPsn := q.sndNxt } else z) } }

/-- Handle of an operation's submitter, for an error record: zero where none was given. -/
def Submitter.handle : Submitter → Word64
  | .ring ref _ => ref.handle
  | _ => 0

/-- FRT_PACKET_SEND: the next packet of a queue pair's direction leaves: an unplanned one once the direction's credit is zero or
more (R245), one of the lock class without credit (R248). `host` is what host memory answers where the source lies there. -/
def frtPacketSend (r : ReachId) (now : Time) (qpn : BitVec 24) (host : List Byte) (c : Chip) : Chip :=
  let c := c.at r now
  match (c.reach r).qp qpn with
  | none => c
  | some q =>
    if !c.inService r || !(q.state == .ready || q.state == .drain) then c
    else match q.next (c.reach r).rme with
      | none => c
      | some n =>
        match c.outgoing r q n host with
        | none => c
        | some g =>
          let unplanned := g.say.tc != 6
          let q1 := if unplanned then g.after.paced (c.reach r).rme (c.now r) else g.after
          if unplanned && decide (q1.credit < 0) then c
          else if c.host.inReset && runsHost (runSlice g.runs g.off g.len) && g.op.isSome then c.failOp r qpn (g.op.getD 0) 0x6E
          else match c.sourceUe r g.runs g.off g.len, g.op with
            | some pa, some seq =>
              (c.memUe r (ueClass pa) pa (((q.op? seq).map (fun o => o.by_.handle)).getD 0)).failOp r qpn seq 0x6C
            | _, _ =>
              let (c, sent) := c.sendFrt r q.peer g.say
              match sent with
              | none => c
              | some p =>
                let q2 := if unplanned then { q1 with credit := q1.credit - frtFrameLen p, lastTx := c.now r, started := true } else q1
                let waits := q2.ops.any (fun o => o.rnrDue.isSome)
                let q3 := match q2.timer with
                  | some _ => q2
                  | none => if waits then q2 else { q2 with timer := some (c.timerDue r q2 g.say.tc g.say.win) }
                let c := (c.onQp r qpn (fun _ => { q3 with lastPkt := c.now r })).onReach r (fun x =>
                  let x := (x.countRuns g.runs g.off g.len).gaugeAdd 2 (qpIndex qpn) 2 g.say.payload.length
                  if g.retx then x.gaugeAdd 2 (qpIndex qpn) 4 1 else x)
                let c := c.outputLate r q (g.op.bind (fun s => (q.op? s).map (fun o => o.by_))) g.say
                if g.retx then c.tdc r 5 (some q.function) 73 (BitVec.ofNat 32 qpn.toNat) (BitVec.ofNat 64 g.say.psn.toNat)
                else c

end Sys2Proof.Machine
end

