-- ==== Sys2Proof/Machine/FrtRecv.lean ====
section
/-!
DEFINITION. Packets as the RME of a reach receives them (R206 to R212, R226, R231 to R246): the checks of a packet, the classes
of R241, an operation's check against its moorings, its bytes and adds, responses, acknowledgements and answers.
-/

namespace Sys2Proof.Machine

/-! ### Checks of an operation (R206) -/

/-- The rights of a mooring that an operation asks for, by bit: RD 0, WR 1, SIG 2, FADD 3. -/
def rightBit (op : BitVec 4) : Nat := if op == 2 then 0 else if op == 5 then 3 else 1

/-- Checks 3 to 8 for one key: the index and its mooring, or the status of the first failure. `word`: a signal word or FETCH_ADD
target. -/
def Chip.moorKey (c : Chip) (r : ReachId) (q : Qp) (pkey : Word16) (key : Word32) (off len right : Nat) (word : Bool) :
    Except Nat (Nat × Mooring) :=
  let i := natBits key.toNat 0 15
  let tag := natBits key.toNat 17 15
  if natBits key.toNat 15 2 != r.val then .error 0x64
  else match (c.reach r).mooring i with
    | none => .error 0x64
    | some m =>
      let base := natBits m.base.toNat 0 23
      if !m.valid || !(m.tag.toNat == tag && tag != 0 || tag == 0 && m.plan) then .error 0x64
      else if m.pkey != pkey || (m.bindEn && m.bindQpn != q.qpn) || isMaint q.qpn != decide (i < 2) then .error 0x64
      else if !m.rights.toNat.testBit right then .error 0x65
      else if m.length.toNat < off + len then .error 0x66
      else if (word && (m.space == 2 || (m.base.toNat + off) % 8 != 0)) || (m.space == 1 && ((base + off) % 8 != 0 || len % 8 != 0))
        then .error 0x67
      else .ok (i, m)

/-- Check 9 finds the host or its function absent. -/
def Chip.moorHostAbsent (c : Chip) (m : Mooring) : Bool :=
  (m.space == 2 || runsHost m.runs) && (c.host.inReset || !c.host.trained || !(c.fn m.function).enabled)

/-- Bytes of an operation as the target checks them: a FETCH_ADD moves 8. -/
def extBytesLen (e : OpExt) : Nat := if e.op == 5 then 8 else e.length.toNat

/-- All checks of an operation that names moorings: the indices it holds references on (R206). A WRITE_SIGNAL's checks 3 to 8 are made
for RKEY, then for SKEY, then check 9. -/
def Chip.opCheck (c : Chip) (r : ReachId) (q : Qp) (pkey : Word16) (e : OpExt) : Except Nat (List Nat) :=
  match c.moorKey r q pkey e.rkey e.roff.toNat (extBytesLen e) (rightBit e.op) (e.op == 5) with
  | .error s => .error s
  | .ok (i, m) =>
    if e.op == 1 then
      match c.moorKey r q pkey e.skey e.soff.toNat 8 2 true with
      | .error s => .error s
      | .ok (j, n) => if c.moorHostAbsent m || c.moorHostAbsent n then .error 0x6E else .ok [i, j]
    else if c.moorHostAbsent m then .error 0x6E
    else .ok [i]

/-- References are taken on moorings (R205). -/
def Reach.takeRefs (x : Reach) (l : List Nat) : Reach :=
  let t := l.foldl (fun t i => Tab.update t i (fun m => { m with refs := m.refs + 1 })) x.rme.moorings
  { x with rme := { x.rme with moorings := t } }

/-! ### Arriving operations -/

/-- The arriving operation of an MSN. -/
def Qp.inOp? (q : Qp) (msn : BitVec 24) : Option InOp := q.inOps.find? (fun o => o.msn == msn)

/-- Put an arriving operation in the place of its MSN, or in its place among the others. -/
def Qp.putIn (q : Qp) (o : InOp) : Qp :=
  if (q.inOp? o.msn).isSome then { q with inOps := q.inOps.map (fun x => if x.msn == o.msn then o else x) }
  else
    let first := q.inOps.takeWhile (fun x => before24 x.msn o.msn)
    { q with inOps := first ++ [o] ++ q.inOps.drop first.length }

/-- Every byte of an arriving operation has landed. -/
def InOp.whole (o : InOp) : Bool := decide (0 < o.pkts) && decide (o.ext.length.toNat ≤ o.got)

/-- A new arriving operation. -/
def mkIn (p : FrtPacket) (e : OpExt) (ok : Bool) (refs : List Nat) : InOp :=
  { msn := e.msn, ext := e, ok := ok, refs := refs, got := 0, pkts := 0, recv := none, hostWait := false, collWait := false,
    visible := false, txTime := p.txTime, src := p.src }

/-- The word at an offset of a mooring. -/
def Chip.moorWord (c : Chip) (r : ReachId) (i off : Nat) : Option Run :=
  ((c.reach r).mooring i).bind (fun m => (runSlice m.runs off 8).head?)

/-- Add to a signal word of a mooring (R209, R212): the prior value, or the address of an uncorrectable error that leaves the word
unchanged (R159 class 5). -/
def Chip.addWord (c : Chip) (r : ReachId) (i off : Nat) (n : Word64) : Except Nat (Word64 × Chip) :=
  match c.moorWord r i off with
  | none => .ok (0, c)
  | some w =>
    if w.host then
      let (v, c) := c.free
      .ok (v, { c with host := { c.host with mem := Mem.writeBytes c.host.mem w.pa (leBytes 8 (v + n).toNat) } })
    else if (c.reach r).hasUe w.pa 8 then .error w.pa
    else
      let v := BitVec.ofNat 64 (leNat ((c.reach r).readPhys w.pa 8))
      let bs := leBytes 8 (v + n).toNat
      .ok (v, if spadWindow ≤ w.pa then (c.onReach r (fun x => x.writePhys w.pa bs)).wake r else c.serveWrite r 64 w.pa bs)

/-- An incoming operation's add claims the signal word (R182). -/
def Chip.addClaim (c : Chip) (r : ReachId) (i off : Nat) (tag : Time) (src : Word16) (qpn : BitVec 24) : Chip :=
  match c.moorWord r i off with
  | none => c
  | some w =>
    c.grantClaim r (((c.reach r).mooring i).map (fun m => m.function)) 64 i
      { row := 5, index := 2 * w.pa + if w.host then 1 else 0, at_ := c.now r, tag := tag, by_ := src.toNat * 2 ^ 16 + qpn.toNat % 2 ^ 16 }

/-- The members of this node whose credit array holds a mooring's word look at it: a grant or an abort has come (R298, R312,
R313). -/
def Chip.creditSeen (c : Chip) (r : ReachId) (i off : Nat) : Chip :=
  match c.moorWord r i off with
  | none => c
  | some w =>
    forEach ((c.reach r).coll.invs.filter (fun j =>
        let a := spadWindow + j.mine.tile % 64 * 0x800000 + j.mine.creditAddr
        decide (a ≤ w.pa) && decide (w.pa < a + 8 * (1 + j.desc.edgeSlots)))) c (fun c j =>
      (c.onInv r j (fun k => { k with lastProgress := c.now r })).lookAbort r j)

/-- Packets of a response (R227). -/
def respPackets (barge len : Nat) : Nat := max 1 ((len + barge - 1) / barge)

/-- Class of response data: the request's, or FRT_ENCAP.RESP_TC for a request of the lock class (R251, R253). -/
def Rme.respTc (m : Rme) (tc : BitVec 3) : BitVec 3 :=
  if tc.toNat < 6 then tc else let v := fld m.encap 18 3; BitVec.ofNat 3 (if v < 6 then v else 5)

/-- An operation fails at this target; a SEND fails the RECV that it took as well. -/
def Chip.failIn (c : Chip) (r : ReachId) (qpn : BitVec 24) (o : InOp) (status : Nat) : Chip :=
  let c := c.onReach r (fun x => x.dropRefs o.refs)
  let c := (c.onQp r qpn (fun q => q.putIn { o with ok := false, refs := [] })).nakOp r qpn o.msn nakStatus status
  match o.recv with
  | some n => c.failOp r qpn n status
  | none => c

/-- The first barge of an operation to arrive is checked once, and takes its references (R205, R207). A READ is answered, a
FETCH_ADD made and answered. -/
def Chip.openIn (c : Chip) (r : ReachId) (q : Qp) (p : FrtPacket) (e : OpExt) : Chip :=
  match c.opCheck r q p.pkey e with
  | .error s => c.failIn r q.qpn (mkIn p e false []) s
  | .ok refs =>
    let c := c.onReach r (fun x => x.takeRefs refs)
    let o := mkIn p e true refs
    let m := (c.reach r).rme
    let barge := m.bargeOf q
    if e.op == 2 then
      match c.sourceUe r (((c.reach r).mooring (refs.headD 0)).map (fun m => m.runs) |>.getD []) e.roff.toNat e.length.toNat with
      | some pa => (c.memUe r (ueClass pa) pa 0).failIn r q.qpn o 0x6D
      | none =>
        let x : Resp := { msn := e.msn, ext := e, prior := none, tc := m.respTc p.tc, barge := barge,
                          packets := respPackets barge e.length.toNat, sent := 0, refs := refs }
        c.onQp r q.qpn (fun q => { q.putIn { o with refs := [], pkts := 1, got := e.length.toNat, visible := true } with
          resps := q.resps ++ [x] })
    else if e.op == 5 then
      match (c.addClaim r (refs.headD 0) e.roff.toNat p.txTime p.src p.srcQpn).addWord r (refs.headD 0) e.roff.toNat e.add with
      | .error pa => (c.memUe r (ueClass pa) pa 0).failIn r q.qpn o 0x6D
      | .ok (v, c) =>
        let c := c.onQp r q.qpn (fun q =>
          let q := q.putIn { o with refs := if e.ret then [] else refs, pkts := 1, got := e.length.toNat, visible := true }
          if e.ret then { q with resps := q.resps ++ [{ msn := e.msn, ext := e, prior := some v, tc := m.respTc p.tc, barge := barge,
                                                        packets := 1, sent := 0, refs := refs }] } else q)
        c.creditSeen r (refs.headD 0) e.roff.toNat
    else c.onQp r q.qpn (fun q => q.putIn o)

/-- An operation has posted its last byte into host memory: it waits for a flush read (R219). -/
def Chip.awaitFlush (c : Chip) (r : ReachId) (x : FlushItem) : Chip :=
  c.onRme r (fun m => { m with flushQ := m.flushQ ++ [x], flushSince := if m.flushQ.isEmpty then some (c.now r) else m.flushSince })

/-- Runs that an arriving operation writes, with the offset of its first byte. -/
def Chip.inRuns (c : Chip) (r : ReachId) (q : Qp) (o : InOp) : List Run × Nat :=
  match o.recv with
  | some n => (((q.recvs.find? (fun x => x.seq == n)).map (fun x => x.runs)).getD [], 0)
  | none => ((((c.reach r).mooring (o.refs.headD 0)).map (fun m => m.runs)).getD [], o.ext.roff.toNat)

/-- A barge of an operation that passed its check is written (R208, R241, R300). -/
def Chip.landBarge (c : Chip) (r : ReachId) (qpn : BitVec 24) (p : FrtPacket) (e : OpExt) : Chip :=
  match (c.reach r).qp qpn with
  | none => c
  | some q =>
    match q.inOp? e.msn with
    | none => c
    | some o =>
      if !o.ok || o.ext.op == 2 || o.ext.op == 5 then c
      else
        let (runs, off) := c.inRuns r q o
        if c.host.inReset && runsHost (runSlice runs (off + e.boff.toNat) p.payload.length) then c.failIn r qpn o 0x6E
        else
        let c := c.onReach r (fun x => x.gaugeAdd 2 (qpIndex qpn) 3 p.payload.length)
        let stage := if o.recv.isSome then none else (c.reach r).stageOf (o.refs.headD 0x8000)
        let c := match stage with
          | some i =>
            let c := c.claimSlot r i p.txTime p.src
            c.landChunk r (c.invNow r i) (off / (i.desc.c + 64)) e.boff.toNat p.payload
          | none => (c.storeRuns r 64 runs (off + e.boff.toNat) p.payload).wake r
        let o := { o with got := o.got + p.payload.length, pkts := o.pkts + 1 }
        let host := o.whole && runsHost (runSlice runs off (extBytesLen o.ext))
        let o := { o with hostWait := o.hostWait || host, collWait := o.collWait || (o.whole && stage.isSome) }
        let c := c.onQp r qpn (fun q => q.putIn o)
        let c := if host then c.awaitFlush r { qpn := qpn, target := true, id := e.msn.toNat } else c
        match stage, o.whole with
        | some i, true => c.chunkLanded r i (off / (i.desc.c + 64)) (some (qpn, e.msn))
        | _, _ => c

/-- An accepted barge or request is checked if it is its operation's first, and landed. -/
def Chip.arrive (c : Chip) (r : ReachId) (qpn : BitVec 24) (p : FrtPacket) (e : OpExt) : Chip :=
  match (c.reach r).qp qpn with
  | none => c
  | some q =>
    let c := if (q.inOp? e.msn).isSome then c else c.openIn r q p e
    c.landBarge r qpn p e

/-! ### SENDs (R211, R241) -/

/-- The first barge of a SEND is in order: it takes the RECV at the head of the list. False: none is posted, and the answer is
no-receive. -/
def Chip.takeRecv (c : Chip) (r : ReachId) (qpn : BitVec 24) (p : FrtPacket) (e : OpExt) : Chip × Bool :=
  match (c.reach r).qp qpn with
  | none => (c, false)
  | some q =>
    match q.standing.head? with
    | none => (c.nakOp r qpn e.msn nakNoRecv 0, false)
    | some x =>
      let n := e.length.toNat
      let want := workBytes x.entry
      let c := c.onQp r qpn (fun q => { q with recvs := q.recvs.map (fun y => if y.seq == x.seq then { y with taken := true } else y) })
      if want < n || (q.owner != 0 && n != want) then
        ((c.nakOp r qpn e.msn nakStatus 0x68).failOp r qpn x.seq 0x68, true)
      else (c.onQp r qpn (fun q => q.putIn { mkIn p e true [] with recv := some x.seq }), true)

/-- Barges held for SENDs whose first barge has been taken are written (R241). -/
def Chip.releaseHeld (c : Chip) (r : ReachId) (qpn : BitVec 24) : Chip :=
  match (c.reach r).qp qpn with
  | none => c
  | some q =>
    let go := q.held.filter (fun h => match h.packet.ext with
      | .op e => (q.inOp? e.msn).isSome && !h.packet.first
      | _ => false)
    let c := c.onQp r qpn (fun q => { q with held := q.held.filter (fun h => !go.contains h) })
    forEach go c (fun c h => match h.packet.ext with
      | .op e => c.landBarge r qpn h.packet e
      | _ => c)

/-- RCV_NXT advances past the PSNs that the reorder slot holds. A held first barge of a SEND takes its RECV when it comes to be
in order; without one it is answered no-receive and is no longer held. -/
def Chip.advanceRcv (r : ReachId) (qpn : BitVec 24) : Nat → Chip → Chip
  | 0, c => c
  | n + 1, c =>
    match (c.reach r).qp qpn with
    | none => c
    | some q =>
      if !q.ahead.contains q.rcvNxt then c
      else
        let step := fun (c : Chip) => c.onQp r qpn (fun q =>
          { q with ahead := q.ahead.filter (fun a => a != q.rcvNxt), rcvNxt := q.rcvNxt + 1 })
        match q.held.find? (fun h => h.psn == q.rcvNxt && h.packet.first) with
        | none => Chip.advanceRcv r qpn n (step c)
        | some h =>
          match h.packet.ext with
          | .op e =>
            let (c, ok) := c.takeRecv r qpn h.packet e
            let c := c.onQp r qpn (fun q => { q with held := q.held.filter (fun k => k.psn != h.psn) })
            if ok then Chip.advanceRcv r qpn n ((step c).landBarge r qpn h.packet e)
            else c.onQp r qpn (fun q => { q with ahead := q.ahead.filter (fun a => a != h.psn) })
          | _ => c

/-! ### A packet's own checks (R206, R226, R234, R236) -/

/-- A packet is dropped and counted. -/
def Chip.dropFrt (c : Chip) (r : ReachId) (f : Rme → Rme) : Chip := c.onRme r f

/-- A routed packet that a receiving PX4 rejects (R226). -/
def Chip.routedBad (c : Chip) (r : ReachId) (p : FrtPacket) : Bool :=
  match p.routed with
  | none => false
  | some h =>
    let own := Tab.getD (c.reach r).addr (c.nodeId r).toNat []
    h.extras || h.ipDst != addrOf own || !addrValid own
      || (if h.udpCsum == 0 then h.v6 && !flag (c.reach r).rme.encap 16 else h.udpCsum != udpChecksum p h)

/-- A packet that asks something of this node, not an answer of another to it. -/
def asksOp (p : FrtPacket) : Option OpExt :=
  match p.ext with
  | .op e => some e
  | _ => none

/-- Where the bytes of a barge or of a response go, if it has a place: the runs of an operation that passed its check or would pass it, of
the RECV that its SEND has taken, or of the operation that it answers. The bytes of a collective's slot are not written before their
chunk is handled. -/
def Chip.placeOf (c : Chip) (r : ReachId) (q : Qp) (p : FrtPacket) : Option (List Run × Nat) :=
  match p.ext with
  | .op e =>
    if e.op == 2 || e.op == 5 then none
    else match q.inOp? e.msn with
      | some o =>
        let (runs, off) := c.inRuns r q o
        if o.ok && (o.recv.isSome || ((c.reach r).stageOf (o.refs.headD 0x8000)).isNone) then some (runs, off + e.boff.toNat) else none
      | none =>
        if e.op == 3 then none
        else match c.opCheck r q p.pkey e with
          | .ok (i :: _) =>
            if ((c.reach r).stageOf i).isSome then none
            else some ((((c.reach r).mooring i).map (fun m => m.runs)).getD [], e.roff.toNat + e.boff.toNat)
          | _ => none
  | .resp e =>
    (q.ops.find? (fun o => o.msn == some e.msn && o.status.isNone && (o.entry.op == 2 || (o.entry.op == 5 && o.entry.ret)))).map
      (fun o => (o.runs, e.boff.toNat))
  | _ => none

/-- The target writes plaintext as it decrypts: of a barge whose tag then fails the bytes stand, and nothing else comes of it (R236). -/
def Chip.untrusted (c : Chip) (r : ReachId) (q : Qp) (p : FrtPacket) (bs : List Byte) : Chip :=
  match c.placeOf r q p with
  | some (runs, off) => c.storeRuns r 64 runs off bs
  | none => c

/-- Open an encrypted packet: its plaintext, none where its tag fails, or its transmit time selects no key (R236, R438). A packet
in the clear for a context that encrypts fails as a tag does. -/
def Chip.openFrt (c : Chip) (r : ReachId) (q : Qp) (p : FrtPacket) : Chip × Option FrtPacket :=
  if !p.ciph then
    if q.ciphEn then (c.onRme r (fun m => { m with dropTag := m.dropTag + 1 }), none) else (c, some p)
  else match (c.reach r).cipher.fabricKey p.pkey p.txTime with
    | none => (c.onReach r (fun x => { x with cipher := { x.cipher with noKey := x.cipher.noKey + 1 } }), none)
    | some k =>
      let clear := { p with tag := [] }
      let (bs, ok) := gcmOpen k (frtIv p.src p.srcQpn p.txTime) (frtFixedHeader clear) p.payload p.tag
      if ok then (c, some { p with payload := bs, tag := [] })
      else ((c.untrusted r q p bs).onRme r (fun m => { m with dropTag := m.dropTag + 1 }), none)

/-- The target's function cannot take a SEND: its context is host-owned and the function is absent (R379). -/
def Chip.sendWaits (c : Chip) (q : Qp) (p : FrtPacket) : Bool :=
  match p.ext with
  | .op e => e.op == 3 && q.owner == 0 && !(c.fn q.function).attached
  | _ => false

/-- An operation's mooring lies in the scratchpad of a tile that takes a tile-array reset (R280). -/
def Chip.targetResets (c : Chip) (r : ReachId) (p : FrtPacket) : Bool :=
  match asksOp p with
  | none => false
  | some e => (if e.op = 1 then [e.rkey, e.skey] else [e.rkey]).any (fun key =>
      match (c.reach r).mooring (natBits key.toNat 0 15) with
      | some m => e.op != 3 && m.space == 1 && m.runs.any (fun q => c.tileResets r ((q.pa - spadWindow) / 0x800000))
      | none => false)

/-- Take a packet out of the RME's queue and put it through the checks that come before its sequence number: the context and the
packet in the clear, or none where it was dropped or answered. A context records the operation of its own peer that it answers PEER_GONE
(R232). -/
def Chip.receive (c : Chip) (r : ReachId) (p : FrtPacket) (type : BitVec 4) : Chip × Option (Qp × FrtPacket) :=
  let c := c.onRme r (fun m => { m with inbox := m.inbox.erase p })
  if c.routedBad r p then (c.dropFrt r (fun m => { m with rejected := m.rejected + 1 }), none)
  else if p.fmt != 1 || p.type != type then (c.dropFrt r (fun m => { m with dropType := m.dropType + 1 }), none)
  else if !frtCrcOk p then (c.dropFrt r (fun m => { m with dropCrc := m.dropCrc + 1 }), none)
  else
    let answer := fun (c : Chip) (code : Nat) (cum : BitVec 24) =>
      match asksOp p with
      | some e => c.sendNak r (answerTo p) code 0 e.msn cum
      | none => c
    match (c.reach r).qp p.dstQpn with
    | none => (answer c nakGone 0, none)
    | some q =>
      if q.state == .frozen then (answer c nakWait q.rcvNxt, none)
      else
        let mine := q.peerNode == p.src && q.peerQpn == p.srcQpn
        let serves := q.state == .ready || q.state == .drain || (q.state == .error && (asksOp p).isNone && type != frtReadResp)
        if !serves || !mine then
          ((answer c nakGone q.rcvNxt).onQp r q.qpn (fun q => match asksOp p with
            | some e => if mine then { q with failMsn := e.msn, failCode := failCodeOf nakGone 0 } else q
            | none => q), none)
        else if p.pkey != q.pkey then (c.dropFrt r (fun m => { m with dropPkey := m.dropPkey + 1 }), none)
        else if c.sendWaits q p || c.targetResets r p then (answer c nakWait q.rcvNxt, none)
        else
          let (c, o) := c.openFrt r q p
          let c := c.onQp r q.qpn (fun q => { q with lastPkt := c.now r })
          (c, o.bind (fun p => ((c.reach r).qp p.dstQpn).map (fun q => (q, p))))

/-! ### Sequence classes (R239, R241, R242) -/

/-- What the next ACK says of a DATA or READ_RESP packet of TC0 to TC5 that was accepted or classed as duplicate (R231, R239). -/
def Qp.account (q : Qp) (p : FrtPacket) (steady : Bool) (now : Time) : Qp :=
  if 6 ≤ p.tc.toNat || !(p.type == frtData || p.type == frtReadResp) then q
  else
    let ns := (timeDiff p.txTime now / 65536 - p.hopBase.toNat).toNat
    let unknown := !p.timeOk || !steady || p.hopBase == 0xFFFF
    let marked := p.ecn == 3 || (match p.routed with | some h => h.ipEcn == 3 | none => false)
    { q with rxQdelay := if unknown || q.rxQdelay == 0xFFFFFFFF then 0xFFFFFFFF else BitVec.ofNat 32 (max q.rxQdelay.toNat (min ns 0xFFFFFFFE)),
             rxPkts := if q.rxPkts == 255 then 255 else q.rxPkts + 1,
             rxEcn := if marked && q.rxEcn != 255 then q.rxEcn + 1 else q.rxEcn }

/-- Reorder slots in use on a reach. -/
def Rme.freeSlot (m : Rme) : Option (BitVec 13) :=
  let used := m.qps.foldl (fun l e => if e.2.roSlot == 0x1FFF then l else e.2.roSlot.toNat :: l) []
  ((List.range 4096).find? (fun n => !used.contains n)).map (BitVec.ofNat 13)

/-- The class of a PSN. -/
inductive RxClass where
  | inOrder | ahead | duplicate | outside
  deriving DecidableEq, Repr

/-- The class that table "Receive classes" gives a PSN. -/
def Qp.classOf (q : Qp) (psn : BitVec 24) : RxClass :=
  let d := dist24 q.rcvNxt psn
  if d = 0 then .inOrder
  else if d < 128 then (if q.ahead.contains psn then .duplicate else .ahead)
  else if 2 ^ 23 ≤ d then .duplicate
  else .outside

/-- A duplicate draws an ACK, or the recorded answer of its operation (R232, R241). -/
def Chip.dupPacket (c : Chip) (r : ReachId) (q : Qp) (p : FrtPacket) : Chip :=
  let c := c.onQp r q.qpn (fun q => q.account p (c.reach r).time.steady (c.now r))
  match asksOp p with
  | some e =>
    let code := natBits q.failCode.toNat 6 2
    if code != 0 && e.msn == q.failMsn then
      c.sendNak r q.peer (if code = 1 then nakGone else if code = 2 then nakNoRecv else nakStatus)
        (if code = 3 then 0x40 + q.failCode.toNat % 64 else 0) e.msn q.rcvNxt
    else c.sendAck r q.qpn
  | none => c.sendAck r q.qpn

/-- An accepted packet: it is accounted, waits for its ACK, and its PSN is passed or marked. -/
def Chip.accept (c : Chip) (r : ReachId) (q : Qp) (p : FrtPacket) (cls : RxClass) : Chip :=
  let slot := if cls == .ahead && q.roSlot == 0x1FFF then ((c.reach r).rme.freeSlot).getD 0x1FFF else q.roSlot
  let due := c.now r + (c.reach r).rme.ackDelay
  let steady := (c.reach r).time.steady
  c.onQp r q.qpn (fun q =>
    let q := q.account p steady (c.now r)
    { q with ackPend := if q.ackPend == 255 then 255 else q.ackPend + 1, ackDue := if q.ackDue.isSome then q.ackDue else some due,
             roSlot := slot, ahead := if cls == .ahead then p.psn :: q.ahead else q.ahead,
             rcvNxt := if cls == .inOrder then q.rcvNxt + 1 else q.rcvNxt })

/-- After a packet: RCV_NXT passes what the slot holds, the slot is freed once no gap stands, held barges are written, and the
ACK goes where R242 asks for one at once. -/
def Chip.afterPacket (c : Chip) (r : ReachId) (qpn : BitVec 24) (p : FrtPacket) (cls : RxClass) : Chip :=
  let c := (Chip.advanceRcv r qpn 128 c).releaseHeld r qpn
  let c := c.onQp r qpn (fun q => { q with roSlot := if q.ahead.isEmpty then 0x1FFF else q.roSlot })
  match (c.reach r).qp qpn with
  | some q =>
    if (q.state == .ready || q.state == .drain) && q.ackPend != 0
        && (cls == .ahead || p.ackReq || decide ((c.reach r).rme.ackEvery ≤ q.ackPend.toNat)) then c.sendAck r qpn
    else c
  | none => c

/-- A barge of a SEND that cannot be written yet is held, where the RME has room for it (R241; the room is not stated). -/
def Rme.heldRoom (m : Rme) : Bool := decide (m.qps.foldl (fun n e => n + e.2.held.length) 0 < Config.sendHold)

/-- A packet of operations that passed its checks: DATA or READ_REQ. -/
def Chip.opArrives (c : Chip) (r : ReachId) (q : Qp) (p : FrtPacket) (e : OpExt) : Chip :=
  let cls := q.classOf p.psn
  match cls with
  | .outside => c.dropFrt r (fun m => { m with dropWindow := m.dropWindow + 1 })
  | .duplicate => c.dupPacket r q p
  | _ =>
    let m := (c.reach r).rme
    let send := e.op == 3
    let first := send && p.first
    let hold := send && (if first then cls == .ahead else (q.inOp? e.msn).isNone)
    if cls == .ahead && q.roSlot == 0x1FFF && m.freeSlot.isNone then c.dropFrt r (fun m => { m with dropSlot := m.dropSlot + 1 })
    else if hold && !m.heldRoom then c.dropFrt r (fun m => { m with dropHeld := m.dropHeld + 1 })
    else
      let msnNext := fun (c : Chip) => c.onQp r q.qpn (fun q =>
        { q with rcvMsn := if before24 e.msn q.rcvMsn then q.rcvMsn else e.msn + 1 })
      if first && cls == .inOrder then
        let (c, ok) := c.takeRecv r q.qpn p e
        if !ok then c
        else
          let c := c.onQp r q.qpn (fun q => if q.failMsn == e.msn && natBits q.failCode.toNat 6 2 == 2 then { q with failCode := 0 } else q)
          let c := msnNext (c.accept r q p cls)
          (c.landBarge r q.qpn p e).afterPacket r q.qpn p cls
      else if hold then
        let c := msnNext (c.accept r q p cls)
        (c.onQp r q.qpn (fun q => { q with held := q.held ++ [{ psn := p.psn, packet := p }] })).afterPacket r q.qpn p cls
      else
        let c := msnNext (c.accept r q p cls)
        (c.arrive r q.qpn p e).afterPacket r q.qpn p cls

/-- FRT_DATA_RX: a barge of a WRITE, WRITE_SIGNAL, SEND or FETCH_ADD. -/
def frtDataRx (r : ReachId) (now : Time) (p : FrtPacket) (c : Chip) : Chip :=
  let c := c.at r now
  if !c.inService r then c
  else match c.receive r p frtData with
    | (c, some (q, p)) =>
      (match p.ext with
      | .op e => if e.op == 0 || e.op == 1 || e.op == 3 || e.op == 5 then c.opArrives r q p e
          else c.dropFrt r (fun m => { m with dropType := m.dropType + 1 })
      | _ => c.dropFrt r (fun m => { m with dropType := m.dropType + 1 }))
    | (c, none) => c

/-- FRT_READ_REQ_RX. -/
def frtReadReqRx (r : ReachId) (now : Time) (p : FrtPacket) (c : Chip) : Chip :=
  let c := c.at r now
  if !c.inService r then c
  else match c.receive r p frtReadReq with
    | (c, some (q, p)) =>
      (match p.ext with
      | .op e => if e.op == 2 then c.opArrives r q p e else c.dropFrt r (fun m => { m with dropType := m.dropType + 1 })
      | _ => c.dropFrt r (fun m => { m with dropType := m.dropType + 1 }))
    | (c, none) => c

/-! ### Responses at the requester (R210, R212, R230) -/

/-- A response packet's data goes to the local range; the operation is answered once all of it has landed, and visible. -/
def Chip.landResp (c : Chip) (r : ReachId) (qpn : BitVec 24) (p : FrtPacket) (e : RespExt) : Chip :=
  match (c.reach r).qp qpn with
  | none => c
  | some q =>
    match q.ops.find? (fun o => o.msn == some e.msn && (o.entry.op == 2 || (o.entry.op == 5 && o.entry.ret))) with
    | none => c
    | some o =>
      if o.status.isSome then c
      else
        if c.host.inReset && runsHost o.runs then c.failOp r qpn o.seq 0x6E
        else
        let c := ((c.storeRuns r 64 o.runs e.boff.toNat p.payload).wake r).onReach r (fun x => x.gaugeAdd 2 (qpIndex qpn) 3 p.payload.length)
        let got := o.respGot + p.payload.length
        let whole := decide (workBytes o.entry ≤ got)
        let host := whole && runsHost o.runs
        let c := c.onQp r qpn (fun q => { q with ops := q.ops.map (fun z => if z.seq == o.seq then
          { z with respGot := got, respPkts := z.respPkts + 1, remoteDone := whole, flushWait := host } else z) })
        if host then c.awaitFlush r { qpn := qpn, target := false, id := o.seq } else c

/-- FRT_READ_RESP_RX. -/
def frtReadRespRx (r : ReachId) (now : Time) (p : FrtPacket) (c : Chip) : Chip :=
  let c := c.at r now
  if !c.inService r then c
  else match c.receive r p frtReadResp with
    | (c, some (q, p)) =>
      (match p.ext with
      | .resp e =>
        let cls := q.classOf p.psn
        (match cls with
        | .outside => c.dropFrt r (fun m => { m with dropWindow := m.dropWindow + 1 })
        | .duplicate => c.dupPacket r q p
        | _ =>
          if cls == .ahead && q.roSlot == 0x1FFF && ((c.reach r).rme.freeSlot).isNone then
            c.dropFrt r (fun m => { m with dropSlot := m.dropSlot + 1 })
          else ((c.accept r q p cls).landResp r q.qpn p e).afterPacket r q.qpn p cls)
      | _ => c.dropFrt r (fun m => { m with dropType := m.dropType + 1 }))
    | (c, none) => c

/-! ### Acknowledgements at the source (R231, R243, R244, R246) -/

/-- Responses whose every packet has been acknowledged are done: their references go. -/
def Qp.doneResps (q : Qp) : List Resp :=
  q.resps.filter (fun x => x.sent == x.packets && !q.out.any (fun p => p.isResp && p.op == x.msn.toNat))

/-- Class and window by which the timer runs: of the oldest outstanding packet, or of the oldest operation that awaits visibility. -/
def Qp.leadClass (q : Qp) : BitVec 3 × Word16 :=
  match q.out.head? with
  | some p => if p.isResp then (0, 0xFFFF) else (match q.op? p.op with | some o => (o.entry.tc, o.entry.win) | none => (0, 0xFFFF))
  | none => (match q.ops.find? q.awaitsVis with | some o => (o.entry.tc, o.entry.win) | none => (0, 0xFFFF))

/-- The timer starts anew after progress, or stops with nothing outstanding and nothing awaited. -/
def Chip.restartTimer (c : Chip) (r : ReachId) (q : Qp) : Qp :=
  if q.out.isEmpty && !q.ops.any q.awaitsVis && !(q.state == .error && q.unretired) then { q with timer := none }
  else { q with timer := some (c.timerDue r q q.leadClass.1 q.leadClass.2) }

/-- Every PSN before CUM_PSN has been received (R231, R232, R243). -/
def Chip.cumAck (c : Chip) (r : ReachId) (q : Qp) (cum : BitVec 24) : Qp :=
  let d := dist24 q.sndUna cum
  if d = 0 ∨ 128 < d then q
  else
    let q := { q with out := q.out.filter (fun p => !before24 p.psn cum), sndUna := cum, retries := 0 }
    c.restartTimer r q

/-- Selective acknowledgement and fast retransmission (R243). -/
def Qp.sacks (q : Qp) (cum : BitVec 24) (sack : BitVec 128) (dup : Nat) (mayResend : Bool) : Qp :=
  let out := q.out.map (fun p =>
    let d := dist24 cum p.psn
    if 1 ≤ d && d ≤ 128 && sack.toNat.testBit (d - 1) then { p with sacked := true } else p)
  let later := fun (p : OutPkt) => (out.filter (fun x => x.sacked && before24 p.psn x.psn)).length
  { q with out := out.map (fun p =>
      if mayResend && !p.sacked && !p.sentFast && decide (dup ≤ later p) && decide (0 < later p) then { p with sentFast := true, resend := true } else p) }

/-- Rate in Mb/s of the fastest external port of the reach that is up, or 800,000 (R246). -/
def Reach.portRate (x : Reach) : Nat :=
  let up := ([0, 1, 2, 3] : List PortId).filter (fun p => (x.port p).state != .down)
  if up.isEmpty then 800000 else min 800000 (up.foldl (fun n p => max n (1000 * x.gbps p)) 0)

/-- The rate update of R246. -/
def Qp.rateUpdate (q : Qp) (m : Rme) (port : Nat) (now : Time) : Qp :=
  let interval := max 1000 (fld m.cc 48 16)
  if timeDiff q.intStart now < nsUnits interval ∨ q.ackedPk = 0 then q
  else
    let t := max 200 (fld m.cc 0 16)
    let rate := q.rate.toNat
    let qmax := q.qmax.toNat
    let new :=
      if qmax ≠ 0xFFFFFFFF ∧ t < qmax then
        rate - rate * min (max 1 (fld m.cc 40 8) * 256) (fld m.cc 32 8 * 256 * (qmax - t) / qmax) / 65536
      else if 0 < q.ecnPk.toNat then rate - rate * q.ecnPk.toNat / (2 * q.ackedPk.toNat)
      else rate + fld m.cc 16 16
    { q with rate := BitVec.ofNat 20 (min (max new m.rateMin) port), qmax := 0, ackedPk := 0, ecnPk := 0, intStart := now }

/-- Saturating count of 16 bits. -/
def sat16 (n : Nat) : Word16 := BitVec.ofNat 16 (min n 65535)

/-- What an ACK says to a context: sequence, selective, visibility and rate. -/
def Chip.ackQp (c : Chip) (r : ReachId) (q : Qp) (e : AckExt) : Qp :=
  let m := (c.reach r).rme
  let q := c.cumAck r q e.cumPsn
  let q := q.sacks e.cumPsn e.sack m.dupThresh (q.state != .error)
  let q : Qp :=
    if e.vis && before24 q.visAcked e.visMsn then
      { q with visAcked := e.visMsn, ops := q.ops.map (fun o => match o.msn with
          | some n => if before24 n e.visMsn && (readsLocal o.entry || (o.entry.op == 5 && !o.entry.ret)) then { o with remoteDone := true } else o
          | none => o) }
    else q
  let q : Qp := { q with again := q.again.filter (fun s => match q.op? s with | some o => !o.remoteDone | none => false) }
  let q := if q.timer.isSome && q.out.isEmpty then c.restartTimer r q else q
  let q : Qp := { q with qmax := BitVec.ofNat 32 (max q.qmax.toNat e.qdelay.toNat), ackedPk := sat16 (q.ackedPk.toNat + e.pkts.toNat),
                         ecnPk := sat16 (q.ecnPk.toNat + e.ecnCnt.toNat) }
  q.rateUpdate m (c.reach r).portRate (c.now r)

/-- Responses that are done give their references back. -/
def Chip.endResps (c : Chip) (r : ReachId) (qpn : BitVec 24) : Chip :=
  match (c.reach r).qp qpn with
  | none => c
  | some q =>
    let done := q.doneResps
    (c.onReach r (fun x => x.dropRefs (done.flatMap (fun x => x.refs)))).onQp r qpn (fun q =>
      { q with resps := q.resps.filter (fun x => !done.contains x) })

/-- FRT_ACK_RX. -/
def frtAckRx (r : ReachId) (now : Time) (p : FrtPacket) (c : Chip) : Chip :=
  let c := c.at r now
  if !c.inService r then c
  else match c.receive r p frtAck with
    | (c, some (q, p)) =>
      (match p.ext with
      | .ack e => (c.onQp r q.qpn (fun _ => c.ackQp r q e)).endResps r q.qpn
      | _ => c.dropFrt r (fun m => { m with dropType := m.dropType + 1 }))
    | (c, none) => c

/-- An answer of WAIT or no-receive: the operation's resend falls due after RNR_TIMER, and counts as progress (R201, R211,
R243). -/
def Qp.rnr (q : Qp) (o : RmeOp) (wait : Bool) (now : Time) : Qp :=
  { q with retries := 0, timer := none,
           ops := q.ops.map (fun z => if z.seq == o.seq then
             { z with rnrDue := (match z.rnrDue with | some t => some t | none => some (now + nsTime (1000 * max 1 q.rnrTimer.toNat))),
                      waitSince := if wait then (match z.waitSince with | some t => some t | none => some now) else none } else z) }

/-- FRT_NAK_RX. -/
def frtNakRx (r : ReachId) (now : Time) (p : FrtPacket) (c : Chip) : Chip :=
  let c := c.at r now
  if !c.inService r then c
  else match c.receive r p frtNak with
    | (c, some (q, p)) =>
      (match p.ext with
      | .nak e =>
        let c := (c.onQp r q.qpn (fun _ => c.cumAck r q e.cumPsn)).endResps r q.qpn
        (match q.ops.find? (fun o => o.msn == some e.msn && o.status.isNone) with
        | none => c
        | some o =>
          if e.code.toNat = nakGone then c.failOp r q.qpn o.seq 0x6B
          else if e.code.toNat = nakStatus then c.failOp r q.qpn o.seq e.status.toNat
          else if (e.code.toNat = nakWait ∨ e.code.toNat = nakNoRecv) ∧ q.state ≠ .error then
            (c.onQp r q.qpn (fun q => q.rnr o (e.code.toNat == nakWait) (c.now r))).onReach r (fun x => x.gaugeAdd 2 (qpIndex q.qpn) 5 1)
          else c)
      | _ => c.dropFrt r (fun m => { m with dropType := m.dropType + 1 }))
    | (c, none) => c

end Sys2Proof.Machine
end

