-- ==== Sys2Proof/Machine/RmeOps.lean ====
section
/-!
DEFINITION. Completions and timers of the remote-memory engine (R199 to R220, R242 to R244), its commands (R198 to R205, R410, R542),
flush reads of host memory (R219, R379), and transpositions between phases (R169, R171).
-/

namespace Sys2Proof.Machine

/-! ### Retirement (R198, R200) -/

/-- A context in RESET: every field of its transport and rate state as a new context has it; completions that have not posted
stay. -/
def Qp.cleared (q : Qp) : Qp :=
  { q with state := .reset, sndNxt := 0, sndUna := 0, retries := 0, rcvNxt := 0, rcvMsn := 0, roSlot := 0x1FFF, sndMsn := 0,
           visAcked := 0, visMsn := 0, visSeen := false, ackPend := 0, failMsn := 0, failCode := 0, rate := 0, credit := 0,
           lastTx := 0, qmax := 0, ackedPk := 0, ecnPk := 0, intStart := 0, out := [], again := [], ahead := [], held := [], inOps := [],
           resps := [], drainTo := .reset, drainCmd := none, timer := none, ackDue := none, rxQdelay := 0, rxPkts := 0, rxEcn := 0,
           failed := none, started := false,
           ops := q.ops.map (fun (o : RmeOp) => { o with status := match o.status with | some s => some s | none => some 0x60 }),
           recvs := q.recvs.map (fun (x : PostedRecv) => { x with status := match x.status with | some s => some s | none => some 0x60 }) }

/-- A context goes to RESET: what its arriving work refers to is let go. -/
def Chip.toReset (c : Chip) (r : ReachId) (qpn : BitVec 24) : Chip :=
  match (c.reach r).qp qpn with
  | none => c
  | some q => (c.onReach r (fun x => x.dropRefs q.refs)).onQp r qpn Qp.cleared

/-- Every taken operation of a context has retired. -/
def Qp.idle (q : Qp) : Bool := q.ops.isEmpty && q.recvs.isEmpty

/-- After a retirement: a context to be destroyed is freed, and one in ERROR that a QP_MODIFY sends to RESET goes there, once nothing
is left. -/
def Chip.retired (c : Chip) (r : ReachId) (qpn : BitVec 24) : Chip :=
  match (c.reach r).qp qpn with
  | none => c
  | some q =>
    if !q.idle then c
    else match q.destroying with
      | some d =>
        let c := c.onReach r (fun x => x.dropRefs q.refs)
        (c.onRme r (fun m => { m with qps := Tab.erase m.qps (qpIndex qpn) })).complete d r.val 0 (BitVec.ofNat 64 qpn.toNat)
      | none =>
        if q.state == .error then
          match q.drainCmd with
          | some d => (c.toReset r qpn).complete d r.val 0 (BitVec.ofNat 64 qpn.toNat)
          | none => c
        else c

/-! ### Transpositions (R169, R171) -/

/-- A block of a transposition as rows and columns of cells: first row, first column, rows, columns. -/
structure CellRect where
  row : Nat
  col : Nat
  rows : Nat
  cols : Nat
  deriving DecidableEq, Repr

/-- The cells of a block of a grid. -/
def XposDesc.block (d : XposDesc) (gr gc i : Nat) : CellRect :=
  { row := i / gc * (d.rows / gr), col := i % gc * (d.cols / gc), rows := d.rows / gr, cols := d.cols / gc }

/-- The cells that two blocks share. -/
def CellRect.meet (a b : CellRect) : CellRect :=
  let r0 := max a.row b.row
  let c0 := max a.col b.col
  { row := r0, col := c0, rows := min (a.row + a.rows) (b.row + b.rows) - r0, cols := min (a.col + a.cols) (b.col + b.cols) - c0 }

/-- Offset of a cell from the first of its block. -/
def XposDesc.offset (d : XposDesc) (m : BlockMap) (b : CellRect) (row col : Nat) : Nat :=
  (row - b.row) * m.rowStride + (col - b.col) * d.cellBytes

/-- What the engine needs to run an intersection. -/
structure XposJob where
  plan : PlanInst
  desc : XposDesc
  src : BlockMap
  dst : BlockMap
  srcRect : CellRect
  dstRect : CellRect
  rect : CellRect

/-- The job of an intersection of a loaded plan. -/
def Reach.xposJob (x : Reach) (f : XposFlight) : Option XposJob :=
  match x.planBy f.plan with
  | none => none
  | some p =>
    match p.con.xpos[f.desc]? with
    | none => none
    | some d =>
      match p.con.maps[d.srcMap + f.src]?, p.con.maps[d.dstMap + f.dst]? with
      | some s, some t =>
        let a := d.block d.srcGr d.srcGc f.src
        let b := d.block d.dstGr d.dstGc f.dst
        some { plan := p, desc := d, src := s, dst := t, srcRect := a, dstRect := b, rect := a.meet b }
      | _, _ => none

/-- Bytes of a row of an intersection. -/
def XposJob.rowBytes (j : XposJob) : Nat := j.rect.cols * j.desc.cellBytes
/-- Device virtual address of row `k` at the source, and its offset within the destination block. -/
def XposJob.srcAddr (j : XposJob) (k : Nat) : Nat := j.src.vaddr + j.desc.offset j.src j.srcRect (j.rect.row + k) j.rect.col
def XposJob.dstOff (j : XposJob) (k : Nat) : Nat := j.desc.offset j.dst j.dstRect (j.rect.row + k) j.rect.col

/-- Two flights are one intersection. -/
def XposFlight.same (a b : XposFlight) : Bool := a.plan == b.plan && a.desc == b.desc && a.src == b.src && a.dst == b.dst

/-- The READY context of lowest index that the plan reserves on a reach towards a node. -/
def Reach.xposQp (x : Reach) (r : ReachId) (p : PlanInst) (node : Word16) : Option Qp :=
  ((List.find? (fun e => e.2.plan && e.2.peerNode == node && e.2.state == .ready && (p.con.reserved r 2).contains e.1) x.rme.qps)).map
    (fun e => e.2)

/-- An intersection fails the run, and the plan enters a stoppage with cause fault (R171). -/
def Chip.xposFail (c : Chip) (r : ReachId) (f : XposFlight) : Chip :=
  let c := c.onReach r (fun x => { x with mem := { x.mem with xposArmed := x.mem.xposArmed.filter (fun e => e.1 != f.plan),
                                                              xposFlight := x.mem.xposFlight.filter (fun g => !g.same f) } })
  match (c.reach r).planBy f.plan with
  | some p => if p.st == .running || p.st == .agreed then c.declareStop r .fault StopInfo.none true p else c
  | none => c

/-- The plan key of the mooring over the scratchpad of a module tile, through which the add of R169 reaches SIG_ADDR: tag zero (R543), the
tile's reach, and an index that no structure of the spec names (assumption 51). -/
def sigKey (planId : Word64) (tile : Nat) : Word32 :=
  BitVec.ofNat 32 (tile / 64 * 32768 + (Config.sigMooring planId tile).toNat)

/-- The work entry of row `k`, or of the add to the destination's signal word. -/
def xposEntry (j : XposJob) (qpn : BitVec 24) (k : Nat) : WorkEntry :=
  let last := decide (j.rect.rows ≤ k)
  let win := BitVec.ofNat 16 j.desc.win
  { fmt := 1, op := if last then 1 else 0, tc := if win == 0xFFFF then BitVec.ofNat 3 j.desc.tc else 6, lsigEn := false, ret := false,
     lspace := 1, scope := false, win := win, qpn := qpn, laddr := BitVec.ofNat 64 (j.srcAddr k),
     length := BitVec.ofNat 32 (if last then 0 else j.rowBytes), rkey := BitVec.ofNat 32 j.dst.moorIdx,
     roff := BitVec.ofNat 64 (if last then 0 else j.dstOff k), skey := if last then sigKey j.plan.con.hdr.planId j.dst.sigTile else 0,
     soff := BitVec.ofNat 48 (if last then j.dst.sigAddr else 0), add := if last then 1 else 0, lsigAddr := 0 }

/-- Submit the rows of an intersection, then its signal add, while the engine takes them. -/
def Chip.xposPump (r : ReachId) : Nat → Chip → XposFlight → Chip
  | 0, c, _ => c
  | n + 1, c, f =>
    match (c.reach r).mem.xposFlight.find? (fun g => g.same f), (c.reach r).xposJob f with
    | some g, some j =>
      if j.rect.rows < g.next then c
      else
        let node := j.plan.con.peers.getD j.dst.peer 0xFFFF
        match (c.reach r).xposQp r j.plan node with
        | none => c
        | some q =>
          let e := xposEntry j q.qpn g.next
          match c.translate j.plan.con.hdr.asid.toNat (j.srcAddr g.next) e.length.toNat true false with
          | .error _ => c.xposFail r f
          | .ok l =>
            match c.submit r e (.xpos g.plan g.desc g.src g.dst) (l.map (fun p => p.run)) [] with
            | .wait => c
            | .refused _ => c.xposFail r f
            | .taken c =>
              Chip.xposPump r n (c.onReach r (fun x => { x with mem := { x.mem with xposFlight := x.mem.xposFlight.map (fun h =>
                if h.same f then { h with next := h.next + 1, left := h.left + 1 } else h) } })) f
    | _, _ => c

/-- An operation of an intersection has retired. -/
def Chip.xposRetired (c : Chip) (r : ReachId) (f : XposFlight) (status : Nat) : Chip :=
  if status != 0 then c.xposFail r f
  else
    let c := c.onReach r (fun x => { x with mem := { x.mem with xposFlight := x.mem.xposFlight.map (fun g =>
      if g.same f then { g with left := g.left - 1 } else g) } })
    let c := Chip.xposPump r 8192 c f
    match (c.reach r).mem.xposFlight.find? (fun g => g.same f), (c.reach r).xposJob f with
    | some g, some j =>
      if j.rect.rows < g.next && g.left == 0 then
        c.onReach r (fun x => { x with mem := { x.mem with xposFlight := x.mem.xposFlight.filter (fun h => !h.same f) } })
      else c
    | _, _ => c

/-- An intersection whose source and destination lie on this node is copied within the reach, and adds its signal. A source line that does not
read fails the run (R171). -/
def Chip.xposLocal (c : Chip) (r : ReachId) (f : XposFlight) (j : XposJob) : Chip :=
  let asid := j.plan.con.hdr.asid.toNat
  let (c, ok) := forEach (List.range j.rect.rows) (c, true) (fun (s : Chip × Bool) k =>
    match s.1.translate asid (j.srcAddr k) j.rowBytes true false,
        s.1.translate asid (j.dst.vaddr + j.dstOff k) j.rowBytes false true with
    | .ok a, .ok b =>
      if !s.2 then s
      else match s.1.sourceUe r (a.map (fun p => p.run)) 0 j.rowBytes with
        | some pa => (s.1.memUe r (ueClass pa) pa 0, false)
        | none =>
          let bs := s.1.readRuns r (a.map (fun p => p.run)) 0 j.rowBytes
          ((s.1.onReach r (fun x => x.countRuns (a.map (fun p => p.run)) 0 j.rowBytes)).storeRuns r 64 (b.map (fun p => p.run)) 0 bs, s.2)
    | _, _ => (s.1, false))
  if !ok then c.xposFail r f
  else match ((c.reach r).tile (j.dst.sigTile % 64)).spadErr [(j.dst.sigAddr, 8)] with
    | some l => (c.memUe r 5 (spadWindow + j.dst.sigTile % 64 * 0x800000 + 64 * l) 0).xposFail r f
    | none => (c.onTile r (j.dst.sigTile % 64) (fun t => t.signalAdd j.dst.sigAddr 1)).wake r

/-- Start one intersection if its source is ready and fewer than eight are in flight: the second answer says whether the order may go
on. -/
def Chip.xposStart (c : Chip) (r : ReachId) (f : XposFlight) : Chip × Bool :=
  match (c.reach r).xposJob f with
  | none => (c, false)
  | some j =>
    if j.rect.rows = 0 ∨ j.rect.cols = 0 ∨ (c.reach r).mem.xposDone.any (fun g => g.same f) then (c, true)
    else if j.plan.st != .running then (c, false)
    else if ((c.reach r).tile (j.src.sigTile % 64)).signal j.src.sigAddr < j.src.thresh then (c, false)
    else
      let done := c.onReach r (fun x => { x with mem := { x.mem with xposDone := x.mem.xposDone ++ [f] } })
      if j.plan.con.peers.getD j.dst.peer 0xFFFF == c.nodeId r then (done.xposLocal r f j, true)
      else if 8 ≤ (c.reach r).mem.xposFlight.length then (c, false)
      else
        let c := done.onReach r (fun x => { x with mem := { x.mem with xposFlight := x.mem.xposFlight ++ [f] } })
        (Chip.xposPump r 8192 c f, true)

/-- The intersections of a run whose source block lies on this node, in the fixed order of R169. -/
def Chip.xposOrder (c : Chip) (r : ReachId) (p : PlanInst) (run : Nat) : List XposFlight :=
  let span := p.con.runs.getD run (0, 0)
  (List.range span.2).flatMap (fun k =>
    let i := span.1 + k
    match p.con.xpos[i]? with
    | none => []
    | some d =>
      ((List.range (d.srcGr * d.srcGc)).filter (fun s =>
          match p.con.maps[d.srcMap + s]? with
          | some m => p.con.peers.getD m.peer 0xFFFF == c.nodeId r
          | none => false)).flatMap (fun s =>
        (List.range (d.dstGr * d.dstGc)).map (fun t =>
          ({ plan := p.handle, desc := i, src := s, dst := t, next := 0, left := 0 } : XposFlight))))

/-- XPOS_SIGNAL_POLL: the RME reads the source signal words; flights go on, and intersections whose source is ready start in order. -/
def xposSignalPoll (r : ReachId) (now : Time) (c : Chip) : Chip :=
  let c := c.at r now
  if !c.inService r then c
  else
    let c := forEach (c.reach r).mem.xposFlight c (fun c f => Chip.xposPump r 8192 c f)
    forEach (c.reach r).mem.xposArmed c (fun c e =>
      match (c.reach r).planBy e.1 with
      | none => c
      | some p =>
        (forEach (c.xposOrder r p e.2) (c, true) (fun (s : Chip × Bool) f => if s.2 then s.1.xposStart r f else s)).1)

/-! ### RME_COMPLETION (R209, R213 to R217) -/

/-- Every earlier operation of the queue pair has come, and its data, of a WRITE or WRITE_SIGNAL, is visible (R209). -/
def Qp.dataBefore (q : Qp) (m : BitVec 24) : Bool :=
  let n := dist24 q.visMsn m
  decide (n ≤ q.inOps.length) && (List.range n).all (fun k =>
    match q.inOp? (q.visMsn + BitVec.ofNat 24 k) with
    | some o => o.visible || !(o.ext.op == 0 || o.ext.op == 1)
    | none => false)

/-- One arriving operation whose bytes all stand at their points of visibility takes its last effect: a WRITE_SIGNAL its add, a SEND the
completion of its RECV. -/
def Chip.visOne (c : Chip) (r : ReachId) (qpn msn : BitVec 24) : Chip :=
  match (c.reach r).qp qpn with
  | none => c
  | some q =>
    match q.inOp? msn with
    | none => c
    | some o =>
      if !o.ok || o.visible || !o.whole || o.hostWait || o.collWait then c
      else
        let see := fun (c : Chip) => c.onQp r qpn (fun q => q.putIn { o with visible := true })
        if o.ext.op == 1 then
          if !q.dataBefore msn then c
          else match (c.addClaim r (o.refs.getD 1 0x8000) o.ext.soff.toNat o.txTime o.src q.peerQpn).addWord r (o.refs.getD 1 0x8000) o.ext.soff.toNat o.ext.add with
            | .error pa => (c.memUe r (ueClass pa) pa 0).failIn r qpn o 0x6D
            | .ok (_, c) => (see c).creditSeen r (o.refs.getD 1 0x8000) o.ext.soff.toNat
        else match o.recv with
          | some n => (see c).onQp r qpn (fun q => { q with recvs := q.recvs.map (fun (x : PostedRecv) =>
              if x.seq == n then { x with status := some 0, rxLen := o.ext.length.toNat } else x) })
          | none => see c

/-- VIS_MSN passes every operation that is visible; its references go. -/
def Chip.passVisible (r : ReachId) (qpn : BitVec 24) : Nat → Chip → Chip
  | 0, c => c
  | n + 1, c =>
    match (c.reach r).qp qpn with
    | none => c
    | some q =>
      match q.inOp? q.visMsn with
      | some o =>
        if o.ok && o.visible then
          let c := c.onReach r (fun x => x.dropRefs o.refs)
          Chip.passVisible r qpn n (c.onQp r qpn (fun q =>
            { q with inOps := q.inOps.filter (fun x => x.msn != o.msn), visMsn := q.visMsn + 1, visSeen := true }))
        else c
      | none => c

/-- The arriving operations of a context: what has become visible is acknowledged at once (R242). -/
def Chip.targetVisible (c : Chip) (r : ReachId) (qpn : BitVec 24) : Chip :=
  match (c.reach r).qp qpn with
  | none => c
  | some q =>
    let c := forEach (q.inOps.map (fun o => o.msn)) c (fun c m => c.visOne r qpn m)
    let c := Chip.passVisible r qpn q.inOps.length c
    match (c.reach r).qp qpn with
    | some q2 => if q2.visMsn != q.visMsn && (q2.state == .ready || q2.state == .drain) then c.sendAck r qpn else c
    | none => c

/-- The status that the oldest operation of a context can complete with now (R213, R217). -/
def Reach.headStatus (x : Reach) (o : RmeOp) : Option (BitVec 8) :=
  match o.status with
  | some s => some s
  | none =>
    if o.entry.op == 6 then some 0
    else if o.entry.op == 7 then
      if !o.entry.scope || !o.flushOf.any (fun e => (match x.qp e.1 with | some q => (q.op? e.2).isSome | none => false)) then some 0
      else none
    else if o.remoteDone && !o.flushWait then some 0
    else none

/-- The local add of a tile's operation meets an uncorrectable error: its line. -/
def Chip.lsigUe (c : Chip) (r : ReachId) (o : RmeOp) (s : BitVec 8) : Option Nat :=
  match o.by_ with
  | .tile t _ _ _ =>
    let pa := spadWindow + t.val * 0x800000 + o.entry.lsigAddr.toNat
    if s == 0 && o.entry.lsigEn && (c.reach r).hasUe pa 8 then some pa else none
  | _ => none

/-- A retired operation is told to whom it belongs. -/
def Chip.tellOp (c : Chip) (r : ReachId) (q : Qp) (o : RmeOp) (status : Nat) : Chip :=
  let c := (c.rmeTrace r q o.by_ o.entry true status (o.msn.getD 0)).opGauge r q.qpn status
  match o.by_ with
  | .coll key coll member => c.collRetired r key coll member status
  | .xpos plan desc src dst => c.xposRetired r { plan := plan, desc := desc, src := src, dst := dst, next := 0, left := 0 } status
  | _ => c.reportEntry r o.by_ (BitVec.ofNat 8 q.cqRing.toNat) o.entry false status 0

/-- The oldest operation of a context completes, if it can. -/
def Chip.requestDone (c : Chip) (r : ReachId) (qpn : BitVec 24) : Chip :=
  match (c.reach r).qp qpn with
  | none => c
  | some q =>
    match q.ops with
    | [] => c
    | o :: rest =>
      match (c.reach r).headStatus o with
      | none => c
      | some s =>
        match c.lsigUe r o s with
        | some pa => (c.memUe r 5 pa 0).failOp r qpn o.seq 0x6C
        | none =>
          let c := c.onQp r qpn (fun q => { q with ops := rest, again := q.again.filter (fun n => n != o.seq) })
          (c.tellOp r q o s.toNat).retired r qpn

/-- The oldest receive of a context completes, if it can. -/
def Chip.receiveDone (c : Chip) (r : ReachId) (qpn : BitVec 24) : Chip :=
  match (c.reach r).qp qpn with
  | none => c
  | some q =>
    match q.recvs with
    | [] => c
    | x :: rest =>
      match x.status with
      | none => c
      | some s =>
        let c := (c.onQp r qpn (fun q => { q with recvs := rest })).rmeTrace r q x.by_ x.entry true s.toNat 0
        ((c.opGauge r qpn s.toNat).reportEntry r x.by_ (BitVec.ofNat 8 q.cqRing.toNat) x.entry true s.toNat x.rxLen).retired r qpn

/-- RME_COMPLETION: what a queue pair has to complete, in submission or posting order (R214). -/
def rmeCompletion (r : ReachId) (now : Time) (qpn : BitVec 24) (which : CompletionOf) (c : Chip) : Chip :=
  let c := c.at r now
  if !c.inService r then c
  else match which with
    | .request => c.requestDone r qpn
    | .receive => c.receiveDone r qpn
    | .target => c.targetVisible r qpn

/-! ### Timers (R242 to R244, R211) -/

/-- Every operation and receive without a status completes with RME_RETRY_EXCEEDED. -/
def Qp.abandon (q : Qp) : Qp :=
  { q with timer := none,
           ops := q.ops.map (fun (o : RmeOp) => { o with status := match o.status with | some s => some s | none => some 0x6A, rnrDue := none }),
           recvs := q.recvs.map (fun (x : PostedRecv) => { x with status := match x.status with | some s => some s | none => some 0x6A }) }

/-- The retransmission timer has expired seven times without progress, and expires again: every taken operation fails. -/
def Chip.retryExceeded (c : Chip) (r : ReachId) (q : Qp) : Chip :=
  let c := c.onReach r (fun x => x.dropRefs q.refs)
  let c := c.onQp r q.qpn (fun q =>
    let q : Qp := { q with state := .error, failed := some ((q.ops.head?.map (fun o => o.seq)).getD 0), inOps := [], resps := [], held := [],
                           ackDue := none, drainCmd := none }
    q.abandon)
  c.completeOpt q.drainCmd r.val 0x6A 0

/-- Retransmission after an expiry: every unacknowledged packet but those of an operation whose resend is not due, and the LAST barge of
operations that await visibility (R243, R244). -/
def Chip.expire (c : Chip) (r : ReachId) (q : Qp) : Qp :=
  let m := (c.reach r).rme
  let waits := fun (p : OutPkt) => !p.isResp && (match q.op? p.op with | some o => o.rnrDue.isSome | none => true)
  let again := (q.ops.filter (fun o => q.awaitsVis o)).map (fun o => o.seq)
  let q : Qp := { q with retries := q.retries + 1, again := again,
                         out := q.out.map (fun p => if p.sacked || waits p then p else { p with resend := true, carried := none }),
                         ops := q.ops.map (fun o => if again.contains o.seq then { o with lastCarried := none } else o),
                         rate := if q.leadClass.1 == 6 then q.rate else BitVec.ofNat 20 (max m.rateMin (q.rate.toNat / 2)) }
  { q with timer := some (c.timerDue r q q.leadClass.1 q.leadClass.2) }

/-- RETRANSMIT_TIMER. -/
def retransmitTimer (r : ReachId) (now : Time) (qpn : BitVec 24) (c : Chip) : Chip :=
  let c := c.at r now
  match (c.reach r).qp qpn with
  | none => c
  | some q =>
    match q.timer with
    | none => c
    | some t =>
      if !c.inService r || !notBefore t (c.now r) then c
      else if q.state == .error then c.onQp r qpn Qp.abandon
      else if q.leadClass.1 == 6 && q.lead.any (fun l => c.uncarried r q l.1) then c
      else if q.retries == 7 then c.retryExceeded r q
      else c.onQp r qpn (fun _ => c.expire r q)

/-- ACK_DELAY_TIMER. -/
def ackDelayTimer (r : ReachId) (now : Time) (qpn : BitVec 24) (c : Chip) : Chip :=
  let c := c.at r now
  match (c.reach r).qp qpn with
  | none => c
  | some q =>
    match q.ackDue with
    | some t =>
      if c.inService r && notBefore t (c.now r) && (q.state == .ready || q.state == .drain) then c.sendAck r qpn else c
    | none => c

/-- 10 s. -/
def waitLimit : Int := nsUnits 10000000000

/-- The limit of an operation that meets WAIT or no-receive is reached (R201, R211). -/
def Qp.rnrOver (q : Qp) (o : RmeOp) (now : Time) : Bool :=
  match o.waitSince with
  | some t => decide (waitLimit ≤ timeDiff t now)
  | none => q.rnrRetry != 7 && decide (q.rnrRetry.toNat ≤ o.rnrCount)

/-- RNR_RETRY: the first barge of an operation is sent again, or the operation fails. -/
def rnrRetry (r : ReachId) (now : Time) (qpn : BitVec 24) (c : Chip) : Chip :=
  let c := c.at r now
  match (c.reach r).qp qpn with
  | none => c
  | some q =>
    match q.ops.find? (fun o => o.status.isNone && (match o.rnrDue with | some t => notBefore t (c.now r) | none => false)) with
    | none => c
    | some o =>
      if !c.inService r then c
      else if q.rnrOver o (c.now r) then c.failOp r qpn o.seq 0x69
      else
        let first := (q.out.find? (fun p => !p.isResp && p.op == o.seq)).map (fun p => p.psn)
        c.onQp r qpn (fun q =>
          { q with out := q.out.map (fun p => if some p.psn == first then { p with resend := true } else p),
                   ops := q.ops.map (fun z => if z.seq == o.seq then
                     { z with rnrDue := none, rnrCount := if z.waitSince.isNone then z.rnrCount + 1 else z.rnrCount } else z) })

/-- QP_DRAIN_DONE: every taken operation of a context in DRAIN has retired; in a freeze, once no invocation of the function is in flight
(R311, R407). -/
def qpDrainDone (r : ReachId) (now : Time) (qpn : BitVec 24) (c : Chip) : Chip :=
  let c := c.at r now
  match (c.reach r).qp qpn with
  | none => c
  | some q =>
    if q.state != .drain || !q.ops.isEmpty || !q.resps.isEmpty
        || ((c.ten q.function).state == .freezing && c.collsInFlight q.function r) then c
    else
      let c := if q.drainTo == .reset then c.toReset r qpn
        else c.onQp r qpn (fun q => { q with state := .frozen, timer := none, drainCmd := none })
      c.completeOpt q.drainCmd r.val 0 (BitVec.ofNat 64 qpn.toNat)

/-! ### Flush reads (R219, R379) -/

/-- HOST_FLUSH_READ: the engine issues a zero-length read on the host port for the operations that wait. -/
def hostFlushRead (r : ReachId) (now : Time) (c : Chip) : Chip :=
  let c := c.at r now
  let m := (c.reach r).rme
  let due := decide (max 1 (fld m.ctrl 16 8) ≤ m.flushQ.length) || (match m.flushSince with
    | some t => notBefore (t + nsTime (fld m.ctrl 0 12)) (c.now r)
    | none => false)
  if !c.inService r || c.host.inReset || m.flushQ.isEmpty || !due then c
  else (c.onRme r (fun m => { m with flushOut := m.flushOut ++ [m.flushQ], flushQ := [], flushSince := none })).emit (.flushRead r)

/-- An operation's bytes in host memory stand visible. -/
def Chip.flushed (c : Chip) (r : ReachId) (x : FlushItem) : Chip :=
  c.onQp r x.qpn (fun q =>
    if x.target then { q with inOps := q.inOps.map (fun o => if o.msn.toNat == x.id then { o with hostWait := false } else o) }
    else { q with ops := q.ops.map (fun o => if o.seq == x.id then { o with flushWait := false } else o) })

/-- HOST_FLUSH_DONE: the oldest read returns. -/
def hostFlushDone (r : ReachId) (now : Time) (c : Chip) : Chip :=
  let c := c.at r now
  match (c.reach r).rme.flushOut with
  | [] => c
  | l :: rest => forEach l (c.onRme r (fun m => { m with flushOut := rest })) (fun c x => c.flushed r x)

/-- The host port has gone before an operation's bytes stood visible: it fails with RME_HOST_ABSENT. -/
def Chip.flushLost (c : Chip) (r : ReachId) (x : FlushItem) : Chip :=
  match (c.reach r).qp x.qpn with
  | none => c
  | some q =>
    if x.target then
      match q.inOp? (BitVec.ofNat 24 x.id) with
      | some o => if o.ok && o.hostWait then c.failIn r x.qpn o 0x6E else c
      | none => c
    else match q.op? x.id with
      | some o => if o.status.isNone && o.flushWait then c.failOp r x.qpn x.id 0x6E else c
      | none => c

/-- The host port goes into reset: every operation that waits for a flush read fails (R219). -/
def Chip.flushesLost (c : Chip) (r : ReachId) : Chip :=
  let l := (c.reach r).rme.flushOut.flatten ++ (c.reach r).rme.flushQ
  forEach l (c.onRme r (fun m => { m with flushOut := [], flushQ := [], flushSince := none })) (fun c x => c.flushLost r x)

/-- A function becomes absent: the receives posted in host memory on its queue pairs of a reach complete with RME_HOST_ABSENT
(R379). -/
def Chip.recvsLost (c : Chip) (r : ReachId) (f : FnId) : Chip :=
  forEach (((c.reach r).rme.qps.filter (fun e => e.2.function == f)).map (fun e => e.2)) c (fun c q =>
    let lost := fun (x : PostedRecv) => x.status.isNone && runsHost x.runs
    match q.recvs.find? lost with
    | none => c
    | some x =>
      let c := c.onQp r q.qpn (fun q => { q with recvs := q.recvs.map (fun y => if lost y then { y with status := some 0x6E } else y) })
      if q.state == .ready || q.state == .drain then c.failOp r q.qpn x.seq 0x6E else c)

/-! ### Commands (R198 to R205, R410, R542) -/

/-- The reach of a queue-pair number (R196). -/
def qpReach (qpn : BitVec 24) : ReachId := ⟨qpn.toNat / 2 ^ 14 % 4, Nat.mod_lt _ (by decide)⟩

/-- A context right after QP_CREATE. -/
def newQp (p : QpParams) (f : FnId) (gen : Word16) (plan : Bool) (ciph : Nat) : Qp :=
  { state := .reset, plan := plan, owner := p.owner, encap := p.encap, ciphEn := p.ciphEn, pkey := p.pkey, qpn := p.qpn, function := f,
    peerNode := p.peerNode, peerQpn := p.peerQpn, asid := p.asid, fnGen := gen, cqRing := p.cqRing, maxRd := p.maxRd,
    rnrRetry := p.rnrRetry, rnrTimer := p.rnrTimer, ciphCtx := BitVec.ofNat 16 ciph, rqDepth := p.rqDepth, sndNxt := 0, sndUna := 0,
    retries := 0, rcvNxt := 0, rcvMsn := 0, roSlot := 0x1FFF, sndMsn := 0, visAcked := 0, visMsn := 0, visSeen := false, ackPend := 0,
    failMsn := 0, failCode := 0, rate := 0, credit := 0, lastTx := 0, qmax := 0, ackedPk := 0, ecnPk := 0, intStart := 0, ops := [],
    nextOp := 0, out := [], again := [], ahead := [], held := [], recvs := [], inOps := [], resps := [], drainTo := .reset,
    drainCmd := none, destroying := none, timer := none, ackDue := none, rxQdelay := 0, rxPkts := 0, rxEcn := 0, failed := none,
    started := false, lastPkt := 0 }

/-- A loaded plan reserves an index of a kind on a reach. -/
def Reach.planReserves (x : Reach) (r : ReachId) (kind i : Nat) : Bool := x.plan.plans.any (fun p => (p.con.reserved r kind).contains i)

/-- RQ_DEPTH of a reach's contexts but one (R197). -/
def Rme.rqPool (m : Rme) (but : Nat) : Nat := m.qps.foldl (fun n e => if e.1 == but then n else n + e.2.rqDepth.toNat) 0

/-- Partition-table index of a key (R439). -/
def Reach.ciphIndex (x : Reach) (key : Word16) : Nat := ((x.rtr.partFind key.toNat).map (fun e => e.1)).getD 0

/-- Contexts of a function on a reach have reached its quota; the PF has none. -/
def Chip.qpQuotaFull (c : Chip) (r : ReachId) (f : FnId) : Bool :=
  match (c.ten f).grant with
  | some g => f != 0 && decide (g.qpQuota.toNat ≤ ((c.reach r).rme.qps.filter (fun e => e.2.function == f)).length)
  | none => false

/-- A command names an ASID outside its function's grant (XLT_BAD_ASID). -/
def Chip.badAsid (c : Chip) (f : FnId) (a : Word16) : Bool := !c.holdsAsid f a.toNat

/-- What a QP_CREATE is refused with. -/
def Chip.qpCreateCheck (c : Chip) (r : ReachId) (f : FnId) (p : QpParams) : Option Nat :=
  let m := (c.reach r).rme
  if p.fmt != 1 || p.owner == 3 || p.qpn.toNat / 2 ^ 16 != 0 || isMaint p.qpn || decide (4096 < p.rqDepth.toNat) then some 0x92
  else if (Tab.find? m.qps (qpIndex p.qpn)).isSome then some 0x94
  else if c.badAsid f p.asid then some 0xA3
  else if c.qpQuotaFull r f || decide (65536 < m.rqPool 0x10000 + p.rqDepth.toNat) then some 0x71
  else none

/-- QP_CREATE. -/
def qpCreate (ref : CmdRef) (p : QpParams) (c : Chip) : Chip :=
  let r := qpReach p.qpn
  if !c.inService r then c.complete ref 4 0x6F 0
  else match c.qpCreateCheck r ref.fn p with
    | some s => c.complete ref r.val s 0
    | none =>
      let q := newQp p ref.fn (c.fn ref.fn).gen ((c.reach r).planReserves r 2 (qpIndex p.qpn)) ((c.reach r).ciphIndex p.pkey)
      (c.onRme r (fun m => { m with qps := Tab.set m.qps (qpIndex p.qpn) q })).complete ref r.val 0 (BitVec.ofNat 64 p.qpn.toNat)

/-- The state that a number names (table "Queue-pair states"). -/
def QpState.ofCode (n : Nat) : QpState :=
  match n with | 0 => .reset | 1 => .init | 2 => .ready | 3 => .drain | 4 => .frozen | _ => .error

/-- The number of a state. -/
def QpState.code : QpState → Nat
  | .reset => 0 | .init => 1 | .ready => 2 | .drain => 3 | .frozen => 4 | .error => 5

/-- The fields of a context that a command gives. -/
def Qp.params (q : Qp) : QpParams :=
  { fmt := 1, owner := q.owner, encap := q.encap, ciphEn := q.ciphEn, pkey := q.pkey, qpn := q.qpn, peerNode := q.peerNode,
    peerQpn := q.peerQpn, asid := q.asid, cqRing := q.cqRing, maxRd := q.maxRd, rnrRetry := q.rnrRetry, rnrTimer := q.rnrTimer,
    rqDepth := q.rqDepth }

/-- A context takes the fields that a QP_MODIFY gives. -/
def Qp.give (q : Qp) (p : QpParams) (ciph : Nat) : Qp :=
  { q with owner := p.owner, encap := p.encap, ciphEn := p.ciphEn, pkey := p.pkey, peerNode := p.peerNode, peerQpn := p.peerQpn,
           asid := p.asid, cqRing := p.cqRing, maxRd := p.maxRd, rnrRetry := p.rnrRetry, rnrTimer := p.rnrTimer, rqDepth := p.rqDepth,
           ciphCtx := BitVec.ofNat 16 ciph }

/-- A context moves to READY with the initial sequence numbers it is given (R198, R240, R245). -/
def Qp.open (q : Qp) (m : Rme) (now : Time) (sp rp sm rm : BitVec 24) : Qp :=
  { q with state := .ready, sndNxt := sp, sndUna := sp, rcvNxt := rp, sndMsn := sm, visAcked := sm, rcvMsn := rm, visMsn := rm,
           visSeen := false, retries := 0, rate := BitVec.ofNat 20 m.rateInit, credit := m.burst, lastTx := now, intStart := now,
           started := false, failed := none, failCode := 0, lastPkt := now }

/-- A retarget: the context differs from what the command gives in PEER_NODE alone (R410). -/
def Qp.isRetarget (q : Qp) (m : QpModify) : Bool :=
  m.state.toNat == q.state.code && (q.state == .ready || q.state == .drain || q.state == .frozen)
    && m.ctx.peerNode != q.peerNode && { m.ctx with peerNode := q.peerNode } == q.params

/-- The plan that reserves a context is in a stoppage. -/
def Reach.planStopped (x : Reach) (r : ReachId) (i : Nat) : Bool :=
  x.plan.plans.any (fun p => (p.con.reserved r 2).contains i && p.inStoppage)

/-- QP_MODIFY. -/
def qpModify (ref : CmdRef) (m : QpModify) (c : Chip) : Chip :=
  let qpn := m.ctx.qpn
  let r := qpReach qpn
  let now := c.now r
  let bad := fun (c : Chip) => c.complete ref r.val 0x92 0
  let ok := fun (c : Chip) => c.complete ref r.val 0 (BitVec.ofNat 64 qpn.toNat)
  if !c.inService r then c.complete ref 4 0x6F 0
  else match (c.reach r).qp qpn with
    | none => bad c
    | some q =>
      if q.function != ref.fn || q.destroying.isSome then bad c
      else if q.plan && !(q.isRetarget m && (c.reach r).planStopped r (qpIndex qpn)) then c.complete ref r.val 0x70 0
      else if q.isRetarget m then
        ok (c.onQp r qpn (fun q =>
          { q with peerNode := m.ctx.peerNode, ciphCtx := BitVec.ofNat 16 ((c.reach r).ciphIndex q.pkey),
                   out := q.out.map (fun p => if p.sacked then p else { p with resend := true }) }))
      else
        let x := c.reach r
        let give := fun (q : Qp) => q.give m.ctx (x.ciphIndex m.ctx.pkey)
        let fits := m.ctx.fmt == 1 && m.ctx.owner != 3 && decide (m.ctx.rqDepth.toNat ≤ 4096)
        match q.state, QpState.ofCode m.state.toNat with
        | .reset, .init =>
          if !fits then bad c
          else if c.badAsid ref.fn m.ctx.asid then c.complete ref r.val 0xA3 0
          else if 65536 < x.rme.rqPool (qpIndex qpn) + m.ctx.rqDepth.toNat then c.complete ref r.val 0x71 0
          else ok (c.onQp r qpn (fun q => { give q with state := .init }))
        | .init, .ready =>
          if !fits then bad c
          else if c.badAsid ref.fn m.ctx.asid then c.complete ref r.val 0xA3 0
          else if 65536 < x.rme.rqPool (qpIndex qpn) + m.ctx.rqDepth.toNat then c.complete ref r.val 0x71 0
          else ok (c.onQp r qpn (fun q => (give q).open x.rme now m.sndPsn m.rcvPsn m.sndMsn m.rcvMsn))
        | .ready, .drain | .ready, .frozen =>
          c.onQp r qpn (fun q => { q with state := .drain, drainTo := .frozen, drainCmd := some ref })
        | .ready, .reset => c.onQp r qpn (fun q => { q with state := .drain, drainTo := .reset, drainCmd := some ref })
        | .frozen, .reset => ok (c.toReset r qpn)
        | .error, .reset =>
          if q.drainCmd.isSome then bad c
          else (c.onQp r qpn (fun q => { q with drainTo := .reset, drainCmd := some ref })).retired r qpn
        | _, _ => bad c

/-- A context goes to ERROR to be freed once everything has retired (R200); `d` is the command that completes then. -/
def Chip.qpKill (c : Chip) (r : ReachId) (q : Qp) (d : Option CmdRef) : Chip :=
  let due := c.now r + (c.reach r).rme.rto 0
  let c := c.onReach r (fun x => x.dropRefs q.refs)
  let c := c.onQp r q.qpn (fun q =>
    { q with state := .error, destroying := d, drainCmd := none, inOps := [], resps := [], held := [], ackDue := none,
             ops := q.ops.map (fun (o : RmeOp) => { o with rnrDue := none }),
             timer := if q.unretired then (match q.timer with | some t => some t | none => some due) else none })
  (c.completeOpt q.drainCmd r.val 0x60 0).retired r q.qpn

/-- QP_DESTROY. -/
def qpDestroy (ref : CmdRef) (qpn : BitVec 24) (c : Chip) : Chip :=
  let r := qpReach qpn
  if !c.inService r then c.complete ref 4 0x6F 0
  else match (c.reach r).qp qpn with
    | none => c.complete ref r.val 0x92 0
    | some q =>
      if q.function != ref.fn || q.destroying.isSome then c.complete ref r.val 0x92 0
      else if q.plan then c.complete ref r.val 0x70 0
      else c.qpKill r q (some ref)

/-! ### Moorings -/

/-- The physical runs of a range to be registered; none where R204 refuses it. -/
def Chip.moorRange (c : Chip) (r : ReachId) (f : FnId) (p : MooringParams) : Option (List Run) :=
  let n := p.length.toNat
  if p.space == 1 then
    let t := natBits p.base.toNat 23 6
    let a := natBits p.base.toNat 0 23
    if !c.holdsTile f (64 * r.val + t) || decide (0x600000 < a + n) then none
    else some [{ host := false, pa := spadWindow + t * 0x800000 + a, len := n }]
  else if p.space == 2 then some [{ host := true, pa := hostKey f p.base.toNat, len := n }]
  else
    match c.translate p.asid.toNat (natBits p.base.toNat 0 57) n false false with
    | .error _ => none
    | .ok l => if l.all (fun q => q.run.host || q.reach == r) then some (l.map (fun q => q.run)) else none

/-- The lowest free mooring index. -/
def Rme.freeMoor (m : Rme) : Option Nat :=
  (List.range 32766).findSome? (fun k =>
    let i := k + 2
    match Tab.find? m.moorings i with
    | some x => if x.inUse then none else some i
    | none => some i)

/-- The next tag of an index (R204). -/
def Rme.nextTag (m : Rme) (i : Nat) : BitVec 15 :=
  match Tab.find? m.moorings i with
  | some x => if x.tag == 0x7FFF then 1 else x.tag + 1
  | none => 1

/-- Mooring entries of a function on a reach have reached its quota. -/
def Chip.moorQuotaFull (c : Chip) (r : ReachId) (f : FnId) : Bool :=
  match (c.ten f).grant with
  | some g => f != 0 && decide (g.moorQuota.toNat ≤ ((c.reach r).rme.moorings.filter (fun e => e.2.inUse && e.2.function == f)).length)
  | none => false

/-- MOORING_REGISTER on a reach. -/
def mooringRegister (ref : CmdRef) (r : ReachId) (p : MooringParams) (c : Chip) : Chip :=
  let f := ref.fn
  let m := (c.reach r).rme
  if !c.inService r then c.complete ref 4 0x6F 0
  else if p.fmt != 1 || p.space == 3 then c.complete ref r.val 0x92 0
  else if p.space == 0 && c.badAsid f p.asid then c.complete ref r.val 0xA3 0
  else match c.moorRange r f p with
    | none => c.complete ref r.val 0x62 0
    | some runs =>
      if !c.holdsKey f r p.pkey.toNat then c.complete ref r.val 0x62 0
      else match (if c.moorQuotaFull r f then none else m.freeMoor) with
        | none => c.complete ref r.val 0x71 0
        | some i =>
          let tag := m.nextTag i
          let x : Mooring :=
            { valid := true, space := p.space, plan := (c.reach r).planReserves r 5 i, rights := p.rights, pkey := p.pkey, tag := tag,
              bindEn := p.bindEn, function := f, base := p.base, length := p.length, asid := p.asid, bindQpn := p.bindQpn,
              fnGen := (c.fn f).gen, runs := runs, refs := 0, withdraw := none, inUse := true }
          (c.onRme r (fun m => { m with moorings := Tab.set m.moorings i x })).complete ref r.val 0
            (BitVec.ofNat 64 (i + r.val * 2 ^ 15 + tag.toNat * 2 ^ 17))

/-- The runs of a withdrawn entry without references are unpinned, its index freed and its withdraw completed. -/
def Chip.releaseMoor (c : Chip) (r : ReachId) (i : Nat) : Chip :=
  match Tab.find? (c.reach r).rme.moorings i with
  | none => c
  | some m =>
    match m.withdraw with
    | none => c
    | some ref =>
      if m.refs != 0 then c
      else
        let free : Mooring := { m with valid := false, runs := [], withdraw := none, inUse := false }
        (c.onRme r (fun x => { x with moorings := Tab.set x.moorings i free })).complete ref r.val 0
          (BitVec.ofNat 64 (i + r.val * 2 ^ 15 + m.tag.toNat * 2 ^ 17))

/-- MOORING_WITHDRAW. -/
def mooringWithdraw (ref : CmdRef) (key : Word32) (c : Chip) : Chip :=
  let r : ReachId := ⟨key.toNat / 2 ^ 15 % 4, Nat.mod_lt _ (by decide)⟩
  let i := natBits key.toNat 0 15
  if !c.inService r then c.complete ref 4 0x6F 0
  else match Tab.find? (c.reach r).rme.moorings i with
    | none => c.complete ref r.val 0x92 0
    | some m =>
      if !m.valid || m.tag.toNat != natBits key.toNat 17 15 || m.function != ref.fn then c.complete ref r.val 0x92 0
      else if m.plan then c.complete ref r.val 0x70 0
      else
        let gone : Mooring := { m with valid := false, withdraw := some ref }
        (c.onRme r (fun x => { x with moorings := Tab.set x.moorings i gone })).releaseMoor r i

/-- MOORING_RELEASE: the last reference on a withdrawn entry has been dropped. -/
def mooringRelease (r : ReachId) (now : Time) (i : BitVec 15) (c : Chip) : Chip := (c.at r now).releaseMoor r i.toNat

end Sys2Proof.Machine
end

