-- ==== Sys2Proof/Machine/CollOps.lean ====
section
/-!
DEFINITION. Collective invocations as they run (R296 to R315): the start of an unplanned one, chunks sent and received, adds with
their checks, timeouts, and bursts of the adder self-test (R310, R453).
-/

namespace Sys2Proof.Machine

/-! ### The state of the data (R289, R290, R297) -/

/-- A receive item of a chunk of W comes before another use of that chunk: adds before copies; adds by rising level; copies of ALG 0 by
falling level, of ALG 1 by rising step. -/
def comesBefore (alg : Nat) (y : CollItem) (adds : Bool) (level : Nat) : Bool :=
  if y.adds then !adds || decide (y.level < level)
  else !adds && (if alg = 0 then decide (level < y.level) else decide (y.level < level))

/-- Every receive item of chunk `k` of W that comes before a use at a level is done. -/
def CollInv.wReady (i : CollInv) (k : Nat) (adds : Bool) (level : Nat) : Bool :=
  i.recvs.zipIdx.all (fun e => !(e.1.2.chunk == k && comesBefore i.desc.alg e.1.2 adds level) || i.done.contains e.2)

/-- Chunk `k` of IN stands: the member is ready, or its streaming step has handed the chunk over (R302). -/
def CollInv.inReady (i : CollInv) (k : Nat) : Bool := if i.streaming then i.streamed.contains k else i.ready

/-- The source of a chunk to be sent stands. -/
def CollInv.sourceReady (i : CollInv) (x : CollItem) : Bool :=
  if x.fromIn then i.inReady x.src else i.ready && i.wReady x.src x.adds x.level

/-- STEP of a chunk's tail (R292). -/
def CollDesc.stepOf (d : CollDesc) (x : CollItem) : Nat := if d.alg = 2 then 0 else x.level

/-- A member looks at its words and goes on with what it can do: readiness, aborts, grants, the rollback and the end. A reducing one fails
while the endpoint adder is out of service (R310). -/
def Chip.collWake (c : Chip) (r : ReachId) (i : CollInv) : Chip :=
  let c := if i.desc.reducing && !(c.reach r).coll.endpointOk then c.collFail r i 0x81 0 else c
  let c := c.makeReady r (c.invNow r i)
  let c := c.lookAbort r (c.invNow r i)
  let c := if (c.invNow r i).code.isNone then c.grants r i else (c.tellAborts r i).rollBack r i
  c.collEnd r i

/-- An invocation that starts: its member entries, hosts and edges; the wharf group of a planned one, or the endpoint (R303, R306). -/
def newInv (plan : Option Word64) (key : Word64) (d : CollDesc) (ms : List CollMember) (hosts : List Word16) (es : List CollEdge)
    (member round : Nat) (serial : Word32) (cmd : Option CmdRef) (used : Tab Nat) (abortUsed : Nat) (now : Time) : CollInv :=
  { plan := plan, key := key, desc := d, members := ms, hosts := hosts, edges := es, member := member, round := round, serial := serial,
    cmd := cmd, granted := 0, landed := [], done := [], sent := [], used := used, abortUsed := abortUsed, doneAdded := false,
    ready := false, code := none, rmeCode := 0, abortLeft := [], slot := none, claimed := false, fallback := false, lastProgress := now,
    streamed := [], streaming := false, streamBase := 0, finished := false, last := round, rounds := [], claim := none }

/-- Put an invocation in hand. -/
def Chip.startInv (c : Chip) (r : ReachId) (i : CollInv) : Chip :=
  let c := c.onReach r (fun y => { y with coll := { y.coll with invs := y.coll.invs ++ [i] } })
  c.collWake r i

/-- The invocation of a member that follows the one of round `i.round`. -/
def CollInv.following (i : CollInv) (now : Time) : CollInv :=
  { newInv i.plan i.key i.desc i.members i.hosts i.edges i.member (i.round + 1) (BitVec.ofNat 32 (i.round + 1)) none i.used i.abortUsed now with
    last := max i.last (i.round + 1), streaming := i.streaming, streamBase := i.streamBase }

/-- A member's invocation gives way to another of its own. -/
def Chip.replaceInv (c : Chip) (r : ReachId) (i j : CollInv) : Chip :=
  (c.onReach r (fun x => { x with coll := { x.coll with invs := x.coll.invs.filter (fun k => !k.is i.key i.desc.coll i.member) } })).startInv r j

/-- A member whose invocation of a round has ended starts the next, one after another, for every round that the phase has come to (R297). -/
def Chip.nextRound (c : Chip) (r : ReachId) (i : CollInv) : Chip :=
  match i.plan with
  | none => c
  | some h =>
    match (c.reach r).planBy h with
    | some p =>
      if i.finished && i.code.isNone && p.st == .running && decide (i.round < i.last) then c.replaceInv r i (i.following (c.now r)) else c
    | none => c

/-! ### Sending (R298, R299) -/

/-- The tail of a chunk to be sent. CONTRIB comes from the tail plane, and is 1 for a chunk of IN. CHECK is computed from the chunk's bytes
(R299), but the CRC of a chunk of W is the one that its tail brought to W, so that it covers the stay there (R308). -/
def Chip.chunkTail (c : Chip) (r : ReachId) (i : CollInv) (x : CollItem) (bs : List Byte) : List Byte :=
  let plane := c.memberRead r i.mine (i.tailAddr x.src) 64
  let contrib := if x.fromIn then 1 else leAt plane 0x18 2
  let check := if x.fromIn || i.desc.wire == 0 then chunkCheck i.desc.wire bs else leAt plane 0x10 4
  tailBytes i.desc.wire i.desc.coll i.serial x.chunk i.member (i.desc.stepOf x) check contrib

/-- Direct sends go to one destination after another (R290): those to every earlier destination have been sent. -/
def CollInv.inTurn (i : CollInv) (dest : Nat) : Bool :=
  i.desc.alg != 2 || (i.sends.takeWhile (fun x => x.dest != dest)).all (fun x =>
    decide ((i.sends.filter (fun y => y.dest == x.dest)).length ≤ Tab.getD i.sent x.dest 0))

/-- The next item of an edge is sent: the count of the edge and its used grants go up. -/
def Chip.itemSent (c : Chip) (r : ReachId) (i : CollInv) (x : CollItem) : Chip :=
  let e := i.desc.slotOf x x.dest
  c.onInv r i (fun j => { j with sent := Tab.modify j.sent x.dest 0 (· + 1), used := Tab.modify j.used e 0 (· + 1) })

/-- A chunk goes to a member of another node as one WRITE_SIGNAL into the staging entry of its item. -/
def Chip.sendRemote (c : Chip) (r : ReachId) (i : CollInv) (x : CollItem) (entry : Nat) (tail : List Byte) : Chip :=
  match i.edge i.member x.dest with
  | none => c.collFail r i 0x83 0x61
  | some e =>
    let d := i.desc
    let dest := i.entry x.dest
    let addr := i.chunkAddr x.fromIn x.src
    let w : WorkEntry :=
      { fmt := 1, op := 1, tc := if d.win = 0xFFFF then BitVec.ofNat 3 d.tc else 6, lsigEn := false, ret := false, lspace := 0,
        scope := false, win := BitVec.ofNat 16 d.win, qpn := BitVec.ofNat 24 e.qpn, laddr := BitVec.ofNat 64 addr,
        length := BitVec.ofNat 32 (d.c + 64), rkey := collKey dest.stageMoor, roff := BitVec.ofNat 64 (entry * (d.c + 64)), skey := collKey dest.creditMoor, soff := 0,
        add := 0, lsigAddr := 0 }
    let run : Run := { host := false, pa := spadWindow + i.mine.tile % 64 * 0x800000 + addr, len := d.c }
    match c.submit r w (.coll i.key d.coll i.member) [run] tail with
    | .wait => c
    | .refused s => c.collFail r i 0x83 s
    | .taken c => c.itemSent r i x

/-- A chunk goes to a member of this node without a fabric transfer (R291). -/
def Chip.sendMember (c : Chip) (r : ReachId) (i : CollInv) (x : CollItem) (entry : Nat) (bs tail : List Byte) : Chip :=
  match (c.reach r).partner i x.dest with
  | none => c
  | some k =>
    let c := c.claimSlot r k (c.now r) (c.nodeId r)
    let k := c.invNow r k
    let c := c.landChunk r k entry 0 (bs ++ tail)
    (c.itemSent r i x).chunkLanded r k entry none

/-- COLL_CHUNK_SEND: a member whose credit exceeds its used grants sends the next chunk of the edge to member `to`. -/
def collChunkSend (r : ReachId) (now : Time) (key : Word64) (coll member dest : Nat) (c : Chip) : Chip :=
  let c := c.at r now
  match (c.reach r).inv key coll member with
  | none => c
  | some i0 =>
    if !c.inService r then c
    else
      let c := (c.collWake r i0).nextRound r (c.invNow r i0)
      match (c.reach r).inv key coll member with
      | none => c
      | some i =>
        if i.finished || i.code.isSome then c
        else
          let n := Tab.getD i.sent dest 0
          let item := (i.sends.filter (fun x => x.dest == dest))[n]?
          let place := ((recvList i.desc i.edges dest).zipIdx.filter (fun e => e.1.1 == i.member))[n]?
          match item, place with
          | some x, some p =>
            let e := i.desc.slotOf x dest
            let credit := c.memberWord r i.mine (i.mine.creditAddr + 8 * (e + 1))
            if !i.sourceReady x || !i.inTurn dest || decide (credit ≤ Tab.getD i.used e 0) then c
            else
              let bs := c.memberRead r i.mine (i.chunkAddr x.fromIn x.src) i.desc.c
              let tail := c.chunkTail r i x bs
              let entry := p.2 % (i.entry dest).stageDepth
              if i.host dest == c.nodeId r then c.sendMember r i x entry bs tail else c.sendRemote r i x entry tail
          | _, _ => c

/-! ### Receiving (R300, R307 to R309) -/

/-- A local operand: its bytes, its CHECK and its CONTRIB. -/
structure CollOperand where
  bytes : List Byte
  check : Nat
  contrib : Nat

/-- The member's local operand for an item that adds: its IN chunk at level 0 and in the ring, else its chunk of W with the tail of the
tail plane. -/
def CollInv.localIsIn (i : CollInv) (x : CollItem) : Bool := i.desc.alg = 1 || x.level = 0
/-- The operand itself. -/
def Chip.localOperand (c : Chip) (r : ReachId) (i : CollInv) (x : CollItem) : CollOperand :=
  if i.localIsIn x then
    let bs := c.memberRead r i.mine (i.chunkAddr true x.chunk) i.desc.c
    { bytes := bs, check := chunkCheck i.desc.wire bs, contrib := 1 }
  else
    let t := c.memberRead r i.mine (i.tailAddr x.chunk) 64
    { bytes := c.memberRead r i.mine (i.chunkAddr false x.chunk) i.desc.c, check := leAt t 0x10 8, contrib := leAt t 0x18 2 }

/-- The local operand of an item stands: IN is ready, or every earlier add of the chunk is done. -/
def CollInv.operandReady (i : CollInv) (x : CollItem) : Bool :=
  if i.localIsIn x then i.inReady x.chunk else i.ready && i.wReady x.chunk true x.level

/-- ROUND that a chunk of a member must carry (R292, R309): the round, or, unplanned, the serial of that member's own handle, which its first
chunk tells (assumption 64). -/
def CollInv.roundOk (i : CollInv) (m : Nat) (t : List Byte) : Bool :=
  match i.plan with
  | some _ => leAt t 4 4 == i.serial.toNat
  | none => match Tab.find? i.rounds m with
    | some n => leAt t 4 4 == n
    | none => m != i.member || leAt t 4 4 == i.serial.toNat

/-- The tail is of a format that is known (R15) and names the chunk that is expected (R309). -/
def CollInv.tailOk (i : CollInv) (m : Nat) (x : CollItem) (t : List Byte) : Bool :=
  natBits (leAt t 0 1) 0 4 == 1 && leAt t 2 2 == i.desc.coll && i.roundOk m t && leAt t 8 4 == x.chunk && leAt t 0xC 2 == m
    && leAt t 0xE 2 == i.desc.stepOf x

/-- What comes of a chunk that stands in a staging entry: the bytes for W with CONTRIB, or a failure code. -/
def Chip.chunkResult (c : Chip) (r : ReachId) (i : CollInv) (m : Nat) (x : CollItem) (bs t : List Byte) : Except Nat (List Byte × Nat) :=
  let wire := i.desc.wire
  let check := leAt t 0x10 8
  let contrib := leAt t 0x18 2
  if !i.tailOk m x t then .error 0x81
  else if wire != 0 && (crc32c bs).toNat != check % 2 ^ 32 then .error 0x82
  else if !x.adds then
    if wire = 0 && residue bs != check % residueM then .error 0x81 else .ok (bs, contrib)
  else
    let o := c.localOperand r i x
    if wire != 0 && !i.localIsIn x && (crc32c o.bytes).toNat != o.check % 2 ^ 32 then .error 0x82
    else if !(c.reach r).coll.endpointOk then .error 0x81
    else
      let mineLow := i.desc.alg = 1 || !i.member.testBit x.level
      let sum := if mineLow then addChunks wire o.bytes bs else addChunks wire bs o.bytes
      if wire = 0 && residue sum != (o.check + check) % residueM then .error 0x81
      else .ok (sum, (o.contrib + contrib) % 65536)

/-- Recovery testing falls due after a COLL_CHECK raised at a slot, or two COLL_CRC within 60 s (R310). -/
def Chip.noteRefusal (c : Chip) (r : ReachId) (i : CollInv) (code : Nat) : Chip :=
  c.onReach r (fun x =>
    let now := x.time.now
    let near := match x.coll.lastCrc with | some t => decide (timeDiff t now ≤ nsUnits 60000000000) | none => false
    { x with coll := { x.coll with recover := x.coll.recover || (code == 0x81 && i.slot.isSome) || (code == 0x82 && near),
                                   lastCrc := if code = 0x82 then some now else x.coll.lastCrc } })

/-- The operands of an item meet an uncorrectable error in scratchpad: the first line that does (R159, R449). -/
def Chip.operandUe (c : Chip) (r : ReachId) (i : CollInv) (entry : Nat) (x : CollItem) : Option Nat :=
  let tile := (c.reach r).tile (i.mine.tile % 64)
  let staged := if (i.slotOfEntry entry).isSome then [(i.mine.stageAddr + entry * (i.desc.c + 64) + i.desc.c, 64)]
    else [(i.mine.stageAddr + entry * (i.desc.c + 64), i.desc.c + 64)]
  let own := if !x.adds then []
    else if i.localIsIn x then [(i.chunkAddr true x.chunk, i.desc.c)]
    else [(i.chunkAddr false x.chunk, i.desc.c), (i.tailAddr x.chunk, 64)]
  tile.spadErr (staged ++ own)

/-- COLL_CHUNK_RECEIVE: item `item` of the member's receive list, which stands whole in its staging entry, is checked, added where it
adds, and written to W with its tail; the entry is then free and the operation that brought it visible. -/
def collChunkReceive (r : ReachId) (now : Time) (key : Word64) (coll member item : Nat) (c : Chip) : Chip :=
  let c := c.at r now
  match (c.reach r).inv key coll member with
  | none => c
  | some i0 =>
    if !c.inService r then c
    else
      let c := (c.collWake r i0).nextRound r (c.invNow r i0)
      match (c.reach r).inv key coll member with
      | none => c
      | some i =>
        match i.landed.find? (fun e => e.1 == item), i.recvs[item]? with
        | some e, some (m, x) =>
          let b := (c.reach r).bist
          let c := if x.adds then c.claimSlot r i (c.now r) (c.nodeId r) else c
          let i := c.invNow r i
          let busy := x.adds && burstOn (if i.slot.isSome then b.burstWharf else b.burstEnd) (c.now r)
          if i.finished || i.code.isSome || busy || (x.adds && !i.operandReady x) || (!x.adds && !i.wReady x.chunk false x.level) then c
          else
            let entry := item % i.mine.stageDepth
            match c.operandUe r i entry x with
            | some l => (c.memUe r 5 (spadWindow + i.mine.tile % 64 * 0x800000 + 64 * l) 0).collFail r i 0x81 0
            | none =>
              let (bs, t) := c.stagedChunk r i entry
              let c := if x.adds then c.loadOperand r i entry (c.localOperand r i x).bytes else c
              match c.chunkResult r i m x bs t with
              | .error code => (c.noteRefusal r i code).collFail r i code 0
              | .ok (w, contrib) =>
                let tail := tailBytes i.desc.wire coll i.serial x.chunk i.member (i.desc.stepOf x) (chunkCheck i.desc.wire w) contrib
                let c := (c.memberWrite r i.mine (i.chunkAddr false x.chunk) w).memberWrite r i.mine (i.tailAddr x.chunk) tail
                let c := match e.2 with
                  | some (qpn, msn) => c.onQp r qpn (fun q =>
                      { q with inOps := q.inOps.map (fun (o : InOp) => if o.msn == msn then { o with collWait := false } else o) })
                  | none => c
                let c := c.onInv r i (fun j =>
                  { j with landed := j.landed.filter (fun k => k.1 != item), done := j.done ++ [item], lastProgress := c.now r,
                           rounds := if j.plan.isNone then Tab.set j.rounds m (leAt t 4 4) else j.rounds })
                let c := if (c.invNow r i).addsDone then c.freeSlots r (c.invNow r i) else c
                (c.grants r i).collEnd r i
        | _, _ => c

/-! ### Timeout (R312) -/

/-- Time that a member waits without a grant or a chunk. -/
def Chip.collPatience (c : Chip) (r : ReachId) (i : CollInv) : Int :=
  let us := match i.plan with
    | some h => (match (c.reach r).planBy h with
        | some p => if p.con.hdr.collTimeout = 0 then 2000 else p.con.hdr.collTimeout
        | none => 2000)
    | none => clampNat 100 1000000 (fld (c.reach r).coll.ctrl 0 32)
  nsUnits i.desc.freeboard + nsUnits (1000 * us)

/-- COLL_TIMEOUT: a ready member that waits on a credit or a chunk has waited too long. -/
def collTimeout (r : ReachId) (now : Time) (key : Word64) (coll member : Nat) (c : Chip) : Chip :=
  let c := c.at r now
  match (c.reach r).inv key coll member with
  | none => c
  | some i0 =>
    if !c.inService r then c
    else
      let c := (c.collWake r i0).nextRound r (c.invNow r i0)
      match (c.reach r).inv key coll member with
      | none => c
      | some i =>
        let waits := decide (i.done.length < i.recvs.length)
          || decide (i.sent.foldl (fun n e => n + e.2) 0 < i.sends.length)
        if i.finished || i.code.isSome || !(if i.streaming then !i.streamed.isEmpty else i.ready) || !waits
            || decide (timeDiff i.lastProgress (c.now r) < c.collPatience r i) then c
        else
          let plan := i.plan.bind (fun h => (c.reach r).planBy h)
          let c := c.tdc r 8 (c.collFn r i) 73 (BitVec.ofNat 32 coll) (match plan with | some p => p.con.hdr.planId | none => 0)
          c.collFail r i 0x80 0

/-! ### Starting (R296, R297) -/

/-- The checks of R296 for an unplanned invocation, whose PEER is the node itself and whose indices need no reservation: the code of the
first that fails. -/
def Chip.collStartCheck (c : Chip) (r : ReachId) (f : FnId) (fmt : Nat) (d : CollDesc) (ms : List CollMember) (es : List CollEdge)
    (m : CollMember) : Option Nat :=
  let all := fun (kind n : Nat) => ({ fmt := 1, kind := kind, reach := r.val, first := 0, count := n, firstPhase := 0, lastPhase := 255 } : ResvEntry)
  let ctx : CollCtx := { reach := c.reach r, peers := ms.map (fun e => BitVec.ofNat 16 e.peer), me := c.nodeId r,
                         resv := [all 1 64, all 2 16384, all 5 32768] }
  let own := ms.zipIdx.map (fun e => { e.1 with peer := e.2 })
  if fmt != 1 || d.fmt != 1 || ms.any (fun e => e.fmt != 1) then some 0x01
  else if (collBadField ctx 12 [d] own es).isSome then some 0x04
  else if !c.holdsTile f m.tile then some 0x06
  else if d.win != 0xFFFF then some 0x08
  else none

/-- COLL_START: one member of an unplanned invocation starts on the reach that holds its tile. -/
def collStart (ref : CmdRef) (p : CollStart) (c : Chip) : Chip :=
  let (fmt, ds, ms, es) := collSection p.section_
  match ds[p.index]? with
  | none => c.complete ref 4 0x92 0
  | some d =>
    match (d.membersOf ms)[p.member]? with
    | none => c.complete ref 4 0x92 0
    | some m =>
      let r : ReachId := ⟨m.tile / 64 % 4, Nat.mod_lt _ (by decide)⟩
      if !c.inService r then c.complete ref 4 0x6F 0
      else match c.collStartCheck r ref.fn fmt d ms es m with
        | some s => c.complete ref r.val s 0
        | none =>
          if m.peer != (c.nodeId r).toNat then c.complete ref r.val 0x04 0
          else
            let members := d.membersOf ms
            c.startInv r (newInv none ref.handle d members (members.map (fun e => BitVec.ofNat 16 e.peer)) (d.edgesOf es) p.member 0
              (BitVec.ofNat 32 (ref.handle.toNat / 65536)) (some ref) [] 0 (c.now r))

/-! ### Adder self-test (R310, R453) -/

/-- A burst of an adder's test has passed or failed, and `full` where it ends the test: a failure takes the wharf out of service; the endpoint
adder is out of service until a retest passes, and the reach's reducing invocations fail (R310). -/
def Chip.adderTested (c : Chip) (r : ReachId) (wharf pass full : Bool) : Chip :=
  let last := Tab.getD (c.reach r).bist.lastPass (if wharf then 64 else 65) 0
  let c := c.onReach r (fun x =>
    let k := x.coll
    let k : Coll := { k with tests := if pass && full then k.tests + 1 else k.tests, testFail := k.testFail || !pass,
                             recover := if wharf && (full || !pass) then false else k.recover }
    { x with coll := if wharf then { k with wharfOk := k.wharfOk && pass }
                     else { k with endpointOk := pass && (k.endpointOk || full) } })
  if pass then c
  else
    let c := c.health r 0 7 (if wharf then 0x0A else 0x0B) 0 0 last 0
    if wharf then c else forEach ((c.reach r).coll.invs.filter (fun i => i.desc.reducing)) c (fun c i => c.collFail r i 0x81 0)

/-- ADDER_TEST_BURST: a burst runs on an adder. The 500th burst that passes in a period makes the adder's test passed. -/
def adderTestBurst (r : ReachId) (now : Time) (wharf pass : Bool) (c : Chip) : Chip :=
  let c := c.at r now
  let b := (c.reach r).bist
  let part := if wharf then 64 else 65
  if !c.inService r || !(flag b.svc 0 || (c.reach r).coll.recover)
      || burstOn (if wharf then b.burstWharf else b.burstEnd) (c.now r) then c
  else
    let ends := c.now r + nsTime (1000 * clampNat 1 20 (fld b.svc 32 8))
    let n := (if wharf then b.burstsWharf else b.burstsEnd) + 1
    let full := decide (500 ≤ n)
    let c := c.onReach r (fun x =>
      let b := x.bist
      let b : Bist := if wharf then { b with burstWharf := some ends, burstsWharf := if full || !pass then 0 else n }
        else { b with burstEnd := some ends, burstsEnd := if full || !pass then 0 else n }
      let b : Bist := if full && pass then { b with lastPass := Tab.set b.lastPass part x.time.now,
                                                    overdue := b.overdue.filter (fun k => k != part) } else b
      { x with bist := b })
    c.adderTested r wharf pass full

end Sys2Proof.Machine
end

