-- ==== Sys2Proof/Machine/State.lean ====
section
/-!
DEFINITION. The state of the block: the module (Machine/State/Chip.lean, with one file for each group of its registers, buffers and
tables beside it) and the queue of the commands that wait. No command of this model stops: each answers a next state.
-/

namespace Sys2Proof.Machine

/-- The block. -/
structure State where
  chip : Chip
  /-- The commands that are waiting, first in, first out. -/
  pending : List Instr
  deriving DecidableEq, Repr

/-- Reasons for a fault. There is none: the spec gives every command an effect, or says that it has none. -/
inductive Fault where
  deriving DecidableEq, Repr

/-- Reasons for a refusal. -/
inductive Refusal where
  /-- A command whose meaning is not written. No arm of `exec` raises it: every command has its meaning. Safe: the machine stops and
  nothing more can be proved of the run. -/
  | notModelled (mnemonic : String)
  deriving DecidableEq, Repr

/-- The block right after module reset (R31), with no command waiting. -/
def State.reset : State := { chip := Chip.reset, pending := [] }

end Sys2Proof.Machine
end

