-- ==== Sys2Proof/Machine/CipherOps.lean ====
section
/-!
DEFINITION. Cipher requests (R435, R441 to R443): what a request is answered with, contexts in their stored form, the ranges of an
invocation, and one invocation of a message.
-/

namespace Sys2Proof.Machine

/-! ### Requests and answers -/

/-- Answer a role request (R426): the response buffer and the command's RESULT, or a message over the management path. -/
def Chip.answer (c : Chip) (p : ReqPath) (status : Nat) (result : Word64) (data : List Byte) : Chip :=
  match p with
  | .ring ref resp len => (c.hostWrite ref.fn resp.toNat (data.take len.toNat)).complete ref 4 status result
  | .mctp _ => c.emit (.role p (BitVec.ofNat 8 status) (leBytes 8 result.toNat ++ data))

/-- The function of a path; the management path has none. -/
def pathFn : ReqPath → Option FnId
  | .ring ref _ _ => some ref.fn
  | .mctp _ => none

/-- A cipher request from its 64 bytes (R441). -/
def cipherReqOf (b : List Byte) : CipherReq :=
  let w := leAt b 0 4
  { fmt := BitVec.ofNat 4 w, dir := natBit w 4, first := natBit w 5, last := natBit w 6, host := natBit w 7,
    engine := BitVec.ofNat 3 (natBits w 8 3), ctx := BitVec.ofNat 12 (natBits w 16 12), keySlot := BitVec.ofNat 16 (leAt b 4 2),
    asid := BitVec.ofNat 16 (leAt b 6 2), src := BitVec.ofNat 64 (leAt b 8 8), dst := BitVec.ofNat 64 (leAt b 0x10 8),
    length := BitVec.ofNat 32 (leAt b 0x18 4), aadLen := BitVec.ofNat 32 (leAt b 0x1C 4), aad := BitVec.ofNat 64 (leAt b 0x20 8),
    iv := BitVec.ofNat 96 (leNat (sliceBytes b 0x28 12).reverse), tag := BitVec.ofNat 64 (leAt b 0x38 8) }

/-! ### Contexts (R443) -/

/-- STATE of a context. -/
def CtxState.code : CtxState → Nat
  | .idle => 0 | .opened => 1 | .failed => 2

/-- The 128 bytes of a context. -/
def ctxBytes (x : CipherCtx) : List Byte :=
  leBytes 4 (1 + bitAt x.dir 4 + x.state.code * 2 ^ 5 + x.keySlot.toNat * 2 ^ 16) ++ leBytes 4 x.ctr.toNat
    ++ beBytes 12 x.iv.toNat ++ leBytes 4 0 ++ leBytes 8 x.aadLen.toNat ++ leBytes 8 x.dataLen.toNat
    ++ beBytes 16 x.ghash.toNat ++ sliceBytes x.part 0 16 ++ leBytes 4 x.part.length ++ List.replicate 52 0

/-- A context from its 128 bytes and its key; none where the bytes are no context. -/
def ctxOf (b key : List Byte) : Option CipherCtx :=
  let w := leAt b 0 4
  let st : Option CtxState := match natBits w 5 2 with
    | 0 => some .idle
    | 1 => some .opened
    | 2 => some .failed
    | _ => none
  let n := leAt b 0x48 1 % 32
  match st with
  | none => none
  | some s =>
    if w % 16 != 1 || 15 < n then none
    else some { dir := natBit w 4, state := s, keySlot := BitVec.ofNat 16 (w / 65536), ctr := BitVec.ofNat 32 (leAt b 4 4),
                iv := BitVec.ofNat 96 (leNat (sliceBytes b 8 12).reverse), aadLen := BitVec.ofNat 64 (leAt b 0x18 8),
                dataLen := BitVec.ofNat 64 (leAt b 0x20 8), ghash := BitVec.ofNat 128 (leNat (sliceBytes b 0x28 16).reverse),
                part := sliceBytes b 0x38 n, key := key }

/-- The cipher engine that ENGINE names: one of a reach, or the gatehouse's. -/
def Chip.engine (c : Chip) (e : BitVec 3) : CipherEngine :=
  if h : e.toNat < 4 then (c.reach ⟨e.toNat, h⟩).cipher else c.sec.gate

/-- Change a cipher engine. -/
def Chip.onEngine (c : Chip) (e : BitVec 3) (f : CipherEngine → CipherEngine) : Chip :=
  if h : e.toNat < 4 then c.onReach ⟨e.toNat, h⟩ (fun x => { x with cipher := f x.cipher })
  else { c with sec := { c.sec with gate := f c.sec.gate } }

/-- Put a context of an engine. -/
def Chip.putCtx (c : Chip) (q : CipherReq) (x : CipherCtx) : Chip :=
  c.onEngine q.engine (fun e => { e with ctxs := Tab.set e.ctxs q.ctx.toNat x })

/-- A tenancy's KEK: gatehouse slot 16 + function, kind 4 (R435). -/
def Chip.tenancyKek (c : Chip) (f : FnId) : Option (List Byte) :=
  match Tab.find? c.sec.gate.slots (16 + f.val) with
  | some k => if k.kind == 4 then some k.key else none
  | none => none

/-- A host-transfer key of a function in an engine (R435). -/
def CipherEngine.hostKey? (x : CipherEngine) (f : FnId) (slot : Word16) : Option KeySlot :=
  match Tab.find? x.slots slot.toNat with
  | some k => if k.kind == 2 && k.function == f then some k else none
  | none => none

/-! ### Ranges -/

/-- What the ranges of an invocation come to: physical runs, none for a SPACE 1 request, whose bytes come with it. -/
inductive CipherMem where
  | ok (src dst aad tag : List Run)
  | bad
  | fault (f : XFault)
  deriving DecidableEq, Repr

/-- One device-virtual range of a request: all of it lies on the engine's reach (R441). -/
def Chip.cipherRange (c : Chip) (q : CipherReq) (va len : Nat) (rd wr : Bool) : Except (Option XFault) (List Run) :=
  match c.translate q.asid.toNat va len rd wr with
  | .error f => .error (some f)
  | .ok l => if l.all (fun p => !p.run.host && p.reach.val == q.engine.toNat) then .ok (l.map (fun p => p.run)) else .error none

/-- The ranges that an invocation reads and writes: `n` source bytes, `m` destination bytes (0 for a range it does not have). -/
def Chip.cipherMem (c : Chip) (q : CipherReq) (n m : Nat) : CipherMem :=
  if q.host then .ok [] [] [] []
  else
    let aad := if q.first && n == m then q.aadLen.toNat else 0
    let tag := if q.last && n == m then 16 else 0
    match c.cipherRange q q.src.toNat n true false with
    | .error e => match e with | some f => .fault f | none => .bad
    | .ok src =>
      match c.cipherRange q q.dst.toNat m false true with
      | .error e => match e with | some f => .fault f | none => .bad
      | .ok dst =>
        match c.cipherRange q q.aad.toNat aad true false with
        | .error e => match e with | some f => .fault f | none => .bad
        | .ok a =>
          match c.cipherRange q q.tag.toNat tag q.dir (!q.dir) with
          | .error e => match e with | some f => .fault f | none => .bad
          | .ok t => .ok src dst a t

/-- The reach that a request's ranges lie on. -/
def cipherReach (q : CipherReq) : ReachId := ⟨q.engine.toNat % 4, Nat.mod_lt _ (by decide)⟩

/-- Bytes that a request reads: of its runs, or those that host memory returned. -/
def Chip.cipherRead (c : Chip) (q : CipherReq) (runs : List Run) (given : List Byte) (n : Nat) : List Byte :=
  if q.host then sliceBytes given 0 n else c.readRuns (cipherReach q) runs 0 n

/-- Bytes that a request writes. -/
def Chip.cipherWrite (c : Chip) (f : FnId) (q : CipherReq) (runs : List Run) (addr : Word64) (bs : List Byte) : Chip :=
  if q.host then c.hostWrite f addr.toNat bs else c.writeRuns (cipherReach q) runs 0 bs

/-! ### One invocation (R441, R442) -/

/-- Exclusive OR with the key stream of a message from byte `off` of its data on. -/
def gctrAt (key : List Byte) (iv : BitVec 96) (off : Nat) (bs : List Byte) : List Byte :=
  (gctr key iv (2 + off / 16) (List.replicate (off % 16) 0 ++ bs)).drop (off % 16)

/-- The context takes `n` more bytes of a message: `cipher` is their ciphertext. -/
def CipherCtx.feed (x : CipherCtx) (cipher : List Byte) : CipherCtx :=
  let all := x.part ++ cipher
  let whole := all.length / 16 * 16
  let len := x.dataLen.toNat + cipher.length
  { x with ghash := Machine.ghash (hashKey x.key) x.ghash (all.take whole), part := all.drop whole, dataLen := BitVec.ofNat 64 len,
           ctr := BitVec.ofNat 32 (2 + (len + 15) / 16) }

/-- The tag of a message of which all data has been taken. -/
def CipherCtx.tag (x : CipherCtx) : List Byte :=
  gcmTag x.key x.iv (Machine.ghash (hashKey x.key) x.ghash x.part) x.aadLen.toNat x.dataLen.toNat

/-- The context at FIRST. -/
def ctxFirst (q : CipherReq) (key aad : List Byte) : CipherCtx :=
  { dir := q.dir, state := .opened, keySlot := q.keySlot, ctr := 2, iv := q.iv, aadLen := BitVec.ofNat 64 aad.length, dataLen := 0,
    ghash := ghash (hashKey key) 0 aad, part := [], key := key }

/-- RESULT of a cipher command (R442). -/
def cipherResult (n : Nat) (untrusted : Bool) : Word64 := BitVec.ofNat 64 (n + bitAt untrusted 63)

/-- One invocation on its context, its ranges known. -/
def Chip.cipherRun (c : Chip) (p : ReqPath) (f : FnId) (q : CipherReq) (d : CipherData) (x : CipherCtx) (src dst tag : List Run) : Chip :=
  let n := q.length.toNat
  let input := c.cipherRead q src d.src n
  let output := gctrAt x.key x.iv x.dataLen.toNat input
  let want := c.cipherRead q tag d.tag 16
  let x := x.feed (if q.dir then input else output)
  let c := c.cipherWrite f q dst q.dst output
  if !q.last then (c.putCtx q x).answer p 0 (cipherResult n q.dir) []
  else if !q.dir then ((c.cipherWrite f q tag q.tag x.tag).putCtx q CipherCtx.reset).answer p 0 (cipherResult n false) []
  else if x.tag == want then (c.putCtx q CipherCtx.reset).answer p 0 (cipherResult n false) []
  else (c.putCtx q { x with state := .failed }).answer p 0xB9 (cipherResult n true) []

/-- Bytes of a wrapped context (R436). -/
def wrappedCtx : Nat := 168

/-- Save a context under the function's tenancy KEK, or restore one (R443). -/
def Chip.cipherSave (c : Chip) (p : ReqPath) (f : FnId) (q : CipherReq) (d : CipherData) (src dst : List Run) : Chip :=
  let x := Tab.getD (c.engine q.engine).ctxs q.ctx.toNat CipherCtx.reset
  match c.tenancyKek f with
  | none => c.answer p 0xB6 0 []
  | some kek =>
    if !q.dir then
      (c.cipherWrite f q dst q.dst (aesWrap kek (ctxBytes x ++ sliceBytes x.key 0 32))).answer p 0 (cipherResult wrappedCtx false) []
    else if x.state != .idle then c.answer p 0xBA 0 []
    else match aesUnwrap kek (c.cipherRead q src d.src wrappedCtx) with
      | none => c.answer p 0xB7 0 []
      | some b =>
        match ctxOf (b.take 128) (sliceBytes b 128 32) with
        | none => c.answer p 0xBA 0 []
        | some y => (c.putCtx q y).answer p 0 0 []

/-- The status a request is refused with before its ranges are looked at; 0 where it is not. -/
def Chip.cipherRefusal (c : Chip) (f : Option FnId) (q : CipherReq) : Nat :=
  let x := Tab.getD (c.engine q.engine).ctxs q.ctx.toNat CipherCtx.reset
  let n := q.length.toNat
  let saves := n == 0
  if q.fmt != 1 || 4 < q.engine.toNat || (q.engine == 4 && !q.host) then 0x92
  else if q.engine.toNat < 4 && !c.inService (cipherReach q) then 0x6F
  else if (if q.engine == 4 then 256 else 4096) ≤ q.ctx.toNat then 0xBA
  else match f with
    | none => 0xB6
    | some f =>
      if !q.host && !c.holdsAsid f q.asid.toNat then 0xA3
      else if saves then 0
      else if 0x1000000 < n || (q.first && 65536 < q.aadLen.toNat)
          || 2 ^ 36 - 32 < (if q.first then 0 else x.dataLen.toNat) + n then 0xB8
      else if ((c.engine q.engine).hostKey? f q.keySlot).isNone then 0xB6
      else if q.first == (x.state == .opened) || (!q.first && (x.state != .opened || x.dir != q.dir || x.keySlot != q.keySlot)) then 0xBA
      else 0

/-- A cipher request is carried out, refused, or stalled by a translation fault (R395, R401). -/
def Chip.cipher (c : Chip) (p : ReqPath) (q : CipherReq) (d : CipherData) : Chip :=
  let status := c.cipherRefusal (pathFn p) q
  match pathFn p with
  | none => c.answer p status 0 []
  | some f =>
    if status != 0 then c.answer p status 0 []
    else
      let saves := q.length == 0
      let n := if saves then (if q.dir then wrappedCtx else 0) else q.length.toNat
      let m := if saves then (if q.dir then 0 else wrappedCtx) else q.length.toNat
      match c.cipherMem q n m with
      | .bad => c.answer p 0x92 0 []
      | .fault x =>
        let handle := match p with | .ring ref _ _ => ref.handle | .mctp _ => 0
        let (c', ok) := c.xltFault f 4 q.asid x handle (.cipher p (some f) q d)
        if ok then c' else c'.answer p 0x93 0 []
      | .ok src dst aad tag =>
        let r := cipherReach q
        if !q.host && (c.runsUe r src 0 n || c.runsUe r aad 0 q.aadLen.toNat || (q.dir && q.last && c.runsUe r tag 0 16)) then
          c.answer p 0x6C 0 []
        else if saves then c.cipherSave p f q d src dst
        else
          let x := Tab.getD (c.engine q.engine).ctxs q.ctx.toNat CipherCtx.reset
          let key := ((((c.engine q.engine).hostKey? f q.keySlot).map KeySlot.key).getD [])
          let x := if q.first then ctxFirst q key (c.cipherRead q aad d.aad q.aadLen.toNat) else x
          c.cipherRun p f q d x src dst tag

end Sys2Proof.Machine
end

