-- ==== Sys2Proof/Machine/ConfigTable.lean ====
section
/-!
DEFINITION. The site tables as CONFIG_TABLE writes and reads them (R371): partition entries (R274), address entries (R226) and receive
filters (R332), with the gatehouse's copy of them (R281).
-/

namespace Sys2Proof.Machine

/-! ### Entries -/

/-- A receive filter entry from its 16 bytes. -/
def filterOfBytes (b : List Byte) : FilterEntry :=
  let w := leAt b 0 2
  { fmt := BitVec.ofNat 4 w, valid := natBit w 4, mVid := natBit w 5, mUntag := natBit w 6, mEtype := natBit w 7, mUdp := natBit w 8,
    mPkey := natBit w 9, action := BitVec.ofNat 2 (natBits w 10 2), queue := BitVec.ofNat 4 (natBits w 12 4),
    vid := BitVec.ofNat 12 (leAt b 4 2), etype := BitVec.ofNat 16 (leAt b 6 2), udp := BitVec.ofNat 16 (leAt b 8 2),
    pkey := BitVec.ofNat 16 (leAt b 0xC 2), pkeyMask := BitVec.ofNat 16 (leAt b 0xE 2) }

/-- The 16 bytes of a receive filter entry. -/
def filterBytes (e : FilterEntry) : List Byte :=
  leBytes 4 (e.fmt.toNat + bitAt e.valid 4 + bitAt e.mVid 5 + bitAt e.mUntag 6 + bitAt e.mEtype 7 + bitAt e.mUdp 8 + bitAt e.mPkey 9
      + e.action.toNat * 2 ^ 10 + e.queue.toNat * 2 ^ 12)
    ++ leBytes 2 e.vid.toNat ++ leBytes 2 e.etype.toNat ++ leBytes 4 e.udp.toNat ++ leBytes 2 e.pkey.toNat ++ leBytes 2 e.pkeyMask.toNat

/-- A partition entry as written: bits [63:36] are reserved. -/
def partWord (b : List Byte) : Word64 := BitVec.ofNat 64 (leAt b 0 8 % 2 ^ 36)

/-- An address-table entry as written, its reserved fields zero. -/
def addrEntry (b : List Byte) : List Byte :=
  leBytes 2 (leAt b 0 2 % 64) ++ leBytes 2 (leAt b 2 2 % 4096) ++ sliceBytes b 4 22 ++ List.replicate 6 0

/-- Bytes of an entry and entries of a table: 1 partition, 2 address, 3 receive filter. -/
def entryBytes (table : Nat) : Nat := if table = 1 then 8 else if table = 2 then 32 else 16
def tableSize (table : Nat) : Nat := if table = 1 then 256 else if table = 2 then 4096 else 64

/-- The entries that a request carries. -/
def cutEntries (n : Nat) : Nat → List Byte → List (List Byte)
  | 0, _ => []
  | k + 1, b => sliceBytes b 0 n :: cutEntries n k (b.drop n)

/-- Ports that key 0x0001 keeps: 0 to 6 and 8. -/
def ctrlPorts : Nat := 0x17F

/-- A partition table holds key 0x0001 with the ports it must keep. -/
def keepsControl (t : Tab Word64) : Bool :=
  match List.find? (fun e => flag e.2 34 && fld e.2 0 16 == 1) t with
  | some e => fld e.2 16 9 &&& ctrlPorts == ctrlPorts && fld e.2 25 9 &&& ctrlPorts == ctrlPorts
  | none => false

/-- The partition table with entries written. -/
def writeParts (t : Tab Word64) (first : Nat) (l : List (List Byte)) : Tab Word64 :=
  l.zipIdx.foldl (fun t e => Tab.set t (first + e.2) (partWord e.1)) t

/-- Reaches of a mask. -/
def maskReaches (m : BitVec 4) : List ReachId := allReaches.filter (fun r => m.toNat.testBit r.val)

/-! ### Applying and reading -/

/-- One entry goes into a reach's table (R371: each whole). -/
def Reach.putEntry (x : Reach) (table : Nat) (port : PortId) (i : Nat) (b : List Byte) : Reach :=
  if table = 1 then { x with rtr := { x.rtr with parts := Tab.set x.rtr.parts i (partWord b) } }
  else if table = 2 then { x with addr := Tab.set x.addr i (addrEntry b) }
  else x.onMac port (fun m => { m with filters := Tab.set m.filters i (filterOfBytes b), filter63 := m.filter63 || i == 63 })

/-- One entry goes into the gatehouse's copy. -/
def SiteCopy.putEntry (x : SiteCopy) (table : Nat) (port : PortId) (i : Nat) (b : List Byte) : SiteCopy :=
  if table = 1 then { x with parts := Tab.set x.parts i (partWord b) }
  else if table = 2 then { x with addr := Tab.set x.addr i (addrEntry b) }
  else { x with filters := Tab.set x.filters port.val (Tab.set (Tab.getD x.filters port.val []) i (filterOfBytes b)) }

/-- One entry of a reach's table as bytes. -/
def Reach.getEntry (x : Reach) (table : Nat) (port : PortId) (i : Nat) : List Byte :=
  if table = 1 then leBytes 8 (Tab.getD x.rtr.parts i 0).toNat
  else if table = 2 then sliceBytes (Tab.getD x.addr i []) 0 32
  else filterBytes (Tab.getD (x.mac port).filters i FilterEntry.blank)

/-- Change the gatehouse's copy of one reach. -/
def Chip.onSite (c : Chip) (r : ReachId) (f : SiteCopy → SiteCopy) : Chip :=
  { c with gate := { c.gate with site := c.gate.site.set r (f (c.gate.site.get r)) } }

/-- The port a request names. -/
def configPort (t : ConfigTable) : PortId := ⟨t.port.toNat % 7, Nat.mod_lt _ (by decide)⟩

/-- Parameters of a request that are wrong (HOST_BAD_PARAM): table, range, port, reach mask. -/
def configBad (t : ConfigTable) (read : Bool) : Bool :=
  let n := t.table.toNat
  n < 1 || 3 < n || tableSize n < t.first + t.count || t.reaches == 0 || (if n = 3 then 6 < t.port.toNat else t.port != 0)
    || (read && (maskReaches t.reaches).length != 1)

/-- An entry of a write is wrong: its format version, or key 0x0000 in a partition entry. -/
def entryBad (table : Nat) (b : List Byte) : Bool :=
  if table = 1 then fld (partWord b) 0 16 == 0 else leAt b 0 1 % 16 != 1

/-- A write: its status, the entries written, and the module after it. -/
def Chip.configWrite (c : Chip) (path : RegPath) (t : ConfigTable) : Nat × Nat × Chip :=
  let n := t.table.toNat
  let l := cutEntries (entryBytes n) t.count t.entries
  let rs := maskReaches t.reaches
  if !c.allows path 2 then (0x91, 0, c)
  else if configBad t false || l.any (entryBad n)
      || (n = 1 && rs.any (fun r => !keepsControl (writeParts (c.reach r).rtr.parts t.first l))) then (0x92, 0, c)
  else if rs.any (fun r => !c.inService r) then (0x6F, 0, c)
  else if !c.sec.logFlashOk then (0xBB, 0, c)
  else if logMax < c.sec.log.length + l.length then (0xB5, 0, c)
  else
    let p := configPort t
    let c := forEach l.zipIdx c (fun c e =>
      let i := t.first + e.2
      let c := c.log 7 (c.whoOf path) 0 (leBytes 1 n ++ leBytes 1 t.port.toNat ++ leBytes 2 i ++ e.1)
      forEach rs c (fun c r => (c.onReach r (fun x => x.putEntry n p i e.1)).onSite r (fun s => s.putEntry n p i e.1)))
    (0, l.length, c)

/-- A read: its status and the entries' bytes. -/
def Chip.configRead (c : Chip) (path : RegPath) (t : ConfigTable) : Nat × List Byte :=
  let n := t.table.toNat
  if !c.allows path 3 then (0x91, [])
  else if configBad t true then (0x92, [])
  else match maskReaches t.reaches with
    | r :: _ =>
      if !c.inService r then (0x6F, [])
      else (0, (List.range t.count).flatMap (fun i => (c.reach r).getEntry n (configPort t) (t.first + i)))
    | [] => (0x92, [])

end Sys2Proof.Machine
end

