-- ==== Sys2Proof/Machine/HostRings.lean ====
section
/-!
DEFINITION. Rings as the module serves them (R354 to R364, R368, R373): doorbells, index words, the fetching and taking of chains,
room on completion rings, and moderated interrupts.
-/

namespace Sys2Proof.Machine

/-- The host port carries requests of the module: its link is up, it is in D0, and no orderly shut-down is done (R350, R379, R509). -/
def Chip.portOpen (c : Chip) : Bool := !c.host.inReset && !c.host.d3hot && c.gate.shutState != 3

/-- A ring of a function. -/
def Chip.ring? (c : Chip) (f : FnId) (ring : BitVec 8) : Option HostRing := Tab.find? (c.fn f).rings ring.toNat

/-- Change a ring of a function. -/
def Chip.onRing (c : Chip) (f : FnId) (ring : BitVec 8) (g : HostRing → HostRing) : Chip :=
  c.onFn f (fun x => { x with rings := Tab.update x.rings ring.toNat g })

/-- Count in a gauge of a ring number: 0 chains taken, 1 owner misses, 2 doorbells dropped (R465). -/
def Chip.countRing (c : Chip) (f : FnId) (ring : BitVec 8) (idx : Nat) : Chip :=
  c.onFn f (fun x => { x with ringGauges := Tab.modify x.ringGauges (4 * ring.toNat + idx) 0 (fun n => sat48 (n + 1)) })

/-- Read a ring's index word: once more after the read that is outstanding, if one is (R357). -/
def Chip.readIndex (c : Chip) (f : FnId) (ring : BitVec 8) : Chip :=
  match c.ring? f ring with
  | none => c
  | some q =>
    if q.reading then c.onRing f ring (fun q => { q with readAgain := true })
    else (c.onRing f ring (fun q => { q with reading := true })).emit (.indexRead f ring)

/-- A ring enters ERROR and posts its event (R359). -/
def Chip.ringFails (c : Chip) (f : FnId) (ring : BitVec 8) : Chip :=
  match c.ring? f ring with
  | none => c
  | some q =>
    (c.ringError f ring).postEvent f 5 4 (leBytes 2 ring.toNat ++ leBytes 2 0 ++ leBytes 4 q.taken.toNat) 0 0

/-- HOST_CAP.PREFETCH and HOST_CAP.MAX_CHAIN (R383). -/
def prefetch : Nat := 32
def maxChain : Nat := 16

/-- Fetch descriptors from the taken count on, below the published count (R357). -/
def Chip.fetch (c : Chip) (f : FnId) (ring : BitVec 8) : Chip :=
  match c.ring? f ring with
  | none => c
  | some q =>
    let n := (q.published - q.taken).toNat
    if q.kind != .submission || q.error || q.fetching || n = 0 || !c.ringsOpen f then c
    else (c.onRing f ring (fun q => { q with fetching := true })).emit (.descRead f ring q.taken.toNat (min prefetch n))

/-- Every submission ring of a function fetches again. -/
def Chip.fetchAll (c : Chip) (f : FnId) : Chip :=
  forEach ((c.fn f).rings.map (fun e => e.1)) c (fun c n => c.fetch f (BitVec.ofNat 8 n))

/-! ### Doorbells and index words -/

/-- DOORBELL (R356, R357). One for a ring that does not exist or is being destroyed is dropped and counted. -/
def doorbell (f : FnId) (ring : BitVec 8) (c : Chip) : Chip :=
  if !c.portOpen then c
  else
    let drop := c.countRing f ring 2
    match c.ring? f ring with
    | none => drop
    | some q => if q.destroying.isSome then drop else c.readIndex f ring

/-- Records that waited post while the ring has room (R360). -/
def Chip.drainWaiting : Nat → Chip → FnId → BitVec 8 → Chip
  | 0, c, _, _ => c
  | n + 1, c, f, ring =>
    match c.ring? f ring with
    | none => c
    | some q =>
      match q.waiting with
      | [] => c
      | x :: rest =>
        if q.room then Chip.drainWaiting n (c.postNow f { q with waiting := rest } x) f ring else c

/-- The consumed count of a completion or event ring has been read: what waits posts, and taking resumes (R360). -/
def Chip.roomRead (c : Chip) (f : FnId) (ring : BitVec 8) (consumed : Word32) : Chip :=
  match c.ring? f ring with
  | none => c
  | some q =>
    let ok := decide ((q.posted - consumed).toNat ≤ 2 ^ q.log2)
    let c := c.onRing f ring (fun q => { q with consumed := if ok then consumed else q.consumed })
    (c.drainWaiting q.waiting.length f ring).fetchAll f

/-- A read of an index word has returned; the one further read goes out (R357). -/
def Chip.readBack (c : Chip) (f : FnId) (ring : BitVec 8) : Chip :=
  match c.ring? f ring with
  | none => c
  | some q =>
    let c := c.onRing f ring (fun q => { q with reading := false, readAgain := false })
    if q.readAgain then c.readIndex f ring else c

/-- INDEX_WORD_READ_DONE: the word's count of a submission ring is the published count (R357, R359); that of a completion or event ring
is the consumed count. -/
def indexWordReadDone (f : FnId) (ring : BitVec 8) (word : Word32) (c : Chip) : Chip :=
  match c.ring? f ring with
  | none => c
  | some q =>
    if !q.reading || !c.portOpen then c
    else
      let c := c.readBack f ring
      if q.kind != .submission then c.roomRead f ring word
      else if q.error then c
      else
        let ahead := (word - q.taken).toNat
        if 2 ^ q.log2 < ahead then c.ringFails f ring
        else (c.onRing f ring (fun q => { q with published := word })).fetch f ring

/-- COMPLETION_RING_ROOM: the consumed count that the module read shows room on a ring that had none (R360). -/
def completionRingRoom (f : FnId) (ring : BitVec 8) (consumed : Word32) (c : Chip) : Chip :=
  match c.ring? f ring with
  | none => c
  | some q =>
    if !q.reading || !c.portOpen || q.kind == .submission || q.room then c
    else (c.readBack f ring).roomRead f ring consumed

/-! ### Taking chains (R358, R359, R362 to R364, R368) -/

/-- The handle of a chain (R368). -/
def handleOf (f : FnId) (ring : BitVec 8) (serial : Word32) (gen : Word16) : Word64 :=
  BitVec.ofNat 64 (f.val * 2 ^ 56 + ring.toNat * 2 ^ 48 + serial.toNat * 2 ^ 16 + gen.toNat)

/-- Command codes that the module accepts (table "Commands"). -/
def commandCodes : List Nat :=
  [1, 2, 3, 4, 0x10, 0x11, 0x12, 0x13, 0x14, 0x20, 0x21, 0x22, 0x23, 0x24, 0x28, 0x29, 0x30, 0x31, 0x32, 0x33, 0x38, 0x39, 0x3A, 0x3B,
   0x3C, 0x3D, 0x40, 0x41, 0x42, 0x44, 0x48]

/-- What the descriptors at the head of a ring come to. -/
inductive Head where
  /-- No whole chain is there yet. -/
  | more
  /-- A descriptor that is not written stands in it (R358). -/
  | miss
  /-- R359: the ring enters ERROR. -/
  | bad
  /-- A chain of so many descriptors. -/
  | chain (n : Nat)
  deriving DecidableEq, Repr

/-- Look for a chain at the head: `k` descriptors of it have been seen, the next stands at count `at_`. -/
def headOf (log2 : Nat) : Nat → Nat → List Desc → Head
  | _, _, [] => .more
  | k, at_, d :: rest =>
    if d.owner != ownerBit at_ log2 then .miss
    else if d.first != (k == 0) || maxChain ≤ k then .bad
    else if d.last then .chain (k + 1)
    else headOf log2 (k + 1) (at_ + 1) rest

/-- A KIND 0 chain keeps R363: one queue pair, and a RECV alone. -/
def workChainOk (l : List WorkEntry) : Bool :=
  match l with
  | [] => false
  | e :: rest => rest.all (fun x => x.qpn == e.qpn) && (rest.isEmpty || l.all (fun x => x.op != 4))

/-- Completion ring of a chain: that of its queue pair for a KIND 0 chain of a context of the function, else the ring's own (R363, R364). -/
def Chip.chainCq (c : Chip) (f : FnId) (ring : BitVec 8) (q : HostRing) (l : List Desc) : BitVec 8 :=
  let own := if ring == 0 then 1 else q.cq
  match l with
  | d :: _ =>
    if d.kind then own
    else
      let w := workOf d.body
      let r : ReachId := ⟨w.qpn.toNat / 2 ^ 14 % 4, Nat.mod_lt _ (by decide)⟩
      (match (c.reach r).qp w.qpn with
      | some x => if x.function == f && x.owner == 0 then BitVec.ofNat 8 x.cqRing.toNat else own
      | none => own)
  | [] => own

/-- A chain is refused as it is taken: mixed KIND, an unsupported FMT or command code, or R363 (HOST_BAD_DESC). -/
def chainBad (l : List Desc) : Bool :=
  match l with
  | [] => true
  | d :: _ =>
    if l.any (fun x => x.kind != d.kind) then true
    else if d.kind then leAt d.body 0 1 % 16 != 1 || !commandCodes.contains (leAt d.body 1 1)
    else !workChainOk (l.map (fun x => workOf x.body))

/-- Take one chain: it gets its handle, and is executed from then on. -/
def Chip.takeChain (c : Chip) (f : FnId) (ring : BitVec 8) (q : HostRing) (l : List Desc) : Chip :=
  let serial := q.serialBase + q.chains
  let handle := handleOf f ring serial (c.fn f).gen
  let isCommand := match l with | d :: _ => d.kind | [] => true
  let bad := chainBad l
  let at_ : ReachId := match l with
    | d :: _ => ⟨natBits (workOf d.body).qpn.toNat 14 2, Nat.mod_lt _ (by decide)⟩
    | [] => 0
  let t : TakenChain :=
    { handle := handle, ring := ring, cq := c.chainCq f ring q l, isCommand := isCommand,
      entries := if isCommand || bad then [] else l.map (fun d => sliceBytes d.body 0 60 ++ List.replicate 4 0),
      seen := c.now at_, size := l.length, left := l.length, status := 0, pos := 0, nomod := l.any (fun d => d.nomod) }
  let c := c.onRing f ring (fun q => { q with taken := q.taken + BitVec.ofNat 32 l.length, chains := q.chains + 1 })
  let c := c.countRing f ring 0
  let c := c.onFn f (fun x => { x with out := x.out ++ [t], serials := Tab.set x.serials ring.toNat serial })
  if bad then c.complete { fn := f, ring := ring, handle := handle } 4 0x90 0 else c

/-- Take chains from fetched descriptors while there are any. Each takes at least one. -/
def Chip.takeChains : Nat → Chip → FnId → BitVec 8 → List Desc → Chip
  | 0, c, _, _, _ => c
  | n + 1, c, f, ring, l =>
    match c.ring? f ring with
    | none => c
    | some q =>
      if q.error || q.destroying.isSome || !c.ringsOpen f then c
      else match headOf q.log2 0 q.taken.toNat l with
        | .more => if l.length < (q.published - q.taken).toNat then c.fetch f ring else c
        | .miss => c.countRing f ring 1
        | .bad => c.ringFails f ring
        | .chain k =>
          let cq := c.chainCq f ring q (l.take k)
          if !c.cqOpen f cq then c.readIndex f cq
          else Chip.takeChains n (c.takeChain f ring q (l.take k)) f ring (l.drop k)

/-- DESCRIPTOR_FETCH_DONE: the descriptors from the taken count on return. -/
def descriptorFetchDone (f : FnId) (ring : BitVec 8) (l : List Desc) (c : Chip) : Chip :=
  match c.ring? f ring with
  | none => c
  | some q =>
    if !q.fetching || !c.portOpen then c
    else
      let c := c.onRing f ring (fun q => { q with fetching := false })
      let l := l.take (min prefetch (q.published - q.taken).toNat)
      c.takeChains (l.length + 1) f ring l

/-! ### Interrupt moderation (R373) -/

/-- INTERRUPT_MODERATION_TIMER: the gatehouse has timed `elapsed` ns since the first record posted after the ring's last message; its
timing is good to 1 µs. -/
def interruptModerationTimer (f : FnId) (ring : BitVec 8) (elapsed : Nat) (c : Chip) : Chip :=
  match c.ring? f ring with
  | none => c
  | some q =>
    if q.kind != .completion || q.sinceMsg == 0 || q.modUsec == 0 || elapsed + 1000 < 1000 * q.modUsec.toNat || !c.portOpen then c
    else
      let c := c.onRing f ring (fun q => { q with sinceMsg := 0 })
      if q.vecEn then c.msix f q.vector else c

end Sys2Proof.Machine
end

