-- ==== Sys2Proof/Machine/HostCmds.lean ====
section
/-!
DEFINITION. The commands of chapter 12: rings (R370), object queries, feeds and checkpoints (R376, R377, R444), site tables
(R371), and reads that the host does not answer.
-/

namespace Sys2Proof.Machine

/-! ### Objects as bytes (R196, R203, R252) -/

/-- The 128 bytes of a queue-pair context. -/
def qpBytes (q : Qp) : List Byte :=
  leBytes 4 (1 + q.state.code * 2 ^ 4 + bitAt q.plan 7 + q.owner.toNat * 2 ^ 8 + bitAt q.encap 10 + bitAt q.ciphEn 11 + q.pkey.toNat * 2 ^ 16)
    ++ leBytes 4 (q.qpn.toNat + q.function.val * 2 ^ 24)
    ++ leBytes 8 (q.peerNode.toNat + q.peerQpn.toNat * 2 ^ 16 + q.asid.toNat * 2 ^ 40)
    ++ leBytes 8 (q.fnGen.toNat + q.cqRing.toNat * 2 ^ 16 + q.maxRd.toNat * 2 ^ 32 + q.rnrRetry.toNat * 2 ^ 36 + q.rnrTimer.toNat * 2 ^ 40
      + q.ciphCtx.toNat * 2 ^ 48)
    ++ leBytes 8 (q.rqDepth.toNat + q.standing.length * 2 ^ 16 + q.ops.length * 2 ^ 32)
    ++ leBytes 8 (q.sndNxt.toNat + q.sndUna.toNat * 2 ^ 24 + min 128 q.out.length * 2 ^ 48 + q.retries.toNat * 2 ^ 56)
    ++ leBytes 8 (q.rcvNxt.toNat + q.rcvMsn.toNat * 2 ^ 24 + q.roSlot.toNat * 2 ^ 48)
    ++ leBytes 8 (q.sndMsn.toNat + q.visAcked.toNat * 2 ^ 24)
    ++ leBytes 8 (q.visMsn.toNat + q.ackPend.toNat * 2 ^ 24 + q.failMsn.toNat * 2 ^ 32 + q.failCode.toNat * 2 ^ 56)
    ++ leBytes 8 (q.rate.toNat + (BitVec.ofInt 32 q.credit).toNat * 2 ^ 32) ++ leBytes 8 q.lastTx.toNat
    ++ leBytes 8 (q.qmax.toNat + q.ackedPk.toNat * 2 ^ 32 + q.ecnPk.toNat * 2 ^ 48) ++ leBytes 8 q.intStart.toNat
    ++ List.replicate 32 0

/-- The 32 bytes of a mooring entry. -/
def mooringBytes (m : Mooring) : List Byte :=
  leBytes 4 (1 + bitAt m.valid 4 + m.space.toNat * 2 ^ 5 + bitAt m.plan 7 + m.rights.toNat * 2 ^ 8 + m.pkey.toNat * 2 ^ 16)
    ++ leBytes 4 (m.tag.toNat + bitAt m.bindEn 15 + m.function.val * 2 ^ 16) ++ leBytes 8 m.base.toNat
    ++ leBytes 8 (m.length.toNat + m.asid.toNat * 2 ^ 48) ++ leBytes 8 (m.bindQpn.toNat + m.fnGen.toNat * 2 ^ 24)

/-! ### Rings (R370) -/

/-- Vectors of a function (R383). -/
def vectorCount (f : FnId) : Nat := if f = 0 then 2048 else 64

/-- Serial of the first chain of a ring (R368). -/
def HostFn.serialFrom (x : HostFn) (ring : Nat) (base : Word32) : Word32 :=
  if base == 0xFFFFFFFF then (match Tab.find? x.serials ring with | some s => s + 1 | none => 0) else base

/-- A ring just created. -/
def newRing (kind : RingKind) (log2 : Nat) (base index : Word64) (cq : BitVec 8) (serial : Word32) (vector : BitVec 11) (vecEn : Bool)
    (modCount : BitVec 8) (modUsec : BitVec 10) : HostRing :=
  { kind := kind, log2 := log2, base := base, index := index, cq := cq, published := 0, taken := 0, fetching := false, serialBase := serial,
    chains := 0, error := false, reading := false, readAgain := false, posted := 0, consumed := 0, waiting := [],
    vector := vector, vecEn := vecEn, modCount := modCount, modUsec := modUsec, sinceMsg := 0, destroying := none }

/-- Post the held records of a ring, in the order in which they were made (R382). -/
def Chip.postHeld (c : Chip) (f : FnId) (ring : BitVec 8) : Chip :=
  let l := (c.fn f).held.filter (fun p => p.ring == ring)
  forEach l (c.onFn f (fun x => { x with held := x.held.filter (fun p => p.ring != ring) })) (fun c p => c.post f p)

/-- Status of a RING_CREATE; 0 where the ring is created. -/
def Chip.ringCreateCheck (c : Chip) (f : FnId) (p : RingCreate) : Nat :=
  let isCq := match c.ring? f p.cq with | some q => q.kind == .completion && q.destroying.isNone | none => false
  if (c.ring? f p.ring).isSome then 0x94
  else if p.ring.toNat < 3 || p.log2.toNat < 6 || 16 < p.log2.toNat || p.base.toNat % 4096 != 0 || p.index.toNat % 8 != 0 then 0x92
  else if !p.completion && !isCq then 0x92
  else if p.completion && vectorCount f ≤ p.vector.toNat then 0x92
  else 0

/-- RING_CREATE. -/
def ringCreate (ref : CmdRef) (p : RingCreate) (c : Chip) : Chip :=
  let f := ref.fn
  let status := c.ringCreateCheck f p
  if status != 0 then c.complete ref 4 status 0
  else
    let serial := (c.fn f).serialFrom p.ring.toNat p.serialBase
    let q := if p.completion then newRing .completion p.log2.toNat p.base p.index 0 0 p.vector p.vecEn p.modCount p.modUsec
      else newRing .submission p.log2.toNat p.base p.index p.cq serial 0 false 0 0
    ((c.onFn f (fun x => { x with rings := Tab.set x.rings p.ring.toNat q })).complete ref 4 0 0).postHeld f p.ring

/-- A submission ring or a host-owned queue pair names a completion ring. -/
def Chip.cqNamed (c : Chip) (f : FnId) (ring : BitVec 8) : Bool :=
  (c.fn f).rings.any (fun e => e.2.kind == .submission && e.2.cq == ring)
    || allReaches.any (fun r => (c.reach r).rme.qps.any (fun e => e.2.function == f && e.2.owner == 0 && e.2.cqRing.toNat == ring.toNat))

/-- RING_DESTROY. -/
def ringDestroy (ref : CmdRef) (ring : BitVec 8) (c : Chip) : Chip :=
  let f := ref.fn
  match c.ring? f ring with
  | none => c.complete ref 4 0x92 0
  | some q =>
    if ring.toNat < 3 || q.destroying.isSome then c.complete ref 4 0x92 0
    else if q.kind == .submission then (c.onRing f ring (fun q => { q with destroying := some ref })).chainGone f ring
    else if c.cqNamed f ring then c.complete ref 4 0x92 0
    else
      let c := forEach q.waiting (c.onFn f (fun x => { x with rings := Tab.erase x.rings ring.toNat })) (fun c p => c.hold f p)
      c.complete ref 4 0 0

/-- NOP. -/
def nop (ref : CmdRef) (c : Chip) : Chip := c.complete ref 4 0 0

/-! ### Commands that move data over the host port -/

/-- The host memory of a function cannot be reached: the port is in reset or the function absent (R374, R379). -/
def Chip.hostGone (c : Chip) (f : FnId) : Bool := c.host.inReset || !(c.fn f).attached

/-- OBJ_QUERY: an object of the function is written to its buffer. -/
def objQuery (ref : CmdRef) (kind : BitVec 8) (number : Word32) (iova : Word64) (c : Chip) : Chip :=
  let f := ref.fn
  let give := fun (r : ReachId) (bs : Option (List Byte)) =>
    if !c.inService r then c.complete ref 4 0x6F 0
    else match bs with
      | none => c.complete ref 4 0x92 0
      | some bs => (c.hostWrite f iova.toNat bs).complete ref 4 0 0
  if c.host.d3hot then c
  else if c.hostGone f then c.complete ref 4 0x93 0
  else if kind == 1 then
    let qpn := BitVec.ofNat 24 number.toNat
    let r := qpReach qpn
    give r (match (c.reach r).qp qpn with | some q => if q.function == f then some (qpBytes q) else none | none => none)
  else if kind == 2 then
    let r : ReachId := ⟨number.toNat / 2 ^ 15 % 4, Nat.mod_lt _ (by decide)⟩
    give r (match Tab.find? (c.reach r).rme.moorings (natBits number.toNat 0 15) with
      | some m => if m.function == f && m.inUse then some (mooringBytes m) else none
      | none => none)
  else c.complete ref 4 0x92 0

/-- CONFIG_TABLE as a write. -/
def configTableWrite (ref : CmdRef) (t : ConfigTable) (c : Chip) : Chip :=
  if c.host.d3hot then c
  else if ref.fn != 0 then c.complete ref 4 0x91 0
  else if c.hostGone ref.fn then c.complete ref 4 0x93 0
  else
    let (status, n, c') := c.configWrite .pf t
    c'.complete ref 4 status (BitVec.ofNat 64 n)

/-- CONFIG_TABLE as a read. -/
def configTableRead (ref : CmdRef) (t : ConfigTable) (c : Chip) : Chip :=
  if c.host.d3hot then c
  else if ref.fn != 0 then c.complete ref 4 0x91 0
  else if c.hostGone ref.fn then c.complete ref 4 0x93 0
  else
    let (status, bs) := c.configRead .pf t
    if status != 0 then c.complete ref 4 status 0
    else (c.hostWrite ref.fn t.iova.toNat bs).complete ref 4 0 (BitVec.ofNat 64 t.count)

/-! ### Feeds and checkpoints (R376, R377, R444) -/

/-- The mooring that an RKEY names: valid, of the function, of SPACE 2, holding the range. -/
def Chip.bounce (c : Chip) (f : FnId) (p : FeedPost) : Option Mooring :=
  let key := p.rkey.toNat
  let r : ReachId := ⟨key / 2 ^ 15 % 4, Nat.mod_lt _ (by decide)⟩
  match Tab.find? (c.reach r).rme.moorings (natBits key 0 15) with
  | some m =>
    if m.valid && m.function == f && m.space == 2 && m.tag.toNat == natBits key 17 15
        && decide (p.roff.toNat + p.length.toNat ≤ m.length.toNat) then some m else none
  | none => none

/-- A host-transfer key of the function, in the first engine that holds it. -/
def Chip.transferKey (c : Chip) (f : FnId) (slot : Word16) : Option KeySlot :=
  allReaches.findSome? (fun r => (c.reach r).cipher.hostKey? f slot)

/-- PLAN_ID of a plan's handle. -/
def Chip.planIdOf (c : Chip) (handle : Word64) : Word64 :=
  ((allReaches.findSome? (fun r => (c.reach r).planBy handle)).map (fun p => p.con.hdr.planId)).getD 0

/-- IV and additional data of a feed or checkpoint buffer. -/
def transferIv (f : FnId) (isCkpt : Bool) (feed : Word16) (n : Word64) : BitVec 96 :=
  BitVec.ofNat 96 (f.val * 2 ^ 88 + bitAt isCkpt 80 + (if isCkpt then 0 else feed.toNat * 2 ^ 64) + n.toNat)
def transferAad (planId : Word64) (iv : BitVec 96) : List Byte := leBytes 8 planId.toNat ++ beBytes 12 iv.toNat

/-- Status of a FEED_POST or CKPT_POST that cannot be taken; 0 where it is. -/
def Chip.feedCheck (c : Chip) (ref : CmdRef) (p : FeedPost) : Nat :=
  if c.hostGone ref.fn then 0x93
  else if p.length == 0 || 0x40000000 < p.length.toNat || !c.ownPlan ref p.plan || (c.bounce ref.fn p).isNone then 0x92
  else if p.keySlot != 0xFFFF && (c.transferKey ref.fn p.keySlot).isNone then 0xB6
  else if p.keySlot != 0xFFFF && p.length.toNat < 16 then 0xB8
  else 0

/-- The next SEQ of a feed of a plan, 0 for each PLAN_LOAD. -/
def Chip.feedNext (c : Chip) (plan : Word64) (feed : Word16) : Word64 :=
  match c.host.feedSeq.find? (fun e => e.1 == plan && e.2.1 == feed) with
  | some e => e.2.2
  | none => 0

/-- The tag of a feed buffer passes, or it carries none. -/
def Chip.feedOk (c : Chip) (i : FeedItem) : Bool :=
  let p := i.post
  if p.keySlot == 0xFFFF then true
  else match c.transferKey i.cmd.fn p.keySlot with
    | none => false
    | some k =>
      let bs := sliceBytes p.bytes 0 p.length.toNat
      let iv := transferIv i.cmd.fn false p.feed p.seq
      (gcmOpen k.key iv (transferAad (c.planIdOf p.plan) iv) (bs.take (bs.length - 16)) (bs.drop (bs.length - 16))).2

/-- The feed service takes the buffers of a feed whose turn has come. -/
def Chip.feedRun : Nat → Chip → Word64 → Word16 → Chip
  | 0, c, _, _ => c
  | n + 1, c, plan, feed =>
    let next := c.feedNext plan feed
    match c.host.feeds.find? (fun i => i.post.plan == plan && i.post.feed == feed && i.post.seq == next) with
    | none => c
    | some i =>
      let ok := c.feedOk i
      let c := { c with host := { c.host with feeds := c.host.feeds.filter (fun j => j.cmd != i.cmd) } }
      if !ok then c.complete i.cmd 4 0xB9 0
      else
        let seqs := c.host.feedSeq.filter (fun e => !(e.1 == plan && e.2.1 == feed)) ++ [(plan, feed, next + 1)]
        let c := { c with host := { c.host with feedSeq := seqs } }
        Chip.feedRun n (c.complete i.cmd 4 0 (BitVec.ofNat 64 i.post.length.toNat)) plan feed

/-- FEED_POST: a buffer joins its feed (R376). -/
def feedPost (ref : CmdRef) (p : FeedPost) (c : Chip) : Chip :=
  let status := c.feedCheck ref p
  if c.host.d3hot then c
  else if status != 0 then c.complete ref 4 status 0
  else if p.seq.toNat < (c.feedNext p.plan p.feed).toNat
      || c.host.feeds.any (fun i => i.post.plan == p.plan && i.post.feed == p.feed && i.post.seq == p.seq) then c.complete ref 4 0x92 0
  else
    let item : FeedItem := { cmd := ref, post := p }
    let c := { c with host := { c.host with feeds := c.host.feeds ++ [item] } }
    c.feedRun c.host.feeds.length p.plan p.feed

/-- The next checkpoint counter of a key, in every engine that holds it (R444). -/
def Chip.countCkpt (c : Chip) (f : FnId) (slot : Word16) : Chip :=
  forEach allReaches c (fun c r => c.onReach r (fun x =>
    match x.cipher.hostKey? f slot with
    | some k => { x with cipher := { x.cipher with slots := Tab.set x.cipher.slots slot.toNat { k with cnt := k.cnt + 1 } } }
    | none => x))

/-- CKPT_POST: the checkpoint service fills the buffer. What it writes is the plan's own and free here (R377). -/
def ckptPost (ref : CmdRef) (p : FeedPost) (c : Chip) : Chip :=
  let status := c.feedCheck ref p
  if c.host.d3hot then c
  else if status != 0 then c.complete ref 4 status 0
  else
    let f := ref.fn
    let base := ((c.bounce f p).map (fun m => m.base.toNat)).getD 0 + p.roff.toNat
    match (if p.keySlot == 0xFFFF then none else c.transferKey f p.keySlot) with
    | none =>
      let (v, c) := c.free
      let n := v.toNat % (p.length.toNat + 1)
      let (bs, c) := c.freeBytes n
      (c.hostWrite f base bs).complete ref 4 0 (BitVec.ofNat 64 n)
    | some k =>
      let (bs, c) := c.freeBytes (p.length.toNat - 16)
      let iv := transferIv f true 0 k.cnt
      let (data, tag) := gcmSeal k.key iv (transferAad (c.planIdOf p.plan) iv) bs
      ((c.countCkpt f p.keySlot).hostWrite f base (data ++ tag)).complete ref 4 0 (BitVec.ofNat 64 p.length.toNat)

/-! ### Reads that do not return (R370, R374) -/

/-- HOST_READ_TIMEOUT: the host does not answer a read within 50 ms, and the work that made it fails. -/
def hostReadTimeout (w : HostWork) (c : Chip) : Chip :=
  match w with
  | .command ref =>
    (match c.chain? ref with
    | some t =>
      if !t.isCommand then c
      else ({ c with host := { c.host with feeds := c.host.feeds.filter (fun i => i.cmd != ref) } }).complete ref 4 0x93 0
    | none => c)
  | .index f ring =>
    (match c.ring? f ring with
    | some q => if q.reading then c.readBack f ring else c
    | none => c)
  | .fetch f ring => c.onRing f ring (fun q => { q with fetching := false })
  | .op r qpn seq =>
    (match (c.reach r).qp qpn with
    | some q => if q.ops.any (fun o => o.seq == seq && o.status.isNone && runsHost o.runs) then c.failOp r qpn seq 0x6E else c
    | none => c)
  | .flush r =>
    match (c.reach r).rme.flushOut with
    | [] => c
    | l :: rest => forEach l (c.onRme r (fun m => { m with flushOut := rest })) (fun c x => c.flushLost r x)

end Sys2Proof.Machine
end

