-- ==== Sys2Proof/Machine/ShutOps.lean ====
section
/-!
DEFINITION. The start of a function's shut-down (R405 steps 1 to 3, R406): its rings and issue queues stop, its plans are stopped
and unloaded, its collectives fail, its queue pairs are destroyed and its moorings withdrawn. Machine/TenOps.lean ends it.
-/

namespace Sys2Proof.Machine

/-- Handles of the plans of a function. -/
def Chip.plansOf (c : Chip) (f : FnId) : List Word64 :=
  (allReaches.flatMap (fun r => ((c.reach r).plan.plans.filter (fun p => p.fn == f)).map (fun p => p.handle))).eraseDups

/-- Unplanned invocations of a function on a reach. -/
def Chip.collsOf (c : Chip) (f : FnId) (r : ReachId) : List CollInv :=
  (c.reach r).coll.invs.filter (fun i => i.plan.isNone && c.collFn r i == some f)

/-- Contexts of a function on a reach, the keepers' own left out. -/
def Reach.qpsOf (x : Reach) (f : FnId) : List Qp :=
  (x.rme.qps.filter (fun e => e.2.function == f && e.2.owner != 2)).map (fun e => e.2)

/-- Mooring entries of a function on a reach, the keepers' own (indices 0 and 1) left out. -/
def Reach.moorsOf (x : Reach) (f : FnId) : List (Nat × Mooring) :=
  x.rme.moorings.filter (fun e => decide (2 ≤ e.1) && e.2.function == f && e.2.inUse)

/-- A function holds an object (R382, R406): a plan, an address space, a queue pair, a mooring or a collective. -/
def Chip.holdsObjects (c : Chip) (f : FnId) : Bool :=
  !(c.plansOf f).isEmpty || c.xlt.asids.any (fun e => e.2.function == f)
    || allReaches.any (fun r => !((c.reach r).qpsOf f).isEmpty || !((c.reach r).moorsOf f).isEmpty || !(c.collsOf f r).isEmpty)

/-- A plan of a function that is shut down enters a stoppage and is unloaded; a load or resume in hand fails with TEN_STATE. -/
def Chip.shutPlan (c : Chip) (handle : Word64) : Chip :=
  let c := match (c.planReaches handle).find? (fun r => match (c.reach r).planBy handle with
      | some p => p.cmd.isSome
      | none => false) with
    | some r => c.planFail r handle 0xA9 0
    | none => c
  let c := c.driverStop handle
  forEach (c.planReaches handle) c (fun c r => c.releasePlan r handle)

/-- A function's moorings on a reach take no further reference. -/
def Chip.shutMoors (c : Chip) (f : FnId) (r : ReachId) : Chip :=
  c.onRme r (fun m => { m with moorings := m.moorings.map (fun e =>
    if decide (2 ≤ e.1) && e.2.function == f then (e.1, { e.2 with valid := false }) else e) })

/-- A shut-down of a function starts, or the one that runs is joined. A freeze in hand fails with TEN_STATE. -/
def Chip.shutStart (c : Chip) (f : FnId) : Chip :=
  if (c.fn f).shutdown then c
  else
    let c := c.onFn f (fun x => { x with shutdown := true })
    let cmd := (c.ten f).freezeCmd
    let c := (c.onTen f (fun t => { t with state := .running, freezeCmd := none })).completeOpt cmd 4 0xA9 0
    let c := forEach (c.plansOf f) c (fun c h => c.shutPlan h)
    forEach allReaches c (fun c r =>
      let c := forEach (c.collsOf f r) c (fun c i => if i.code.isSome then c else c.collFail r i 0x84 0)
      let c := forEach ((c.reach r).qpsOf f) c (fun c q => if q.destroying.isSome then c else c.qpKill r q none)
      c.shutMoors f r)

end Sys2Proof.Machine
end

