-- ==== Sys2Proof/Machine/HostFns.lean ====
section
/-!
DEFINITION. Functions of the host port as they come and go (R350 to R353, R379 to R386): attach, absence, resets of the port and of a
function, power states, and the registers HOST_REV and HOST_CLK.
-/

namespace Sys2Proof.Machine

/-! ### Absence (R379) -/

/-- A function becomes absent: its rings go, their records that wait are held, a RING_DESTROY in hand completes, and the receives
posted in host memory complete with RME_HOST_ABSENT. -/
def Chip.absent (c : Chip) (f : FnId) : Chip :=
  let rings := (c.fn f).rings
  let c := c.onFn f (fun x => { x with attached := false, rings := [] })
  let c := c.onTen f (fun t => { t with attaching := false })
  let c := forEach (rings.flatMap (fun e => e.2.waiting)) c (fun c p => c.hold f p)
  let c := forEach rings c (fun c e => c.completeOpt e.2.destroying 4 0 0)
  forEach allReaches c (fun c r => c.recvsLost r f)

/-- Functions that the host port lists. -/
def Chip.functions (c : Chip) : List FnId :=
  (List.finRange 64).filter (fun f => f == 0 || (Tab.find? c.host.fns f.val).isSome || (Tab.find? c.xlt.tens f.val).isSome)

/-- DETACH (R385). -/
def detach (f : FnId) (c : Chip) : Chip := if c.portOpen && (c.fn f).attached then c.absent f else c

/-! ### Attach (R381, R382, R386) -/

/-- ATTACH_ERR of a function as it stands. -/
def Chip.attachErr (c : Chip) (f : FnId) : Nat :=
  let x := c.fn f
  let g := x.admCfg
  let sizes := [fld g 0 5, fld g 5 5, fld g 10 5]
  let bases := [x.adm0, x.adm2, x.adm4]
  let words := [x.adm1, x.adm3, x.adm5]
  if x.sel == 0 then 1
  else if !x.enabled then 2
  else if sizes.any (fun n => n < 6 || 16 < n) || bases.any (fun a => a.toNat % 4096 != 0) || words.any (fun a => a.toNat % 8 != 0)
      || vectorCount f ≤ fld g 16 11 || vectorCount f ≤ fld g 28 11 then 3
  else 0

/-- CONTINUE of a function's admin configuration. -/
def HostFn.continues (x : HostFn) : Bool := flag x.admCfg 15

/-- An ATTACH completes: rings 0 to 2 stand, the BERTH event is the first of a re-berthing, and held records of rings 2 and 1 post. -/
def Chip.attachDone (c : Chip) (f : FnId) : Chip :=
  let x := c.fn f
  let g := x.admCfg
  let cont := x.continues
  let serial := if cont then x.serialFrom 0 0xFFFFFFFF else 0
  let bits := fun (lo n : Nat) => fld g lo n
  let r0 := newRing .submission (bits 0 5) x.adm0 x.adm1 1 serial 0 false 0 0
  let r1 := newRing .completion (bits 5 5) x.adm2 x.adm3 0 0 (BitVec.ofNat 11 (bits 16 11)) (flag g 27) (BitVec.ofNat 8 (bits 40 8))
    (BitVec.ofNat 10 (bits 48 10))
  let r2 := newRing .event (bits 10 5) x.adm4 x.adm5 0 0 (BitVec.ofNat 11 (bits 28 11)) (flag g 39) 0 0
  let berth := BitVec.ofNat 64 (x.held.length + x.lost * 2 ^ 32)
  let c := c.onFn f (fun x => { x with attached := true, rev := 1, attachErr := 0, rings := [(0, r0), (1, r1), (2, r2)] })
  let c := c.onTen f (fun t => { t with attaching := false })
  let c := if cont then
      (c.postEvent f 4 4 (leBytes 32 x.lostRings.toNat) 0 berth).onFn f (fun x => { x with lost := 0, lostRings := 0 })
    else c
  (c.postHeld f 2).postHeld f 1

/-- An ATTACH that nothing holds back goes on: a shut-down first where CONTINUE is 0 and the function holds objects. -/
def Chip.attachGo (c : Chip) (f : FnId) : Chip :=
  if !c.gate.ready || (c.fn f).shutdown then c.onTen f (fun t => { t with attaching := true })
  else if !(c.fn f).continues && c.holdsObjects f then (c.onTen f (fun t => { t with attaching := true })).shutStart f
  else c.attachDone f

/-- ATTACH. -/
def attach (f : FnId) (c : Chip) : Chip :=
  if !c.portOpen || (c.fn f).attached || (c.ten f).attaching then c
  else
    let e := c.attachErr f
    let c := c.onFn f (fun x => { x with attachErr := BitVec.ofNat 4 e })
    if e != 0 then c else c.attachGo f

/-- HOST_REV_WRITE: the offer, and the revision it selects. -/
def hostRevWrite (f : FnId) (value : Word64) (c : Chip) : Chip :=
  if !c.portOpen then c
  else
    let lo := fld value 0 8
    let hi := fld value 8 8
    c.onFn f (fun x => { x with offerMin := BitVec.ofNat 8 lo, offerMax := BitVec.ofNat 8 hi, sel := if lo ≤ 1 && 1 ≤ hi then 1 else 0 })

/-- Offset of HOST_CLK in the gatehouse window. -/
def hostClkOffset : Nat := 0x28

/-- HOST_CLK_WRITE (R351): MODE takes effect at the next training after a host-port reset. -/
def hostClkWrite (p : RegPath) (value : Word64) (c : Chip) : Chip :=
  let old := BitVec.ofNat 64 c.host.clkMode.toNat
  let new := BitVec.ofNat 64 (fld value 0 2)
  c.rwlWrite p 2 hostClkOffset old new (fun c => { c with host := { c.host with clkMode := BitVec.ofNat 2 new.toNat } })

/-! ### Resets of the port and of a function (R31, R33, R353) -/

/-- A function's HOST_ registers at their reset values; what the gatehouse keeps of the function stays. -/
def HostFn.portReset (x : HostFn) : HostFn :=
  let y := HostFn.reset 0
  { x with attachErr := 0, rev := 0, offerMin := 0, offerMax := 0, sel := 0, adm0 := 0, adm1 := 0, adm2 := 0, adm3 := 0, adm4 := 0, adm5 := 0,
           admCfg := y.admCfg, masked := [], pending := [] }

/-- MODE as the link takes it: 3 is taken as 0. -/
def clkInForce (m : BitVec 2) : BitVec 2 := if m == 3 then 0 else m

/-- The link trains, but in recovery (R416): it takes the clock mode. -/
def Chip.trainHost (c : Chip) : Chip :=
  if c.sec.recovery then c
  else { c with host := { c.host with inReset := false, trained := true, clkActive := clkInForce c.host.clkMode } }

/-- The host port goes into reset: every function is absent, operations that wait for a flush read fail, the PF session ends. -/
def Chip.portReset (c : Chip) : Chip :=
  let c := { c with host := { c.host with inReset := true, trained := false, d3hot := false } }
  let c := forEach c.functions c (fun c f => c.absent f)
  let c := forEach allReaches c (fun c r => c.flushesLost r)
  let c := { c with host := { c.host with fns := Tab.mapVals c.host.fns HostFn.portReset } }
  c.endPfSession

/-- HOST_PORT_RESET: PERST_N holds the port in reset until it is released; after a hot reset or a link that went down it trains again. -/
def hostPortReset (cause : HostReset) (c : Chip) : Chip :=
  match cause with
  | .perst => { c.portReset with gate := { c.portReset.gate with perstN := false } }
  | _ => if c.host.inReset then c else c.portReset.trainHost

/-- PERST_N_RELEASE: the link trains (R479, R507). -/
def perstRelease (c : Chip) : Chip :=
  let c := { c with gate := { c.gate with perstN := true } }
  if c.host.inReset && c.gate.pwrgd && c.gate.mrstN then c.trainHost else c

/-- FUNCTION_LEVEL_RESET: the function is absent and shuts down; every function does for the PF (R353). -/
def functionLevelReset (f : FnId) (c : Chip) : Chip :=
  if !c.portOpen then c
  else
    let l := if f = 0 then c.functions else [f]
    forEach l c (fun c g => (c.absent g).shutStart g)

/-- POWER_STATE_CHANGE: in D3hot completions are held; on the return they post and taking goes on (R350). -/
def powerStateChange (d3hot : Bool) (c : Chip) : Chip :=
  if c.host.inReset || c.host.d3hot == d3hot then c
  else
    let c := { c with host := { c.host with d3hot := d3hot } }
    if d3hot then c
    else forEach c.functions c (fun c f =>
      (forEach ((c.fn f).rings.map (fun e => e.1)) c (fun c n => c.postHeld f (BitVec.ofNat 8 n))).fetchAll f)

end Sys2Proof.Machine
end

