-- ==== Sys2Proof/Machine/ResetOps.lean ====
section
/-!
DEFINITION. Tile-array resets (R113, R280), and what a reach reset and the isolated safe state do to a reach and to the work it had
taken (R31, R32, R54, R216, R279, R281, R456).
-/

namespace Sys2Proof.Machine

/-! ### Tile-array reset -/

/-- The earliest step of a tile that has not ended: what runs, moves, waits or is to run again, else the next step. -/
def Tile.unended (t : Tile) : Nat :=
  let steps := t.running.map (fun x => x.step) ++ (t.moves.filter (fun x => !x.ended)).map (fun x => x.step) ++ t.redo
    ++ (match t.copy with | some x => [x.step] | none => []) ++ (match t.wait with | some x => [x.step] | none => [])
  steps.foldl min t.step

/-- A tile-array reset on one tile: scratchpad and records zero, flags cleared, digest slots free, issue queue and program memory empty.
The plan service keeps the resume point (R113, R127). -/
def Tile.arrayReset (t : Tile) : Tile :=
  { t with spad := [], recs := [], aflags := 0, digests := [], iqTail := 0, iqHead := 0, iqCount := 0, iqTags := [], iqSeen := [], running := [],
           moves := [], copy := none, wait := none, progs := [], redo := [], remoteOk := [], remoteRuns := [], spadUe := [],
           resumeAt := if t.plan.isNone || t.phaseEnded then none else some t.unended }

/-- Reach-local tiles of the groups of a mask: bit g names group g of the reach. -/
def groupTiles (mask : Nat) : List Nat := (List.range 64).filter (fun t => mask.testBit (t / 16))

/-- Tile-array reset of the groups of a mask (R113, R280): a plan with a tile in them enters a stoppage with cause fault first. -/
def Chip.resetGroups (c : Chip) (r : ReachId) (mask : Nat) : Chip :=
  let tiles := groupTiles mask
  let c := c.stopPlans r (fun p => (p.con.tilesOn r).any (fun t => tiles.contains (t % 64))) .fault StopInfo.none true
  c.onReach r (fun x => { x with tiles := x.tiles.map (fun e => if tiles.contains e.1 then (e.1, e.2.arrayReset) else e) })

/-- The tile-array reset of a command ends: the command completes, and plans that waited for it go on to their agreed start (R113). -/
def Chip.tilesDone (c : Chip) (ref : CmdRef) : Chip :=
  match c.gate.tileResets.find? (fun t => t.cmd == ref) with
  | none => c
  | some t =>
    let c := { c with gate := { c.gate with tileResets := c.gate.tileResets.filter (fun t => t.cmd != ref) } }
    let c := c.complete ref t.reach.val 0 0
    forEach (c.reach t.reach).plan.plans c (fun c p => c.tryAgree t.reach p.handle)

/-- RESET_TILES: a function resets tile groups of its own: the reset begins, and at its end the command completes (R34). -/
def resetTiles (ref : CmdRef) (reach : BitVec 8) (mark : TileResetMark) (c : Chip) : Chip :=
  match mark with
  | .ends => c.tilesDone ref
  | .begins mask =>
  if c.gate.tileResets.any (fun t => t.cmd == ref) then c else
  if h : reach.toNat < 4 then
    let r : ReachId := ⟨reach.toNat, h⟩
    if 16 ≤ mask.toNat then c.complete ref 4 0x92 0
    else if !(groupTiles mask.toNat).all (fun t => c.holdsTile ref.fn (64 * r.val + t)) then c.complete ref 4 0x91 0
    else if !c.inService r then c.complete ref 4 0x6F 0
    else
      let c := c.resetGroups r mask.toNat
      { c with gate := { c.gate with tileResets := c.gate.tileResets ++ [{ cmd := ref, reach := r, mask := mask }] } }
  else c.complete ref 4 0x92 0

/-! ### Work that a reach had taken -/

/-- The gatehouse completes with RME_REACH_RESET a host-ring entry that a reach had taken (R216). -/
def Chip.entryLost (c : Chip) (by_ : Submitter) (cq : Word16) (e : WorkEntry) : Chip :=
  match by_ with
  | .ring ref pos => c.entryDone 4 ref pos (BitVec.ofNat 8 cq.toNat) (e.op == 4) 0x6F 0
  | _ => c

/-- Every host-ring entry and every command in hand on a reach completes with RME_REACH_RESET. -/
def Chip.workLost (c : Chip) (r : ReachId) : Chip :=
  let x := c.reach r
  let c := forEach x.rme.qps c (fun c e =>
    let q := e.2
    let c := forEach q.ops c (fun c o => c.entryLost o.by_ q.cqRing o.entry)
    let c := forEach q.recvs c (fun c o => c.entryLost o.by_ q.cqRing o.entry)
    (c.completeOpt q.drainCmd 4 0x6F 0).completeOpt q.destroying 4 0x6F 0)
  let c := forEach x.rme.moorings c (fun c e => c.completeOpt e.2.withdraw 4 0x6F 0)
  let c := forEach x.coll.invs c (fun c i => c.completeOpt i.cmd 4 0x6F 0)
  let c := forEach (x.plan.plans.filter (fun p => p.cmd.isSome)) c (fun c p => c.planFail r p.handle 0x6F 0)
  -- A tile-array reset in progress is superseded, and completes with this status (R34).
  let c := forEach (c.gate.tileResets.filter (fun t => t.reach == r)) c (fun c t => c.complete t.cmd 4 0x6F 0)
  let c := { c with gate := { c.gate with tileResets := c.gate.tileResets.filter (fun t => t.reach != r) } }
  { c with xlt := { c.xlt with faults := c.xlt.faults.map (fun f =>
      { f with stalled := f.stalled.filter (fun s => match s with | .rme q _ => q != r | _ => true) }) } }

/-- Remote Fault goes out on all seven links (R279, R456). -/
def Chip.faultLinks (c : Chip) (r : ReachId) : Chip := forEach allPorts c (fun c p => c.emit (.remoteFault r p))

/-- Note that no reach is left in service, so that no replica of the translation tables remains (R392). -/
def Chip.noteReplicas (c : Chip) : Chip :=
  if allReaches.any (fun r => c.inService r) then c else { c with xlt := { c.xlt with lost := true } }

/-- The scratch window of R505: 16 MiB. -/
def scratchBytes : Nat := 0x1000000

/-- What a reach keeps through its reset: its timing domain with TIME_FLOOR, the counts of timing-dependent choices, recovery testing owed (R310), memory contents
with their repairs, the stored self-test record, TX_INV of its ports (R523), and the registers that are RWS or in the configuration region. -/
def Reach.afterReset (x : Reach) : Reach :=
  let y := Reach.reset
  { y with
    service := .inReset
    time := { x.time with ctrl := timeCtrlReset, ptp := [], nowLatch := 0, offset := 0, refGood := false }
    mem := { y.mem with bytes := Mem.zeroRange x.mem.bytes scratchPa (scratchPa + scratchBytes), ue := x.mem.ue, chFault := x.mem.chFault, repair := x.mem.repair,
                        retired := x.mem.retired }
    tdc := x.tdc
    coll := { y.coll with recover := true }
    bist := { y.bist with ctrl := x.bist.ctrl, record := x.bist.record, hbmNext := x.bist.hbmNext, lpNext := x.bist.lpNext,
                          lastOutcome := x.bist.lastOutcome, lastKind := x.bist.lastKind, fails := x.bist.fails }
    lanemap := Tab.mapVals x.lanemap (fun v => putFld laneMapReset 0 4 (fld v 0 4))
    rtr := { y.rtr with lsaSeq := x.rtr.lsaSeq, parts := [(0, partEntry0)] }
    pwr := { y.pwr with rails := x.pwr.rails } }

/-- A reach enters reach reset: the work it had taken completes, its links signal fault, its timing domain stops. -/
def Chip.reachReset (c : Chip) (r : ReachId) : Chip :=
  let c := ((c.workLost r).faultLinks r).domainStop r
  (c.onReach r Reach.afterReset).noteReplicas

/-- A pseudo-channel that a parity error holds in fault resets its reach (R159 class 4). -/
def Chip.parityReset (c : Chip) (r : ReachId) : Chip :=
  if (c.reach r).mem.chFault.isEmpty || !c.inService r then c else c.reachReset r

/-- A reach is held in the isolated safe state (R456): as for a reset, but its timing domain runs on. Keys and contexts of its cipher
engine are zeroed. -/
def Chip.holdReach (c : Chip) (r : ReachId) : Chip :=
  let c := c.stopPlans r (fun _ => true) .fault StopInfo.none false
  let c := (c.workLost r).faultLinks r
  let c := c.onReach r (fun x =>
    let y := x.afterReset
    { y with service := .held, time := x.time, bist := x.bist, trace := x.trace, gauges := x.gauges, pwr := x.pwr })
  c.noteReplicas

/-- RESET_REACH: one reach is reset; the command completes when it has finished. -/
def resetReach (ref : CmdRef) (reach : BitVec 8) (c : Chip) : Chip :=
  if ref.fn != 0 then c.complete ref 4 0x91 0
  else if h : reach.toNat < 4 then
    let r : ReachId := ⟨reach.toNat, h⟩
    match c.sec.logRefusal with
    | some s => c.complete ref 4 s 0
    | none =>
      if (c.reach r).service == .held || (c.reach r).service == .testing then c.complete ref 4 0x92 0
      else
        let c := c.log 0xB (Who.function ref.fn) 0 [BitVec.ofNat 8 r.val]
        let c := { c with gate := { c.gate with resets := c.gate.resets ++ [(r, ref)] } }
        if (c.reach r).service == .inReset then c else c.reachReset r
  else c.complete ref 4 0x92 0

end Sys2Proof.Machine
end

