-- ==== Sys2Proof/Machine/XltOps.lean ====
section
/-!
DEFINITION. The translation commands (R390 to R400) and the closing of translation fault records (R402).
-/

namespace Sys2Proof.Machine

/-! ### Commands that find an address space -/

/-- A translation command waits while no reach is in service (R392). -/
def Chip.xltWaits (c : Chip) : Bool := !allReaches.any (fun r => c.inService r)

/-- The address space of a number, if the function of a command holds it. -/
def Chip.ownAsid (c : Chip) (f : FnId) (a : Word16) : Option Asid :=
  match Tab.find? c.xlt.asids a.toNat with
  | some x => if x.function == f && c.holdsAsid f a.toNat then some x else none
  | none => none

/-- Change an address space. -/
def Chip.onAsid (c : Chip) (a : Nat) (f : Asid → Asid) : Chip := { c with xlt := { c.xlt with asids := Tab.update c.xlt.asids a f } }

/-- The lowest free ASID of a function's grant (R394). -/
def Chip.freeAsid (c : Chip) (f : FnId) : Option Nat :=
  let free := fun (a : Nat) => c.holdsAsid f a && (Tab.find? c.xlt.asids a).isNone
  match (c.ten f).grant with
  | some g => ((List.range g.asidCount.toNat).map (fun i => g.asidBase.toNat + i)).find? free
  | none =>
    -- the PF: at most the ASIDs in use and those of every grant stand before a free one
    let taken := c.xlt.asids.length + (c.xlt.tens.foldl (fun n e => n + (match e.2.grant with | some g => g.asidCount.toNat | none => 0)) 0)
    ((List.range (min 65535 (taken + 1))).map (fun i => i + 1)).find? free

/-- ASID_CREATE (R394). -/
def asidCreate (ref : CmdRef) (asid : Word16) (c : Chip) : Chip :=
  if c.xltWaits then c
  else
    let put := fun (a : Nat) =>
      ({ c with xlt := { c.xlt with asids := Tab.set c.xlt.asids a { function := ref.fn, gen := 0, pages := [], wins := [] } } }).complete
        ref 4 0 (BitVec.ofNat 64 a)
    if asid == 0xFFFF then
      match c.freeAsid ref.fn with
      | some a => put a
      | none => c.complete ref 4 0xA1 0
    else if !c.holdsAsid ref.fn asid.toNat || (Tab.find? c.xlt.asids asid.toNat).isSome then c.complete ref 4 0xA3 0
    else put asid.toNat

/-! ### Pages (R393) -/

/-- Pages that a function holds: mapped, or released by a command that waits for work in flight (R398). -/
def Chip.pagesOf (c : Chip) (f : FnId) : List Page :=
  (c.xlt.asids.filter (fun e => e.2.function == f)).flatMap (fun e => e.2.pages)
    ++ (c.xlt.inv.filter (fun i => i.cmd.fn == f)).flatMap (fun i => i.released)

/-- Pages of every function. -/
def Chip.allPages (c : Chip) : List Page := c.xlt.asids.flatMap (fun e => e.2.pages) ++ c.xlt.inv.flatMap (fun i => i.released)

/-- Address ranges of a reach that no page may be taken from: pages held, and retired pages (R165). -/
def Chip.busyRanges (c : Chip) (r : ReachId) : List (Nat × Nat) :=
  ((c.allPages.filter (fun p => p.reach == r)).map (fun p => (p.pa, pageBytes p.size)))
    ++ (c.reach r).mem.retired.map (fun n => (n * 0x10000, 0x10000))

/-- The lowest free pages of a range, `want` of them, of `size` bytes each. -/
def takePages (busy : List (Nat × Nat)) (size hi : Nat) : Nat → Nat → Nat → List Nat
  | 0, _, _ => []
  | fuel + 1, pa, want =>
    if want = 0 ∨ hi < pa + size then []
    else if busy.any (fun e => decide (e.1 < pa + size) && decide (pa < e.1 + e.2)) then takePages busy size hi fuel (pa + size) want
    else pa :: takePages busy size hi fuel (pa + size) (want - 1)

/-- Bytes of LPDDR5X of a reach that a function may hold: its grant, or what no grant names (R403, R404). -/
def Chip.lpShare (c : Chip) (f : FnId) (r : ReachId) : Nat :=
  if f = 0 then
    (lpTrace - lpAvail) - (c.xlt.tens.foldl (fun n e => n + (match e.2.grant with | some g => (g.lpGib.get r).toNat | none => 0)) 0) * 0x40000000
  else match (c.ten f).grant with
    | some g => (g.lpGib.get r).toNat * 0x40000000
    | none => 0

/-- Bytes of LPDDR5X of a reach that a function holds in pages. -/
def Chip.lpUsed (c : Chip) (f : FnId) (r : ReachId) : Nat :=
  ((c.pagesOf f).filter (fun p => p.reach == r && p.tier == 1)).foldl (fun n p => n + pageBytes p.size) 0

/-- The physical pages that a map takes; none where the grant has too few. -/
def Chip.choosePages (c : Chip) (f : FnId) (p : XltMap) (n : Nat) : Option (List Nat) :=
  let size := pageBytes p.page
  let lp := p.tier == 1
  let lo := if lp then lpAvail else p.pcset.toNat * 0x400000000
  let hi := if lp then lpTrace else lo + 0x400000000
  if lp && decide (c.lpShare f p.reach < c.lpUsed f p.reach + n * size) then none
  else if !lp && !c.holdsSet f p.reach p.pcset.toNat then none
  else
    let l := takePages (c.busyRanges p.reach) size hi ((hi - lo) / size + 1) lo n
    if l.length = n then some l else none

/-- Zero bytes of a reach's memory; lines written whole hold no error. -/
def Reach.zeroPhys (x : Reach) (pa n : Nat) : Reach :=
  { x with mem := { x.mem with bytes := Mem.zeroRange x.mem.bytes pa (pa + n),
                               ue := x.mem.ue.filter (fun l => !(decide (pa ≤ 64 * l) && decide (64 * l + 64 ≤ pa + n))) } }

/-- A range of an address space meets a page or window. -/
def Asid.meets (a : Asid) (va len : Nat) : Bool :=
  a.pages.any (fun p => decide (p.va < va + len) && decide (va < p.va + pageBytes p.size))
    || a.wins.any (fun w => decide (w.va < va + len) && decide (va < w.va + w.len))

/-! ### Closing fault records (R402) -/

/-- A stalled submitter translates again. -/
def Chip.again (c : Chip) (s : Stalled) : Chip :=
  match s with
  | .rme r src =>
    (match c.headEntry r src with
    | some (e, _, _) => rmeTake e.op r (c.now r) src c
    | none => c)
  | .load ref p => planLoad ref p c
  | .cipher p _ q d => c.cipher p q d

/-- A stalled submitter is refused. -/
def Chip.refused (c : Chip) (s : Stalled) : Chip :=
  match s with
  | .rme r src => c.rmeRefuse r src
  | .load ref _ => c.complete ref 4 0x93 0
  | .cipher p _ _ _ => c.answer p 0x93 0 []

/-- Close the records that a test picks, as resolved or as refused. -/
def Chip.closeFaults (c : Chip) (sel : FaultRecord → Bool) (resolved : Bool) : Chip :=
  let l := (c.xlt.faults.filter sel).flatMap (fun x => x.stalled)
  let c := { c with xlt := { c.xlt with faults := c.xlt.faults.filter (fun x => !sel x) } }
  forEach l c (fun c s => if resolved then c.again s else c.refused s)

/-- An address space now gives the page of a record what was missing. -/
def Asid.resolves (a : Asid) (x : FaultRecord) : Bool :=
  match a.spot x.va with
  | none => false
  | some s => x.cause == 0 || (x.cause == 1 && s.rd) || (x.cause == 2 && s.wr)

/-- After a map: the open records of the address space that it resolves close. -/
def Chip.resolveFaults (c : Chip) (asid : Word16) : Chip :=
  match Tab.find? c.xlt.asids asid.toNat with
  | none => c
  | some a => c.closeFaults (fun x => x.asid == asid && a.resolves x) true

/-! ### XLT_MAP -/

/-- Status that an XLT_MAP is refused with before pages are taken; 0 where it is not. -/
def Chip.xltMapCheck (c : Chip) (f : FnId) (p : XltMap) : Nat :=
  let size := if p.window then 0x10000 else pageBytes p.page
  let va := natBits p.va.toNat 0 57
  let len := p.length.toNat
  match c.ownAsid f p.asid with
  | none => 0xA3
  | some a =>
    if !p.window && p.page == 3 then 0x92
    else if len = 0 || va % size != 0 || len % size != 0 || 2 ^ 57 < va + len || (p.window && p.iova.toNat % 0x10000 != 0) then 0xA0
    else if a.meets va len then 0xA4
    else if p.window && 64 ≤ a.wins.length then 0xA1
    else 0

/-- XLT_MAP: pages are taken from the grant, zeroed and mapped, or a host window is made (R388, R393). -/
def xltMap (ref : CmdRef) (p : XltMap) (c : Chip) : Chip :=
  if c.xltWaits then c
  else
    let status := c.xltMapCheck ref.fn p
    let va := natBits p.va.toNat 0 57
    let len := p.length.toNat
    if status != 0 then c.complete ref 4 status 0
    else if p.window then
      let w : HostWin := { va := va, len := len, iova := p.iova.toNat, rd := p.rd, wr := p.wr }
      ((c.onAsid p.asid.toNat (fun a => { a with wins := a.wins ++ [w] })).complete ref 4 0 0).resolveFaults p.asid
    else if !c.inService p.reach then c.complete ref 4 0x6F 0
    else
      let size := pageBytes p.page
      match c.choosePages ref.fn p (len / size) with
      | none => c.complete ref 4 0xA1 0
      | some l =>
        let pages : List Page := l.zipIdx.map (fun e =>
          { va := va + e.2 * size, size := p.page, tier := p.tier, reach := p.reach, set := if p.tier == 1 then 0 else p.pcset,
            pa := e.1, rd := p.rd, wr := p.wr })
        let c := c.onReach p.reach (fun x => forEach l x (fun x pa => x.zeroPhys pa size))
        ((c.onAsid p.asid.toNat (fun a => { a with pages := a.pages ++ pages })).complete ref 4 0
          (BitVec.ofNat 64 l.length)).resolveFaults p.asid

/-! ### Invalidating commands (R397 to R400) -/

/-- Work translated under the previous generation of an address space is not retired: entries of the RMEs with LSPACE 1. -/
def Chip.oldWork (c : Chip) (asid : Word16) (gen : BitVec 12) : Bool :=
  allReaches.any (fun r => (c.reach r).rme.qps.any (fun e => e.2.asid == asid
    && (e.2.ops.any (fun o => o.entry.lspace == 1 && o.asidGen + 1 == gen)
      || e.2.recvs.any (fun x => x.entry.lspace == 1 && x.asidGen + 1 == gen))))

/-- Status an invalidating command fails with before step 1; 0 where it does not. -/
def Chip.invCheck (c : Chip) (a : Asid) (i : InvCmd) : Nat :=
  match i.range with
  | none => if i.free && a.pages.any c.pageHeld then 0xA2 else 0
  | some (va, len) =>
    let part := fun (lo n : Nat) => decide (lo < va + len) && decide (va < lo + n) && !(decide (va ≤ lo) && decide (lo + n ≤ va + len))
    if a.pages.any (fun p => part p.va (pageBytes p.size)) || a.wins.any (fun w => part w.va w.len) then 0xA0
    else if a.pages.any (fun p => decide (va ≤ p.va) && decide (p.va < va + len) && c.pageHeld p) then 0xA2
    else 0

/-- The commands in hand, the one of a handle changed or removed. -/
def Xlt.onInv (x : Xlt) (h : Word64) (f : InvCmd → Option InvCmd) : Xlt :=
  { x with inv := x.inv.filterMap (fun i => if i.cmd.handle == h then f i else some i) }

/-- Step 4: the released pages return, a freed ASID goes, and the command completes. -/
def Chip.invFinish (c : Chip) (i : InvCmd) (gen : BitVec 12) : Chip :=
  let x := c.xlt.onInv i.cmd.handle (fun _ => none)
  let x := if i.free then { x with asids := Tab.erase x.asids i.asid.toNat } else x
  ({ c with xlt := x }).complete i.cmd 4 0 (BitVec.ofNat 64 (i.released.length + gen.toNat * 2 ^ 32))

/-- Steps 1 and 2 of a command whose turn has come, and steps 3 and 4 if no work is left. -/
def Chip.invStart (c : Chip) (i : InvCmd) : Chip :=
  match Tab.find? c.xlt.asids i.asid.toNat with
  | none => ({ c with xlt := c.xlt.onInv i.cmd.handle (fun _ => none) }).complete i.cmd 4 0xA3 0
  | some a =>
    let status := c.invCheck a i
    if status != 0 then ({ c with xlt := c.xlt.onInv i.cmd.handle (fun _ => none) }).complete i.cmd 4 status 0
    else
      let hit := fun (va : Nat) => match i.range with
        | some (lo, n) => decide (lo ≤ va) && decide (va < lo + n)
        | none => i.free
      let gen := a.gen + 1
      let j := { i with started := true, released := a.pages.filter (fun p => hit p.va) }
      let a := { a with gen := gen, pages := a.pages.filter (fun p => !hit p.va), wins := a.wins.filter (fun w => !hit w.va) }
      let c := { c with xlt := { c.xlt.onInv i.cmd.handle (fun _ => some j) with asids := Tab.set c.xlt.asids i.asid.toNat a } }
      let c := c.onTen a.function (fun t => { t with asidGen := gen })
      if c.oldWork i.asid gen then c else c.invFinish j gen

/-- The first command of an address space that has not started. -/
def Chip.invNext (c : Chip) (asid : Word16) : Option InvCmd :=
  match c.xlt.inv.find? (fun i => i.asid == asid) with
  | some i => if i.started then none else some i
  | none => none

/-- The commands of an address space whose turn has come start, one after another (R399). -/
def Chip.invRun : Nat → Chip → Word16 → Chip
  | 0, c, _ => c
  | n + 1, c, asid =>
    match c.invNext asid with
    | some i => Chip.invRun n (c.invStart i) asid
    | none => c

/-- Put an invalidating command behind those of its address space. -/
def Chip.invPut (c : Chip) (i : InvCmd) : Chip :=
  let c := { c with xlt := { c.xlt with inv := c.xlt.inv ++ [i] } }
  c.invRun c.xlt.inv.length i.asid

/-- XLT_WITHDRAW (R400): a range is withdrawn, or an open fault record refused. -/
def xltWithdraw (ref : CmdRef) (p : XltWithdraw) (c : Chip) : Chip :=
  if p.refuse then
    if p.length != 0 then c.complete ref 4 0x92 0
    else if !c.xlt.faults.any (fun x => x.function == ref.fn && x.seq == p.seq) then c.complete ref 4 0xA5 0
    else (c.closeFaults (fun x => x.function == ref.fn && x.seq == p.seq) false).complete ref 4 0 0
  else if c.xltWaits then c
  else if (c.ownAsid ref.fn p.asid).isNone then c.complete ref 4 0xA3 0
  else c.invPut { cmd := ref, asid := p.asid, free := false, range := some (natBits p.va.toNat 0 57, p.length.toNat), started := false,
                  released := [] }

/-- ASID_INVALIDATE (R398). -/
def asidInvalidate (ref : CmdRef) (asid : Word16) (free : Bool) (c : Chip) : Chip :=
  if c.xltWaits then c
  else if (c.ownAsid ref.fn asid).isNone then c.complete ref 4 0xA3 0
  else c.invPut { cmd := ref, asid := asid, free := free, range := none, started := false, released := [] }

/-- XLT_INVALIDATE_DRAINED: no work of the previous generation is left, so the command of an address space completes and the next
starts (R398, R399). -/
def Chip.invDrained (c : Chip) (asid : Word16) : Chip :=
  match c.xlt.inv.find? (fun i => i.asid == asid && i.started), Tab.find? c.xlt.asids asid.toNat with
  | some i, some a =>
    if c.oldWork asid a.gen then c
    else
      let c := c.invFinish i a.gen
      c.invRun c.xlt.inv.length asid
  | _, _ => c

/-- XLT_FAULT_EXPIRY: XLT_CTRL.FAULT_MS after its time an open record closes as refused (R402, R413). -/
def xltFaultExpiry (r : ReachId) (now : Time) (f : FnId) (seq : Word16) (c : Chip) : Chip :=
  let c := c.at r now
  let ms := clampNat 10 60000 (fld c.xlt.ctrl 0 16)
  c.closeFaults (fun x => x.function == f && x.seq == seq && notBefore (x.time + nsTime (1000000 * ms)) (c.now r)) false

end Sys2Proof.Machine
end

