-- ==== Sys2Proof/Machine/TenOps.lean ====
section
/-!
DEFINITION. Tenancies (R403 to R407, R411): grants given and taken back, the end of a shut-down, freeze and unfreeze.
-/

namespace Sys2Proof.Machine

/-! ### Grants (R403) -/

/-- The 64 bytes of a grant. -/
def grantBytes (g : Grant) : List Byte :=
  leBytes 4 (g.fmt.toNat + g.function.toNat * 2 ^ 8 + g.tileGroups.toNat * 2 ^ 16) ++ leBytes 4 g.hbmSets.toNat
    ++ g.lpGib.toList.flatMap (fun n => leBytes 2 n.toNat) ++ leBytes 4 (g.asidBase.toNat + g.asidCount.toNat * 2 ^ 16)
    ++ leBytes 4 (g.qpQuota.toNat + g.moorQuota.toNat * 2 ^ 16) ++ sliceBytes g.pkeyIdx 0 8
    ++ leBytes 4 (g.winShare.toNat + g.gateQuota.toNat * 2 ^ 10) ++ List.replicate 28 0

/-- Fields of a grant outside their limits (HOST_BAD_PARAM). -/
def grantBad (g : Grant) : Bool :=
  g.fmt != 1 || g.function == 0 || 63 < g.function.toNat || g.lpGib.toList.any (fun n => 370 < n.toNat) || g.asidCount == 0
    || 4096 < g.asidCount.toNat || g.asidBase == 0 || 65535 < g.asidBase.toNat + g.asidCount.toNat || 1024 < g.gateQuota.toNat
    || g.pkeyIdx.length != 8

/-- The function that a grant names. -/
def grantFn (g : Grant) : FnId := ⟨g.function.toNat % 64, Nat.mod_lt _ (by decide)⟩

/-- The sum of a number over every grant. -/
def Chip.granted (c : Chip) (n : Grant → Nat) : Nat :=
  c.xlt.tens.foldl (fun k e => k + (match e.2.grant with | some g => n g | none => 0)) 0

/-- What the PF itself uses of a grant's exclusive resources. -/
def Chip.pfUses (c : Chip) (g : Grant) : Bool :=
  (c.pagesOf 0).any (fun p => p.tier == 0 && grantHbm g p.reach p.set.toNat)
    || c.xlt.asids.any (fun e => e.2.function == 0 && grantAsid g e.1)
    || allReaches.any (fun r =>
      (c.reach r).plan.plans.any (fun p => p.fn == 0 && (p.con.tilesOn r).any (grantTile g))
        || ((c.reach r).moorsOf 0).any (fun e => e.2.space == 1 && grantTile g (64 * r.val + natBits e.2.base.toNat 23 6)))

/-- FUNCTION_ENABLE conflicts (TEN_CONFLICT): a resource is not the PF's, is in use by it, or too few are left. -/
def Chip.grantConflict (c : Chip) (g : Grant) : Bool :=
  let others := c.xlt.tens.filterMap (fun e => e.2.grant)
  (c.ten (grantFn g)).grant.isSome
    || others.any (fun o => (o.tileGroups &&& g.tileGroups) != 0 || (o.hbmSets &&& g.hbmSets) != 0
      || (decide (o.asidBase.toNat < g.asidBase.toNat + g.asidCount.toNat) && decide (g.asidBase.toNat < o.asidBase.toNat + o.asidCount.toNat)))
    || c.pfUses g
    || 1024 < c.granted (fun o => o.winShare.toNat) + g.winShare.toNat
    || allReaches.any (fun r =>
      c.lpShare 0 r < c.lpUsed 0 r + (g.lpGib.get r).toNat * 0x40000000
        || 16320 < c.granted (fun o => o.qpQuota.toNat) + ((c.reach r).qpsOf 0).length + g.qpQuota.toNat
        || 32766 < c.granted (fun o => o.moorQuota.toNat) + ((c.reach r).moorsOf 0).length + g.moorQuota.toNat)

/-- A grant is given, or the command refused. -/
def Chip.enableNow (c : Chip) (ref : CmdRef) (g : Grant) : Chip :=
  let f := grantFn g
  if c.grantConflict g then c.complete ref 4 0xA8 0
  else
    let c := (c.onTen f (fun t => { t with grant := some g })).onFn f (fun x => { x with enabled := true })
    c.complete ref 4 0 0

/-- FUNCTION_ENABLE: at once, or after the shut-down that runs (R406). -/
def functionEnable (ref : CmdRef) (g : Grant) (c : Chip) : Chip :=
  let f := grantFn g
  if ref.fn != 0 then c.complete ref 4 0x91 0
  else if grantBad g then c.complete ref 4 0x92 0
  else match c.sec.logRefusal with
    | some s => c.complete ref 4 s 0
    | none =>
      if (c.fn f).shutdown then
        if (c.ten f).enable.isSome then c.complete ref 4 0xA9 0
        else (c.log 9 (c.whoOf .pf) 0 (grantBytes g)).onTen f (fun t => { t with enable := some (ref, g) })
      else if c.grantConflict g then c.complete ref 4 0xA8 0
      else (c.log 9 (c.whoOf .pf) 0 (grantBytes g)).enableNow ref g

/-! ### The end of a shut-down (R405) -/

/-- Every queue pair of a function has retired its work, and no reference is left on its moorings (step 3). -/
def Chip.shutReady (c : Chip) (f : FnId) : Bool :=
  allReaches.all (fun r => ((c.reach r).qpsOf f).all (fun q => q.idle && q.destroying.isNone)
    && ((c.reach r).moorsOf f).all (fun e => e.2.refs == 0 && e.2.withdraw.isNone))

/-- Queue pairs and moorings go; what is left of its collectives fails (steps 2 and 3). -/
def Chip.eraseObjects (c : Chip) (f : FnId) : Chip :=
  forEach allReaches c (fun c r =>
    let c := forEach (c.collsOf f r) c (fun c i =>
      let c := (c.completeOpt i.cmd r.val 0x84 0).freeSlots r i
      c.onReach r (fun x => { x with coll := { x.coll with invs := x.coll.invs.filter (fun j => !j.is i.key i.desc.coll i.member) } }))
    let c := forEach ((c.reach r).qpsOf f) c (fun c q => c.onRme r (fun m => { m with qps := Tab.erase m.qps (qpIndex q.qpn) }))
    c.onRme r (fun m => { m with moorings := m.moorings.map (fun e =>
      if decide (2 ≤ e.1) && e.2.function == f then (e.1, { e.2 with valid := false, runs := [], inUse := false }) else e) }))

/-- Every ASID of a function is invalidated with FREE; its pages are zeroed and return to the grant (steps 4 and 5). -/
def Chip.freeAsids (c : Chip) (f : FnId) : Chip :=
  let l := c.xlt.asids.filter (fun e => e.2.function == f)
  let pages := c.pagesOf f
  let inv := c.xlt.inv.filter (fun i => l.any (fun e => e.1 == i.asid.toNat))
  let c := forEach inv c (fun c i => c.complete i.cmd 4 (if i.started then 0 else 0xA3)
    (if i.started then BitVec.ofNat 64 (i.released.length + (c.asidGen i.asid.toNat).toNat * 2 ^ 32) else 0))
  let c := forEach pages c (fun c p => c.onReach p.reach (fun x => x.zeroPhys p.pa (pageBytes p.size)))
  { c with xlt := { c.xlt with asids := c.xlt.asids.filter (fun e => e.2.function != f),
                               inv := c.xlt.inv.filter (fun i => !l.any (fun e => e.1 == i.asid.toNat)) } }

/-- Tile groups of a function on a reach, as a mask. -/
def Chip.groupMask (c : Chip) (f : FnId) (r : ReachId) : Nat :=
  (List.range 4).foldl (fun m g => if c.holdsTile f (64 * r.val + 16 * g) then m + 2 ^ g else m) 0

/-- Gauges of a reach that belong to a function: its tiles, its queue pairs, its tenancy queue, its counts (R465, R466). -/
def ownGauge (f : FnId) (mask : Nat) (qps : List Nat) (key : Nat) : Bool :=
  let obj := key / 256 % 2 ^ 32
  match key / 256 / 2 ^ 32 with
  | 1 => mask.testBit (obj / 16)
  | 2 => qps.contains obj
  | 4 => obj % 128 == f.val
  | 5 => obj == f.val
  | _ => false

/-- Step 6: held records, counts and serials go, and the generation advances. -/
def Chip.nextGeneration (c : Chip) (f : FnId) : Chip :=
  let gen := (c.fn f).gen + 1
  let stale := fun (p : Posting) => p.record.handle != 0 && p.record.handle.toNat % 65536 != gen.toNat
  let c := c.onFn f (fun x =>
    { x with gen := gen, held := [], lost := 0, lostRings := 0, serials := [], out := [], ringGauges := [],
             rings := Tab.mapVals x.rings (fun q => { q with waiting := q.waiting.filter (fun p => !stale p) }) })
  let c := { c with host := { c.host with feeds := c.host.feeds.filter (fun i => i.cmd.fn != f) } }
  { c with gate := { c.gate with denied := Tab.erase c.gate.denied f.val, rwlIgnored := Tab.erase c.gate.rwlIgnored f.val } }

/-- Steps 3 to 7 of a shut-down whose work has retired. -/
def Chip.shutEnd (c : Chip) (f : FnId) : Chip :=
  let qps := fun (r : ReachId) => ((c.reach r).qpsOf f).map (fun q => qpIndex q.qpn)
  let c0 := c
  let c := (c.eraseObjects f).closeFaults (fun x => x.function == f) false
  let c := c.freeAsids f
  let c := forEach allReaches c (fun c r =>
    let mask := c.groupMask f r
    let c := c.resetGroups r mask
    c.onReach r (fun x => { x with tdc := { x.tdc with fns := Tab.erase x.tdc.fns f.val },
                                   gauges := x.gauges.filter (fun e => !ownGauge f mask (qps r) e.1) }))
  let c := c.nextGeneration f
  let t := c0.ten f
  let c := if t.disable.isEmpty then c
    else (c.onTen f (fun t => { t with grant := none })).onFn f (fun x => { x with enabled := f == 0 })
  let c := (c.onTen f (fun t => { t with disable := [], enable := none, state := .running })).onFn f (fun x => { x with shutdown := false })
  let c := forEach t.disable c (fun c ref => c.complete ref 4 0 0)
  let c := match t.enable with
    | some (ref, g) => c.enableNow ref g
    | none => c
  let c := if t.attaching then c.attachGo f else c
  c.fetchAll f

/-! ### Freeze (R407) -/

/-- No context of a function is still READY or draining, and none of its invocations is in flight. -/
def Chip.allFrozen (c : Chip) (f : FnId) : Bool :=
  allReaches.all (fun r => !c.collsInFlight f r && ((c.reach r).qpsOf f).all (fun q => q.state != .ready && q.state != .drain))

/-- Descriptors that a frozen function's rings hold untaken are never taken. -/
def HostRing.skip (q : HostRing) : HostRing :=
  if q.kind == .submission && !q.error then { q with taken := q.published, fetching := false } else q

/-- A freeze is over: the tenancy is frozen and the command completes with its counts. -/
def Chip.freezeDone (c : Chip) (f : FnId) (rolled uncertain : Nat) : Chip :=
  let cmd := (c.ten f).freezeCmd
  let c := c.onTen f (fun t => { t with state := .frozen, freezeCmd := none })
  let c := c.onFn f (fun x => { x with rings := Tab.mapVals x.rings HostRing.skip })
  c.completeOpt cmd 4 0 (BitVec.ofNat 64 (rolled + uncertain * 2 ^ 32))

/-- What waits for work to retire goes on: shut-downs end and freezes complete. -/
def Chip.settle (c : Chip) : Chip :=
  forEach c.functions c (fun c f =>
    if (c.fn f).shutdown then (if c.shutReady f then c.shutEnd f else c)
    else if (c.ten f).state == .freezing && c.allFrozen f then c.freezeDone f 0 0
    else c)

/-- FUNCTION_DISABLE: a shut-down with step 7. -/
def functionDisable (ref : CmdRef) (fn : BitVec 8) (c : Chip) : Chip :=
  if ref.fn != 0 then c.complete ref 4 0x91 0
  else if h : fn.toNat < 64 then
    let f : FnId := ⟨fn.toNat, h⟩
    if f = 0 || !(c.fn f).enabled then c.complete ref 4 0x92 0
    else match c.sec.logRefusal with
      | some s => c.complete ref 4 s 0
      | none =>
        let g := match (c.ten f).grant with | some g => grantBytes g | none => []
        let c := c.log 9 (c.whoOf .pf) 0 g
        ((c.onTen f (fun t => { t with disable := t.disable ++ [ref] })).shutStart f).settle
  else c.complete ref 4 0x92 0

/-- A tenancy command names an enabled function. -/
def Chip.tenFn (c : Chip) (fn : BitVec 8) : Option FnId :=
  if h : fn.toNat < 64 then (if (c.fn ⟨fn.toNat, h⟩).enabled then some ⟨fn.toNat, h⟩ else none) else none

/-- Plans of a function enter a stoppage; a load or resume in hand fails with TEN_STATE. -/
def Chip.freezePlans (c : Chip) (f : FnId) : Chip :=
  forEach (c.plansOf f) c (fun c h =>
    let c := match (c.planReaches h).find? (fun r => match (c.reach r).planBy h with | some p => p.cmd.isSome | none => false) with
      | some r => c.planFail r h 0xA9 0
      | none => c
    c.driverStop h)

/-- TEN_FREEZE: plans stop, rings are no longer taken from, queue pairs drain. -/
def tenFreeze (ref : CmdRef) (fn : BitVec 8) (drainMs : Word32) (c : Chip) : Chip :=
  if ref.fn != 0 then c.complete ref 4 0x91 0
  else match c.tenFn fn with
    | none => c.complete ref 4 0x92 0
    | some f =>
      if (c.fn f).shutdown || (c.ten f).state != .running then c.complete ref 4 0xA9 0
      else
        let ms := if drainMs == 0 then 10 else drainMs.toNat
        let c := c.freezePlans f
        let c := c.onTen f (fun t => { t with state := .freezing, freezeCmd := some ref, freezeEnd := c.gateTime + nsTime (1000000 * ms) })
        let c := forEach allReaches c (fun c r =>
          forEach (((c.reach r).qpsOf f).filter (fun q => q.state == .ready)) c (fun c q =>
            c.onQp r q.qpn (fun q => { q with state := .drain, drainTo := .frozen })))
        c.settle

/-- Status that an unretired operation completes with at the end of a freeze. -/
def frozenStatus (o : RmeOp) : BitVec 8 := if o.entry.op == 0 || o.entry.op == 2 || o.sent == 0 then 0xAA else 0xAB

/-- A context at the end of a freeze: what is unretired completes rolled back or uncertain. -/
def Qp.freezeNow (q : Qp) : Qp :=
  { q with state := .frozen, timer := none, drainCmd := none,
           ops := q.ops.map (fun (o : RmeOp) => if o.status.isNone then { o with status := some (frozenStatus o), rnrDue := none } else o) }

/-- TEN_FREEZE_DRAIN_EXPIRY: DRAIN_MS has passed. -/
def tenFreezeDrainExpiry (r : ReachId) (now : Time) (f : FnId) (c : Chip) : Chip :=
  let c := c.at r now
  let t := c.ten f
  if t.state != .freezing || (c.steadyReach.isSome && !notBefore t.freezeEnd c.gateTime) then c
  else
    let draining := fun (r : ReachId) => ((c.reach r).qpsOf f).filter (fun q => q.state == .drain)
    let open_ := (allReaches.flatMap draining).flatMap (fun q => (q.ops.filter (fun o => o.status.isNone)).map frozenStatus)
    let cmds := (allReaches.flatMap draining).filterMap (fun q => q.drainCmd)
    let c' := forEach allReaches c (fun c r => forEach (draining r) c (fun c q => c.onQp r q.qpn Qp.freezeNow))
    let c' := forEach cmds c' (fun c ref => c.complete ref 4 0 0)
    c'.freezeDone f (open_.filter (fun s => s == 0xAA)).length (open_.filter (fun s => s == 0xAB)).length

/-- TEN_UNFREEZE (R411). -/
def tenUnfreeze (ref : CmdRef) (fn : BitVec 8) (c : Chip) : Chip :=
  if ref.fn != 0 then c.complete ref 4 0x91 0
  else match c.tenFn fn with
    | none => c.complete ref 4 0x92 0
    | some f =>
      if (c.fn f).shutdown || (c.ten f).state != .frozen then c.complete ref 4 0xA9 0
      else
        let c := c.onTen f (fun t => { t with state := .running })
        let c := forEach allReaches c (fun c r =>
          forEach (((c.reach r).qpsOf f).filter (fun q => q.state == .frozen)) c (fun c q =>
            c.onQp r q.qpn (fun q => { q with state := .ready, timer := if q.out.isEmpty then none else some (c.now r + (c.reach r).rme.rto 0) })))
        (c.complete ref 4 0 0).fetchAll f

/-! ### Commands that end in a settled module -/

/-- XLT_INVALIDATE_DRAINED. -/
def xltInvalidateDrained (asid : Word16) (c : Chip) : Chip := (c.invDrained asid).settle

end Sys2Proof.Machine
end

