-- ==== Sys2Proof/Machine/Run.lean ====
section
/-!
DEFINITION. How a command's effect on the module becomes an outcome: nothing acts while the module has no power or stands in MRST_N, and
a command taken from a ring after a shut-down began has no effect (R511).
-/

namespace Sys2Proof.Machine

/-- The module has its rails and MRST_N is high (R478, R518). -/
def Chip.alive (c : Chip) : Bool := c.gate.pwrgd && c.gate.mrstN

/-- An event at a pin or at the input, which acts whatever the module's state. -/
def State.runPin (s : State) (f : Chip → Chip) : Host.Outcome State Fault Refusal := .next { s with chip := f s.chip }

/-- An effect of a live module. -/
def State.run (s : State) (f : Chip → Chip) : Host.Outcome State Fault Refusal :=
  s.runPin (fun c => if c.alive then f c else c)

/-- An effect after which operations may have retired, so that a shut-down or a freeze that waits for them goes on (R405, R407). -/
def State.runSettle (s : State) (f : Chip → Chip) : Host.Outcome State Fault Refusal := s.run (fun c => (f c).settle)

/-- From the start of a module shut-down no new chain is taken: a command acts only if its chain had been taken (R509, R511). -/
def Chip.taking (c : Chip) (ref : CmdRef) : Bool := c.gate.shutState == 0 || (c.chain? ref).isSome

/-- A host command. -/
def State.runCmd (s : State) (ref : CmdRef) (f : CmdRef → Chip → Chip) : Host.Outcome State Fault Refusal :=
  s.run (fun c => if c.taking ref then f ref c else c)

/-- A host command after which operations may have retired. -/
def State.runCmdSettle (s : State) (ref : CmdRef) (f : CmdRef → Chip → Chip) : Host.Outcome State Fault Refusal :=
  s.run (fun c => if c.taking ref then (f ref c).settle else c)

/-- A role request, by a ring or over MCTP. -/
def State.runReq (s : State) (p : ReqPath) (f : ReqPath → Chip → Chip) : Host.Outcome State Fault Refusal :=
  match p with
  | .ring ref _ _ => s.runCmd ref (fun _ => f p)
  | .mctp _ => s.run (f p)

end Sys2Proof.Machine
end

