-- ==== Sys2Proof/Machine/CollCmds.lean ====
section
/-!
DEFINITION. Collectives (R287 to R320, R453): one meaning for each command, over the shared operations.
-/

namespace Sys2Proof.Machine

/-- COLL_START: A COLL_START command starts an unplanned collective invocation for one member (R297). -/
def execCollStart (ref : CmdRef) (p : CollStart) (s : State) : Host.Outcome State Fault Refusal :=
  s.runCmdSettle ref (fun ref => collStart ref p)

/-- COLL_CHUNK_SEND: A member's credit exceeds used grants and its RME sends the next chunk with tail as one WRITE_SIGNAL
(R299). -/
def execCollChunkSend (r : ReachId) (now : Time) (key : Word64) (coll member dest : Nat) (s : State) : Host.Outcome State Fault Refusal :=
  s.runSettle (collChunkSend r now key coll member dest)

/-- COLL_CHUNK_RECEIVE: A chunk lands, is checked, added in the wharf or at the endpoint, written to W and its staging entry
freed (R300). -/
def execCollChunkReceive (r : ReachId) (now : Time) (key : Word64) (coll member item : Nat) (s : State) : Host.Outcome State Fault Refusal :=
  s.runSettle (collChunkReceive r now key coll member item)

/-- COLL_TIMEOUT: A ready member waits FREEBOARD plus COLL_TIMEOUT without grant or chunk and fails the invocation (R312).
-/
def execCollTimeout (r : ReachId) (now : Time) (key : Word64) (coll member : Nat) (s : State) : Host.Outcome State Fault Refusal :=
  s.runSettle (collTimeout r now key coll member)

/-- ADDER_TEST_BURST: An adder test burst falls due and runs when no chunk is being added (R453). -/
def execAdderTestBurst (r : ReachId) (now : Time) (wharf pass : Bool) (s : State) : Host.Outcome State Fault Refusal :=
  s.runSettle (adderTestBurst r now wharf pass)

end Sys2Proof.Machine
end

