-- ==== Sys2Proof/Machine/BistOps.lean ====
section
/-!
DEFINITION. Keeper watchdogs, the in-service tests of tiles, and the lengthsman's self-test of a reach (R448 to R463, R510): its isolation,
its record, and BIST_RUN. How a test goes comes with the command.
-/

namespace Sys2Proof.Machine

/-- Change the self-test state of a reach. -/
def Chip.onBist (c : Chip) (r : ReachId) (f : Bist → Bist) : Chip := c.onReach r (fun x => { x with bist := f x.bist })

/-! ### Keeper watchdogs (R450) -/

/-- 100 ms. -/
def watchSpan : Int := 100000000 * 65536

/-- KEEPER_WATCHDOG_EXPIRY of a reach's core: the first restarts the core, a second within 100 ms, or one of the core that runs the
health service, resets the reach, and so does an uncorrectable line of the keeper region, from which the core's service restarts. -/
def watchReach (r : ReachId) (core : Fin 8) (c : Chip) : Chip :=
  let now := c.now r
  let again := match Tab.find? (c.reach r).bist.expiry core.val with
    | some t => decide (timeDiff t now < watchSpan)
    | none => false
  -- A core that restarts reads its firmware from the keeper region; an error there resets the reach (R159 class 1).
  let bad := if again || core == Config.healthCore then none else (c.reach r).mem.ue.find? (fun l => decide (lpBase ≤ 64 * l) && decide (64 * l < lpAvail))
  let c := match bad with | some l => c.memUe r 1 (64 * l) 0 | none => c
  let down := again || core == Config.healthCore || bad.isSome
  let c := c.onBist r (fun b => { b with expiry := Tab.set b.expiry core.val now })
  let c := c.health r 0 (if down then 4 else 7) 0x0D core.val 0 0 0
  if down then c.reachReset r else c

/-! ### In-service tests (R452 to R455) -/

/-- PERIOD_S, smaller values taken as 10; TILE_US, 200 to 10,000 (R455). -/
def Bist.periodS (b : Bist) : Nat := max 10 (fld b.svc 8 8)
def Bist.tileUs (b : Bist) : Nat := clampNat 200 10000 (fld b.svc 16 16)

/-- The next planned start of a tile: of the steps it has still to start in its round, else of the next round's. -/
def Chip.nextPlanned (c : Chip) (r : ReachId) (t : Nat) : Option Time :=
  let y := (c.reach r).tile t
  match y.plan.bind (fun id => (c.reach r).planOf id) with
  | none => none
  | some p =>
    let l := (p.con.schedOf y.phase.toNat).filter (fun e => e.tile == 64 * r.val + t)
    let soon := if y.phaseEnded then [] else l.filter (fun e => decide (y.step ≤ e.step))
    let least := fun (l : List SchedEntry) => match l with
      | [] => none
      | e :: l => some (l.foldl (fun m x => min m x.startOff.toNat) e.startOff.toNat)
    if p.st != .running then none
    else match least soon with
      | some o => some (y.roundStart + BitVec.ofNat 64 o)
      | none => (least l).map (fun o => y.roundStart + p.con.roundTime + BitVec.ofNat 64 o)

/-- A tile's test may start now (R452). -/
def Chip.testGap (c : Chip) (r : ReachId) (t : Nat) : Bool :=
  let x := c.reach r
  let y := x.tile t
  c.inService r && flag x.bist.svc 0 && (y.seqState == 0 || y.seqState == 1 || y.seqState == 5) && y.running.isEmpty
    && y.moves.all (fun m => m.ended) && y.copy.isNone
    && (match c.nextPlanned r t with
      | none => true
      | some s => decide ((x.bist.tileUs + 5 : Int) * 1000 * 65536 ≤ timeDiff (c.now r) s))

/-- Block code of a tile's unit (table "Block codes"). -/
def testBlock : TestUnit → Nat
  | .matrix => 1
  | .vector => 2
  | .sequencer => 3

/-- TILE_SERVICE_TEST: a tile's test runs in an idle gap. One that fails holds the reach, with the last passed test in DETAIL (R455). -/
def tileServiceTest (r : ReachId) (now : Time) (t : TileId) (fails : Option TestUnit) (c : Chip) : Chip :=
  let c := c.at r now
  if !c.testGap r t.val then c
  else match fails with
    | none => c.onBist r (fun b => { b with lastPass := Tab.set b.lastPass t.val now, overdue := b.overdue.filter (fun k => k != t.val) })
    | some u =>
      let last := Tab.getD (c.reach r).bist.lastPass t.val 0
      (c.health r (c.tileOwner r t.val) 5 (testBlock u) t.val 0 last 0).holdReach r

/-- SERVICE_TEST_OVERDUE: the last passed test of a part (tiles 0 to 63, wharf adders 64, endpoint adder 65) is older than twice the
period: one record until it passes again (R454). -/
def serviceTestOverdue (r : ReachId) (now : Time) (part : Fin 66) (c : Chip) : Chip :=
  let c := c.at r now
  let b := (c.reach r).bist
  let last := Tab.getD b.lastPass part.val b.inSince
  if !c.inService r || b.overdue.contains part.val || timeDiff last (c.now r) ≤ (2 * b.periodS : Int) * 1000000000 * 65536 then c
  else
    let owner := if part.val < 64 then c.tileOwner r part.val else 0
    (c.onBist r (fun b => { b with overdue := part.val :: b.overdue })).health r owner 7 0x12 part.val 0 0 0

/-! ### Self-test records (R461) -/

/-- The 576 bytes of a result record. -/
def testBytes (r : ReachId) (x : TestRecord) : List Byte :=
  let entry := fun (e : TestFail) => leBytes 4 (e.block.toNat + e.inst.toNat * 2 ^ 8 + e.sub.toNat * 2 ^ 16 + e.element.toNat * 2 ^ 24
      + e.disposition.toNat * 2 ^ 28) ++ leBytes 4 0 ++ leBytes 8 (e.addr.toNat + e.bit.toNat * 2 ^ 48)
  let bs := leBytes 4 (1 + bitAt x.valid 4 + x.kind.toNat * 2 ^ 5 + x.outcome.toNat * 2 ^ 7 + r.val * 2 ^ 16 + x.cause.toNat * 2 ^ 24)
    ++ leBytes 4 x.lsvn.toNat ++ leBytes 8 x.timeStart.toNat ++ leBytes 8 x.timeEnd.toNat ++ leBytes 4 x.cover.toNat
    ++ leBytes 4 (x.hbmFirst.toNat + x.hbmCount.toNat * 2 ^ 5 + x.lpFirst.toNat * 2 ^ 10 + x.lpCount.toNat * 2 ^ 16)
    ++ leBytes 4 (x.fails.toNat + x.entries.length * 2 ^ 16) ++ leBytes 4 (x.repaired.toNat + x.retired.toNat * 2 ^ 16)
    ++ List.replicate 24 0 ++ x.entries.flatMap entry
  sliceBytes bs 0 576

/-- SVN of the lengthsman firmware in force (R415). -/
def Sec.lengthsmanSvn (s : Sec) : Word32 :=
  let key := 8 + Tab.getD s.booted 4 0
  BitVec.ofNat 32 (leAt (match Tab.find? s.images key with | some i => i.header | none => Config.provisionedHeader key) 8 4)

/-- A record with no finding. -/
def Chip.bareRecord (c : Chip) (valid : Bool) (kind outcome cause : Nat) (start ends : Time) : TestRecord :=
  { valid := valid, kind := BitVec.ofNat 2 kind, outcome := BitVec.ofNat 2 outcome, cause := BitVec.ofNat 8 cause, lsvn := c.sec.lengthsmanSvn,
    timeStart := start, timeEnd := ends, cover := 0, hbmFirst := 0, hbmCount := 0, lpFirst := 0, lpCount := 0, fails := 0, repaired := 0,
    retired := 0, entries := [] }

/-! ### The lengthsman (R457 to R459) -/

/-- A reach is isolated for its test, and waits for the window (R457 steps 1 and 2); a shut-down test writes its provisional record
(R510). -/
def Chip.testBegin (c : Chip) (r : ReachId) (kind : Nat) : Chip :=
  let c := if (c.reach r).service == .inService then c.holdReach r else c
  let now := c.now r
  let c := c.onReach r (fun x => { x with service := .testing, bist := { x.bist with running := true, kind := BitVec.ofNat 2 kind, waitSince := some now } })
  if kind = 0 then c.onBist r (fun b => { b with record := some (c.bareRecord true 0 2 3 now now) }) else c

/-- The test in hand is a full one: at shut-down, or a BIST_RUN of KIND 1. -/
def Chip.fullTest (c : Chip) (r : ReachId) : Bool :=
  let k := (c.reach r).bist.kind.toNat
  k == 0 || (k == 2 && c.gate.bists.any (fun x => x.full && x.left.contains r))

/-- Bytes of a sixteenth of HBM3E and of a sixty-fourth of the LPDDR5X plan range (R459). -/
def hbmPart : Nat := 0x200000000
def lpPart : Nat := (lpTrace - lpAvail) / 64

/-- The march over `n` parts from part `i` on, wrapping at `all`: what they held is destroyed. -/
def marched (m : Mem) (base part all i n : Nat) : Mem :=
  (List.range n).foldl (fun m k => let a := base + (i + k) % all * part; Mem.zeroRange m a (a + part)) m

/-- Step 7: the parts that BIST_CTRL names, or those that a lost test reached, are marched, and NEXT moves on. -/
def Reach.march (x : Reach) (hbm lp : Nat) : Reach :=
  let bytes := marched (marched x.mem.bytes 0 hbmPart 16 x.bist.hbmNext.toNat hbm) lpAvail lpPart 64 x.bist.lpNext.toNat lp
  let bist : Bist := { x.bist with hbmNext := x.bist.hbmNext + BitVec.ofNat 4 hbm, lpNext := x.bist.lpNext + BitVec.ofNat 6 lp }
  { x with mem := { x.mem with bytes := bytes }, bist := bist }

/-- A failure lies in a row of HBM3E or LPDDR5X. -/
def inMemory (f : TestFound) : Bool := f.block == 6 || f.block == 7

/-- Repair records for the rows in which the test found a failure (R164). -/
def Chip.testRepairs (c : Chip) (r : ReachId) (l : List TestFound) : Chip :=
  forEach (l.filter inMemory) c (fun c f => c.repairRecord r (memPlace f.addr.toNat).row 2)

/-- Step 8: pending repairs take the states their rows come to, in order (R165). -/
def applyRepairs : List RepairRecord → List RowRepair → List RepairRecord
  | [], _ => []
  | x :: l, rs =>
    if x.state != 0 then x :: applyRepairs l rs
    else match rs with
      | [] => x :: applyRepairs l []
      | w :: ws => { x with state := w.state.setWidth 8 } :: applyRepairs l ws

/-- The repair of a reach's pending rows, with the pages of those that have no spare. -/
def MemState.repairRows (m : MemState) (rows : List RowRepair) : MemState :=
  let pending := (m.repair.filter (fun x => x.state == 0)).length
  let pages := ((rows.take pending).filter (fun w => w.state == 2)).flatMap (fun w => w.pages)
  { m with repair := applyRepairs m.repair rows, retired := m.retired ++ (pages.filter (fun p => !m.retired.contains p)).eraseDups }

/-- What becomes of a failure: 1 repaired, 2 its pages retired, 3 the reach fails. -/
def Reach.disposition (x : Reach) (f : TestFound) : Nat :=
  if !inMemory f then 3
  else match x.mem.repair.find? (fun w => w.at_ == (memPlace f.addr.toNat).row) with
    | some w => if w.state == 1 then 1 else if w.state == 2 then 2 else 3
    | none => 3

/-- The failure entry of a failure (table "Self-test failure entry"). -/
def Reach.failEntry (x : Reach) (f : TestFound) : TestFail :=
  { block := f.block, inst := f.inst, sub := f.sub, element := f.element, disposition := BitVec.ofNat 4 (x.disposition f),
    addr := f.addr, bit := f.bit }

/-- The self-test of a reach tests its adders (R310): each test passed counts, and a failed one takes its adder out of service. -/
def Coll.selfTested (k : Coll) (l : List TestFound) : Coll :=
  let bad := fun (b : Nat) => l.any (fun f => f.block.toNat == b)
  { k with wharfOk := !bad 0x0A, endpointOk := !bad 0x0B, testFail := k.testFail || bad 0x0A || bad 0x0B,
           tests := k.tests + BitVec.ofNat 32 (([0x0A, 0x0B].filter (fun b => !bad b)).length) }

/-- A test that met its window runs to its end: the scan's entry, the march, the repairs, the record (R457 steps 3 to 10). -/
def Chip.testRuns (c : Chip) (r : ReachId) (t : TestDone) : Chip :=
  let kind := (c.reach r).bist.kind.toNat
  let start := ((c.reach r).bist.waitSince.getD (c.now r))
  let c := (c.at r t.ended).log 0xB Who.module 0 [BitVec.ofNat 8 r.val]
  let c := c.testRepairs r t.found
  let c := if t.lost then c else c.onReach r (fun x => { x with coll := x.coll.selfTested t.found })
  let full := c.fullTest r
  let b := (c.reach r).bist
  let hbm := if !full then 0 else if t.lost then min t.hbm (min 16 (fld b.ctrl 8 5)) else min 16 (fld b.ctrl 8 5)
  let lp := if !full then 0 else if t.lost then min t.lp (min 64 (fld b.ctrl 16 7)) else min 64 (fld b.ctrl 16 7)
  let c := c.onReach r (fun x => x.march hbm lp)
  let before := (c.reach r).mem
  let c := if kind = 0 && !t.lost && flag b.ctrl 2 then
      c.onReach r (fun x => { x with mem := x.mem.repairRows t.rows })
    else c
  let x := c.reach r
  let repaired := (x.mem.repair.filter (fun w => w.state == 1)).length - (before.repair.filter (fun w => w.state == 1)).length
  let entries := t.found.map x.failEntry
  let bad := entries.any (fun e => e.disposition == 3) || decide (1024 < x.mem.retired.length)
  let outcome := if t.lost then 2 else if bad then 1 else 0
  let rec_ : TestRecord := { (c.bareRecord (kind == 0) kind outcome (if t.lost then 1 else 0) start (c.now r)) with
    cover := t.cover, hbmFirst := b.hbmNext.setWidth 5, hbmCount := BitVec.ofNat 5 hbm, lpFirst := b.lpNext, lpCount := BitVec.ofNat 7 lp,
    fails := BitVec.ofNat 16 t.found.length, repaired := BitVec.ofNat 16 repaired,
    retired := BitVec.ofNat 16 (x.mem.retired.length - before.retired.length), entries := entries.take 32 }
  c.onReach r (fun x => { x with mem := { x.mem with retired := x.mem.retired.take 1024 }, bist := { x.bist with record := some rec_ } })

/-- The window was not met: OUTCOME 2, CAUSE 1 (R458). -/
def Chip.testUntested (c : Chip) (r : ReachId) : Chip :=
  let b := (c.reach r).bist
  c.onBist r (fun x => { x with record := some (c.bareRecord (b.kind == 0) b.kind.toNat 2 1 (b.waitSince.getD (c.now r)) (c.now r)) })

/-- OUTCOME of the record a test has just written. -/
def Bist.outcome (b : Bist) : Nat := match b.record with | some x => x.outcome.toNat | none => 3

/-- The test is over: BIST_STATUS reports it. -/
def Chip.testReport (c : Chip) (r : ReachId) : Chip :=
  c.onBist r (fun b => match b.record with
    | some x => { b with running := false, waitSince := none, lastOutcome := x.outcome, lastKind := x.kind, fails := x.fails }
    | none => { b with running := false, waitSince := none })

/-! ### BIST_RUN (R462) -/

/-- A reach that a BIST_RUN names has finished: its RESULT and record; the last completes the command. -/
def Chip.bistFinished (c : Chip) (r : ReachId) : Chip :=
  match c.gate.bists.find? (fun x => x.left.contains r) with
  | none => c
  | some x =>
    let b := (c.reach r).bist
    let y : BistRun := { x with left := x.left.filter (fun q => q != r), result := putFld x.result (2 * r.val) 2 b.outcome }
    let others := c.gate.bists.filter (fun z => !z.left.contains r)
    let c := match b.record with
      | some rec_ => c.hostWrite x.cmd.fn (x.iova.toNat + 576 * (x.named.takeWhile (fun q => q != r)).length) (testBytes r rec_)
      | none => c
    if y.left.isEmpty then ({ c with gate := { c.gate with bists := others } }).complete x.cmd 4 0 y.result
    else { c with gate := { c.gate with bists := others ++ [y] } }

/-- The end of a BIST_RUN's test: a reach that fails stays held; any other takes a reach reset, at whose end it has finished. -/
def Chip.bistEnded (c : Chip) (r : ReachId) : Chip :=
  let c := c.testReport r
  if (c.reach r).bist.outcome == 1 then (c.onReach r (fun x => { x with service := .held })).bistFinished r
  else c.reachReset r

/-- BIST_RUN: the named reaches lose their objects and are tested, a quick or a full test without repairs. -/
def bistRun (ref : CmdRef) (mask kind : BitVec 8) (iova : Word64) (runs : Quad TestRun) (c : Chip) : Chip :=
  let named := allReaches.filter (fun r => mask.toNat.testBit r.val)
  if ref.fn != 0 then c.complete ref 4 0x91 0
  else if named.isEmpty || 16 ≤ mask.toNat || 2 ≤ kind.toNat then c.complete ref 4 0x92 0
  else if c.sec.bootFail.contains 4 then c.complete ref 4 0xC1 0
  else if named.any (fun r => !(c.reach r).plan.plans.isEmpty || (c.reach r).service == .testing) then c.complete ref 4 0xC0 0
  else if named.any (fun r => (c.reach r).service == .inReset || (c.reach r).service == .starting) then c.complete ref 4 0x6F 0
  else match c.sec.logRefusal with
    | some s => c.complete ref 4 s 0
    | none =>
      let c := c.log 0xB (Who.function ref.fn) 0 [mask, kind]
      let x : BistRun := { cmd := ref, named := named, full := kind == 1, iova := iova, left := named, result := 0 }
      let c := { c with gate := { c.gate with bists := c.gate.bists ++ [x] } }
      forEach named c (fun c r =>
        let c := c.testBegin r 2
        match runs.get r with
        | .waits => c
        | .ran t => (c.testRuns r t).bistEnded r)

/-- WAIT_S has passed since step 1 of the test of a reach (R458, R463). -/
def Chip.windowLate (c : Chip) (r : ReachId) : Bool :=
  let b := (c.reach r).bist
  match b.waitSince with
  | some t => (c.reach r).service == .testing && decide ((clampNat 1 60 (fld b.ctrl 32 8) : Int) * 1000000000 * 65536 ≤ timeDiff t (c.now r))
  | none => false

end Sys2Proof.Machine
end

