-- ==== Sys2Proof/Machine/PowerOps.lean ====
section
/-!
DEFINITION. Power, clocks and temperature of the running module (R37, R481 to R496): droop, the power cap, thermal throttling, limits that
cannot be met, rail and PLL faults, PWR_CAP.
-/

namespace Sys2Proof.Machine

/-- Change the power state of a reach. -/
def Chip.onPwr (c : Chip) (r : ReachId) (f : Power → Power) : Chip := c.onReach r (fun x => { x with pwr := f x.pwr })

/-- The TCLK target of a reach (R483): the lowest of 3,600 MHz and the capping and thermal targets, never below the floor. -/
def Chip.tclkTarget (c : Chip) (r : ReachId) : Nat :=
  let p := (c.reach r).pwr
  max (c.floorMhz r) (min 3600 (min p.capTarget p.thermTarget))

/-! ### Droop (R481, R482) -/

/-- 200 ns, the length of the rise after a trip clears. -/
def riseSpan : Nat := 200 * 65536

/-- Time between two fabric times, zero where the second is not later. -/
def span (a b : Time) : Nat := (timeDiff a b).toNat

/-- Cycles of a rise from `floor` towards `target` in its first `d` of 200 ns, in units of MHz × 2^-16 ns. -/
def riseCycles (floor target d : Nat) : Nat := floor * d + (target - floor) * d * d / (2 * riseSpan)

/-- Count a stretch up to a time: what has passed at the floor, or of the rise, which ends the episode when it is complete. -/
def Power.stretchTo (p : Power) (floor target : Nat) (now : Time) : Power :=
  if p.tripped then
    let d := span p.stretchSince now
    { p with stretchTime := p.stretchTime + d, stretchCycles := p.stretchCycles + floor * d, stretchSince := if d = 0 then p.stretchSince else now }
  else match p.riseStart with
    | none => p
    | some t =>
      let d := min riseSpan (span t now)
      let d0 := min d (span t p.stretchSince)
      { p with stretchTime := p.stretchTime + (d - d0), stretchCycles := p.stretchCycles + (riseCycles floor target d - riseCycles floor target d0),
               stretchSince := now, riseStart := if d = riseSpan then none else some t }

/-- Time that TCLK takes to fall to the floor after a trip: at most 3 ns (R481), the implementation's. -/
def droopFall : Nat := min 3 Config.droopFallNs * 65536

/-- A droop sensor trips: TCLK falls to the floor, from where it stands. -/
def Power.trip (p : Power) (floor target : Nat) (now : Time) : Power :=
  if p.tripped then p
  else
    let low := now + BitVec.ofNat 64 droopFall
    let p := p.stretchTo floor target (if p.riseStart.isSome then low else now)
    let p : Power := if p.riseStart.isSome then p
      else { p with stretchTime := p.stretchTime + droopFall, stretchCycles := p.stretchCycles + target * droopFall }
    { p with tripped := true, riseStart := none, stretchSince := low, trips := sat48 (p.trips + 1) }

/-- The sensor clears: TCLK rises over 200 ns. -/
def Power.clear (p : Power) (floor target : Nat) (now : Time) : Power :=
  if !p.tripped then p
  else { (p.stretchTo floor target now) with tripped := false, riseStart := some now, stretchSince := now }

/-- TCLK of a reach runs: its rails stand and it is not held without a test. -/
def Reach.clocked (x : Reach) : Bool := x.pwr.railsOk && (x.service == .inService || x.service == .testing)

/-- A droop trip of a reach. -/
def Chip.droop (c : Chip) (r : ReachId) : Chip :=
  if !(c.reach r).clocked then c else c.onPwr r (fun p => p.trip (c.floorMhz r) (c.tclkTarget r) (c.now r))

/-- DROOP_TRIP: VCORE of a reach lies more than DROOP_MV below its set point. -/
def droopTrip (r : ReachId) (now : Time) (dropMv : Nat) (c : Chip) : Chip :=
  let c := c.at r now
  if dropMv ≤ clampNat 20 80 (fld c.gate.cap 24 8) then c else c.droop r

/-- DROOP_CLEAR. -/
def droopClear (r : ReachId) (now : Time) (c : Chip) : Chip :=
  let c := c.at r now
  c.onPwr r (fun p => p.clear (c.floorMhz r) (c.tclkTarget r) (c.now r))

/-- POWER_PEAK_TRIP: input power over 10 µs above 2,300 W trips every droop sensor (R482). -/
def powerPeakTrip (watts : Nat) (c : Chip) : Chip := if watts ≤ 2300 then c else forEach allReaches c (fun c r => c.droop r)

/-! ### Faults of power and clocks (R37) -/

/-- Place of a rail in the order of R477. -/
def railPlace : Rail → Fin 7
  | .vaon => 0 | .vfab => 1 | .vser => 2 | .vhbm => 3 | .vlp => 4 | .vsram => 5 | .vcore => 6

/-- A rail leaves regulation: it and those that follow it in the order no longer stand. -/
def Power.railFalls (p : Power) (k : Rail) : Power := { p with rails := if p.rails ≤ (railPlace k).castSucc then p.rails else (railPlace k).castSucc }

/-- RAIL_FAULT: a rail out of regulation, or a PLL out of lock: the reach takes a reach reset and holds its links in fault; a rail
that falls takes those that its sequencer raised after it with it. -/
def railFault (r : ReachId) (now : Time) (cause : RailCause) (c : Chip) : Chip :=
  let c := c.at r now
  let fall := fun (p : Power) => match cause with | .rail k => p.railFalls k | .pll => p
  if (c.reach r).service == .inReset then c.onPwr r fall
  else
    let c := c.health r 0 4 (match cause with | .rail _ => 0x10 | .pll => 0x0F) 0 0 0 0
    (c.reachReset r).onPwr r fall

/-! ### Power cap (R484, R486) -/

/-- MODULE_W, 1,000 to 1,650 (R492). -/
def Chip.moduleW (c : Chip) : Nat := clampNat 1000 1650 (fld c.gate.cap 0 12)

/-- Every reach stands at its floor. -/
def Chip.allAtFloor (c : Chip) : Bool := allReaches.all (fun r => c.tclkTarget r ≤ c.floorMhz r)

/-- What limits a reach, as PWR_STATUS.LIMIT says: 0 none, 1 cap, 2 thermal, 3 at floor (R494). -/
def Chip.limitOf (c : Chip) (r : ReachId) : Nat :=
  let p := (c.reach r).pwr
  let t := c.tclkTarget r
  if 3600 ≤ t then 0 else if t ≤ c.floorMhz r then 3 else if p.capTarget ≤ p.thermTarget then 1 else 2

/-- Time at the limits counts, by ticks. -/
def Chip.limitTick (c : Chip) (r : ReachId) : Chip :=
  let k := c.limitOf r
  c.onPwr r (fun p => { p with capped := if p.capTarget < 3600 then sat48 (p.capped + 1) else p.capped,
                               throttled := if p.thermTarget < 3600 then sat48 (p.throttled + 1) else p.throttled,
                               atFloor := if k = 3 then sat48 (p.atFloor + 1) else p.atFloor })

/-- POWER_CAP_TICK: the 1 ms average is compared with the cap, and every capping target moves by one step of 36 MHz (R484). -/
def powerCapTick (avg : Nat) (c : Chip) : Chip :=
  let cap := c.moduleW
  let c := forEach allReaches c (fun c r =>
    let floor := c.floorMhz r
    let c := c.onPwr r (fun p =>
      if cap < avg then { p with capTarget := if floor < p.capTarget then max floor (p.capTarget - 36) else p.capTarget }
      else if 100 * avg < 98 * cap then { p with capTarget := min 3600 (p.capTarget + 36) }
      else p)
    c.limitTick r)
  { c with gate := { c.gate with powerAvg := avg, powerMax := max c.gate.powerMax avg,
                                 overTicks := if cap < avg && c.allAtFloor then c.gate.overTicks + 1 else 0 } }

/-- POWER_LIMIT_UNMET: 100 ms above MODULE_W at the floor raise an alert; a 100 ms average above 1,650 W at the floor stops every plan
(R486). -/
def powerLimitUnmet (avg100 : Nat) (c : Chip) : Chip :=
  let c := if 1000 ≤ c.gate.overTicks then ({ c with gate := { c.gate with overTicks := 0 } }).gateHealth 7 0x10 0 else c
  if avg100 ≤ 1650 || !c.allAtFloor then c
  else forEach (allReaches.filter (fun r => c.inService r)) c (fun c r =>
    (c.health r 0 2 0x10 0 0 0 0).stopPlans r (fun _ => true) .fault StopInfo.none true)

/-- PWR_CAP_WRITE (R492): a floor lowered below that of a loaded plan makes the write ignored. -/
def pwrCapWrite (p : RegPath) (value : Word64) (c : Chip) : Chip :=
  let new := BitVec.ofNat 64 (fld value 0 32)
  let floors := allReaches.flatMap (fun r => (c.reach r).plan.plans.map (fun q => q.con.hdr.floorMhz))
  let f := clampNat 2700 3600 (fld new 12 12)
  if f < clampNat 2700 3600 (fld c.gate.cap 12 12) && floors.any (fun n => f < n) then c.ignoreWrite p
  else c.rwlWrite p 2 0x2000 c.gate.cap new (fun c => { c with gate := { c.gate with cap := new } })

/-! ### Temperature (R485) -/

/-- The hottest of some sensors. -/
def hottest (l : List (BitVec 8)) : Nat := l.foldl (fun m x => max m x.toNat) 0

/-- Raise the maxima of sensors from number `i` on. -/
def raiseTops (t : Tab Nat) (i : Nat) : List (BitVec 8) → Tab Nat
  | [] => t
  | x :: l => raiseTops (Tab.modify t i 0 (fun v => max v x.toNat)) (i + 1) l

/-- One alert as a limit is crossed, with ACTION 7. -/
def Chip.thermalAlert (c : Chip) (r : ReachId) (was is : Bool) (block : Nat) : Chip := if is && !was then c.health r 0 7 block 0 0 0 0 else c

/-- THERMAL_TICK: each 100 µs a reach steps its thermal target and acts on the alert and hold limits. -/
def thermalTick (r : ReachId) (now : Time) (s : Sensors) (c : Chip) : Chip :=
  let c := c.at r now
  let die := hottest s.die
  let hbm := hottest s.hbm
  let lp := hottest s.lp
  let gate := hottest s.gate
  let floor := c.floorMhz r
  let old := (c.reach r).pwr
  let step := fun (t : Nat) =>
    if 100 < die || 95 < hbm || 95 < lp then (if floor < t then max floor (t - 36) else t)
    else if die ≤ 97 && hbm ≤ 92 && lp ≤ 92 then min 3600 (t + 36) else t
  let c := c.onPwr r (fun p => { p with
    thermTarget := step p.thermTarget, dieMax := BitVec.ofNat 8 die, memMax := BitVec.ofNat 8 (max hbm lp), amps := s.amps,
    tops := raiseTops (raiseTops (raiseTops p.tops 0 (s.die.take 16)) 16 (s.hbm.take 2)) 18 (s.lp.take 6),
    hotDie := 105 < die, hotHbm := 100 < hbm, hotLp := 100 < lp })
  let c := ((c.thermalAlert r old.hotDie (105 < die) 0x10).thermalAlert r old.hotHbm (100 < hbm) 6).thermalAlert r old.hotLp (100 < lp) 7
  let c := if 105 < gate && !c.gate.hot then c.gateHealth 7 0x10 0 else c
  let c := { c with gate := { c.gate with hot := 105 < gate, tops := raiseTops c.gate.tops 0 (s.gate.take 2) } }
  if c.inService r && (110 < die || 105 < hbm || 105 < lp) then
    (c.health r 0 5 (if 110 < die then 0x10 else if 105 < hbm then 6 else 7) 0 0 0 0).holdReach r
  else c

end Sys2Proof.Machine
end

