-- ==== Sys2Proof/Machine/StepOps.lean ====
section
/-!
DEFINITION. The steps that units run (R114, R126, R131 to R143): compute steps with their end, streaming output, moves, the
issue queue, waits, markers, digests and phase ends.
-/

namespace Sys2Proof.Machine

/-! ### Compute steps -/

/-- A tile as a compute step folds from it: its open layers with nothing folded, so that a step's own folds come out apart and are added when
it ends (R143, R187). -/
def Tile.unfolded (t : Tile) : Tile := { t with digests := t.digests.map (fun d => DigestSlot.fresh d.layer) }

/-- A started compute step (R84, R95, R108, R109): outputs and flags, the output record's CEIL_VALID cleared, and the step running with the
folds it makes. Where it fails, what it writes is unspecified. Outputs stand from the start of the step (assumption 60). -/
def Chip.compute (c : Chip) (r : ReachId) (t : Nat) (i : Nat) (s : StepWords) (unit : StepUnit) (outWord : Word64)
    (k : Comp) (shape : Running → Running) : Chip :=
  let y := (c.reach r).tile t
  let u := stepUse y.spad y.iqAddr s
  let h := y.holdOf i s
  let err := y.spadErr u.reads
  let fail := if err.isSome then some 0x50 else k.fail
  let rec_ := (operandOf outWord).rec_
  let x : Running := { step := i, hdr := s.hdr, unit := unit, readMask := h.readMask, writeMask := h.writeMask,
                       recReads := h.recReads, recWrites := h.recWrites, ceils := [(rec_, k.ceil)],
                       fail := fail.map (BitVec.ofNat 8), blocks := 0, blocksFinal := 0, coll := none, chunkBytes := 0,
                       chunks := 0, base := (operandOf outWord).data, handed := [], rows := 0, cols := 0, rowBytes := 0, trans := false, folds := if fail.isSome then [] else k.slots, started := c.now r }
  let c := c.onTile r t (fun y =>
    let y := y.setRecord rec_ (recClear (y.record rec_))
    let y := { y.advance with running := y.running ++ [shape x] }
    if fail.isSome then { y with aflags := if err.isSome then y.aflags else y.aflags ||| BitVec.ofNat 32 k.flags }
    else { y.heal u.writes with spad := k.spad, aflags := y.aflags ||| BitVec.ofNat 32 k.flags })
  let c := if fail.isSome then u.writes.foldl (fun c w => c.scramble r t w.1 w.2) c else c
  match err with
  | some l => c.memUe r 5 (spadWindow + t * 0x800000 + 64 * l) 0
  | none => c

/-- The step is of a class and operation. -/
def isStep (cls op : Nat) (s : StepWords) : Bool := stepClass s.hdr == cls && stepOp s.hdr == op

/-- The blocks and chunks of a MATRIX step's output (R140, R141). -/
def matrixShape (p : PlanInst) (phase : Nat) (s : StepWords) (x : Running) : Running :=
  let m := matShape s.hdr (s.op 3) (s.op 4)
  let out := (acwOf s.hdr).out
  let idx := fld (s.op 4) 32 16
  let o := operandOf (s.op 2)
  let x := { x with blocks := m.batch * ((m.m + 63) / 64) * ((m.n + 63) / 64), rows := m.m, cols := m.n, trans := o.trans,
                    rowBytes := (if o.trans then pad32 m.n else pad32 m.m) * elemBits out / 8 }
  if !stepStream s.hdr then x
  else match p.con.colls.find? (fun d => d.coll == idx && d.phase == phase) with
    | some d => { x with coll := some idx, chunkBytes := d.c, chunks := matOutBytes s / d.c }
    | none => x

/-- A MATRIX step (R87, R118): operation 0 a product, 1 a batch of products. -/
def matrixStep (op : Nat) (r : ReachId) (now : Time) (t : TileId) (hold : Word32) (c : Chip) : Chip :=
  (c.at r now).startStep r t.val hold.toNat (isStep 0 op) (fun p i s c =>
    let y := (c.reach r).tile t.val
    c.compute r t.val i s .matrix (s.op 2)
      (y.unfolded.matrix p.con.hdr.roundSeed s.hdr (s.op 0) (s.op 1) (s.op 2) (s.op 3) (s.op 4))
      (matrixShape p (y.phaseOf i) s))

/-- What a VECTOR step computes by its operation (R99 to R101, R540). -/
def vectorComp (op : Nat) (y : Tile) (seed : Word64) (s : StepWords) : Comp :=
  if op ≤ 7 then y.vectorElementwise op seed s.hdr (s.op 0) (s.op 1) (s.op 2) (s.op 3)
  else if op ≤ 11 then y.vectorFunction op seed s.hdr (s.op 0) (s.op 2) (s.op 3)
  else y.vectorReduce op seed s.hdr (s.op 0) (s.op 2) (s.op 3)

/-- A VECTOR step of an operation. -/
def vectorStep (op : Nat) (r : ReachId) (now : Time) (t : TileId) (hold : Word32) (c : Chip) : Chip :=
  (c.at r now).startStep r t.val hold.toNat (isStep 1 op) (fun p i s c =>
    c.compute r t.val i s .vector (s.op 2) (vectorComp op ((c.reach r).tile t.val).unfolded p.con.hdr.roundSeed s) id)

/-- What a SELECT step computes by its operation (R102 to R107). -/
def selectComp (op : Nat) (y : Tile) (seed : Word64) (s : StepWords) : Comp :=
  match op with
  | 0 => y.topK seed s.hdr (s.op 0) (s.op 2) (s.op 3)
  | 1 | 2 => y.sortStep seed s.hdr (s.op 0) (s.op 1) (s.op 2) (s.op 3)
  | 3 => y.gather seed s.hdr (s.op 0) (s.op 1) (s.op 2) (s.op 3)
  | 4 => y.scatter false seed s.hdr (s.op 0) (s.op 1) (s.op 2) (s.op 3)
  | 5 => y.scatter true seed s.hdr (s.op 0) (s.op 1) (s.op 2) (s.op 3)
  | _ => y.expertRoute seed s.hdr (s.op 0) (s.op 1) (s.op 2) (s.op 3)

/-- A SELECT step of an operation. -/
def selectStep (op : Nat) (r : ReachId) (now : Time) (t : TileId) (hold : Word32) (c : Chip) : Chip :=
  (c.at r now).startStep r t.val hold.toNat (isStep 2 op) (fun p i s c =>
    c.compute r t.val i s .vector (s.op 2) (selectComp op ((c.reach r).tile t.val).unfolded p.con.hdr.roundSeed s) id)

/-- CONVERT: a format conversion (R95). -/
def convertStep (r : ReachId) (now : Time) (t : TileId) (hold : Word32) (c : Chip) : Chip :=
  (c.at r now).startStep r t.val hold.toNat (isStep 3 0) (fun p i s c =>
    c.compute r t.val i s .vector (s.op 1)
      (((c.reach r).tile t.val).unfolded.convert p.con.hdr.roundSeed s.hdr (s.op 0) (s.op 1) (s.op 2)) id)

/-! ### Streaming output (R140, R141, R302) -/

/-- Bytes of one stored row that are final when `n` blocks are: of one of the M rows (TRANS 1), or of one of the N columns, which is whole only
with the last row panel (R116, R140). -/
def Running.rowFinal (x : Running) (n q : Nat) : Nat :=
  let across := (x.cols + 63) / 64
  if !x.trans then
    let panels := (x.rows + 63) / 64
    let done := ((List.range panels).takeWhile (fun k => decide ((q / x.cols * panels + k) * across + q % x.cols / 64 < n))).length
    if panels ≤ done then x.rowBytes else done * 64 * x.rowBytes / pad32 x.rows
  else
  let panel := q / x.rows * ((x.rows + 63) / 64) + q % x.rows / 64
  let done := if panel < n / across then across else if panel = n / across then n % across else 0
  if across ≤ done then x.rowBytes else done * 64 * x.rowBytes / pad32 x.cols

/-- A chunk of the output is final when `n` blocks are. -/
def Running.chunkFinal (x : Running) (n k : Nat) : Bool :=
  let lo := k * x.chunkBytes
  let hi := lo + x.chunkBytes
  (List.range (hi / x.rowBytes + 1 - lo / x.rowBytes)).all (fun j =>
    let q := lo / x.rowBytes + j
    let dest := min hi ((q + 1) * x.rowBytes) - q * x.rowBytes
    decide (hi ≤ q * x.rowBytes) || decide (dest ≤ x.rowFinal n q))

/-- The member of a planned collective whose areas a tile holds: its earliest invocation that has not ended. -/
def Coll.streamInv (x : Coll) (handle : Word64) (idx tile : Nat) : Option CollInv :=
  x.invs.find? (fun i => i.plan == some handle && i.desc.coll == idx && !i.finished
    && (match i.members[i.member]? with | some m => m.tile == tile | none => false))

/-- The streaming MATRIX step of a tile that takes the place of IN for its member of a collective (R141, R302). -/
def Container.streamStep (k : Container) (d : CollDesc) (tile : Nat) : Option StepWords :=
  (k.program tile d.phase).bind (fun g => g.steps.find? (fun s =>
    stepClass s.hdr == 0 && stepStream s.hdr && fld (s.op 4) 32 16 == d.coll))

/-- A chunk of a streaming step reaches its member's invocation: that one has not failed, and is not one of an earlier round that already
holds this chunk (R302). It goes on with what it can do. -/
def Chip.takeChunk (c : Chip) (r : ReachId) (i : CollInv) (base k : Nat) : Chip × Bool :=
  if i.code.isSome || i.streamed.contains k then ((c.collFail r i 0x85 0), false)
  else
    let c := c.onInv r i (fun j => { j with streaming := true, streamBase := base, streamed := j.streamed ++ [k],
                                            lastProgress := if j.streamed.isEmpty then c.now r else j.lastProgress })
    (c.collWake r (c.invNow r i), true)

/-- The collective takes a chunk: false where it refuses it, which fails the invocation with COLL_REFUSED (R302, R315). Where the member's
last invocation has ended, the one of the next round starts with its first chunk. -/
def Chip.handChunk (c : Chip) (r : ReachId) (t : Nat) (p : PlanInst) (idx base k : Nat) : Chip × Bool :=
  match (c.reach r).coll.streamInv p.handle idx (64 * r.val + t) with
  | some i => c.takeChunk r i base k
  | none =>
    match (c.reach r).coll.invs.find? (fun i => i.plan == some p.handle && i.desc.coll == idx && i.mine.tile == 64 * r.val + t) with
    | some i =>
      if i.code.isSome then (c, false)
      else
        let j := i.following (c.now r)
        let c := c.replaceInv r i j
        c.takeChunk r (c.invNow r j) base k
    | none => (c, false)

/-- Hand the chunks that have become final, in address order, until one is refused. -/
def Chip.handChunks (r : ReachId) (t : Nat) (p : PlanInst) (idx base : Nat) : List Nat → Chip → Chip × List Nat × Bool
  | [], c => (c, [], true)
  | k :: ks, c =>
    let (c, ok) := c.handChunk r t p idx base k
    if ok then
      let (c, done, all) := Chip.handChunks r t p idx base ks c
      (c, k :: done, all)
    else (c, [], false)

/-- Change the step running on a unit of a tile. -/
def Tile.onRunning (t : Tile) (u : StepUnit) (f : Running → Running) : Tile :=
  { t with running := t.running.map (fun x => if x.unit == u then f x else x) }

/-- MATRIX_BLOCK_FINAL: one more output block of the running MATRIX step is final, and a streaming step hands the chunks that
are now whole. A refused chunk fails the step with SEQ_COLL (R141). -/
def matrixBlockFinal (r : ReachId) (now : Time) (t : TileId) (c : Chip) : Chip :=
  let c := c.at r now
  let y := (c.reach r).tile t.val
  match y.running.find? (fun x => x.unit == .matrix) with
  | none => c
  | some x =>
    if x.blocks ≤ x.blocksFinal then c
    else
      let n := x.blocksFinal + 1
      let c := c.onTile r t.val (fun y => y.onRunning .matrix (fun x => { x with blocksFinal := n }))
      match x.coll, c.tilePlan r t.val with
      | some idx, some p =>
        if x.fail.isSome then c
        else
          let due := (List.range x.chunks).filter (fun k => !x.handed.contains k && x.chunkFinal n k)
          let (c, done, all) := Chip.handChunks r t.val p idx x.base due c
          let c := c.onTile r t.val (fun y => y.onRunning .matrix (fun x =>
            { x with handed := x.handed ++ done, fail := if all then none else some 0x54 }))
          if all then c else c.tileFail r t.val x.step 0x54 .collective idx true
      | _, _ => c

/-- The gauges of busy time: ns and TCLK cycles (R465, R466). -/
def Chip.busy (c : Chip) (r : ReachId) (t : Nat) (since : Time) (cycles : Nat) : Chip :=
  c.onReach r (fun x => (x.gaugeAdd 1 t 1 (timeDiff since x.time.now / 65536).toNat).gaugeAdd 1 t 2 cycles)

/-- STEP_END: the unit has written its last output; CEIL is stored, its folds are added, and a step that met a failure fails (R84, R109, R126). A
MATRIX step ends once every block is final and every chunk handed. -/
def stepEnd (r : ReachId) (now : Time) (t : TileId) (unit : StepUnit) (cycles : Word32) (c : Chip) : Chip :=
  let c := c.at r now
  let y := (c.reach r).tile t.val
  match y.running.find? (fun x => x.unit == unit) with
  | none => c
  | some x =>
    if x.fail.isNone && (x.blocksFinal != x.blocks || x.handed.length != x.chunks) then c
    else
      let c := c.onTile r t.val (fun y =>
        let y := { y with running := y.running.filter (fun z => z.unit != unit) }
        if x.fail.isSome then y
        else x.ceils.foldl (fun y e => y.setRecord e.1 (recStore (y.record e.1) e.2)) (y.addFolds x.folds))
      let c := (c.busy r t.val x.started cycles.toNat).stepTrace r t.val x.step (stepClass x.hdr) true cycles.toNat
      match x.fail with
      | some code => c.stepFail r t.val x.step code.toNat
      | none => c.wakeTile r t.val

/-! ### Moves (R131 to R134) -/

/-- The physical runs of a memory row of a plan's move, taken from the runs pinned at load. -/
def pinnedRow (l : List PlanRun) : Nat → Nat → Nat → List Run
  | 0, _, _ => []
  | n + 1, va, len =>
    if len = 0 then []
    else match l.find? (fun q => decide (q.va ≤ va) && decide (va < q.va + q.len)) with
      | some q =>
        let k := min len (q.va + q.len - va)
        { host := false, pa := q.pa + (va - q.va), len := k } :: pinnedRow l n (va + k) (len - k)
      | none => []

/-- The records that a RECLOAD writes, with CEIL_VALID cleared: as it starts (R84), and where it fails (R109). -/
def Tile.clearCeils (t : Tile) (m : Move) : Tile :=
  (List.range m.rows).foldl (fun t i => t.setRecord (m.spad % 1024 + i) (recClear (t.record (m.spad % 1024 + i)))) t

/-- A MOVE step of a kind joins the mover's queue (R125, R133). A RECLOAD clears CEIL_VALID of the records it writes (R84). -/
def moveStep (kind : Nat) (r : ReachId) (now : Time) (t : TileId) (hold : Word32) (c : Chip) : Chip :=
  (c.at r now).startStep r t.val hold.toNat (fun s => isStep 4 0 s && (moveOf s.ops).kind == kind) (fun p i s c =>
    let y := (c.reach r).tile t.val
    let m := moveOf s.ops
    let h := y.holdOf i s
    let pins := p.runs.filter (fun q => q.tile == t.val && q.step == i)
    let j : MoveJob := { step := i, desc := s.ops, rows := m.memRows.map (fun e => pinnedRow pins (e.2 / 64 + 2) e.1 e.2),
                         readMask := h.readMask, writeMask := h.writeMask, recReads := h.recReads, recWrites := h.recWrites,
                         started := c.now r, ended := false, failed := false }
    c.onTile r t.val (fun y => { (if kind = 3 then y.clearCeils m else y).advance with moves := y.moves ++ [j] }))

/-- The source bytes of a move, row by row. -/
def Chip.moveSource (c : Chip) (r : ReachId) (t : Nat) (m : Move) (rows : List (List Run)) : List (List Byte) :=
  let y := (c.reach r).tile t
  match m.kind with
  | 0 | 3 => rows.map (fun l => c.readRuns r l 0 ((l.map (fun q => q.len)).foldl (· + ·) 0))
  | 1 | 2 => m.spadRows.map (fun e => Mem.readBytes y.spad e.1 e.2)
  | _ => [(List.range m.rows).flatMap (fun i => leBytes 16 (y.record (m.spad % 1024 + i)).toNat)]

/-- Write bytes as a move's destination rows. -/
def Chip.moveDest (c : Chip) (r : ReachId) (t : Nat) (m : Move) (rows : List (List Run)) (data : List (List Byte)) : Chip :=
  match m.kind with
  | 0 => c.onTile r t (fun y => (m.spadRows.zip data).foldl (fun y e => { y.heal [e.1] with spad := Mem.writeBytes y.spad e.1.1 e.2 }) y)
  | 2 => c.onTile r t (fun y => (m.copyRows.zip data).foldl (fun y e => { y.heal [e.1] with spad := Mem.writeBytes y.spad e.1.1 e.2 }) y)
  | 3 => c.onTile r t (fun y => (List.range (((data.headD []).length) / 16)).foldl (fun y i =>
      y.setRecord (m.spad % 1024 + i) (BitVec.ofNat 128 (leAt (data.headD []) (16 * i) 16))) y)
  | _ => (rows.zip data).foldl (fun c e => c.storeRuns r t e.1 0 e.2) c

/-- Where a move's source meets an uncorrectable error: the device physical address of the line. -/
def Chip.moveErr (c : Chip) (r : ReachId) (t : Nat) (m : Move) (rows : List (List Run)) : Option Nat :=
  let x := c.reach r
  match m.kind with
  | 0 | 3 => (rows.flatMap id).findSome? (fun q => x.firstUe q.pa q.len)
  | 1 | 2 => ((x.tile t).spadErr m.spadRows).map (fun l => spadWindow + t * 0x800000 + 64 * l)
  | _ => none

/-- Count the lines that a move reads on the channels of memory. -/
def Reach.countMove (x : Reach) (m : Move) (rows : List (List Run)) : Reach :=
  if m.kind = 0 ∨ m.kind = 3 then (rows.flatMap id).foldl (fun x q => x.countLines q.pa q.len false) x else x

/-- A move reads a line: of memory, or of its tile's scratchpad. -/
def moveReads (t : Nat) (m : Move) (rows : List (List Run)) (pa : Nat) : Bool :=
  match m.kind with
  | 0 | 3 => (rows.flatMap id).any (fun q => q.len != 0 && decide (q.pa / 64 ≤ pa / 64) && decide (pa / 64 ≤ (q.pa + q.len - 1) / 64))
  | 1 | 2 => m.spadRows.any (fun q =>
      let a := spadWindow + t * 0x800000 + q.1
      q.2 != 0 && decide (a / 64 ≤ pa / 64) && decide (pa / 64 ≤ (a + q.2 - 1) / 64))
  | _ => false

/-- A move writes a line of LPDDR5X whose check line is not cached, so that its controller reads it (R158). -/
def moveChecks (x : Reach) (m : Move) (rows : List (List Run)) (pa : Nat) : Bool :=
  (m.kind == 1 || m.kind == 4) && inLp pa && !x.mem.checks.contains (checkLine pa)
    && (rows.flatMap id).any (fun q => q.len != 0 && decide (q.pa / 64 ≤ pa / 64) && decide (pa / 64 ≤ (q.pa + q.len - 1) / 64))

/-- What the reads of a move find, line by line: the first line that fails it. A check line in the cache is not read. -/
def Chip.moveFinds (c : Chip) (r : ReachId) (t : Nat) (m : Move) (rows : List (List Run)) (finds : List (Nat × DredgeFind)) :
    Chip × Option Nat :=
  forEach finds (c, none) (fun (s : Chip × Option Nat) e =>
    let pa := e.1 / 64 * 64
    let x := s.1.reach r
    let reads := if e.2 = .badCheckLine then
        inLp pa && !x.mem.checks.contains (checkLine pa) && (moveReads t m rows pa || moveChecks x m rows pa)
      else moveReads t m rows pa
    if s.2.isSome || !reads || x.hasUe pa 64 then s
    else match s.1.readFinds r false pa e.2 with
      | (c, true) => (c, some pa)
      | (c, false) => (c, none))

/-- The moves that stand ended at the head of the queue leave it, those that did not fail adding their signals in issue order
(R133). -/
def Tile.settleMoves (t : Tile) : Tile :=
  let done := t.moves.takeWhile (fun j => j.ended)
  let t := { t with moves := t.moves.dropWhile (fun j => j.ended) }
  done.foldl (fun t j =>
    let m := moveOf j.desc
    if m.sigEn && !j.failed then t.signalAdd m.sigAddr 1 else t) t

/-- Mark the move at a place of the queue as ended. -/
def Tile.endMove (t : Tile) (k : Nat) (failed : Bool) : Tile :=
  { t with moves := t.moves.zipIdx.map (fun e => if e.2 == k then { e.1 with ended := true, failed := failed } else e.1) }

/-- MOVE_END: the move at place `k` of the queue has written its last byte, or has failed: an uncorrectable error leaves
unspecified data in the rows it had reached (R133, R134). `finds` says what its reads of lines come to, beside the errors that stand. -/
def moveEnd (r : ReachId) (now : Time) (t : TileId) (k : Nat) (finds : List (Nat × DredgeFind)) (cycles : Word32) (c : Chip) : Chip :=
  let c := c.at r now
  match ((c.reach r).tile t.val).moves[k]? with
  | none => c
  | some j =>
    if j.ended then c
    else
      let m := moveOf j.desc
      let (c, found) := c.moveFinds r t.val m j.rows finds
      let bad := match c.moveErr r t.val m j.rows with
        | some a => some a
        | none => if found.isSome then found else if m.sigEn then (((c.reach r).tile t.val).spadErr [(m.sigAddr, 8)]).map
            (fun l => spadWindow + t.val * 0x800000 + 64 * l) else none
      let data := c.moveSource r t.val m j.rows
      let c := c.onReach r (fun x => x.countMove m j.rows)
      let c := c.stepTrace r t.val j.step 4 true cycles.toNat
      match bad with
      | none => ((c.moveDest r t.val m j.rows data).onTile r t.val (fun y => (y.endMove k false).settleMoves)).wakeTile r t.val
      | some a =>
        let (w, c) := c.free
        let reached := data.take (w.toNat % (data.length + 1))
        let (junk, c) := reached.foldl (fun (e : List (List Byte) × Chip) row =>
          let (bs, c) := e.2.freeBytes row.length
          (e.1 ++ [bs], c)) ([], c)
        let c := (c.moveDest r t.val m j.rows junk).onTile r t.val (fun y =>
          ((if m.kind = 3 then y.clearCeils m else y).endMove k true).settleMoves)
        ((if found = some a then c else c.memUe r (ueClass a) a 0).wakeTile r t.val).stepFail r t.val j.step (if spadWindow ≤ a then 0x50 else 0x51)

/-! ### The issue queue (R135 to R137) -/

/-- The bytes of a work entry as the sequencer copies them: TC6 and the window where the schedule names one (R137). -/
def windowed (b : List Byte) (win : Option Word16) : List Byte :=
  match win with
  | none => b
  | some w =>
    let d := leAt b 0 4
    leBytes 4 (d - natBits d 8 3 * 2 ^ 8 + 6 * 2 ^ 8 - natBits d 16 16 * 2 ^ 16 + w.toNat * 2 ^ 16) ++ b.drop 4

/-- Copy the next entry of a REMOTE step to the issue queue; an entry that completed with RME_OK before is passed over
(R127). -/
def Tile.copyEntry (t : Tile) (k : IqCopy) : Tile :=
  if t.remoteOk.contains (k.step, k.next) then { t with copy := some { k with next := k.next + 1 } }
  else
    let b := windowed (Mem.readBytes t.spad (k.first + 64 * k.next) 64) k.win
    { t with spad := Mem.writeBytes t.spad (t.iqAddr + 64 * t.iqTail.toNat) b, iqTail := t.iqTail + 1,
             iqCount := t.iqCount + 1, iqTags := t.iqTags ++ [(k.step, k.next, k.run)], copy := some { k with next := k.next + 1 } }

/-- Copy entries while there is room, up to `n` of them. -/
def Tile.copyEntries : Nat → Tile → Tile
  | 0, t => t
  | n + 1, t =>
    match t.copy with
    | some k => if k.next < k.count ∧ t.iqCount < 64 then Tile.copyEntries n (t.copyEntry k) else t
    | none => t

/-- A copy goes on: it ends with its last entry, and fails on an uncorrectable error of the entries it reads. -/
def Chip.copyOn (c : Chip) (r : ReachId) (t n cycles : Nat) : Chip :=
  let y := (c.reach r).tile t
  match y.copy with
  | none => c
  | some k =>
    match y.spadErr [(k.first + 64 * k.next, 64 * (min k.count (k.next + n) - k.next))] with
    | some l =>
      let c := c.onTile r t (fun y => { y with copy := none })
      (c.memUe r 5 (spadWindow + t * 0x800000 + 64 * l) 0).stepFail r t k.step 0x50
    | none =>
      let now := c.now r
      let c := c.onTile r t (fun y =>
        let z := y.copyEntries n
        { z with iqSeen := z.iqSeen ++ List.replicate (z.iqCount - y.iqCount) now })
      match ((c.reach r).tile t).copy with
      | some k =>
        if k.count ≤ k.next then (c.onTile r t (fun y => { y with copy := none })).stepTrace r t k.step 5 true cycles
        else c
      | none => c

/-- A REMOTE step starts: a run of its own knows no entry as done; after a failure it is the same run again, and entries that completed with
RME_OK are not issued again (R127). -/
def Tile.startRun (t : Tile) (i run : Nat) : Tile :=
  { t.advance with remoteRuns := Tab.set t.remoteRuns i run,
                   remoteOk := if t.redo.head? == some i then t.remoteOk else t.remoteOk.filter (fun k => k.1 != i) }

/-- REMOTE: the sequencer copies entries while there is room (R136). -/
def remoteStep (r : ReachId) (now : Time) (t : TileId) (hold cycles : Word32) (c : Chip) : Chip :=
  (c.at r now).startStep r t.val hold.toNat (isStep 5 0) (fun p i s c =>
    let y := (c.reach r).tile t.val
    let win := match p.sched r t.val (y.phaseOf i) i s with
      | some e => if e.winRef = 0xFFFF then none else some (BitVec.ofNat 16 e.winRef)
      | none => none
    let run := Tab.getD y.remoteRuns i 0 + (if y.redo.head? == some i then 0 else 1)
    let k : IqCopy := { step := i, run := run, first := fld (s.op 0) 0 23, count := fld (s.op 0) 32 9, next := 0, win := win,
                        started := c.now r }
    (c.onTile r t.val (fun y => { y.startRun i run with copy := some k })).copyOn r t.val 256 cycles.toNat)

/-- ISSUE_QUEUE_COPY: an entry is copied once room frees; `stall` cycles of waiting are counted (R136). -/
def issueQueueCopy (r : ReachId) (now : Time) (t : TileId) (stall cycles : Word32) (c : Chip) : Chip :=
  let c := c.at r now
  let y := (c.reach r).tile t.val
  if y.copy.isNone || decide (64 ≤ y.iqCount) then c
  else (c.onReach r (fun x => x.gaugeAdd 1 t.val 4 stall.toNat)).copyOn r t.val 1 cycles.toNat

/-! ### Waits (R128, R129) -/

/-- WAIT_TIME: complete at once where the time has passed, the difference in the lateness gauge; else wait. -/
def waitTimeStep (r : ReachId) (now : Time) (t : TileId) (hold cycles : Word32) (c : Chip) : Chip :=
  (c.at r now).startStep r t.val hold.toNat (isStep 6 0) (fun _ i s c =>
    let y := (c.reach r).tile t.val
    let due := y.roundStart + s.op 0
    if notBefore due (c.now r) then
      let late := (timeDiff due (c.now r) / 65536).toNat
      let c := c.onReach r (fun x => if late = 0 then x else (x.gaugeAdd 1 t.val 6 late).gaugeMax 1 t.val 7 late)
      c.doneStep r t.val i 6 cycles.toNat
    else c.waitFor r t.val i due 1)

/-- WAIT_TIME_EXPIRY: the wait's time is reached. -/
def waitTimeExpiry (r : ReachId) (now : Time) (t : TileId) (cycles : Word32) (c : Chip) : Chip :=
  let c := c.at r now
  match ((c.reach r).tile t.val).waiting with
  | some (w, s) =>
    if isStep 6 0 s && notBefore w.deadline (c.now r) then c.doneStep r t.val w.step 6 cycles.toNat else c
  | none => c

/-- The deadline of a WAIT_SIGNAL step: its TIMEOUT in µs, the plan's COLL_TIMEOUT for 0, and 2,000 for that at 0. -/
def signalDeadline (p : PlanInst) (s : StepWords) (now : Time) : Time :=
  let own := fld (s.op 0) 32 32
  let plan := if p.con.hdr.collTimeout = 0 then 2000 else p.con.hdr.collTimeout
  now + nsTime (1000 * (if own = 0 then plan else own))

/-- WAIT_SIGNAL: compare when the step starts, and again after a write to the word (R129). -/
def waitSignalStep (r : ReachId) (now : Time) (t : TileId) (hold cycles : Word32) (c : Chip) : Chip :=
  let c := c.at r now
  match ((c.reach r).tile t.val).waiting with
  | some (w, s) => if isStep 7 0 s then (c.compareSignal r t.val w.step s cycles.toNat).getD c else c
  | none =>
    c.startStep r t.val hold.toNat (isStep 7 0) (fun p i s c =>
      (c.compareSignal r t.val i s cycles.toNat).getD (c.waitFor r t.val i (signalDeadline p s (c.now r)) 2))

/-- SEQ_WAIT_TIMEOUT: a WAIT_SIGNAL step's TIMEOUT has elapsed. -/
def seqWaitTimeout (r : ReachId) (now : Time) (t : TileId) (c : Chip) : Chip :=
  let c := c.at r now
  match ((c.reach r).tile t.val).waiting with
  | some (w, s) =>
    if isStep 7 0 s && notBefore w.deadline (c.now r)
        && decide (((c.reach r).tile t.val).signal (fld (s.op 0) 0 23) < (s.op 1).toNat) then
      c.waitFail r t.val w.step 0x52
    else c
  | none => c

/-! ### Markers and digests (R142, R143, R188) -/

/-- The MARKER record of a traced tile, and a KIND 1 trigger (R469, R472). -/
def Chip.marker (c : Chip) (r : ReachId) (t i : Nat) (p : PlanInst) (s : StepWords) : Chip :=
  let y := (c.reach r).tile t
  let id := fld (s.op 0) 0 32
  let c := if (c.reach r).traced t then
      c.trace r 1 t (c.tileOwner r t).val (BitVec.ofNat 64 (id + i % 2 ^ 32 * 2 ^ 32))
        (BitVec.ofNat 64 (p.round % 2 ^ 16 + y.phase.toNat * 2 ^ 16 + stepOp s.hdr % 4 * 2 ^ 24
          + p.con.hdr.planId.toNat % 2 ^ 32 * 2 ^ 32))
    else c
  if c.trigValue == id then c.fire r 1 else c

/-- MARKER: begin, end or point. -/
def markerStep (r : ReachId) (now : Time) (t : TileId) (hold : Word32) (c : Chip) : Chip :=
  (c.at r now).startStep r t.val hold.toNat (fun s => stepClass s.hdr == 8 && decide (stepOp s.hdr ≤ 2)) (fun p i s c =>
    (c.marker r t.val i p s).doneStep r t.val i 8 2)

/-- MARKER stamp: the fabric time of the step's start goes to scratchpad. -/
def markerStamp (r : ReachId) (now : Time) (t : TileId) (hold : Word32) (c : Chip) : Chip :=
  (c.at r now).startStep r t.val hold.toNat (isStep 8 3) (fun p i s c =>
    let c := (c.marker r t.val i p s).onTile r t.val (fun y =>
      { y with spad := Mem.writeLe y.spad (fld (s.op 1) 0 23) 8 (c.now r).toNat })
    c.doneStep r t.val i 8 2)

/-- LAYER of a step. -/
def stepLayer (h : Word64) : Word16 := BitVec.ofNat 16 (fld h 48 16)

/-- DIGEST open: a slot for LAYER. -/
def digestOpen (r : ReachId) (now : Time) (t : TileId) (hold : Word32) (c : Chip) : Chip :=
  (c.at r now).startStep r t.val hold.toNat (isStep 9 0) (fun _ i s c =>
    (c.onTile r t.val (fun y =>
      { y with digests := y.digests.filter (fun d => d.layer != stepLayer s.hdr) ++ [DigestSlot.fresh (stepLayer s.hdr)] })).doneStep
        r t.val i 9 2)

/-- The digest value is written, posted to the gauge, and the slot freed. -/
def Tile.closeDigest (t : Tile) (s : StepWords) : Tile :=
  match t.digests.find? (fun d => d.layer == stepLayer s.hdr) with
  | some d => { t with spad := Mem.writeBytes t.spad (fld (s.op 0) 0 23) (digestBytes d), lastDigest := some d,
                       digests := t.digests.filter (fun e => e.layer != d.layer) }
  | none => t

/-- A step that folds into a layer still runs. -/
def Tile.folding (t : Tile) (layer : Word16) : Bool :=
  t.running.any (fun x => stepDigest x.hdr && stepLayer x.hdr == layer)

/-- DIGEST close: waits until no folding step runs. -/
def digestClose (r : ReachId) (now : Time) (t : TileId) (hold : Word32) (c : Chip) : Chip :=
  let c := c.at r now
  let close := fun (i : Nat) (s : StepWords) (c : Chip) =>
    if ((c.reach r).tile t.val).folding (stepLayer s.hdr) then c.waitFor r t.val i 0 3
    else (c.onTile r t.val (fun y => y.closeDigest s)).doneStep r t.val i 9 2
  match ((c.reach r).tile t.val).waiting with
  | some (w, s) => if isStep 9 1 s then close w.step s c else c
  | none => c.startStep r t.val hold.toNat (isStep 9 1) (fun _ i s c => close i s c)

/-! ### Phase ends (R144) -/

/-- What a PHASE_END step does once its tile is quiet: 0 a round end, 1 a phase end, 2 by its signal word. -/
def Chip.endPhase (c : Chip) (r : ReachId) (t : Nat) (p : PlanInst) (i : Nat) (s : StepWords) (cycles : Nat) : Chip :=
  let y := (c.reach r).tile t
  if !y.quiet then c.waitFor r t i 0 3
  else
    let bad := if stepOp s.hdr = 2 then y.spadErr [(fld (s.op 0) 0 23, 8)] else none
    match bad with
    | some l => (c.memUe r 5 (spadWindow + t * 0x800000 + 64 * l) 0).waitFail r t i 0x50
    | none =>
      let ends := stepOp s.hdr == 1 || (stepOp s.hdr == 2 && decide ((s.op 1).toNat ≤ y.signal (fld (s.op 0) 0 23)))
      let c := c.doneStep r t i 10 cycles
      if ends then c.phaseEnd r t p else c.roundEnd r t p

/-- A PHASE_END step of an operation: 0 ROUND_END, 1 PHASE_END, 2 PHASE_END_ON_SIGNAL. -/
def phaseEndStep (op : Nat) (r : ReachId) (now : Time) (t : TileId) (hold cycles : Word32) (c : Chip) : Chip :=
  let c := c.at r now
  match ((c.reach r).tile t.val).waiting, c.tilePlan r t.val with
  | some (w, s), some p => if isStep 10 op s then c.endPhase r t.val p w.step s cycles.toNat else c
  | _, _ => c.startStep r t.val hold.toNat (isStep 10 op) (fun p i s c => c.endPhase r t.val p i s cycles.toNat)

end Sys2Proof.Machine
end

