-- ==== Sys2Proof/Machine/GaugeOps.lean ====
section
/-!
DEFINITION. Gauges (R465 to R467, R496, R536): whose they are, what each object's row holds, and GAUGE_SNAP.
-/

namespace Sys2Proof.Machine

/-- The function a register path belongs to; the management path to none. -/
def regPathFn : RegPath → Option FnId
  | .pf => some 0
  | .vf f => some f
  | .mctp _ => none

/-- The function block a path writes and snapshots into (R533, R467): the management path reaches PF BAR0, so function 0's. -/
def pathBlock : RegPath → FnId
  | .vf f => f
  | _ => 0

/-- A path may read a gauge of a function's object, or a global one (none) (R466). -/
def Chip.mayGauge (c : Chip) (p : RegPath) (owner : Option FnId) : Bool :=
  c.allows p 3 || (match owner with
    | some f => regPathFn p == some f
    | none => false)

/-- A refused gauge read counts in GAUGE_DENIED of the reading function (R466). -/
def Chip.gaugeDenied (c : Chip) (p : RegPath) : Chip :=
  { c with gate := { c.gate with denied := Tab.modify c.gate.denied (pathKey p) 0 (fun n => sat48 (n + 1)) } }

/-- What a snapshot names (R467): its group, reach (4 the gatehouse), index, class and tenancy queue. -/
structure GaugeSel where
  group : Nat
  reach : Nat
  index : Nat
  cls : Nat
  queue : Nat
  deriving DecidableEq, Repr

/-- The fields of GAUGE_SNAP. -/
def gaugeSel (v : Word64) : GaugeSel :=
  { group := fld v 0 8, reach := fld v 8 3, index := fld v 16 16, cls := fld v 32 3, queue := fld v 35 7 }

/-- The words of some bytes. -/
def leWords : Nat → List Byte → List Nat
  | 0, _ => []
  | n + 1, bs => leNat (bs.take 8) :: leWords n (bs.drop 8)

/-- TILE: starts, busy ns and cycles, interlock holds, issue stalls, late starts, lateness sum and maximum, the digest value. -/
def Reach.tileGauges (x : Reach) (t : Nat) : List Nat :=
  (List.range 8).map (fun i => x.gauge 1 t i) ++ (match (x.tile t).lastDigest with
    | some d => leWords 8 (digestBytes d)
    | none => [])

/-- PORT: frames by class, bytes by class, FEC corrected and uncorrectable codewords, FCS errors, stomped frames, PAUSE, PFC by class,
watchdog events, underruns. -/
def Reach.portGauges (x : Reach) (p : PortId) : List Nat :=
  let m := x.mac p
  let by8 := fun (f : Nat → Nat) => (List.range 8).map f
  by8 (fun k => x.gauge 6 p.val (2 * k)) ++ by8 (fun k => x.gauge 6 p.val (2 * k + 1))
    ++ [x.gauge 6 p.val 25, m.uncorr, m.fcsErr, m.stomped, x.gauge 6 p.val 16] ++ by8 (fun k => x.gauge 6 p.val (17 + k))
    ++ [m.wdEvents, m.underruns.toNat]

/-- ROUTER: drops, EPOCH_LATE, backup forwards, FALLBACK. -/
def Reach.routerGauges (x : Reach) : List Nat :=
  let r := x.rtr
  [r.noRoute, (r.ports.map (fun e => e.2.dropIn)).sum, (r.ports.map (fun e => e.2.dropOut)).sum, r.tc6Policed, r.hopsOut, r.unknownType,
   r.epochLate, x.gauge 7 0 7, x.gauge 7 0 8]

/-- RME: drops at check 2, CRC failures, tag failures, CIPH_NO_KEY, routed-frame rejects, packets out of window. -/
def Reach.rmeGauges (x : Reach) : List Nat :=
  [x.rme.dropPkey, x.rme.dropCrc, x.rme.dropTag, x.cipher.noKey, x.rme.rejected, x.rme.dropWindow]

/-- MEM: reads, writes, corrected and uncorrectable errors, on-die ECC reports, late passes. -/
def Reach.memGauges (x : Reach) (i : Nat) : List Nat :=
  [x.gauge 9 i 0, x.gauge 9 i 1, x.gauge 9 i 2, x.gauge 9 i 3, x.gauge 9 i 4, x.mem.latePass]

/-- REACH: GAUGE_TDC, the stretch as a duration with its cycles to the nearest one, droop trips. -/
def Chip.reachGauges (c : Chip) (r : ReachId) : List Nat :=
  let x := c.reach r
  let p := x.pwr.stretchTo (c.floorMhz r) (c.tclkTarget r) (c.now r)
  [x.tdc.count.toNat, p.stretchTime / 65536, (2 * p.stretchCycles + 65536000) / 131072000, p.trips]

/-- A time counted in ticks of 100 µs, as ns and as FCLK cycles. -/
def tickPair (n : Nat) : List Nat := [100000 * n, 180000 * n]

/-- PWR of a reach: time capped, throttled and at the floor, rail currents, sensor maxima (R496). -/
def Power.gauges (p : Power) : List Nat :=
  tickPair p.capped ++ tickPair p.throttled ++ tickPair p.atFloor ++ (List.range 7).map (fun i => (p.amps.getD i 0).toNat)
    ++ (List.range 24).map (fun i => Tab.getD p.tops i 0)

/-- The gauges of an object, in the order of the table, with the function that owns it; none where there is no such object. -/
def Chip.gaugeRow (c : Chip) (f : FnId) (s : GaugeSel) : Option (Option FnId × List Nat) :=
  if s.group == 3 then
    if s.index < 256 then
      let x := c.fn f
      let g := fun (i : Nat) => Tab.getD x.ringGauges (4 * s.index + i) 0
      some (some f, [g 0, g 1, g 2, (x.held.filter (fun p => p.ring.toNat == s.index)).length])
    else none
  else if hr : s.reach < 4 then
    let r : ReachId := ⟨s.reach, hr⟩
    let x := c.reach r
    match s.group with
    | 1 => if s.index < 64 then some (some (c.tileOwner r s.index), x.tileGauges s.index) else none
    | 2 => (Tab.find? x.rme.qps s.index).map (fun q =>
        (some q.function, (List.range 6).map (fun i => x.gauge 2 s.index i) ++ [q.rate.toNat]))
    | 4 =>
      if s.index < 7 && s.cls < 6 && s.queue ≤ 64 then
        let o := s.index * 1024 + s.cls * 128 + s.queue
        some (if h : s.queue < 64 then some ⟨s.queue, h⟩ else none, [x.gauge 4 o 0, x.gauge 4 o 1, x.gauge 4 o 2])
      else none
    | 5 =>
      if h : s.index < 64 then
        some (some ⟨s.index, h⟩, [(Tab.getD x.tdc.fns s.index 0).toNat, Tab.getD c.gate.denied s.index 0, Tab.getD c.gate.rwlIgnored s.index 0])
      else none
    | 6 => if h : s.index < 7 then some (none, x.portGauges ⟨s.index, h⟩) else none
    | 7 => some (none, x.routerGauges)
    | 8 => some (none, x.rmeGauges)
    | 9 => if s.index < 88 then some (none, x.memGauges s.index) else none
    | 10 => some (none, c.reachGauges r)
    | 11 => some (none, [x.trace.made, x.trace.droppedAll, x.trace.stalls, x.trace.stallNs])
    | 12 => some (none, x.pwr.gauges)
    | _ => none
  else if s.reach == 4 then
    match s.group with
    | 11 => some (none, [c.gate.trcFrames, c.gate.trcBytes])
    | 12 => some (none, [c.gate.powerAvg, c.gate.powerMax, Tab.getD c.gate.tops 0 0, Tab.getD c.gate.tops 1 0, c.gate.thermTrips])
    | _ => none
  else none

/-- Fabric time of a snapshot: that of the object's reach, or the gatehouse's. -/
def Chip.snapTime (c : Chip) (s : GaugeSel) : Time := if s.group == 3 then c.gateTime else c.sourceTime s.reach

/-- A function's snapshot. -/
def Chip.snapOf (c : Chip) (f : FnId) : Snap := Tab.getD c.gate.snaps f.val { time := 0, owner := some f, values := [] }

/-- GAUGE_SNAP: latch every gauge of one object into the function's shadow copies (R467); one that the path may not read, or that does not
exist, latches nothing and counts as denied. -/
def gaugeSnap (p : RegPath) (value : Word64) (c : Chip) : Chip :=
  let s := gaugeSel value
  let f := pathBlock p
  match c.gaugeRow f s with
  | none => c.gaugeDenied p
  | some (owner, l) =>
    if !c.mayGauge p owner then c.gaugeDenied p
    else
      let x : Snap := { time := c.snapTime s, owner := owner, values := l.map (BitVec.ofNat 64) }
      { c with gate := { c.gate with snaps := Tab.set c.gate.snaps f.val x } }

end Sys2Proof.Machine
end

