-- ==== Sys2Proof/Machine/RegMap.lean ====
section
/-!
DEFINITION. The set-up register map (R528 to R537): which register an offset of PF BAR0, or of a VF's BAR0, names.
-/

namespace Sys2Proof.Machine

/-- Gatehouse registers (table "Gatehouse registers"). -/
inductive GateReg where
  | cap | id | start | shut | strap | hostClk | secStatus | secLog | pwrCap | xltCap | xltCtrl | ciphCap | ciphCtrl
  | trcCtrl | trcTrig | trcTrigTime | trcStatus | trcDumpAddr | trcDumpCtrl
  deriving DecidableEq, Repr

/-- Registers of a function block (table "Function block"); tile views and log views carry their index and word. -/
inductive FnReg where
  | hostCap | hostRev | ctrl | status | admCfg
  | admAddr (i : Fin 6)
  | tenStatus | snap | snapTime
  | gaugeVal (k : Nat)
  | tdcFn (r : ReachId)
  | tileFlags (r : ReachId) (t : TileId)
  | tileStatus (r : ReachId) (t : TileId)
  | tileIq (r : ReachId) (t : TileId)
  | tdcLog (r : ReachId) (slot word : Nat)
  deriving DecidableEq, Repr

/-- Registers of a reach window (table "Reach window"). -/
inductive WinReg where
  | timeCtrl | timeStatus | timeNow | timeEra | timeFloor
  | timeDisc (slot word : Nat)
  | planCtrl | memDredge | rmeCap | rmeCtrl | frtEncap | frtDscp | frtRtx | frtCc | frtCc2
  | rtrCap | rtrEpoch | rtrValiant | rtrEcn | rtrFm | collCap | collCtrl | collStatus | collHeld | ciphCap
  | bistSvc | bistCtrl | bistStatus | pwrClk | pwrStatus | trcMask | gaugeTdc
  | gaugeTdcFn (f : FnId)
  | tdcLog (slot word : Nat)
  | macPort (p : PortId)
  | macLanemap (p : PortId)
  | macSerdes (p : PortId) (lane : Fin 4)
  | macCt (q : PortId)
  | macPause (q : PortId)
  | gateCtrl (q : PortId)
  | shpCap
  | pkmap (i : Nat)
  | sluice (q : PortId) (s : Nat)
  | sluiceTok (q : PortId) (s : Nat)
  | gateList (q : PortId) (b : Bool) (e : Nat)
  | tileFlags (t : TileId)
  | tileStatus (t : TileId)
  | tileIq (t : TileId)
  deriving DecidableEq, Repr

/-- A register. -/
inductive RegAddr where
  | gate (g : GateReg)
  | fn (f : FnId) (x : FnReg)
  | win (r : ReachId) (w : WinReg)
  deriving DecidableEq, Repr

/-- The port of a number. -/
def portOf (n : Nat) : Option PortId := if h : n < 7 then some ⟨n, h⟩ else none

/-- The reach and the reach-local tile of a module tile (R25). -/
def moduleTile (t : Nat) : ReachId × TileId := (⟨t / 64 % 4, Nat.mod_lt _ (by decide)⟩, ⟨t % 64, Nat.mod_lt _ (by decide)⟩)

/-- A gatehouse register. -/
def gateReg (o : Nat) : Option GateReg :=
  match o with
  | 0x0000 => some .cap
  | 0x0008 => some .id
  | 0x0010 => some .start
  | 0x0018 => some .shut
  | 0x0020 => some .strap
  | 0x0028 => some .hostClk
  | 0x1000 => some .secStatus
  | 0x1008 => some .secLog
  | 0x2000 => some .pwrCap
  | 0x3000 => some .xltCap
  | 0x3008 => some .xltCtrl
  | 0x4000 => some .ciphCap
  | 0x4008 => some .ciphCtrl
  | 0x5000 => some .trcCtrl
  | 0x5008 => some .trcTrig
  | 0x5010 => some .trcTrigTime
  | 0x5018 => some .trcStatus
  | 0x5020 => some .trcDumpAddr
  | 0x5028 => some .trcDumpCtrl
  | _ => none

/-- A tile view of a function block: 256 tiles of 0x40 bytes. -/
def tileView (o : Nat) : Option FnReg :=
  let x := moduleTile (o / 0x40)
  match o % 0x40 with
  | 0x00 => some (.tileFlags x.1 x.2)
  | 0x08 => some (.tileStatus x.1 x.2)
  | 0x10 => some (.tileIq x.1 x.2)
  | _ => none

/-- A register of a function block. -/
def fnReg (o : Nat) : Option FnReg :=
  if o == 0x0000 then some .hostCap
  else if o == 0x0008 then some .hostRev
  else if o == 0x0010 then some .ctrl
  else if o == 0x0018 then some .status
  else if o == 0x0020 then some .admCfg
  else if 0x0040 ≤ o && o < 0x0070 then some (.admAddr ⟨(o - 0x40) / 8 % 6, Nat.mod_lt _ (by decide)⟩)
  else if o == 0x0100 then some .tenStatus
  else if o == 0x0200 then some .snap
  else if o == 0x0208 then some .snapTime
  else if 0x0400 ≤ o && o < 0x0600 then some (.gaugeVal ((o - 0x400) / 8))
  else if 0x0800 ≤ o && o < 0x0820 then some (.tdcFn ⟨(o - 0x800) / 8 % 4, Nat.mod_lt _ (by decide)⟩)
  else if 0x4000 ≤ o && o < 0x8000 then tileView (o - 0x4000)
  else if 0x8000 ≤ o && o < 0x10000 then
    let x := o - 0x8000
    some (.tdcLog ⟨x / 0x2000 % 4, Nat.mod_lt _ (by decide)⟩ (x % 0x2000 / 32) (x % 32 / 8))
  else none

/-- A register of a reach window below 0x1_0000. -/
def winLow (o : Nat) : Option WinReg :=
  match o with
  | 0x0000 => some .timeCtrl
  | 0x0008 => some .timeStatus
  | 0x0010 => some .timeNow
  | 0x0018 => some .timeEra
  | 0x0020 => some .timeFloor
  | 0x1000 => some .planCtrl
  | 0x2000 => some .memDredge
  | 0x3000 => some .rmeCap
  | 0x3008 => some .rmeCtrl
  | 0x4000 => some .frtEncap
  | 0x4008 => some .frtDscp
  | 0x4010 => some .frtRtx
  | 0x4018 => some .frtCc
  | 0x4020 => some .frtCc2
  | 0x5000 => some .rtrCap
  | 0x5008 => some .rtrEpoch
  | 0x5010 => some .rtrValiant
  | 0x5018 => some .rtrEcn
  | 0x5020 => some .rtrFm
  | 0x6000 => some .collCap
  | 0x6008 => some .collCtrl
  | 0x6010 => some .collStatus
  | 0x6018 => some .collHeld
  | 0x7000 => some .ciphCap
  | 0x8000 => some .bistSvc
  | 0x8008 => some .bistCtrl
  | 0x8010 => some .bistStatus
  | 0x9000 => some .pwrClk
  | 0x9008 => some .pwrStatus
  | 0xA000 => some .trcMask
  | 0xB000 => some .gaugeTdc
  | _ =>
    if 0x0100 ≤ o && o < 0x0900 then some (.timeDisc ((o - 0x100) / 32) (o % 32 / 8))
    else if 0xB100 ≤ o && o < 0xB300 then some (.gaugeTdcFn ⟨(o - 0xB100) / 8 % 64, Nat.mod_lt _ (by decide)⟩)
    else if 0xC000 ≤ o && o < 0xE000 then some (.tdcLog ((o - 0xC000) / 32) (o % 32 / 8))
    else none

/-- A register of external port `p`. -/
def extReg (p : PortId) (o : Nat) : Option WinReg :=
  match o with
  | 0x00 => some (.macPort p)
  | 0x08 => some (.macLanemap p)
  | 0x20 => some (.macSerdes p 0)
  | 0x28 => some (.macSerdes p 1)
  | 0x30 => some (.macSerdes p 2)
  | 0x38 => some (.macSerdes p 3)
  | _ => none

/-- A register of router port `q`. -/
def rtrPortReg (q : PortId) (o : Nat) : Option WinReg :=
  match o with
  | 0x00 => some (.macCt q)
  | 0x08 => some (.macPause q)
  | 0x10 => some (.gateCtrl q)
  | _ => none

/-- A register of a reach window. -/
def winReg (o : Nat) : Option WinReg :=
  if o < 0x10000 then winLow o
  else if o < 0x10400 then (portOf ((o - 0x10000) / 0x100)).bind (fun p => extReg p (o % 0x100))
  else if 0x11000 ≤ o && o < 0x11700 then (portOf ((o - 0x11000) / 0x100)).bind (fun q => rtrPortReg q (o % 0x100))
  else if o == 0x20000 then some .shpCap
  else if 0x20100 ≤ o && o < 0x20200 then some (.pkmap (o - 0x20100))
  else if 0x21000 ≤ o && o < 0x22C00 then
    if o % 0x400 < 576 then (portOf ((o - 0x21000) / 0x400)).map (fun q => .sluice q (o % 0x400 / 8)) else none
  else if 0x24000 ≤ o && o < 0x25C00 then
    if o % 0x400 < 576 then (portOf ((o - 0x24000) / 0x400)).map (fun q => .sluiceTok q (o % 0x400 / 8)) else none
  else if 0x30000 ≤ o && o < 0x4C000 then
    (portOf ((o - 0x30000) / 0x4000)).map (fun q => .gateList q (decide (0x2000 ≤ (o - 0x30000) % 0x4000)) (o % 0x2000 / 8))
  else if 0x100000 ≤ o && o < 0x104000 then
    let t : TileId := ⟨(o - 0x100000) / 0x100 % 64, Nat.mod_lt _ (by decide)⟩
    match o % 0x100 with
    | 0x00 => some (.tileFlags t)
    | 0x08 => some (.tileStatus t)
    | 0x10 => some (.tileIq t)
    | _ => none
  else none

/-- Where the regions of PF BAR0 begin (R532). -/
def fnBase : Nat := 0x0100000
def winBase : Nat := 0x0800000

/-- The register at an offset of PF BAR0. -/
def pfReg (o : Nat) : Option RegAddr :=
  if o < fnBase then (gateReg o).map .gate
  else if o < 0x500000 then
    (fnReg (o % 0x10000)).map (.fn ⟨(o - fnBase) / 0x10000 % 64, Nat.mod_lt _ (by decide)⟩)
  else if winBase ≤ o && o < 0x1800000 then
    (winReg ((o - winBase) % 0x400000)).map (.win ⟨(o - winBase) / 0x400000 % 4, Nat.mod_lt _ (by decide)⟩)
  else none

/-- The register that an 8-byte aligned offset names on a path: the management path reaches every PF BAR0 offset (R531), a VF its own block
(R535). -/
def pathReg (p : RegPath) (o : Nat) : Option RegAddr :=
  match p with
  | .vf f => if o < 0x10000 then (fnReg o).map (.fn f) else none
  | _ => pfReg o

end Sys2Proof.Machine
end

