-- ==== Sys2Proof/Machine/RoleOps.lean ====
section
/-!
DEFINITION. Role requests (R423 to R440): the checks of a request block, role sessions, enrolment, images, keys, and the reading and
trimming of the logbook. Where the spec names a sub-operation's parameters and not their bytes, the layout is the model's own (NOTES.md).
-/

namespace Sys2Proof.Machine

/-! ### Blocks and keys (R417, R424, R425) -/

/-- The signed bytes of a request block: 0x000 to the end of BODY. -/
def roleBytes (b : RoleReq) : List Byte :=
  leBytes 4 b.magic.toNat ++ leBytes 4 (b.fmt.toNat + b.role.toNat * 2 ^ 4 + b.subop.toNat * 2 ^ 8) ++ leBytes 8 b.eui.toNat
    ++ leBytes 8 b.seq.toNat ++ leBytes 8 b.keyId.toNat ++ leBytes 4 b.body.length ++ List.replicate 28 0 ++ b.body

/-- The KEY_ID of a key pair: the first 8 bytes of the SHA-384 of both keys. -/
def keyIdOf (k : KeyPair) : Word64 :=
  BitVec.ofNat 64 (leNat ((beBytes 48 (sha384 (k.ed ++ k.ml)).toNat).take 8))

/-- Both signatures of a message verify under a key pair. -/
def dualVerify (k : KeyPair) (msg ed ml : List Byte) : Bool := Config.edVerify k.ed msg ed && Config.mlVerify k.ml msg ml

/-- An enrolled key pair of a role by its KEY_ID. -/
def Sec.enrolled (s : Sec) (role : Nat) (id : Word64) : Option Enrolled := s.keys.find? (fun k => k.role.toNat == role && k.keyId == id)

/-- The installer's enrolment. -/
def Sec.installer (s : Sec) : Option Enrolled := s.keys.find? (fun k => k.role == 2)

/-- Who makes a role request. -/
def reqWho (p : ReqPath) (b : RoleReq) : Who :=
  match p with
  | .ring ref _ _ => { role := b.role.toNat, path := if ref.fn = 0 then 0 else 1, fn := ref.fn.val, eid := 0, keyId := if b.role == 0 then 0 else b.keyId }
  | .mctp eid => { role := b.role.toNat, path := 2, fn := 0xFF, eid := eid.toNat, keyId := if b.role == 0 then 0 else b.keyId }

/-- A role holds the right to a sub-operation with a body (R423, table "KEY_OP sub-operations"). -/
def Sec.roleMay (s : Sec) (p : ReqPath) (b : RoleReq) : Bool :=
  let role := b.role.toNat
  let kind := leAt b.body 0 1
  match b.subop.toNat with
  | 0x01 | 0x02 | 0x0A => 1 ≤ role && role ≤ 3
  | 0x03 =>
    -- the first installer is enrolled without a role, over the management path (R424)
    if role = 0 then kind == 2 && s.installer.isNone && (match p with | .mctp _ => true | _ => false)
    else (role == 1 && kind == 1) || (role == 2 && (kind == 2 || kind == 3))
  | 0x04 =>
    let id := BitVec.ofNat 64 (leAt b.body 0 8)
    (role == 1 && ((s.enrolled 1 id).isSome || !s.keys.any (fun k => k.keyId == id)))
      || (role == 2 && ((s.enrolled 3 id).isSome || !s.keys.any (fun k => k.keyId == id)))
  | 0x05 | 0x06 | 0x07 | 0x0B => role == 2
  | 0x08 => role == 2 || (role == 3 && kind == 4)
  | 0x09 | 0x0C | 0x0D => role == 0
  | _ => false

/-- Sub-operations that make a change of the table "Logbook kinds" other than LOG_TRIM. -/
def logsChange (subop : Nat) : Bool := 1 ≤ subop && subop ≤ 9

/-- The first check of the table "Role request checks" that a block fails, with its number; none where it passes all. -/
def Chip.roleCheck (c : Chip) (p : ReqPath) (b : RoleReq) : Option (Nat × Nat) :=
  let s := c.sec
  let vf := match p with | .ring ref _ _ => ref.fn != 0 | .mctp _ => false
  let role := b.role.toNat
  if b.magic != 0x51525850 || b.fmt != 1 || b.subop == 0 || 0xD < b.subop.toNat || b.eui != s.eui || 8192 < b.body.length then some (1, 0xB0)
  else if !s.roleMay p b || (vf && role != 0) then some (2, 0xB3)
  else
    let sig := match s.enrolled role b.keyId with
      | none => some (3, 0xB3)
      | some k =>
        if b.seq.toNat ≤ (Tab.getD s.reqSeq role 0).toNat then some (4, 0xB2)
        else if !dualVerify k.keys (roleBytes b) b.edSig b.mlSig then some (5, 0xB1)
        else none
    match (if role = 0 then none else sig) with
    | some e => some e
    | none =>
      if logsChange b.subop.toNat then (s.logRefusal.map (fun code => (6, code))) else none

/-- What a sub-operation comes to: status, RESULT, bytes for the requester, and the module after it. -/
structure RoleDone where
  status : Nat
  result : Word64
  data : List Byte
  chip : Chip

/-- A sub-operation refused without effect. -/
def refusedWith (c : Chip) (status : Nat) : RoleDone := { status := status, result := 0, data := [], chip := c }

/-- A sub-operation done with a RESULT. -/
def doneWith (c : Chip) (result : Word64) : RoleDone := { status := 0, result := result, data := [], chip := c }

/-- A refused block: counted, and at checks 2 to 5 entered in the logbook. -/
def Chip.roleRefused (c : Chip) (p : ReqPath) (b : RoleReq) (check code : Nat) : Chip :=
  let c := { c with sec := { c.sec with refused := if c.sec.refused == 0xFFFFFFFF then c.sec.refused else c.sec.refused + 1 } }
  let c := if 2 ≤ check && check ≤ 5 then c.log 1 (reqWho p b) code (leBytes 8 b.subop.toNat ++ leBytes 8 b.keyId.toNat) else c
  c.answer p code 0 []

/-- A block of a sub-operation is checked, raises its role's request counter, and is acted on (R421, R425). -/
def Chip.roleRun (c : Chip) (p : ReqPath) (b : RoleReq) (subop : Nat) (act : Chip → Who → RoleDone) : Chip :=
  if b.subop.toNat != subop then c
  else match c.roleCheck p b with
    | some (check, code) => c.roleRefused p b check code
    | none =>
      if b.role != 0 && !c.sec.flashOk then c.answer p 0xBB 0 []
      else
        let c := if b.role == 0 then c
          else { c with sec := { c.sec with reqSeq := Tab.set c.sec.reqSeq b.role.toNat b.seq } }
        let d := act c (reqWho p b)
        d.chip.answer p d.status d.result d.data

/-! ### Sessions (R427) -/

/-- The detail of a session's entry: path, EID, expiry. -/
def sessionDetail (path : Nat) (s : Session) : List Byte := leBytes 2 path ++ leBytes 2 s.eid.toNat ++ leBytes 4 0 ++ leBytes 8 s.expiry.toNat

/-- End the session of the management path, with an entry. -/
def Chip.endMctpSession (c : Chip) (w : Who) : Chip :=
  match c.sec.mctpSession with
  | none => c
  | some s => { (c.log 2 w 0 (sessionDetail 2 s)) with sec := { (c.log 2 w 0 (sessionDetail 2 s)).sec with mctpSession := none } }

/-- ROLE_OPEN: a session of the role on the path named; another on that path ends. -/
def roleOpen (p : ReqPath) (b : RoleReq) (c : Chip) : Chip :=
  c.roleRun p b 1 (fun c w =>
    let path := leAt b.body 0 1
    let secs := leAt b.body 2 2
    if (path != 0 && path != 2) || secs = 0 || 3600 < secs then refusedWith c 0xB0
    else
      let s : Session := { role := b.role, eid := if path = 2 then BitVec.ofNat 8 (leAt b.body 1 1) else 0, expiry := c.gateTime + nsTime (1000000000 * secs) }
      let c := if path = 0 then c.endPfSession else c.endMctpSession Who.module
      let c := c.log 2 w 0 (sessionDetail path s)
      let c := if path = 0 then { c with sec := { c.sec with pfSession := some s } } else { c with sec := { c.sec with mctpSession := some s } }
      doneWith c s.expiry)

/-- ROLE_CLOSE: the session of the request's path ends. -/
def roleClose (p : ReqPath) (b : RoleReq) (c : Chip) : Chip :=
  c.roleRun p b 2 (fun c w =>
    match p with
    | .ring _ _ _ =>
      (match c.sec.pfSession with
      | none => doneWith c 0
      | some s =>
        let c := c.log 2 w 0 (sessionDetail 0 s)
        doneWith { c with sec := { c.sec with pfSession := none } } 0)
    | .mctp _ => doneWith (c.endMctpSession w) 0)

/-- ROLE_SESSION_EXPIRY: a session reaches its expiry. -/
def roleSessionExpiry (r : ReachId) (now : Time) (mctp : Bool) (c : Chip) : Chip :=
  let c := c.at r now
  let ovr := fun (s : Option Session) => match s with | some s => notBefore s.expiry c.gateTime | none => false
  if mctp then (if ovr c.sec.mctpSession then c.endMctpSession Who.module else c)
  else if ovr c.sec.pfSession then c.endPfSession else c

/-! ### Enrolment (R424) -/

/-- The key pair of an ENROL body: after 8 bytes of role, the Ed25519 and the ML-DSA-65 public key. -/
def enrolKeys (b : List Byte) : KeyPair := { ed := sliceBytes b 8 32, ml := sliceBytes b 40 1952 }
/-- What follows the keys: the maker's certificate, or a KEK. -/
def enrolExtra (b : List Byte) : List Byte := b.drop 1992

/-- The certificate of a maker key pair verifies under the maker root (R415). -/
def makerCertOk (k : KeyPair) (cert : List Byte) : Bool :=
  dualVerify { ed := Config.makerRoot 0, ml := Config.makerRoot 1 } (k.ed ++ k.ml) (cert.take 64) (cert.drop 64)

/-- Put an enrolment in place; an installer's replaces the one before. -/
def Sec.enrol (s : Sec) (x : Enrolled) : Sec :=
  { s with keys := s.keys.filter (fun k => !(k.keyId == x.keyId) && !(x.role == 2 && k.role == 2)) ++ [x] }

/-- ENROL. -/
def enrol (p : ReqPath) (b : RoleReq) (c : Chip) : Chip :=
  c.roleRun p b 3 (fun c w =>
    let role := leAt b.body 0 1
    let keys := enrolKeys b.body
    let extra := enrolExtra b.body
    let id := keyIdOf keys
    let put := fun (kek : List Byte) =>
      let c := c.log 3 w 0 (leBytes 8 role ++ leBytes 8 id.toNat)
      doneWith { c with sec := c.sec.enrol { role := BitVec.ofNat 4 role, keyId := id, keys := keys, kek := kek } } id
    if !c.sec.flashOk then refusedWith c 0xBB
    else if role = 1 then (if makerCertOk keys extra then put [] else refusedWith c 0xB1)
    else match c.sec.installer with
      | none => if role = 2 && extra.length = 32 then put extra else refusedWith c 0xB0
      | some i =>
        let ops := (c.sec.keys.filter (fun k => k.role == 3 && k.keyId != id)).length
        if role = 3 && 8 ≤ ops then refusedWith c 0xB6
        else if role = 2 && extra.isEmpty then put i.kek
        else match aesUnwrap i.kek extra with
          | some kek => put kek
          | none => refusedWith c 0xB7)

/-- REVOKE. -/
def revoke (p : ReqPath) (b : RoleReq) (c : Chip) : Chip :=
  c.roleRun p b 4 (fun c w =>
    let id := BitVec.ofNat 64 (leAt b.body 0 8)
    match c.sec.enrolled (if b.role == 1 then 1 else 3) id with
    | none => refusedWith c 0xB6
    | some k =>
      if !c.sec.flashOk then refusedWith c 0xBB
      else
        let c := c.log 3 w 0 (leBytes 8 k.role.toNat ++ leBytes 8 id.toNat)
        doneWith { c with sec := { c.sec with keys := c.sec.keys.filter (fun x => !(x.keyId == id && x.role == k.role)) } } 0)

/-! ### Images (R417, R421, R422) -/

/-- Anti-rollback counter of an image type. -/
def Sec.counter (s : Sec) (type : Nat) : Nat := (Tab.getD s.rollback type 0).toNat

/-- The check of R417 that an image fails, as a status; 0 where it passes. -/
def Sec.imageCheck (s : Sec) (type : Nat) (i : Image) : Nat :=
  let h := i.header
  let w := leAt h 4 4
  let keys := s.enrolled 1 (BitVec.ofNat 64 (leAt h 0x50 8))
  let msg := h.take 256
  if h.length != 4096 || leAt h 0 4 != 0x4D495850 || w % 16 != 1 || natBits w 4 8 != type
      || sliceBytes h 0x58 8 != [0x50, 0x58, 0x34, 0x2D, 0x32, 0x30, 0x34, 0x38] then 0xB0
  else if (h.drop 0xE2D).any (fun x => x != 0) then 0xB0
  else if leAt h 8 4 < s.counter type then 0xB4
  else match keys with
    | none => 0xB3
    | some k =>
      if leAt h 0x10 8 != i.payload.length || i.payload.isEmpty || 0x4000000 < i.payload.length
          || sliceBytes h 0x20 48 != beBytes 48 (sha384 i.payload).toNat then 0xB0
      else if !dualVerify k.keys msg (sliceBytes h 0x100 64) (sliceBytes h 0x140 3309) then 0xB1
      else 0

/-- IMAGE_STAGE: a verified image goes into the slot that did not boot. -/
def imageStage (p : ReqPath) (b : RoleReq) (image : Image) (c : Chip) : Chip :=
  c.roleRun p b 5 (fun c w =>
    let type := leAt b.body 0 1
    if type = 0 || 4 < type || leAt b.body 16 8 != image.header.length + image.payload.length then refusedWith c 0xB0
    else
      let code := c.sec.imageCheck type image
      if code != 0 then refusedWith c code
      else if !c.sec.flashOk then refusedWith c 0xBB
      else
        let slot := 1 - Tab.getD c.sec.booted type 0
        let svn := leAt image.header 8 4
        let c := c.log 4 w 0 (leBytes 2 type ++ leBytes 2 slot ++ leBytes 4 svn ++ sliceBytes image.header 0x20 40)
        doneWith { c with sec := { c.sec with images := Tab.set c.sec.images (2 * type + slot) image } } (BitVec.ofNat 64 svn))

/-- SVN_COMMIT: the counter of a type rises. -/
def svnCommit (p : ReqPath) (b : RoleReq) (c : Chip) : Chip :=
  c.roleRun p b 6 (fun c w =>
    let type := leAt b.body 0 1
    let svn := leAt b.body 4 4
    let old := c.sec.counter type
    if type = 0 || 4 < type then refusedWith c 0xB0
    else if svn < old then refusedWith c 0xB4
    else if svn = old then doneWith c 0
    else if !c.sec.flashOk then refusedWith c 0xBB
    else
      let c := c.log 5 w 0 (leBytes 4 type ++ leBytes 4 old ++ leBytes 4 svn)
      doneWith { c with sec := { c.sec with rollback := Tab.set c.sec.rollback type (BitVec.ofNat 32 svn) } } 0)

/-! ### Keys (R435 to R440) -/

/-- The detail of a key's entry: kind, slot, KEY_ID of the key (of its partition key or function). -/
def keyDetail (kind slot : Nat) (id : Nat) : List Byte := leBytes 4 kind ++ leBytes 4 slot ++ leBytes 8 id

/-- Slot numbers below 1,024 that no reach engine uses. -/
def Chip.freeKeySlot (c : Chip) : Option Nat :=
  (List.range 1024).find? (fun i => (Tab.find? c.sec.master i).isNone
    && allReaches.all (fun r => (Tab.find? (c.reach r).cipher.slots i).isNone))

/-- Put a key into slots of reach engines in service. -/
def Chip.putKey (c : Chip) (rs : List ReachId) (slot : Nat) (k : KeySlot) : Chip :=
  forEach (rs.filter (fun r => c.inService r)) c (fun c r =>
    c.onReach r (fun x => { x with cipher := { x.cipher with slots := Tab.set x.cipher.slots slot k } }))

/-- 2^n ns as a difference of fabric times. -/
def nsPow (n : Nat) : Int := (2 : Int) ^ n * 65536

/-- T_ACT that FABRIC_KEY takes: whole ns, at least 1 ms ahead, less than 2^45 ns ahead (R437, R440). -/
def Chip.tActOk (c : Chip) (t : Time) : Bool :=
  let d := timeDiff c.gateTime t
  t.toNat % 65536 == 0 && decide (1000000 * 65536 ≤ d) && decide (d < nsPow 45)

/-- FABRIC_KEY. -/
def fabricKey (p : ReqPath) (b : RoleReq) (c : Chip) : Chip :=
  c.roleRun p b 7 (fun c w =>
    let pkey := BitVec.ofNat 16 (leAt b.body 0 2)
    let tAct : Time := BitVec.ofNat 64 (leAt b.body 8 8)
    let held := c.sec.master.vals.filter (fun k => k.pkey == pkey)
    match c.sec.installer.bind (fun i => aesUnwrap i.kek (sliceBytes b.body 16 40)) with
    | none => refusedWith c 0xB7
    | some key =>
      if !c.tActOk tAct || 2 ≤ held.length then refusedWith c 0xB6
      else match c.freeKeySlot with
        | none => refusedWith c 0xB6
        | some slot =>
          let k : KeySlot := { kind := 1, key := key, pkey := pkey, tAct := tAct, function := 0, index := 0, cnt := 0, aged := 0 }
          let c := (c.log 8 w 0 (keyDetail 1 slot pkey.toNat)).putKey allReaches slot k
          doneWith { c with sec := { c.sec with master := Tab.set c.sec.master slot k } } (BitVec.ofNat 64 slot))

/-- Erase a fabric key everywhere. -/
def Chip.eraseKey (c : Chip) (slot : Nat) : Chip :=
  let c := forEach allReaches c (fun c r => c.onReach r (fun x => { x with cipher := { x.cipher with slots := Tab.erase x.cipher.slots slot } }))
  { c with sec := { c.sec with master := Tab.erase c.sec.master slot } }

/-- FABRIC_KEY_RETIRE: T_ACT of the newer key plus CIPH_CTRL.KEY_RETIRE has passed, and the older key of the partition is erased. -/
def fabricKeyRetire (r : ReachId) (now : Time) (slot : Nat) (c : Chip) : Chip :=
  let c := c.at r now
  match Tab.find? c.sec.master slot with
  | none => c
  | some k =>
    let due := fun (n : KeySlot) => n.pkey == k.pkey && later k.tAct n.tAct
      && notBefore (n.tAct + nsTime (1000000 * fld c.sec.ciphCtrl 0 16)) c.gateTime
    if c.sec.master.vals.any due && c.steadyReach.isSome then (c.log 8 Who.module 0 (keyDetail 1 slot k.pkey.toNat)).eraseKey slot else c

/-- FABRIC_KEY_AGE_ALERT: a key has been in force for 2^45 ns with no newer one installed, and again at 2^46 ns (R440). -/
def fabricKeyAgeAlert (r : ReachId) (now : Time) (slot : Nat) (c : Chip) : Chip :=
  let c := c.at r now
  match Tab.find? c.sec.master slot with
  | none => c
  | some k =>
    let age := timeDiff k.tAct c.gateTime
    let limit := if k.aged = 0 then nsPow 45 else nsPow 46
    let newer := c.sec.master.vals.any (fun n => n.pkey == k.pkey && later k.tAct n.tAct)
    if 2 ≤ k.aged || newer || c.steadyReach.isNone || age < limit then c
    else
      let c := { c with sec := { c.sec with master := Tab.set c.sec.master slot { k with aged := k.aged + 1 } } }
      c.gateHealth 7 0xC 0

/-- KEK_SET: a migration KEK (kind 3), or a function's tenancy KEK (kind 4), wrapped under the setter's KEK. -/
def kekSet (p : ReqPath) (b : RoleReq) (c : Chip) : Chip :=
  c.roleRun p b 8 (fun c w =>
    let kind := leAt b.body 0 1
    let i := leAt b.body 1 1
    let slot := if kind = 3 then i else 16 + i
    if !(kind = 3 && i < 16) && !(kind = 4 && 1 ≤ i && i < 64) then refusedWith c 0xB6
    else if !c.sec.flashOk then refusedWith c 0xBB
    else match (c.sec.enrolled b.role.toNat b.keyId).bind (fun e => aesUnwrap e.kek (sliceBytes b.body 8 40)) with
      | none => refusedWith c 0xB7
      | some key =>
        let k : KeySlot := { kind := BitVec.ofNat 4 kind, key := key, pkey := 0, tAct := 0,
                             function := ⟨(if kind = 4 then i else 0) % 64, Nat.mod_lt _ (by decide)⟩, index := BitVec.ofNat 8 i, cnt := 0, aged := 0 }
        let c := c.log 8 w 0 (keyDetail kind slot i)
        doneWith { c with sec := { c.sec with gate := { c.sec.gate with slots := Tab.set c.sec.gate.slots slot k } } } (BitVec.ofNat 64 slot))

/-- The reaches that a function's grant names. -/
def Chip.grantReaches (c : Chip) (f : FnId) : List ReachId :=
  allReaches.filter (fun r => c.holds f (fun g => (List.range 64).any (fun t => grantTile g (64 * r.val + t))
    || (List.range 8).any (fun s => grantHbm g r s) || (g.lpGib.get r).toNat != 0))

/-- HOST_KEY: a host-transfer key of the function, wrapped under its tenancy KEK. -/
def hostKeyInstall (p : ReqPath) (b : RoleReq) (c : Chip) : Chip :=
  c.roleRun p b 9 (fun c w =>
    match pathFn p with
    | none => refusedWith c 0xB6
    | some f =>
      match c.tenancyKek f with
      | none => refusedWith c 0xB6
      | some kek =>
        match aesUnwrap kek (sliceBytes b.body 0 40), c.freeKeySlot with
        | none, _ => refusedWith c 0xB7
        | _, none => refusedWith c 0xB6
        | some key, some slot =>
          let k : KeySlot := { kind := 2, key := key, pkey := 0, tAct := 0, function := f, index := 0, cnt := 0, aged := 0 }
          doneWith ((c.log 8 w 0 (keyDetail 2 slot f.val)).putKey (c.grantReaches f) slot k) (BitVec.ofNat 64 slot))

/-! ### The logbook read and trimmed (R430, R431) -/

/-- The 3,501 bytes of a seal. -/
def sealOut (s : Sec) : List Byte :=
  match s.seals.getLast? with
  | some x => sealBytes x.seq.toNat x.digest x.time s.eui ++ x.ed ++ x.ml
  | none => []

/-- LOG_READ: entries from a sequence number on, then a fresh seal. -/
def logRead (p : ReqPath) (b : RoleReq) (c : Chip) : Chip :=
  c.roleRun p b 0xA (fun c _ =>
    let first := leAt b.body 0 4
    let n := leAt b.body 4 4
    if 256 < n then refusedWith c 0xB0
    else
      let l := (c.sec.log.filter (fun e => first ≤ e.seq.toNat)).take n
      let c := { c with sec := c.sec.seal c.gateTime }
      { status := 0, result := BitVec.ofNat 64 l.length, data := l.flatMap logBytes ++ sealOut c.sec, chip := c })

/-- LOG_TRIM: entries up to a sequence number are released. Its own entry comes first, unless the logbook is full. -/
def logTrim (p : ReqPath) (b : RoleReq) (c : Chip) : Chip :=
  c.roleRun p b 0xB (fun c w =>
    let last := leAt b.body 0 4
    let trim := fun (c : Chip) => { c with sec := { c.sec with log := c.sec.log.filter (fun e => last < e.seq.toNat) } }
    let note := fun (c : Chip) => c.log 0xD w 0 (leBytes 8 last)
    let n := (c.sec.log.filter (fun e => e.seq.toNat ≤ last)).length
    if !c.sec.logFlashOk then refusedWith c 0xBB
    else doneWith (if c.sec.log.length < logMax then trim (note c) else note (trim c)) (BitVec.ofNat 64 n))

/-! ### Cipher and identity -/

/-- CIPHER: a cipher request (R441). -/
def cipherOp (p : ReqPath) (b : RoleReq) (d : CipherData) (c : Chip) : Chip :=
  if b.subop != 0xC then c
  else match c.roleCheck p b with
    | some (check, code) => c.roleRefused p b check code
    | none => c.cipher p (cipherReqOf b.body) d

/-- IDENTITY: the public keys and both certificate chains (R418). -/
def identity (p : ReqPath) (b : RoleReq) (c : Chip) : Chip :=
  c.roleRun p b 0xD (fun c _ =>
    let bs := Config.identityKey 0 ++ Config.identityKey 1 ++ Config.identityChain 0 ++ Config.identityChain 1
    { status := 0, result := BitVec.ofNat 64 bs.length, data := bs, chip := c })

end Sys2Proof.Machine
end

