-- ==== Sys2Proof/Machine/TileRegs.lean ====
section
/-!
DEFINITION. The registers of one tile as they read (R108, R147).
-/

namespace Sys2Proof.Machine

/-- TILE_AFLAGS (R108). -/
def Tile.aflagsWord (t : Tile) : Word64 := BitVec.ofNat 64 t.aflags.toNat

/-- SEQ_IQ (R147). -/
def Tile.seqIq (t : Tile) : Word64 := BitVec.ofNat 64 (t.iqBase.toNat + t.iqTail.toNat * 2 ^ 16 + t.iqHead.toNat * 2 ^ 24)

/-- A write to TILE_AFLAGS clears the flags written as 1 (R12, R108). -/
def Tile.clearFlags (t : Tile) (v : Word32) : Tile := { t with aflags := t.aflags &&& ~~~ v }

end Sys2Proof.Machine
end

