-- ==== Sys2Proof/Machine/TraceOps.lean ====
section
/-!
DEFINITION. The trace unit's commands (R471 to R475): arming, triggers and their notices, the end of a capture, SYNC records, overflow,
the trace port and dumps. TRC registers take a write only from a requester that passes the operator check (chapter 16).
-/

namespace Sys2Proof.Machine

/-! ### The shares -/

/-- Write the records that wait in stall mode while there is room; their sources are no longer held (R473). -/
def Trace.admitFuel : Nat → Trace → ReachId → Bool → Time → Trace
  | 0, t, _, _, _ => t
  | n + 1, t, r, stream, now =>
    match t.waiting with
    | [] => t
    | w :: ws =>
      let t := t.flushDrop r stream now
      if t.room stream && t.dropped == 0 then Trace.admitFuel n { t.put stream w.1 with waiting := ws } r stream now else t

/-- Write what waits, as far as room goes. -/
def Trace.letIn (t : Trace) (r : ReachId) (stream : Bool) (now : Time) : Trace := t.admitFuel t.waiting.length r stream now

/-- Change the trace unit of a reach. -/
def Chip.onTrace (c : Chip) (r : ReachId) (f : Trace → Trace) : Chip := c.onReach r (fun x => { x with trace := f x.trace })

/-- TRACE_STALL: no source of the reach is held any longer; the episode is counted with its length in ns (R473, R183). -/
def traceStall (r : ReachId) (now : Time) (c : Chip) : Chip :=
  let c := (c.at r now).onTrace r (fun t => t.letIn r c.streaming now)
  let t := (c.reach r).trace
  match t.stallSince with
  | none => c
  | some s =>
    if !t.waiting.isEmpty then c
    else
      let ns := timeNs (c.now r - s)
      let c := c.onTrace r (fun t => { t with stallSince := none, stalls := sat48 (t.stalls + 1), stallNs := sat48 (t.stallNs + ns) })
      c.tdc r 0xB (if h : t.stallFn.toNat < 64 then some ⟨t.stallFn.toNat, h⟩ else none) 74 0 (BitVec.ofNat 64 ns)

/-- TRACE_ROOM_RETURN: room is back after drops, and a DROP record is written (R473). -/
def traceRoomReturn (r : ReachId) (now : Time) (c : Chip) : Chip :=
  let c := c.at r now
  c.onTrace r (fun t => t.flushDrop r c.streaming (c.now r))

/-- TRACE_SYNC_TIMER: a SYNC record with the era, the servo state and the count of timing-dependent choices (R469). -/
def traceSyncTimer (r : ReachId) (now : Time) (c : Chip) : Chip :=
  let c := c.at r now
  if !c.inService r then c
  else
    let t := (c.reach r).time
    c.trace r 8 74 0xFF (BitVec.ofNat 64 (t.era.toNat % 2 ^ 16 + t.servo.code * 2 ^ 16))
      (BitVec.ofNat 64 (c.reach r).tdc.count.toNat)

/-- TRACE_CAPTURE_FULL: the space behind the trigger is full, and the reach freezes (R472). -/
def traceCaptureFull (r : ReachId) (now : Time) (c : Chip) : Chip :=
  let c := c.at r now
  if c.streaming || (c.reach r).trace.postLeft != some 0 then c
  else c.onTrace r (fun t => { t with frozen := true })

/-! ### Registers -/

/-- Fields of TRC_CTRL, TRC_TRIG, TRC_DUMP_ADDR and TRC_DUMP_CTRL that hold a value. -/
def trcCtrlMask : Word64 := 0x00003FFFFFFF3FFF
def trcTrigMask : Word64 := 0xFFFFFFFF0000000F
def trcDumpAddrMask : Word64 := 0xFFFFFFFFFFFFF000

/-- TRC_TILE_MASK's value changes at once; the other fields of TRC_CTRL too. Writing ARM as 1 clears FROZEN and restarts the capture
(R472); a trace port frame number counts from the enable (R474). -/
def Chip.trcControl (c : Chip) (new : Word64) : Chip :=
  let enable := flag new 0 && !flag c.gate.trcCtrl 0
  let arm := flag new 3
  let c := { c with gate := { c.gate with trcCtrl := new, trigTimeDone := if arm then [] else c.gate.trigTimeDone } }
  forEach allReaches c (fun c r => c.onTrace r (fun t =>
    let t := if enable then { t with frameNo := 0 } else t
    if !arm then t
    else { t with frozen := false, postLeft := none, store := if flag new 1 then t.store else [] }))

/-- A write to TRC_CTRL (R12, R472). Writing ARM as 1 again changes no field and restarts the capture. -/
def Chip.trcCtrlWrite (c : Chip) (p : RegPath) (value : Word64) : Chip :=
  let new := value &&& trcCtrlMask
  if !c.allows p 3 then c.ignoreWrite p
  else if new == c.gate.trcCtrl then (if flag new 3 then c.trcControl new else c)
  else c.rwlWrite p 3 0x5000 c.gate.trcCtrl new (fun c => c.trcControl new)

/-- TRC_CTRL_ARM: a write of TRC_CTRL with ARM 1 (R472). -/
def trcCtrlArm (p : RegPath) (value : Word64) (c : Chip) : Chip :=
  if flag value 3 then c.trcCtrlWrite p value else c

/-- A write to TRC_TRIG: KIND and VALUE, then FIRE under KIND 6 on the lowest-numbered reach in service (R472). -/
def Chip.trcTrigWrite (c : Chip) (p : RegPath) (value : Word64) : Chip :=
  let new := value &&& trcTrigMask
  if !c.allows p 3 then c.ignoreWrite p
  else
    let c := c.rwlWrite p 3 0x5008 c.gate.trcTrig new (fun c => { c with gate := { c.gate with trcTrig := new, trigTimeDone := [] } })
    if !flag value 4 then c
    else match allReaches.find? c.inService with
      | some r => c.fire r 6
      | none => c

/-- TRC_TRIG_FIRE: a write of TRC_TRIG with FIRE 1 (R472). -/
def trcTrigFire (p : RegPath) (value : Word64) (c : Chip) : Chip :=
  if flag value 4 then c.trcTrigWrite p value else c

/-- A write to TRC_TRIG_TIME. -/
def Chip.trcTrigTimeWrite (c : Chip) (p : RegPath) (value : Word64) : Chip :=
  c.rwlWrite p 3 0x5010 c.gate.trcTrigTime value (fun c => { c with gate := { c.gate with trcTrigTime := value, trigTimeDone := [] } })

/-- A write to TRC_STATUS: DUMP_ERR is cleared by a 1, for the operator alone. -/
def Chip.trcStatusWrite (c : Chip) (p : RegPath) (value : Word64) : Chip :=
  if !flag value 9 then c
  else if !c.allows p 3 then c.ignoreWrite p
  else { c with gate := { c.gate with dumpErr := false } }

/-- A write to TRC_DUMP_ADDR. -/
def Chip.trcDumpAddrWrite (c : Chip) (p : RegPath) (value : Word64) : Chip :=
  let new := value &&& trcDumpAddrMask
  c.rwlWrite p 3 0x5020 c.gate.dumpAddr new (fun c => { c with gate := { c.gate with dumpAddr := new } })

/-- A write to a reach's TRC_TILE_MASK. -/
def Chip.trcMaskWrite (c : Chip) (p : RegPath) (r : ReachId) (offset : Nat) (value : Word64) : Chip :=
  c.rwlWrite p 3 offset (c.reach r).trace.tileMask value (fun c => c.onTrace r (fun t => { t with tileMask := value }))

/-- A reach takes part in the recording. -/
def Chip.recording (c : Chip) (r : ReachId) : Bool := flag c.gate.trcCtrl 0 && c.inService r

/-- TRC_STATUS.STATE: off, recording, after a trigger, every reach that records frozen. -/
def Chip.trcState (c : Chip) : Nat :=
  let on := allReaches.filter c.recording
  if !flag c.gate.trcCtrl 0 then 0
  else if !on.isEmpty && on.all (fun r => (c.reach r).trace.frozen) then 3
  else if on.any (fun r => (c.reach r).trace.postLeft.isSome) then 2
  else 1

/-- TRC_STATUS as it reads. -/
def Chip.trcStatus (c : Chip) : Word64 :=
  let frozen := (allReaches.map (fun r => bitAt (c.reach r).trace.frozen (2 + r.val))).sum
  BitVec.ofNat 64 (c.trcState + frozen + c.gate.trigReach.val * 2 ^ 6 + bitAt c.gate.dumpBusy 8 + bitAt c.gate.dumpErr 9)

/-! ### Triggers that come from elsewhere -/

/-- TRACE_TRIGGER_NOTICE: the notice of a trigger that reach `src` fired arrives at reach `r` (R472). -/
def traceTriggerNotice (r : ReachId) (now : Time) (src : ReachId) (c : Chip) : Chip :=
  let c := c.at r now
  if !c.gate.trigNotices.contains (r, src) then c
  else
    let c := { c with gate := { c.gate with trigNotices := c.gate.trigNotices.erase (r, src) } }
    if c.inService r then c.triggerRecord r src else c

/-- TRACE_TRIGGER_TIME: a reach's own fabric time has reached TRC_TRIG_TIME (whole ns), once for each arming (R472). -/
def traceTriggerTime (r : ReachId) (now : Time) (c : Chip) : Chip :=
  let c := c.at r now
  let due := (c.gate.trcTrigTime >>> 16) <<< 16
  if !c.inService r || c.gate.trigTimeDone.contains r || !flag c.gate.trcCtrl 3 || fld c.gate.trcTrig 0 4 != 5
      || !notBefore due (c.now r) then c
  else
    let c := c.fire r 5
    { c with gate := { c.gate with trigTimeDone := c.gate.trigTimeDone ++ [r] } }

/-! ### The trace port (R474) -/

/-- The reach whose turn it is: the first from `trcNext` on that holds records. -/
def Chip.traceTurn (c : Chip) : Option ReachId :=
  ((List.range 4).map (fun k => c.gate.trcNext + Fin.ofNat 4 k)).find? (fun r => !(c.reach r).trace.store.isEmpty)

/-- TRACE_FRAME_SEND: in stream mode up to 16 records of one reach, in turn, leave its share as a frame: a start block and four data
blocks a record (R474). Room comes back, and records that wait are written. -/
def traceFrameSend (c : Chip) : Chip :=
  if !c.streaming then c
  else match c.traceTurn with
    | none => c
    | some r =>
      let t := (c.reach r).trace
      let recs := t.store.take 16
      let c := c.emit (.traceFrame r t.frameNo recs)
      let c := { c with gate := { c.gate with trcNext := r + 1, trcFrames := sat48 (c.gate.trcFrames + 1),
                                              trcBytes := sat48 (c.gate.trcBytes + 8 * (1 + 4 * recs.length)) } }
      c.onTrace r (fun t =>
        let t := { t with store := t.store.drop 16, frameNo := t.frameNo + 1 }
        if t.waiting.isEmpty then t else t.letIn r true (c.now r))

/-- TRACE_ALIGNMENT_BLOCK: all four lanes send an alignment block at once (R474). -/
def traceAlignmentBlock (c : Chip) : Chip := c.emit .traceAlign

/-! ### Dumps (R475) -/

/-- The 32 bytes of a trace record (R469). -/
def traceBytes (x : TraceRec) : List Byte :=
  leBytes 4 (1 + x.kind.toNat * 2 ^ 4 + x.reach.val * 2 ^ 8 + x.src.toNat * 2 ^ 10 + x.function.toNat * 2 ^ 24)
    ++ leBytes 4 x.seq.toNat ++ leBytes 8 x.time.toNat ++ leBytes 8 x.p0.toNat ++ leBytes 8 x.p1.toNat

/-- Reaches that a dump names, ascending. -/
def Chip.dumpReaches (c : Chip) : List ReachId := allReaches.filter (fun r => c.gate.dumpMask.toNat.testBit r.val)

/-- The conditions of a dump: not in stream mode, and each named reach frozen, or tracing off. -/
def Chip.dumpOk (c : Chip) : Bool :=
  !c.streaming && c.dumpReaches.all (fun r => (c.reach r).trace.frozen || !flag c.gate.trcCtrl 0)

/-- Bytes of a reach's region in the dump. -/
def dumpRegion : Nat := 0x4000000

/-- A write to TRC_DUMP_CTRL: REACH_MASK, then GO, which starts a dump where none runs. -/
def Chip.trcDumpWrite (c : Chip) (p : RegPath) (value : Word64) : Chip :=
  let mask := BitVec.ofNat 4 (fld value 4 4)
  if !c.allows p 3 then c.ignoreWrite p
  else if c.gate.dumpBusy then c
  else
    let c := c.rwlWrite p 3 0x5028 (BitVec.ofNat 64 (c.gate.dumpMask.toNat * 16)) (BitVec.ofNat 64 (mask.toNat * 16))
      (fun c => { c with gate := { c.gate with dumpMask := mask } })
    if !flag value 0 then c
    else { c with gate := { c.gate with dumpBusy := c.dumpOk, dumpErr := !c.dumpOk } }

/-- TRC_DUMP_GO: a write of TRC_DUMP_CTRL with GO 1 (R475). -/
def trcDumpGo (p : RegPath) (value : Word64) (c : Chip) : Chip :=
  if flag value 0 then c.trcDumpWrite p value else c

/-- Copy the records of named reaches, the first at region `k`, as far as the first `limit` bytes of the dump: each region holds the
records in SEQ order and then zeros (R475). -/
def Chip.dumpCopy (c : Chip) (limit : Nat) : Nat → List ReachId → Chip
  | _, [] => c
  | k, r :: rs =>
    let lo := dumpRegion * k
    let base := hostKey 0 (c.gate.dumpAddr.toNat + lo)
    let n := min dumpRegion (limit - lo)
    let bytes := ((c.reach r).trace.store.flatMap traceBytes).take n
    let mem := Mem.writeBytes (Mem.zeroRange c.host.mem base (base + n)) base bytes
    Chip.dumpCopy { c with host := { c.host with mem := mem } } limit (k + 1) rs

/-- TRACE_DUMP_DONE: the dump that runs ends; where the host refused an access after `refused` bytes, or a condition no longer holds, it
wrote nothing further and failed (R475). -/
def traceDumpDone (refused : Option Nat) (c : Chip) : Chip :=
  let size := dumpRegion * c.dumpReaches.length
  if !c.gate.dumpBusy then c
  else if !c.dumpOk || c.hostGone 0 || decide (2 ^ 64 < c.gate.dumpAddr.toNat + size) then
    { c with gate := { c.gate with dumpBusy := false, dumpErr := true } }
  else
    let c := c.dumpCopy (refused.getD size) 0 c.dumpReaches
    { c with gate := { c.gate with dumpBusy := false, dumpErr := refused.isSome } }

end Sys2Proof.Machine
end

