-- ==== Sys2Proof/Machine/RegRead.lean ====
section
/-!
DEFINITION. What every set-up register reads (R12, R528 to R537, with the field tables of their chapters).
-/

namespace Sys2Proof.Machine

/-- A register from fields: value and lowest bit. -/
def packed (l : List (Nat × Nat)) : Word64 := BitVec.ofNat 64 ((l.map (fun e => e.1 * 2 ^ e.2)).sum)

/-- 1 for true. -/
def bit1 (b : Bool) : Nat := if b then 1 else 0

/-- Word `k` of some bytes. -/
def wordAt (bs : List Byte) (k : Nat) : Word64 := BitVec.ofNat 64 (leAt bs (8 * k) 8)

/-! ### A reach -/

/-- TIME_STATUS (R56). -/
def TimeDom.statusWord (t : TimeDom) : Word64 :=
  packed [(t.servo.code, 0), (sourceCode t.source, 3), (t.masterPort.toNat, 6), (t.discCount.toNat, 16), (t.offset.toNat, 32)]

/-- STATE0 and STATE1 (R283). -/
def BankState.code : BankState → Nat
  | .active => 0
  | .draining => 1
  | .closed => 2
  | .staged => 3

/-- RTR_EPOCH (R283). -/
def Router.epochWord (x : Router) : Word64 :=
  packed [(x.active.toNat, 0), (x.bank0.state.code, 2), (x.bank1.state.code, 4), ((x.bank x.active).epochNum.toNat, 8), (x.drainUs.toNat, 32)]

/-- RTR_FM (R286). -/
def Router.fmWord (x : Router) : Word64 :=
  packed [(fld x.fm 0 1, 0), (bit1 x.self, 1), (fld x.fm 8 8, 8), (x.elected.toNat, 16), (x.standby.toNat, 32), (fld x.fm 48 16, 48)]

/-- BIST_STATUS (R463). -/
def Reach.bistWord (x : Reach) : Word64 :=
  let b := x.bist
  packed [(b.lastOutcome.toNat, 0), (b.lastKind.toNat, 2), (bit1 (x.service == .held || x.service == .testing), 4), (bit1 b.running, 5),
          (b.hbmNext.toNat, 8), (b.lpNext.toNat, 16), (b.fails.toNat, 32)]

/-- PWR_STATUS (R494). -/
def Chip.pwrWord (c : Chip) (r : ReachId) : Word64 :=
  let p := (c.reach r).pwr
  packed [(c.tclkTarget r, 0), (c.limitOf r, 12), (bit1 (p.tripped || (p.stretchTo (c.floorMhz r) (c.tclkTarget r) (c.now r)).riseStart.isSome), 15),
          (p.dieMax.toNat, 16), (p.memMax.toNat, 24), (bit1 p.railsOk, 32)]

/-- MAC_PORT (R321). -/
def Mac.portWord (m : Mac) : Word64 := packed [(fld m.port 0 8, 0), (m.curRate.toNat, 16), (bit1 m.up, 18)]

/-- MAC_PAUSE (R337). -/
def Mac.pauseWord (m : Mac) (now : Time) : Word64 :=
  putFld (putFld m.pauseReg 54 1 (bit1 ((m.pauseOf 6).ignored now))) 55 1 (bit1 ((m.pauseOf 7).ignored now))

/-- SHP_GATE_CTRL (R344). -/
def Mac.gateWord (m : Mac) : Word64 :=
  packed [(bit1 m.gateEn, 0), (m.gateActive.toNat, 1), (bit1 m.switchAt.isSome, 2), (m.bank0.length, 8), (m.bank1.length, 19), (m.overruns.toNat, 32)]

/-- A gate-list entry (R342). -/
def GateEntry.word (e : GateEntry) : Word64 := packed [(e.gates.toNat, 0), (e.win.toNat, 16), (e.interval, 32), (1, 60)]

/-- COLL_STATUS (R318). -/
def Coll.statusWord (x : Coll) : Word64 := packed [(bit1 x.wharfOk, 0), (bit1 x.testFail, 1), (x.tests.toNat, 16)]

/-- The 32 bytes of a TDC log record (R185). -/
def tdcBytes (x : TdcRecord) : List Byte :=
  leBytes 4 (1 + x.cause.toNat * 2 ^ 8 + x.function.toNat * 2 ^ 16 + x.reach.val * 2 ^ 24) ++ leBytes 4 x.detailA.toNat
    ++ leBytes 8 x.time.toNat ++ leBytes 8 x.detailB.toNat ++ leBytes 8 x.countAfter.toNat

/-- The record in a slot of the TDC log: the n-th since module reset stands in slot n mod 256 (R537). -/
def Tdc.slot (t : Tdc) (i : Nat) : Option TdcRecord := t.log.find? (fun x => (x.countAfter.toNat - 1) % 256 == i)

/-- A word of a log slot, for a reader that may see every record or those of one function (R185, R535). -/
def Tdc.view (t : Tdc) (all : Bool) (f : Option FnId) (slot word : Nat) : Word64 :=
  match t.slot slot with
  | some x => if all || f.any (fun f => x.function.toNat == f.val) then wordAt (tdcBytes x) word else 0
  | none => 0

/-- A word of a slot of the discontinuity log: SEQ mod 64 (R537). -/
def TimeDom.discView (t : TimeDom) (slot word : Nat) : Word64 :=
  match t.disc.find? (fun d => d.seq.toNat % 64 == slot) with
  | some d => wordAt (discBytes d) word
  | none => 0

/-- RME_CAP, RTR_CAP, COLL_CAP, CIPH_CAP of a reach, SHP_CAP (R221, R282, R316, R447, R348). -/
def rmeCapWord : Word64 := packed [(16384, 0), (32768, 16), (64, 32), (16, 40), (16, 48), (1, 56)]
def rtrCapWord : Word64 := packed [(4096, 0), (4096, 16), (256, 32), (9, 41), (256, 45), (1, 56)]
def collCapWord : Word64 := packed [(64, 0), (128, 8), (256, 16), (12, 25), (255, 32), (1, 40)]
def ciphCapWord : Word64 := packed [(4096, 0), (1024, 13), (16, 24), (1, 32)]
def shpCapWord : Word64 := packed [(1024, 0), (72, 11), (64, 18), (9, 25), (1, 29)]

/-- A register of a reach in service, gauges left out. -/
def Chip.winWord (c : Chip) (p : RegPath) (r : ReachId) (w : WinReg) : Word64 :=
  let x := c.reach r
  match w with
  | .timeCtrl => x.time.ctrl
  | .timeStatus => x.time.statusWord
  | .timeNow => x.time.now
  | .timeEra => BitVec.ofNat 64 x.time.era.toNat
  | .timeFloor => x.time.floor
  | .timeDisc s k => x.time.discView s k
  | .planCtrl => x.plan.ctrl
  | .memDredge => x.mem.dredge
  | .rmeCap => rmeCapWord
  | .rmeCtrl => x.rme.ctrl
  | .frtEncap => x.rme.encap
  | .frtDscp => x.rme.dscp
  | .frtRtx => x.rme.rtx
  | .frtCc => x.rme.cc
  | .frtCc2 => x.rme.cc2
  | .rtrCap => rtrCapWord
  | .rtrEpoch => x.rtr.epochWord
  | .rtrValiant => putFld x.rtr.valiantReg 8 9 x.rtr.valiant.length
  | .rtrEcn => x.rtr.ecn
  | .rtrFm => x.rtr.fmWord
  | .collCap => collCapWord
  | .collCtrl => x.coll.ctrl
  | .collStatus => x.coll.statusWord
  | .collHeld => x.coll.held
  | .ciphCap => ciphCapWord
  | .bistSvc => x.bist.svc
  | .bistCtrl => x.bist.ctrl
  | .bistStatus => x.bistWord
  | .pwrClk => x.pwr.clk
  | .pwrStatus => c.pwrWord r
  | .trcMask => x.trace.tileMask
  | .gaugeTdc => BitVec.ofNat 64 x.tdc.count.toNat
  | .gaugeTdcFn f => BitVec.ofNat 64 (Tab.getD x.tdc.fns f.val 0).toNat
  | .tdcLog s k => x.tdc.view (c.allows p 3) (regPathFn p) s k
  | .macPort q => (x.mac q).portWord
  | .macLanemap q => Tab.getD x.lanemap q.val laneMapReset
  | .macSerdes q l => Tab.getD x.serdes (4 * q.val + l.val) serdesReset
  | .macCt q => packed [((x.mac q).level, 0), ((x.mac q).underruns.toNat, 32)]
  | .macPause q => (x.mac q).pauseWord x.time.now
  | .gateCtrl q => (x.mac q).gateWord
  | .shpCap => shpCapWord
  | .pkmap i => packed ((List.range 8).map (fun k => (Tab.getD x.pkmap (i + k) 64, 8 * k)))
  | .sluice q s => ((x.mac q).sluice s).cfg
  | .sluiceTok q s => BitVec.ofNat 64 (BitVec.ofInt 32 (((x.mac q).sluice s).bytesAt x.time.now)).toNat
  | .gateList q b e => match ((x.mac q).gateBank (if b then 1 else 0))[e]? with
    | some g => g.word
    | none => 0
  | .tileFlags t => (x.tile t.val).aflagsWord
  | .tileStatus t => x.seqStatus r t.val
  | .tileIq t => (x.tile t.val).seqIq

/-! ### A function block -/

/-- TEN_STATUS (R414). -/
def TenState.code : TenState → Nat
  | .running => 0
  | .freezing => 1
  | .frozen => 2
  | .saving => 3
  | .restoring => 4

/-- HOST_CAP (R383). -/
def hostCapWord (f : FnId) : Word64 :=
  packed [(1, 0), (1, 8), (255, 16), (if f = 0 then 2048 else 64, 24), (32, 36), (16, 42), (4096, 47), (1, 60)]

/-- HOST_FN_STATUS (R385). -/
def HostFn.statusWord (x : HostFn) : Word64 :=
  packed [(bit1 x.attached, 0), (bit1 x.enabled, 1), (bit1 x.shutdown, 2), (x.attachErr.toNat, 4), (x.rev.toNat, 8), (x.gen.toNat, 16),
          (x.held.length, 32)]

/-- HOST_ADM_ADDR i. -/
def HostFn.admAddr (x : HostFn) (i : Fin 6) : Word64 :=
  match i with
  | 0 => x.adm0
  | 1 => x.adm1
  | 2 => x.adm2
  | 3 => x.adm3
  | 4 => x.adm4
  | 5 => x.adm5

/-- A tile of a function's view: visible where the grant holds its group and the reach answers (R535). -/
def Chip.tileWord (c : Chip) (f : FnId) (r : ReachId) (t : TileId) (g : Tile → Word64) : Word64 :=
  if c.holdsTile f (64 * r.val + t.val) && c.inService r then g ((c.reach r).tile t.val) else 0

/-- A register of a function block, gauges left out. -/
def Chip.fnWord (c : Chip) (p : RegPath) (f : FnId) (x : FnReg) : Word64 :=
  let y := c.fn f
  match x with
  | .hostCap => hostCapWord f
  | .hostRev => packed [(y.offerMin.toNat, 0), (y.offerMax.toNat, 8), (y.sel.toNat, 16)]
  | .ctrl => 0
  | .status => y.statusWord
  | .admCfg => y.admCfg
  | .admAddr i => y.admAddr i
  | .tenStatus => packed [((c.ten f).state.code, 0), ((c.xlt.faults.filter (fun w => w.function == f)).length, 3), ((c.ten f).asidGen.toNat, 16)]
  | .snap => 0
  | .snapTime => (c.snapOf f).time
  | .gaugeVal k => (c.snapOf f).values.getD k 0
  | .tdcFn r => BitVec.ofNat 64 (Tab.getD (c.reach r).tdc.fns f.val 0).toNat
  | .tileFlags r t => c.tileWord f r t Tile.aflagsWord
  | .tileStatus r t => c.tileWord f r t (fun _ => (c.reach r).seqStatus r t.val)
  | .tileIq r t => c.tileWord f r t Tile.seqIq
  | .tdcLog r s k => (c.reach r).tdc.view (p == .pf && c.allows p 3) (some f) s k

/-! ### The gatehouse -/

/-- GATE_START.REACH_STATE of a reach (R501). -/
def ReachService.code : ReachService → Nat
  | .testing => 1
  | .inService => 2
  | .held => 3
  | _ => 0

/-- SESSION_LEFT: whole seconds left (R445). -/
def Chip.sessionLeft (c : Chip) (s : Session) : Nat := min 65535 ((timeDiff c.gateTime s.expiry).toNat / (1000000000 * 65536))

/-- SEC_STATUS for a path (R445). -/
def Chip.secStatus (c : Chip) (p : RegPath) : Word64 :=
  let s := c.sec
  let held := (allReaches.map (fun r => bitAt (s.bootFail.contains 2 && (c.reach r).service == .held) r.val)).sum
  let ses := match c.session p with
    | some x => (x.role.toNat, c.sessionLeft x)
    | none => (0, 0)
  packed [(Tab.getD s.booted 1 0, 0), (held, 1), (bit1 s.recovery, 5), (bit1 s.installer.isSome, 6),
          ((s.keys.filter (fun k => k.role == 3)).length, 7), (ses.1, 11), (ses.2, 16), (s.refused.toNat, 32)]

/-- GATE_STRAP.CHANGED (R520). -/
def Gate.changed (g : Gate) : Bool := g.modidLive != g.modid || g.modeLive != g.mode || g.parityLive != g.parityAs

/-- A gatehouse register. -/
def Chip.gateWord (c : Chip) (p : RegPath) (x : GateReg) : Word64 :=
  let g := c.gate
  match x with
  | .cap => packed [(4, 0), (64, 3), (64, 11), (1, 18), (1, 22)]
  | .id => c.sec.eui
  | .start => packed ([(bit1 g.ready, 0), (bit1 g.clean, 1), (g.tested.toNat, 12), (g.readyMs.toNat, 32)]
      ++ allReaches.map (fun r => ((c.reach r).service.code, 2 * r.val + 4)))
  | .shut => packed [(bit1 g.noTest, 1), (g.shutState.toNat, 4), (g.drainMs.toNat, 16)]
  | .strap => packed [(g.modid.toNat, 0), (bit1 g.parity, 10), (bit1 g.mode, 11), (bit1 g.changed, 12)]
  | .hostClk => packed [(c.host.clkMode.toNat, 0), (c.host.clkActive.toNat, 2), (bit1 (clkInForce c.host.clkMode != c.host.clkActive), 4)]
  | .secStatus => c.secStatus p
  | .secLog => packed [(c.sec.log.length, 0), (bit1 (decide (logMax ≤ c.sec.log.length)), 17), (bit1 (decide (logWarn ≤ c.sec.log.length)), 18),
      (c.sec.logNext.toNat, 32)]
  | .pwrCap => g.cap
  | .xltCap => packed [(65535, 0), (64, 16), (64, 23), (7, 30), (262143, 33), (1, 60)]
  | .xltCtrl => c.xlt.ctrl
  | .ciphCap => packed [(256, 0), (256, 13), (16, 24), (1, 32)]
  | .ciphCtrl => c.sec.ciphCtrl
  | .trcCtrl => g.trcCtrl
  | .trcTrig => g.trcTrig
  | .trcTrigTime => g.trcTrigTime
  | .trcStatus => c.trcStatus
  | .trcDumpAddr => g.dumpAddr
  | .trcDumpCtrl => packed [(g.dumpMask.toNat, 4)]

/-! ### Reading -/

/-- The owner of a register that is a gauge (R466): a function, or none for a global one. -/
def Chip.gaugeOwner (c : Chip) (a : RegAddr) : Option (Option FnId) :=
  match a with
  | .win _ .gaugeTdc => some none
  | .win _ (.gaugeTdcFn f) => some (some f)
  | .fn f (.tdcFn _) => some (some f)
  | .fn f (.gaugeVal _) => some (c.snapOf f).owner
  | _ => none

/-- What a register holds for a path: the window of a reach in reset or held reads zero but for BIST_STATUS and PWR_STATUS (R530). -/
def Chip.regWord (c : Chip) (p : RegPath) (a : RegAddr) : Word64 :=
  match a with
  | .gate g => c.gateWord p g
  | .fn f x => c.fnWord p f x
  | .win r w => if c.inService r || w == .bistStatus || w == .pwrStatus then c.winWord p r w else 0

/-- A path reads a register: a gauge that it may not read gives zero and counts as denied (R466). -/
def Chip.regRead (c : Chip) (p : RegPath) (a : RegAddr) : Word64 × Chip :=
  match c.gaugeOwner a with
  | none => (c.regWord p a, c)
  | some owner => if c.mayGauge p owner then (c.regWord p a, c) else (0, c.gaugeDenied p)

end Sys2Proof.Machine
end

