-- ==== Sys2Proof/Machine/Maint.lean ====
section
/-!
DEFINITION. The maintenance service of a reach (R504 to R506, R539): echoes, maintenance contexts, and the node mirror.
-/

namespace Sys2Proof.Machine

/-- What an ECHO_RESP says of the context: STATUS, RESP_QPN, RESP_PSN. -/
structure EchoSays where
  status : Nat
  qpn : BitVec 24
  psn : BitVec 24
  deriving DecidableEq, Repr

/-- No context. -/
def noContext (status : Nat) : EchoSays := { status := status, qpn := 0xFFFFFF, psn := 0 }

/-- Key 0x0001 carries CTRL_ONLY (R274). -/
def Reach.ctrlOnly (x : Reach) : Bool := match x.rtr.partFind 1 with
  | some (_, w) => flag w 35
  | none => true

/-- Number of a maintenance context. -/
def maintQpn (r : ReachId) (i : Nat) : BitVec 24 := BitVec.ofNat 24 (r.val * 2 ^ 14 + i)

/-- A maintenance context (R504). -/
def maintQp (x : Reach) (r : ReachId) (i : Nat) (src : Word16) (q : EchoReq) (psn : BitVec 24) : Qp :=
  let p : QpParams := { fmt := 1, owner := 2, encap := false, ciphEn := false, pkey := 1, qpn := maintQpn r i, peerNode := src, peerQpn := q.reqQpn,
                        asid := 0, cqRing := 0, maxRd := 15, rnrRetry := 0, rnrTimer := 0, rqDepth := 0 }
  (newQp p 0 0 false (x.ciphIndex 1)).open x.rme x.time.now psn q.reqPsn 0 0

/-- OPEN: the existing context of the requester, or a new one at the lowest free index, with a free initial PSN. -/
def Chip.maintOpen (c : Chip) (r : ReachId) (src : Word16) (q : EchoReq) : EchoSays × Chip :=
  let x := c.reach r
  if x.ctrlOnly then (noContext 2, c)
  else match List.find? (fun e => e.2.1 == src && e.2.2.1 == q.reqQpn) x.maint with
    | some e => ({ status := 0, qpn := maintQpn r e.1, psn := e.2.2.2 }, c)
    | none =>
      match Tab.lowestFree x.maint 0x3FC0 64 with
      | none => (noContext 1, c)
      | some i =>
        let (w, c) := c.free
        let psn := w.setWidth 24
        let qp := maintQp x r i src q psn
        ({ status := 0, qpn := maintQpn r i, psn := psn },
         c.onReach r (fun x => { x with maint := Tab.set x.maint i (src, q.reqQpn, psn), rme := { x.rme with qps := Tab.set x.rme.qps i qp } }))

/-- ECHO_REQ: answered with an ECHO_RESP to its source (R504, R506). -/
def echoReq (r : ReachId) (now : Time) (src : Word16) (q : EchoReq) (c : Chip) : Chip :=
  let c := (c.at r now).takeKeeper r (isKeeper (.echoReq q))
  if !c.inService r then c
  else
    let (tells, c) := if q.open_ then c.maintOpen r src q else (noContext 0, c)
    let a : EchoResp := { token := q.token, status := BitVec.ofNat 8 tells.status, respQpn := tells.qpn, respPsn := tells.psn,
                          reqTime := q.reqTime, respTime := c.now r }
    c.sendKeeper r src (.echoResp a)

/-- ECHO_RESP: the requesting keeper takes the answer. -/
def echoResp (r : ReachId) (now : Time) (a : EchoResp) (c : Chip) : Chip := (c.at r now).takeKeeper r (isKeeper (.echoResp a))

/-- MAINTENANCE_CONTEXT_IDLE: a maintenance context without a packet for 10 s goes (R504). -/
def maintenanceContextIdle (r : ReachId) (now : Time) (i : Fin 64) (c : Chip) : Chip :=
  let c := c.at r now
  let k := 0x3FC0 + i.val
  match Tab.find? (c.reach r).rme.qps k with
  | none => c
  | some q =>
    if timeDiff q.lastPkt (c.now r) < nsUnits (10 * secondNs) then c
    else c.onReach r (fun x => { x with maint := Tab.erase x.maint k, rme := { x.rme with qps := Tab.erase x.rme.qps k } })

/-! ### The node mirror (R539) -/

/-- Port record of the mirror. -/
def Reach.mirrorPort (x : Reach) (p : PortId) : List Byte :=
  let q := x.port p
  leBytes 2 q.state.code ++ leBytes 2 (q.peer.getD 0xFFFF).toNat ++ leBytes 12 (if p.val < 4 then (x.mac p).curRate.toNat else 4)

/-- Link-state entry of the mirror. -/
def mirrorLsa (db : List Lsa) (n : Nat) : List Byte :=
  let l := lsaOf db n
  let peer := fun (q : PortId) => match l.bind (fun l => l.links.find? (fun e => e.1 == q)) with
    | some e => e.2.toNat
    | none => 0xFFFF
  leBytes 2 n ++ leBytes 2 (bit1 l.isSome) ++ leBytes 4 (match l with | some l => l.seq.toNat | none => 0)
    ++ allPorts.flatMap (fun q => leBytes 4 (peer q)) ++ List.replicate 28 0

/-- The head of the mirror: status words and MIRROR_SEQ. -/
def Reach.mirrorHead (x : Reach) (seq : Word64) : List Byte :=
  [x.time.statusWord, x.time.now, x.rtr.epochWord, x.bistWord, seq].flatMap (fun w => leBytes 8 w.toNat)

/-- Bytes of the node mirror's mooring. -/
def mirrorBytes : Nat := 0x100000

/-- MIRROR_REFRESH_TIMER: the mirror is written anew; MIRROR_SEQ rises before and after, so it stands even again. -/
def mirrorRefreshTimer (r : ReachId) (now : Time) (c : Chip) : Chip :=
  let c := c.at r now
  if !c.inService r then c
  else c.onReach r (fun x =>
    let seq := x.mirrorSeq + 2
    let m := Mem.zeroRange x.mem.bytes mirrorPa (mirrorPa + mirrorBytes)
    let m := Mem.writeBytes m mirrorPa (x.mirrorHead seq)
    let m := Mem.writeBytes m (mirrorPa + 0x100) (allPorts.flatMap x.mirrorPort)
    let m := Mem.writeBytes m (mirrorPa + 0x10000) ((List.range 4096).flatMap (mirrorLsa x.rtr.lsdb))
    { x with mirrorSeq := seq, mem := { x.mem with bytes := m } })

end Sys2Proof.Machine
end

