-- ==== Sys2Proof/Machine/FabricCmds.lean ====
section
/-!
DEFINITION. Routers, survey, epochs, the fabric manager and maintenance contexts (R258 to R286, R504, R539): one meaning for each
command, over the shared operations.
-/

namespace Sys2Proof.Machine

/-- FRAME_FORWARD: A frame reaches the router and is routed by epoch, Valiant pick, planned route or backup, with partition
checks (R265). -/
def execFrameForward (r : ReachId) (now : Time) (s : State) : Host.Outcome State Fault Refusal :=
  s.run (frameForward r now)

/-- SURVEY_TX_TIMER: Every 1 ms a SURVEY frame is sent on every port (R261). -/
def execSurveyTxTimer (r : ReachId) (now : Time) (s : State) : Host.Outcome State Fault Refusal :=
  s.run (surveyTxTimer r now)

/-- SURVEY_RX: A SURVEY frame arrives and may move the port from TRAINING to HELD (R261). -/
def execSurveyRx (r : ReachId) (now : Time) (p : PortId) (survey : Survey) (s : State) : Host.Outcome State Fault Refusal :=
  s.run (surveyRx r now p survey)

/-- PORT_USABLE_TIMER: A HELD port completes 100 ms without a missed SURVEY or fault and becomes USABLE (R261). -/
def execPortUsableTimer (r : ReachId) (now : Time) (p : PortId) (s : State) : Host.Outcome State Fault Refusal :=
  s.run (portUsableTimer r now p)

/-- SURVEY_LOSS: Three SURVEY intervals pass without a frame and the USABLE port goes DOWN (R261). -/
def execSurveyLoss (r : ReachId) (now : Time) (p : PortId) (s : State) : Host.Outcome State Fault Refusal :=
  s.run (surveyLoss r now p)

/-- LSA_RX: An LSA arrives; the newest is kept and the node rebuilds its inactive bank without a fabric manager (R262). -/
def execLsaRx (r : ReachId) (now : Time) (p : PortId) (l : Lsa) (s : State) : Host.Outcome State Fault Refusal :=
  s.run (lsaRx r now p l)

/-- LSA_FLOOD_TIMER: Every 1 s each node floods its LSA (R262). -/
def execLsaFloodTimer (r : ReachId) (now : Time) (s : State) : Host.Outcome State Fault Refusal :=
  s.run (lsaFloodTimer r now)

/-- LINK_NOTICE_RX: A LINK_NOTICE reaches the fabric manager (R279). -/
def execLinkNoticeRx (r : ReachId) (now : Time) (node : Word16) (port : PortId) (s : State) : Host.Outcome State Fault Refusal :=
  s.run (linkNoticeRx r now node port)

/-- CMAP_TX_TIMER: Every 100 µs each router sends its congestion map to the fabric manager (R277). -/
def execCmapTxTimer (r : ReachId) (now : Time) (hist : List (List Word16)) (s : State) : Host.Outcome State Fault Refusal :=
  s.run (cmapTxTimer r now hist)

/-- CMAP_RX: A congestion map reaches the fabric manager (R277). -/
def execCmapRx (r : ReachId) (now : Time) (m : Cmap) (s : State) : Host.Outcome State Fault Refusal :=
  s.run (cmapRx r now m)

/-- TABLE_WRITE_RX: A TABLE_WRITE arrives; the node writes and stages its inactive bank and answers TABLE_ACK (R272). -/
def execTableWriteRx (r : ReachId) (now : Time) (src : Word16) (num : BitVec 24) (entries : List (Nat × Word32)) (valiant : List Word16) (s : State) : Host.Outcome State Fault Refusal :=
  s.run (tableWriteRx r now src num entries valiant)

/-- TABLE_ACK_RX: A TABLE_ACK reaches the fabric manager, which sends FLIP once all are held (R272). -/
def execTableAckRx (r : ReachId) (now : Time) (src : Word16) (num : BitVec 24) (refused : Bool) (s : State) : Host.Outcome State Fault Refusal :=
  s.run (tableAckRx r now src num refused)

/-- TABLE_ACK_TIMEOUT: A TABLE_ACK is missing after 1 ms and the fabric manager abandons the change (R273). -/
def execTableAckTimeout (r : ReachId) (now : Time) (s : State) : Host.Outcome State Fault Refusal :=
  s.run (tableAckTimeout r now)

/-- FLIP_RX: A FLIP arrives, sets T_flip and is answered with FLIP_ACK (R272). -/
def execFlipRx (r : ReachId) (now : Time) (src : Word16) (num : BitVec 24) (tFlip : Time) (s : State) : Host.Outcome State Fault Refusal :=
  s.run (flipRx r now src num tFlip)

/-- FLIP_ACK_RX: A FLIP_ACK reaches the fabric manager (R272). -/
def execFlipAckRx (r : ReachId) (now : Time) (src : Word16) (num : BitVec 24) (s : State) : Host.Outcome State Fault Refusal :=
  s.run (flipAckRx r now src num)

/-- FLIP_REPEAT_TIMER: Every 100 µs the fabric manager repeats FLIP to a node that has not answered (R273). -/
def execFlipRepeatTimer (r : ReachId) (now : Time) (s : State) : Host.Outcome State Fault Refusal :=
  s.run (flipRepeatTimer r now)

/-- EPOCH_FLIP: Fabric time reaches T_flip and the STAGED bank becomes ACTIVE, the old one DRAINING (R272). -/
def execEpochFlip (r : ReachId) (now : Time) (s : State) : Host.Outcome State Fault Refusal :=
  s.run (epochFlip r now)

/-- EPOCH_DRAIN_END: RTR_EPOCH.DRAIN elapses and the DRAINING bank becomes CLOSED (R272). -/
def execEpochDrainEnd (r : ReachId) (now : Time) (s : State) : Host.Outcome State Fault Refusal :=
  s.run (epochDrainEnd r now)

/-- FM_HELLO_TIMER: Every 100 µs the fabric manager sends FM_HELLO (R276). -/
def execFmHelloTimer (r : ReachId) (now : Time) (s : State) : Host.Outcome State Fault Refusal :=
  s.run (fmHelloTimer r now)

/-- FM_HELLO_RX: An FM_HELLO arrives at a node (R276). -/
def execFmHelloRx (r : ReachId) (now : Time) (src : Word16) (s : State) : Host.Outcome State Fault Refusal :=
  s.run (fmHelloRx r now src)

/-- FM_TAKEOVER: The standby hears no FM_HELLO for 1 ms and takes over, or nodes return to their own tables (R276). -/
def execFmTakeover (r : ReachId) (now : Time) (s : State) : Host.Outcome State Fault Refusal :=
  s.run (fmTakeover r now)

/-- LINK_FAULT: A port receives Local or Remote Fault or loses FEC alignment and enters DOWN, using backups (R279). -/
def execLinkFault (r : ReachId) (now : Time) (p : PortId) (s : State) : Host.Outcome State Fault Refusal :=
  s.run (linkFault r now p)

/-- LINK_UP: A link trains with FEC lock and the port enters TRAINING (R261). -/
def execLinkUp (r : ReachId) (now : Time) (p : PortId) (peerAdv rxInv : BitVec 4) (rxOrder : BitVec 8) (s : State) : Host.Outcome State Fault Refusal :=
  s.run (linkUp r now p peerAdv rxInv rxOrder)

/-- ECHO_REQ: An ECHO_REQ arrives and is answered, optionally creating a maintenance context (R504). -/
def execEchoReq (r : ReachId) (now : Time) (src : Word16) (q : EchoReq) (s : State) : Host.Outcome State Fault Refusal :=
  s.run (echoReq r now src q)

/-- ECHO_RESP: An ECHO_RESP arrives at the requester (R504). -/
def execEchoResp (r : ReachId) (now : Time) (a : EchoResp) (s : State) : Host.Outcome State Fault Refusal :=
  s.run (echoResp r now a)

/-- MAINTENANCE_CONTEXT_IDLE: A maintenance context has had no packet for 10 s and is destroyed (R504). -/
def execMaintenanceContextIdle (r : ReachId) (now : Time) (idx : Fin 64) (s : State) : Host.Outcome State Fault Refusal :=
  s.run (maintenanceContextIdle r now idx)

/-- MIRROR_REFRESH_TIMER: Every 100 µs the node mirror is refreshed with MIRROR_SEQ bracketing (R539). -/
def execMirrorRefreshTimer (r : ReachId) (now : Time) (s : State) : Host.Outcome State Fault Refusal :=
  s.run (mirrorRefreshTimer r now)

end Sys2Proof.Machine
end

