-- ==== Sys2Proof/Machine/RegRwl.lean ====
section
/-!
DEFINITION. The RWL installer registers of a reach window (R12, R281): their writable bits, and what a value does when it is written or put
back after a reach reset.
-/

namespace Sys2Proof.Machine

/-- Writable RWL bits of a register of a reach window whose fields are the installer's. -/
def rwlMask : WinReg → Option Word64
  | .timeCtrl => some 0x0000FFFFFFFFFF0F
  | .planCtrl => some 0xFFFF
  | .memDredge => some 0xFFFFFF03
  | .rmeCtrl => some 0xFF0FFF
  | .frtEncap => some 0xFF071FFFFF
  | .frtDscp => some 0xFFFFFFFFFFFF
  | .frtRtx => some 0xFFFFFF0FFFFF
  | .frtCc => some 0xFFFFFFFFFFFFFFFF
  | .frtCc2 => some 0xFFFFFFFFFFFFFFFF
  | .rtrEpoch => some 0x0000FFFF00000000
  | .rtrValiant => some 0xFFFFFFFF0000003F
  | .rtrEcn => some 0xFFFF
  | .rtrFm => some 0xFFFF00000000FF01
  | .collCtrl => some 0x1FFFFFFFF
  | .bistSvc => some 0xFFFFFFFF01
  | .bistCtrl => some 0xFF007F1F07
  | .pwrClk => some 7
  | .macPort _ => some 0xFF
  | .macLanemap _ => some 0xF
  | .macSerdes _ _ => some 0x033F3F3F
  | .macPause _ => some 0x003FFFFF3FFFFFFF
  | .pkmap _ => some 0xFFFFFFFFFFFFFFFF
  | _ => none

/-- Entry 63 of a port's filters follows UDP_DPORT until it is written (R333). -/
def Mac.followDport (m : Mac) (dport : Word16) : Mac :=
  if m.filter63 then m else { m with filters := Tab.set m.filters 63 { (Tab.getD m.filters 63 FilterEntry.blank) with udp := dport } }

/-- The eight bytes of SHP_PKMAP from entry `i` on. -/
def putPkmap (t : Tab Nat) (i : Nat) (v : Word64) : Tab Nat := (List.range 8).foldl (fun t k => Tab.set t (i + k) (fld v (8 * k) 8)) t

/-- A value of the RWL bits of a register takes its place. -/
def Reach.rwlSet (x : Reach) (w : WinReg) (v : Word64) : Reach :=
  match w with
  | .timeCtrl => { x with time := { x.time with ctrl := v } }
  | .planCtrl => { x with plan := { x.plan with ctrl := v } }
  | .memDredge => { x with mem := { x.mem with dredge := v } }
  | .rmeCtrl => { x with rme := { x.rme with ctrl := v } }
  | .frtEncap =>
    let x := { x with rme := { x.rme with encap := v } }
    forEach allPorts x (fun x p => x.onMac p (fun m => m.followDport (BitVec.ofNat 16 (fld v 0 16))))
  | .frtDscp => { x with rme := { x.rme with dscp := v } }
  | .frtRtx => { x with rme := { x.rme with rtx := v } }
  | .frtCc => { x with rme := { x.rme with cc := v } }
  | .frtCc2 => { x with rme := { x.rme with cc2 := v } }
  | .rtrEpoch => { x with rtr := { x.rtr with drainUs := BitVec.ofNat 16 (fld v 32 16) } }
  | .rtrValiant => { x with rtr := { x.rtr with valiantReg := v } }
  | .rtrEcn => { x with rtr := { x.rtr with ecn := v } }
  | .rtrFm => { x with rtr := { x.rtr with fm := v } }
  | .collCtrl => { x with coll := { x.coll with ctrl := v } }
  | .bistSvc => { x with bist := { x.bist with svc := v } }
  | .bistCtrl => { x with bist := { x.bist with ctrl := v } }
  | .pwrClk => { x with pwr := { x.pwr with clk := v } }
  | .macPort p => x.onMac p (fun m => { m with port := v })
  | .macLanemap p => { x with lanemap := Tab.modify x.lanemap p.val laneMapReset (fun o => putFld o 0 4 v.toNat) }
  | .macSerdes p l => { x with serdes := Tab.set x.serdes (4 * p.val + l.val) v }
  | .macPause q => x.onMac q (fun m =>
    { m with pauseReg := v, pfcSent := m.pfcSent.filter (fun e => (fld v 24 6).testBit e.1) })
  | .pkmap i => { x with pkmap := putPkmap x.pkmap i v }
  | _ => x

/-- After a reach reset the gatehouse rewrites what it keeps a copy of (R281): registers, partition and address tables, filters, sluices, the
tenancy queue map. -/
def Reach.restore (x : Reach) (s : SiteCopy) : Reach :=
  let x := forEach s.regs x (fun x e => match winReg e.1 with
    | some .trcMask => { x with trace := { x.trace with tileMask := e.2 } }
    | some w => x.rwlSet w e.2
    | none => x)
  let x := { x with rtr := { x.rtr with parts := forEach s.parts x.rtr.parts (fun t e => Tab.set t e.1 e.2) }
                    addr := forEach s.addr x.addr (fun t e => Tab.set t e.1 e.2) }
  let x := forEach s.filters x (fun x e => match portOf e.1 with
    | some p => x.onMac p (fun m => forEach e.2 m (fun m k => { m with filters := Tab.set m.filters k.1 k.2, filter63 := m.filter63 || k.1 == 63 }))
    | none => x)
  forEach s.sluices x (fun x e => match portOf e.1 with
    | some p => x.onMac p (fun m => forEach e.2 m (fun m k => { m with sluices := Tab.set m.sluices k.1 (Sluice.configure k.2 x.time.now) }))
    | none => x)

end Sys2Proof.Machine
end

