-- ==== Sys2Proof/Machine/SpdmOps.lean ====
section
/-!
DEFINITION. The SPDM responder (R433, R434). The spec names the messages, the algorithms, the slot and the measurements; the order of
messages, their codes and the transcript are those of the SPDM standard it names (NOTES.md, Assumptions). A response is sent as its
message code and the fields that the spec states; `msg` is the request's bytes.
-/

namespace Sys2Proof.Machine

/-- SPDM of one endpoint's connection. -/
def Chip.spdmOf (c : Chip) (eid : BitVec 8) : SpdmConn := Tab.getD c.sec.spdm eid.toNat SpdmConn.reset

/-- Put the connection of an endpoint. -/
def Chip.setSpdm (c : Chip) (eid : BitVec 8) (x : SpdmConn) : Chip :=
  { c with sec := { c.sec with spdm := Tab.set c.sec.spdm eid.toNat x } }

/-- Codes of SPDM responses, and of the errors that a request meets. -/
def spdmError : BitVec 8 := 0x7F
def errInvalid : Byte := 0x01
def errUnexpected : Byte := 0x04

/-- Answer with an error. -/
def Chip.spdmRefuse (c : Chip) (eid : BitVec 8) (code : Byte) : Chip := c.emit (.spdm eid spdmError [code])

/-- The identity chain of slot 0, and its digest. -/
def slot0Digest : List Byte := beBytes 48 (sha384 (Config.identityChain 0)).toNat

/-- GET_VERSION: a new negotiation begins; versions 1.2 and 1.3. -/
def spdmGetVersion (eid : BitVec 8) (msg : List Byte) (c : Chip) : Chip :=
  let data : List Byte := [0x12, 0x13]
  (c.setSpdm eid { SpdmConn.reset with version := true, vca := msg ++ data }).emit (.spdm eid 0x04 data)

/-- GET_CAPABILITIES: certificates, challenge and signed measurements. -/
def spdmGetCapabilities (eid : BitVec 8) (msg : List Byte) (c : Chip) : Chip :=
  let x := c.spdmOf eid
  if !x.version || x.caps then c.spdmRefuse eid errUnexpected
  else
    let data : List Byte := [0x16]
    (c.setSpdm eid { x with caps := true, vca := x.vca ++ msg ++ data }).emit (.spdm eid 0x61 data)

/-- NEGOTIATE_ALGORITHMS: Ed25519, SHA-384, and SHA-384 for measurements, where the requester offers them. -/
def spdmNegotiateAlgorithms (eid : BitVec 8) (msg : List Byte) (offered : Bool) (c : Chip) : Chip :=
  let x := c.spdmOf eid
  if !x.caps || x.algs then c.spdmRefuse eid errUnexpected
  else if !offered then c.spdmRefuse eid errInvalid
  else
    let data : List Byte := [1, 2, 2]
    (c.setSpdm eid { x with algs := true, vca := x.vca ++ msg ++ data }).emit (.spdm eid 0x63 data)

/-- GET_DIGESTS: the digest of slot 0's chain. -/
def spdmGetDigests (eid : BitVec 8) (msg : List Byte) (c : Chip) : Chip :=
  let x := c.spdmOf eid
  if !x.algs then c.spdmRefuse eid errUnexpected
  else
    let data := (1 : Byte) :: slot0Digest
    (c.setSpdm eid { x with certs := x.certs ++ msg ++ data }).emit (.spdm eid 0x01 data)

/-- GET_CERTIFICATE: a piece of slot 0's chain; no other slot holds one. -/
def spdmGetCertificate (eid : BitVec 8) (msg : List Byte) (slot offset length : Nat) (c : Chip) : Chip :=
  let x := c.spdmOf eid
  let chain := Config.identityChain 0
  if !x.algs then c.spdmRefuse eid errUnexpected
  else if slot != 0 || chain.length < offset then c.spdmRefuse eid errInvalid
  else
    let data := (chain.drop offset).take length
    (c.setSpdm eid { x with certs := x.certs ++ msg ++ data }).emit (.spdm eid 0x02 data)

/-! ### Measurements (table "Measurement indices") -/

/-- The header of the image in force of a type. -/
def Sec.headerInForce (s : Sec) (type : Nat) : List Byte :=
  let key := 2 * type + Tab.getD s.booted type 0
  match Tab.find? s.images key with
  | some i => i.header
  | none => Config.provisionedHeader key

/-- One measurement, with the free bytes that index 7 takes: the spec lays out no bytes of the configuration region. -/
def Chip.measure (c : Chip) (i : Nat) : List Byte × Chip :=
  let s := c.sec
  match i with
  | 1 => (beBytes 48 Config.bootRomDigest.toNat, c)
  | 2 | 3 | 4 | 5 =>
    let h := s.headerInForce (i - 1)
    (sliceBytes h 0x20 48 ++ sliceBytes h 8 4 ++ leBytes 1 (Tab.getD s.booted (i - 1) 0) ++ sliceBytes h 0x50 8, c)
  | 6 => ([1, 2, 3, 4].flatMap (fun t => leBytes 4 (s.counter t)), c)
  | 7 => c.freeBytes 48
  | 8 => (leBytes 4 (s.logNext - 1).toNat ++ beBytes 48 s.lastDigest.toNat, c)
  | 9 => (s.keys.flatMap (fun k => leBytes 8 k.keyId.toNat), c)
  | 10 => (leBytes 1 (bitAt s.recovery 0) ++ leBytes 1 (allReaches.foldl (fun n r => n + bitAt ((c.reach r).service == .held) r.val) 0)
      ++ leBytes 1 (bitAt (s.bootFail.contains 3) 0), c)
  | _ => ([], c)

/-- The measurements that an operation asks for: 0 their count alone, 0xFF all, else one index. -/
def Chip.measures (c : Chip) (op : Nat) : List Byte × Chip :=
  if op = 0 then ([10], c)
  else if op = 0xFF then
    (List.range 10).foldl (fun (s : List Byte × Chip) i => let (b, c) := s.2.measure (i + 1); (s.1 ++ b, c)) ([], c)
  else c.measure op

/-- A signed response: a free nonce, then the signature over the transcript's hash. -/
def Chip.spdmSigned (c : Chip) (transcript data : List Byte) : List Byte × BitVec 384 × Chip :=
  let (nonce, c) := c.freeBytes 32
  let h := sha384 (transcript ++ data ++ nonce)
  (data ++ nonce ++ Config.edSign (beBytes 48 h.toNat), h, c)

/-- CHALLENGE: a signed CHALLENGE_AUTH over the negotiation, the certificates and this exchange. `summary` asks for the measurements. -/
def spdmChallenge (eid : BitVec 8) (msg : List Byte) (slot : Nat) (summary : Bool) (c : Chip) : Chip :=
  let x := c.spdmOf eid
  if !x.algs then c.spdmRefuse eid errUnexpected
  else if slot != 0 then c.spdmRefuse eid errInvalid
  else
    let (m, c) := if summary then c.measures 0xFF else ([], c)
    let sum := if summary then beBytes 48 (sha384 m).toNat else []
    let (data, h, c) := c.spdmSigned (x.vca ++ x.certs ++ msg) (slot0Digest ++ sum)
    (c.setSpdm eid { x with certs := [], lastSigned := some h }).emit (.spdm eid 0x03 data)

/-- GET_MEASUREMENTS: measurements by index, signed on request over the negotiation and the measurements since the last signature. -/
def spdmGetMeasurements (eid : BitVec 8) (msg : List Byte) (op : BitVec 8) (sign : Bool) (c : Chip) : Chip :=
  let x := c.spdmOf eid
  if !x.algs then c.spdmRefuse eid errUnexpected
  else if 10 < op.toNat && op != 0xFF then c.spdmRefuse eid errInvalid
  else
    let (data, c) := c.measures op.toNat
    if sign then
      let (data, h, c) := c.spdmSigned (x.vca ++ x.meas ++ msg) data
      (c.setSpdm eid { x with meas := [], lastSigned := some h }).emit (.spdm eid 0x60 data)
    else (c.setSpdm eid { x with meas := x.meas ++ msg ++ data }).emit (.spdm eid 0x60 data)

/-- PQ_COSIGN: the ML-DSA-65 signature of the last signed response's transcript hash and the EUI-64 (R434). -/
def pqCosign (eid : BitVec 8) (c : Chip) : Chip :=
  match (c.spdmOf eid).lastSigned with
  | none => c.spdmRefuse eid errUnexpected
  | some h => c.emit (.spdm eid 0x7E (Config.mlSign (beBytes 48 h.toNat ++ leBytes 8 c.sec.eui.toNat)))

/-- PQ_CHAIN: a piece of at most 1,024 bytes of the ML-DSA-65 identity chain (R434). -/
def pqChain (eid : BitVec 8) (offset length : Nat) (c : Chip) : Chip :=
  c.emit (.spdm eid 0x7E (((Config.identityChain 1).drop offset).take (min length 1024)))

end Sys2Proof.Machine
end

