-- ==== Sys2Proof/Machine/StartOps.lean ====
section
/-!
DEFINITION. Start-up and its end (chapters 14, 15, 18, 19): module reset and boot (R31, R415, R416), the low-speed signals (R476 to R480, R515
to R521), the stored self-test record (R460, R499, R500), entry into service, the end of a reach reset (R281, R392).
-/

namespace Sys2Proof.Machine

/-! ### Module reset (R31, R512) -/

/-- What a reach keeps through a module reset: in the secure flash its repair table with the retired pages, its last self-test record,
BIST_CTRL and TX_INV. -/
def Reach.moduleReset (x : Reach) (rails : Fin 8) : Reach :=
  { Reach.reset with
    service := if rails = 7 then .starting else .inReset
    mem := { MemState.reset with repair := x.mem.repair, retired := x.mem.retired }
    bist := { Bist.reset with ctrl := x.bist.ctrl, record := x.bist.record }
    pwr := { Power.reset with rails := rails }
    lanemap := Tab.mapVals x.lanemap (fun v => putFld laneMapReset 0 4 (fld v 0 4)) }

/-- What the root of trust keeps: the secure flash. Key slots of kinds 3 and 4 persist (R435). -/
def Sec.moduleReset (s : Sec) : Sec :=
  { Sec.reset with
    eui := s.eui
    keys := s.keys
    reqSeq := s.reqSeq
    rollback := s.rollback
    images := s.images
    flashOk := s.flashOk
    logFlashOk := s.logFlashOk
    log := s.log
    logNext := s.logNext
    lastDigest := s.lastDigest
    reserve := s.reserve
    seals := s.seals
    gate := { CipherEngine.reset with slots := s.gate.slots.filter (fun e => e.2.kind == 3 || e.2.kind == 4) } }

/-- What the gatehouse keeps: the pins with their latches. -/
def Gate.moduleReset (g : Gate) : Gate :=
  { Gate.reset with
    pwrEn := g.pwrEn, perstN := g.perstN, mrstN := g.mrstN, pwrgd := g.pwrgd, thermTrip := g.thermTrip, thermTrips := g.thermTrips,
    cutOff := g.cutOff, modidLive := g.modidLive, parityLive := g.parityLive, modeLive := g.modeLive }

/-- Module reset: everything but the secure flash; `rails` says how many rails of each reach stand. -/
def Chip.moduleReset (c : Chip) (rails : Quad (Fin 8)) : Chip :=
  { c with
    reaches := c.reaches.mapIdx (fun r x => x.moduleReset (rails.get r))
    host := { HostPort.reset with clkMode := c.host.clkMode, mem := c.host.mem }
    xlt := Xlt.reset
    sec := c.sec.moduleReset
    gate := c.gate.moduleReset }

/-- No rail stands. -/
def noRails : Quad (Fin 8) := Quad.pure 0

/-! ### Boot (R415 to R417) -/

/-- Header and SVN of what a flash slot holds: key 2 × TYPE + slot. -/
def Sec.slotHeader (s : Sec) (key : Nat) : List Byte := match Tab.find? s.images key with
  | some i => i.header
  | none => Config.provisionedHeader key
def Sec.slotSvn (s : Sec) (key : Nat) : Nat := leAt (s.slotHeader key) 8 4

/-- The image in a slot passes R417; of the provisioned images only the SVN is judged here. -/
def Sec.slotOk (s : Sec) (type slot : Nat) : Bool :=
  let key := 2 * type + slot
  match Tab.find? s.images key with
  | some i => s.imageCheck type i == 0
  | none => Config.provisionedOk key && decide (s.counter type ≤ s.slotSvn key)

/-- The slot that boots: the one with the higher SVN, slot A where they tie, else the other (R415 step 2). -/
def Sec.bootSlot (s : Sec) (type : Nat) : Option Nat :=
  let first := if s.slotSvn (2 * type) < s.slotSvn (2 * type + 1) then 1 else 0
  if s.slotOk type first then some first else if s.slotOk type (1 - first) then some (1 - first) else none

/-- The boot entry of the logbook: TYPE, slot (0xFFFF none), SVN. -/
def Chip.logBoot (c : Chip) (type slot svn : Nat) : Chip := c.log 0xE Who.module 0 (leBytes 2 type ++ leBytes 2 slot ++ leBytes 4 svn)

/-- One image type boots, or no slot of it passes and an alert is raised. -/
def Chip.bootType (c : Chip) (type : Nat) : Chip :=
  match c.sec.bootSlot type with
  | some slot =>
    let c := { c with sec := { c.sec with booted := Tab.set c.sec.booted type slot } }
    c.logBoot type slot (c.sec.slotSvn (2 * type + slot))
  | none =>
    let c := { c with sec := { c.sec with bootFail := c.sec.bootFail ++ [type] } }
    (c.logBoot type 0xFFFF 0).gateHealth 7 0x0D type

/-- Ones among the low bits of a number. -/
def ones : Nat → Nat → Nat
  | 0, _ => 0
  | n + 1, x => x % 2 + ones n (x / 2)

/-- The straps are sampled (R517, R519). -/
def Gate.sample (g : Gate) : Gate :=
  { g with modid := g.modidLive, parityAs := g.parityLive, mode := g.modeLive,
           parity := (ones 10 g.modidLive.toNat + bit1 g.parityLive) % 2 == 0 }

/-- Kinds of the model's own in alert records: straps that fail parity, an orderly shut-down done. -/
def alertStraps : Nat := 0x80
def alertShut : Nat := 0x81

/-- Boot, from the gatehouse's exit from power-on reset: straps, images, recovery, and the host port, which trains once PERST_N is high. -/
def Chip.boot (c : Chip) : Chip :=
  let c := { c with gate := c.gate.sample }
  let c := if c.gate.parity then c else c.alert alertStraps 4 (BitVec.ofNat 64 c.gate.modid.toNat)
  let c := if c.sec.flashOk then c.bootType 1 else c.logBoot 1 0xFFFF 0
  if !c.sec.flashOk || c.sec.bootFail.contains 1 then { c with sec := { c.sec with recovery := true } }
  else
    let c := ((c.bootType 2).bootType 3).bootType 4
    if c.gate.perstN then c.trainHost else c

/-- The reach rails as they stand; those of a starting reach are up or on their way (R478). -/
def Chip.railsNow (c : Chip) : Quad (Fin 8) := c.reaches.map (fun x => if x.service == .starting then 7 else x.pwr.rails)

/-- Every router goes down: Remote Fault goes out on every link of the module (R279, R280). -/
def Chip.faultAll (c : Chip) : Chip := forEach allReaches c (fun c r => c.faultLinks r)

/-- MODULE_RESET: a gatehouse fatal fault or the reset input; the boot runs. -/
def moduleReset (c : Chip) : Chip := (c.faultAll.moduleReset c.railsNow).boot

/-! ### Low-speed signals -/

/-- The primary conversion is off: nothing stands but the secure flash (R480). -/
def Chip.powerOff (c : Chip) : Chip := { c.moduleReset noRails with gate := { (c.moduleReset noRails).gate with pwrgd := false } }

/-- PWR_EN_RISE: power-up (R478): each reach's sequencer raises its rails in order, up to the first that fails to reach its set point. PWR_EN low for 10 ms has released the cut-off and the thermal trip. -/
def pwrEnRise (rails : Quad (Fin 8)) (lowLong : Bool) (c : Chip) : Chip :=
  if c.gate.pwrEn then c
  else
    let g := c.gate
    let c := { c with gate := { g with pwrEn := true, cutOff := g.cutOff && !lowLong, thermTrip := g.thermTrip && !lowLong, thermTrips := 0 } }
    if c.gate.cutOff || c.gate.thermTrip then c
    else
      let c := { c with gate := { c.gate with pwrgd := true } }
      if c.gate.mrstN then (c.moduleReset rails).boot else c.moduleReset noRails

/-- PWR_EN_FALL (R480). -/
def pwrEnFall (c : Chip) : Chip := if c.gate.pwrEn then ({ c with gate := { c.gate with pwrEn := false } }).powerOff else c

/-- INPUT_CUT_OFF: below 36 V for 100 µs or above 63 V for 10 µs (R476). -/
def inputCutOff (lowUs highUs : Nat) (c : Chip) : Chip :=
  if c.gate.pwrgd && (decide (100 ≤ lowUs) || decide (10 ≤ highUs)) then ({ c with gate := { c.gate with cutOff := true } }).powerOff else c

/-- THERM_TRIP: any sensor above 120 °C, or a gatehouse sensor above 110 °C: THERM_TRIP_N is latched and the primary conversion goes off
(R485, R518). -/
def thermTrip (hottest gatehouse : Nat) (c : Chip) : Chip :=
  if c.gate.pwrgd && (decide (120 < hottest) || decide (110 < gatehouse)) then
    ({ c with gate := { c.gate with thermTrip := true, thermTrips := c.gate.thermTrips + 1 } }).powerOff
  else c

/-- MRST_N_LOW: a module reset; the reach rails fall and PWRGD stays (R518). -/
def mrstNLow (c : Chip) : Chip := ({ c.faultAll with gate := { c.gate with mrstN := false } }).moduleReset noRails

/-- MRST_N_RELEASE: start-up from the gatehouse's exit from power-on reset (R518). -/
def mrstNRelease (rails : Quad (Fin 8)) (c : Chip) : Chip :=
  if c.gate.mrstN then c
  else
    let c := { c with gate := { c.gate with mrstN := true } }
    if c.gate.pwrgd then (c.moduleReset rails).boot else c

/-- STRAP_CHANGE: ignored until the next sampling; GATE_STRAP.CHANGED shows it (R518, R520). -/
def strapChange (modid : BitVec 10) (parity mode : Bool) (c : Chip) : Chip :=
  { c with gate := { c.gate with modidLive := modid, parityLive := parity, modeLive := mode } }

/-- A whole second in the counting of era and fabric time (R517). -/
def TimeDom.wholeSecond (t : TimeDom) : Bool := (t.era.toNat * 2 ^ 48 + timeNs t.now) % 1000000000 == 0

/-- PPS_OUT_EDGE: fabric time of the lowest-numbered LOCKED or HOLDOVER reach is a whole second, and PPS_OUT rises (R517). -/
def ppsOutEdge (r : ReachId) (now : Time) (c : Chip) : Chip :=
  let c := c.at r now
  if c.steadyReach == some r && (c.reach r).time.wholeSecond then c.emit .ppsPulse else c

/-! ### Entry into service (R497, R266, R392, R435) -/

/-- No replica of the translation tables is left: every ASID is empty at its next generation, open faults close as refused, and each function
gets a health event (R392). -/
def Chip.rebuildXlt (c : Chip) (r : ReachId) : Chip :=
  if !c.xlt.lost then c
  else
    let c := { c with xlt := { c.xlt with lost := false, asids := Tab.mapVals c.xlt.asids (fun a => { a with gen := a.gen + 1, pages := [], wins := [] }) } }
    let c := c.closeFaults (fun _ => true) false
    forEach c.functions c (fun c f => c.health r f 1 8 0 0 0 0)

/-- A reach comes into service: its fabric keys, its own link-state entry, the first election and epoch 0. -/
def Chip.enterService (c : Chip) (r : ReachId) : Chip :=
  let c := c.onReach r (fun x =>
    { x with service := .inService, bist := { x.bist with inSince := x.time.now },
             cipher := { x.cipher with slots := c.sec.master }, rtr := { x.rtr with lsaSeq := x.rtr.lsaSeq + 1 } })
  let c := c.rebuildXlt r
  let l := c.ownLsa r
  let node := c.nodeId r
  c.onRtr r (fun x => ({ x with lsdb := putLsa x.lsdb l }.elect node).buildFirst node.toNat)

/-! ### The stored record (R460, R499, R500) -/

/-- The stored record is read, and its VALID cleared; the march goes on where it ended. -/
def Bist.readStored (b : Bist) : Bist :=
  match b.record with
  | none => b
  | some x =>
    let marched := x.kind != 1
    { b with record := some { x with valid := false },
             hbmNext := if marched then BitVec.ofNat 4 (x.hbmFirst.toNat + x.hbmCount.toNat) else 0,
             lpNext := if marched then BitVec.ofNat 6 (x.lpFirst.toNat + x.lpCount.toNat) else 0 }

/-- The stored record is VALID with an OUTCOME. -/
def Bist.stored (b : Bist) (outcome : Nat) : Bool := b.record.any (fun x => x.valid && x.outcome.toNat == outcome)

/-- The end of a quick test: a failing reach is held, an untested one enters service with an alert. -/
def Chip.quickDone (c : Chip) (r : ReachId) : Chip :=
  let c := c.testReport r
  let o := (c.reach r).bist.outcome
  if o == 1 then c.onReach r (fun x => { x with service := .held })
  else
    let c := c.enterService r
    if o == 2 then c.health r 0 7 0x12 0 0 0 0 else c

/-- A starting reach, whose rails stand by now (R478), acts on its stored record. -/
def Chip.startReach (c : Chip) (r : ReachId) (run : TestRun) : Chip :=
  let b := (c.reach r).bist
  let c := c.onBist r Bist.readStored
  if (c.reach r).service != .starting then c
  else
  let c := c.onReach r (fun x => { x with pwr := { x.pwr with rails := 7 } })
  if c.sec.bootFail.contains 2 || b.stored 1 then c.onReach r (fun x => { x with service := .held })
  else if c.sec.bootFail.contains 4 then (c.enterService r).health r 0 7 0x12 0 0 0 0
  else if b.stored 0 && !flag b.ctrl 1 then c.enterService r
  else
    let c := (c.testBegin r 1)
    let c := { c with gate := { c.gate with tested := c.gate.tested ||| BitVec.ofNat 4 (2 ^ r.val) } }
    match run with
    | .waits => c
    | .ran t => (c.testRuns r t).quickDone r

/-- Anti-rollback counters follow the images with AUTO_COMMIT once the module is ready (R422). -/
def Chip.autoCommit (c : Chip) (type : Nat) : Chip :=
  let h := c.sec.headerInForce type
  let old := c.sec.counter type
  let svn := leAt h 8 4
  if !natBit (leAt h 4 4) 12 || svn ≤ old || (Tab.find? c.sec.booted type).isNone || c.sec.logRefusal.isSome then c
  else
    let c := c.log 5 Who.module 0 (leBytes 2 type ++ leBytes 2 0 ++ leBytes 4 old ++ leBytes 4 svn)
    { c with sec := { c.sec with rollback := Tab.set c.sec.rollback type (BitVec.ofNat 32 svn) } }

/-- The module is ready (R497): counters are committed, and the functions that wait attach. -/
def Chip.becomeReady (c : Chip) (readyMs : Word32) : Chip :=
  let c := { c with gate := { c.gate with ready := true, readyMs := readyMs } }
  let c := forEach [1, 2, 3, 4] c (fun c k => c.autoCommit k)
  forEach (c.functions.filter (fun f => (c.ten f).attaching)) c (fun c f => c.attachGo f)

/-- MODULE_READY: stages 3 to 6 of the cold start (R498), each starting reach with its quick test where R460 calls for one; READY once every
reach is in service or held. -/
def moduleReady (runs : Quad TestRun) (readyMs : Word32) (c : Chip) : Chip :=
  if c.sec.recovery || c.gate.ready || c.gate.shutState != 0 then c
  else
    let first := allReaches.any (fun r => (c.reach r).service == .starting)
    let clean := allReaches.all (fun r => (c.reach r).bist.stored 0)
    let c := if first then
        forEach allReaches { c with gate := { c.gate with clean := clean } } (fun c r => c.startReach r (runs.get r))
      else c
    if allReaches.all (fun r => (c.reach r).service == .inService || (c.reach r).service == .held) then c.becomeReady readyMs else c

/-! ### The end of a reach reset (R281, R392) -/

/-- REACH_RESET_COMPLETE: the gatehouse puts the site configuration back, the reach comes into service, and what waited for it completes. -/
def reachResetComplete (r : ReachId) (now : Time) (c : Chip) : Chip :=
  if (c.reach r).service != .inReset || c.sec.recovery || decide (2 ≤ c.gate.shutState.toNat) then c
  else
    let c := (c.domainStart r).at r now
    let c := c.onReach r (fun x => x.restore (c.gate.site.get r))
    let c := c.onReach r (fun x => { x with pwr := { x.pwr with rails := 7, clkActive := x.pwr.clk }, mem := { x.mem with chFault := [] } })
    let c := if c.sec.bootFail.contains 2 then c.onReach r (fun x => { x with service := .held }) else c.enterService r
    let l := c.gate.resets.filter (fun e => e.1 == r)
    let c := { c with gate := { c.gate with resets := c.gate.resets.filter (fun e => e.1 != r) } }
    let c := forEach l c (fun c e => c.complete e.2 4 0 0)
    (c.bistFinished r).settle

/-! ### Orderly shut-down (R508 to R511) -/

/-- Every plan of the module enters a stoppage with cause driver request; unplanned collectives fail (step 1). -/
def Chip.drainBegin (c : Chip) : Chip :=
  let c := c.log 0xB (c.whoOf .pf) 0 []
  let plans := (allReaches.flatMap (fun r => (c.reach r).plan.plans.map (fun p => p.handle))).eraseDups
  let c := forEach plans c (fun c h => c.driverStop h)
  let c := forEach allReaches c (fun c r =>
    forEach ((c.reach r).coll.invs.filter (fun i => i.plan.isNone && i.code.isNone)) c (fun c i => c.collFail r i 0x84 0))
  { c with gate := { c.gate with shutState := 1, shutWaits := false, shutSince := c.gateTime } }

/-- A shut-down that waited for a BIST_RUN begins. -/
def Chip.shutResume (c : Chip) : Chip := if c.gate.shutWaits && c.gate.bists.isEmpty then c.drainBegin else c

/-- A write to GATE_SHUT: NO_TEST and DRAIN_MS, then GO (R508). -/
def Chip.gateShutWrite (c : Chip) (p : RegPath) (value : Word64) : Chip :=
  let new := value &&& 0xFFFF0002
  let old := packed [(bit1 c.gate.noTest, 1), (c.gate.drainMs.toNat, 16)]
  if !c.allows p 3 then c.ignoreWrite p
  else
    let c := c.rwlWrite p 3 0x18 old new (fun c =>
      { c with gate := { c.gate with noTest := flag new 1, drainMs := BitVec.ofNat 16 (fld new 16 16) } })
    if !flag value 0 || c.gate.shutState != 0 || c.gate.shutWaits || c.sec.logRefusal.isSome then c
    else if c.gate.bists.isEmpty then c.drainBegin
    else { c with gate := { c.gate with shutWaits := true } }

/-- GATE_SHUT_GO: GATE_SHUT is written with GO 1. -/
def gateShutGo (p : RegPath) (value : Word64) (c : Chip) : Chip := if flag value 0 then c.gateShutWrite p value else c

/-- At the end of the drain an entry without a status completes rolled back or uncertain (R509 step 1). -/
def Chip.drainEntry (c : Chip) (r : ReachId) (by_ : Submitter) (cq : Word16) (e : WorkEntry) (status : BitVec 8) : Chip :=
  match by_ with
  | .ring ref pos => c.entryDone r.val ref pos (BitVec.ofNat 8 cq.toNat) (e.op == 4) status.toNat 0
  | _ => c

/-- What the contexts of a reach have not retired completes. -/
def Chip.drainReach (c : Chip) (r : ReachId) : Chip :=
  forEach (c.reach r).rme.qps c (fun c e =>
    let q := e.2
    let c := forEach q.ops c (fun c o => c.drainEntry r o.by_ q.cqRing o.entry (o.status.getD (frozenStatus o)))
    let c := forEach q.recvs c (fun c o => c.drainEntry r o.by_ q.cqRing o.entry (o.status.getD 0xAA))
    c.onQp r q.qpn (fun q => { q with ops := [], recvs := [], out := [], timer := none }))

/-- The record of a reach that is not tested: by choice, or for want of lengthsman firmware. -/
def Chip.shutSkip (c : Chip) (r : ReachId) (cause : Nat) : Chip :=
  let c := if (c.reach r).service == .inService then c.holdReach r else c
  (c.onReach r (fun x => { x with service := .held })).onBist r (fun b =>
    { b with record := some (c.bareRecord true 0 2 cause (c.now r) (c.now r)) })

/-- A reach has finished its shut-down test: it stays isolated. -/
def Chip.shutTested (c : Chip) (r : ReachId) : Chip :=
  let c := (c.testReport r).onReach r (fun x => { x with service := .held })
  { c with gate := { c.gate with shutLeft := c.gate.shutLeft.filter (fun q => q != r) } }

/-- One reach at step 2 of the shut-down. -/
def Chip.shutReach (c : Chip) (r : ReachId) (run : TestRun) : Chip :=
  let b := (c.reach r).bist
  if c.gate.noTest || !flag b.ctrl 0 then c.shutSkip r 4
  else if c.sec.bootFail.contains 4 then c.shutSkip r 2
  else
    let c := c.testBegin r 0
    match run with
    | .waits => { c with gate := { c.gate with shutLeft := c.gate.shutLeft ++ [r] } }
    | .ran t => (c.testRuns r t).shutTested r

/-- SHUTDOWN_DRAIN_END: DRAIN_MS has passed; what is left completes, and each reach is isolated and tested (R509 steps 1 and 2). -/
def shutdownDrainEnd (r : ReachId) (now : Time) (runs : Quad TestRun) (c : Chip) : Chip :=
  let c := c.at r now
  let due := c.gate.shutSince + nsTime (1000000 * clampNat 1 10000 c.gate.drainMs.toNat)
  if c.gate.shutState != 1 || (c.steadyReach.isSome && !notBefore due c.gateTime) then c
  else
    let c := forEach (allReaches.filter (fun q => c.inService q)) c (fun c q => c.drainReach q)
    let c := { c with gate := { c.gate with shutState := 2, shutLeft := [] } }
    (forEach allReaches c (fun c q => c.shutReach q (runs.get q))).settle

/-- SHUTDOWN_DONE: the repair tables are compacted, the logbook sealed, the rails lowered; an alert (R509 steps 3 and 4). -/
def shutdownDone (c : Chip) : Chip :=
  if c.gate.shutState != 2 || !c.gate.shutLeft.isEmpty then c
  else
    let c := forEach allReaches c (fun c r => c.onReach r (fun x =>
      { x with mem := { x.mem with repair := x.mem.repair.filter (fun w => w.state != 1 && w.state != 2) }, pwr := { x.pwr with rails := 0 } }))
    let c := if c.sec.logFlashOk && c.sec.logNext != 0 then { c with sec := c.sec.seal c.gateTime } else c
    ({ c with gate := { c.gate with shutState := 3 } }).alert alertShut 4 0

/-! ### Watchdogs and windows -/

/-- KEEPER_WATCHDOG_EXPIRY: cores 0 to 7 are the reach's, 8 to 11 the gatehouse's (R450). A second expiry of the gatehouse's within 100 ms
is a fatal fault and takes a module reset. -/
def keeperWatchdogExpiry (r : ReachId) (now : Time) (core : Fin 12) (c : Chip) : Chip :=
  let c := c.at r now
  if h : core.val < 8 then (if c.inService r then (watchReach r ⟨core.val, h⟩ c).settle else c)
  else
    let t := c.now r
    let again := c.gate.expiry.any (fun e => decide (timeDiff e.2 t < watchSpan))
    let c := { c with gate := { c.gate with expiry := Tab.set c.gate.expiry core.val t } }
    let c := c.gateHealth (if again then 6 else 7) 0x0D core.val
    if again then moduleReset c else c

/-- BIST_WINDOW_TIMEOUT: the window was not met within WAIT_S (R458): the reach ends untested, and goes on as its test's kind says. -/
def bistWindowTimeout (r : ReachId) (now : Time) (c : Chip) : Chip :=
  let c := c.at r now
  if !c.windowLate r then c
  else
    let kind := (c.reach r).bist.kind.toNat
    let c := c.testUntested r
    if kind = 0 then c.shutTested r
    else if kind = 1 then c.quickDone r
    else (c.bistEnded r).settle.shutResume

end Sys2Proof.Machine
end

