-- ==== Sys2Proof/Machine/FaultCmds.lean ====
section
/-!
DEFINITION. Keeper watchdogs and in-service tests (R450 to R454): one meaning for each command, over the shared operations.
-/

namespace Sys2Proof.Machine

/-- KEEPER_WATCHDOG_EXPIRY: A keeper watchdog expires and the core is restarted, or the reach or module is reset (R450). -/
def execKeeperWatchdogExpiry (r : ReachId) (now : Time) (core : Fin 12) (s : State) : Host.Outcome State Fault Refusal :=
  s.run (keeperWatchdogExpiry r now core)

/-- TILE_SERVICE_TEST: A tile's in-service test falls due and runs in an idle gap, holding the reach on failure (R452). -/
def execTileServiceTest (r : ReachId) (now : Time) (t : TileId) (fails : Option TestUnit) (s : State) : Host.Outcome State Fault Refusal :=
  s.runSettle (tileServiceTest r now t fails)

/-- SERVICE_TEST_OVERDUE: A part's last passed test is older than 2 × PERIOD_S and an alert record is posted (R454). -/
def execServiceTestOverdue (r : ReachId) (now : Time) (part : Fin 66) (s : State) : Host.Outcome State Fault Refusal :=
  s.run (serviceTestOverdue r now part)

end Sys2Proof.Machine
end

