-- ==== Sys2Proof/Machine/FrtCmds.lean ====
section
/-!
DEFINITION. Packets and their timers (R224 to R257): one meaning for each command, over the shared operations.
-/

namespace Sys2Proof.Machine

/-- FRT_PACKET_SEND: An unplanned packet leaves once the direction's credit is zero or more and the send window allows
(R245). -/
def execFrtPacketSend (r : ReachId) (now : Time) (qpn : BitVec 24) (host : List Byte) (s : State) : Host.Outcome State Fault Refusal :=
  s.run (frtPacketSend r now qpn host)

/-- FRT_DATA_RX: A DATA packet arrives at the target RME, is CRC-checked, classed by PSN distance, checked and written
(R241). -/
def execFrtDataRx (r : ReachId) (now : Time) (p : FrtPacket) (s : State) : Host.Outcome State Fault Refusal :=
  s.runSettle (frtDataRx r now p)

/-- FRT_READ_REQ_RX: A READ_REQ arrives and the target reads the mooring and returns READ_RESP packets (R210). -/
def execFrtReadReqRx (r : ReachId) (now : Time) (p : FrtPacket) (s : State) : Host.Outcome State Fault Refusal :=
  s.runSettle (frtReadReqRx r now p)

/-- FRT_READ_RESP_RX: A READ_RESP arrives at the requester and its data is written to the local range (R230). -/
def execFrtReadRespRx (r : ReachId) (now : Time) (p : FrtPacket) (s : State) : Host.Outcome State Fault Refusal :=
  s.runSettle (frtReadRespRx r now p)

/-- FRT_ACK_RX: An ACK arrives; SND_UNA advances, SACKs are marked, fast retransmission and the rate update run (R243). -/
def execFrtAckRx (r : ReachId) (now : Time) (p : FrtPacket) (s : State) : Host.Outcome State Fault Refusal :=
  s.runSettle (frtAckRx r now p)

/-- FRT_NAK_RX: A NAK arrives carrying PEER_GONE, WAIT, no-receive or a status code (R232). -/
def execFrtNakRx (r : ReachId) (now : Time) (p : FrtPacket) (s : State) : Host.Outcome State Fault Refusal :=
  s.runSettle (frtNakRx r now p)

/-- ACK_DELAY_TIMER: ACK_DELAY passes after the first unacknowledged accepted packet and an ACK is sent (R242). -/
def execAckDelayTimer (r : ReachId) (now : Time) (qpn : BitVec 24) (s : State) : Host.Outcome State Fault Refusal :=
  s.run (ackDelayTimer r now qpn)

/-- RETRANSMIT_TIMER: The retransmission timer expires and unacknowledged PSNs are resent, the rate halved, or the
operations fail after 7 retries (R243). -/
def execRetransmitTimer (r : ReachId) (now : Time) (qpn : BitVec 24) (s : State) : Host.Outcome State Fault Refusal :=
  s.runSettle (retransmitTimer r now qpn)

end Sys2Proof.Machine
end

