-- ==== Sys2Proof/Machine/RegOps.lean ====
section
/-!
DEFINITION. Writes to the set-up registers (R12, R427, R528 to R538) from a BAR or over management, and the management path's register
requests (R531, R371).
-/

namespace Sys2Proof.Machine

/-- The host port carries a path's accesses: the management path needs none of it. -/
def Chip.pathOpen (c : Chip) (p : RegPath) : Bool := match p with
  | .mctp _ => true
  | _ => c.portOpen

/-- A host path acts only while the port is open. -/
def Chip.onPath (c : Chip) (p : RegPath) (f : Chip → Chip) : Chip := if c.pathOpen p then f c else c

/-! ### Reach windows -/

/-- Offset of a register of a reach window in PF BAR0. -/
def winOffset (r : ReachId) (o : Nat) : Nat := winBase + r.val * 0x400000 + o

/-- A window takes writes while its reach is in service; one that comes at another time is ignored and counted (R530). -/
def Chip.inWindow (c : Chip) (p : RegPath) (r : ReachId) (f : Chip → Chip) : Chip := if c.inService r then f c else c.ignoreWrite p

/-- What else a write of an RWL register does: a port switched off goes down (R321), a change of candidature is flooded (R276), a source
switched off is left (R42). -/
def Chip.rwlAfter (c : Chip) (r : ReachId) (w : WinReg) (new : Word64) : Chip :=
  match w with
  | .macPort p => if flag new 0 then c else linkFault r (c.now r) p c
  | .rtrFm => c.floodOwn r
  | .timeCtrl => c.timeCtrlAfter r
  | _ => c

/-- A write to an installer's register of a window: checked, logged, applied, and kept in the gatehouse's copy. -/
def Chip.rwlWindow (c : Chip) (p : RegPath) (r : ReachId) (o : Nat) (w : WinReg) (m v : Word64) : Chip :=
  let new := v &&& m
  c.rwlWrite p 2 (winOffset r o) (c.winWord p r w &&& m) new (fun c =>
    let c := (c.onReach r (fun x => x.rwlSet w new)).onSite r (fun s => { s with regs := Tab.set s.regs o new })
    c.rwlAfter r w new)

/-- A write to TIME_FLOOR: only a later value is taken (R538). -/
def Chip.floorWrite (c : Chip) (r : ReachId) (v : Word64) : Chip :=
  c.onTime r (fun t => if later t.floor v then { t with floor := v } else t)

/-- TIME_FLOOR_WRITE. -/
def timeFloorWrite (p : RegPath) (r : ReachId) (v : Word64) (c : Chip) : Chip := c.onPath p (fun c => c.inWindow p r (fun c => c.floorWrite r v))

/-- Fields of SHP_SLUICE. -/
def sluiceMask : Word64 := 0x0000FFFFFF3FFFFF

/-- A write of a sluice sets its tokens, whether its fields change or not (R340); a change is entered in the logbook as a table write. -/
def Chip.sluiceWrite (c : Chip) (p : RegPath) (r : ReachId) (q : PortId) (s : Nat) (v : Word64) : Chip :=
  let new := v &&& sluiceMask
  let old := (((c.reach r).mac q).sluice s).cfg
  if !c.allows p 2 then c.ignoreWrite p
  else if old != new && c.sec.logRefusal.isSome then c
  else
    let c := if old == new then c
      else c.log 7 (c.whoOf p) 0 (leBytes 1 4 ++ leBytes 1 q.val ++ leBytes 2 s ++ leBytes 4 r.val ++ leBytes 8 new.toNat)
    let c := c.onMac r q (fun m => { m with sluices := Tab.set m.sluices s (Sluice.configure new (c.now r)) })
    c.onSite r (fun x => { x with sluices := Tab.set x.sluices q.val (Tab.set (Tab.getD x.sluices q.val []) s new) })

/-- SHP_SLUICE_WRITE. -/
def shpSluiceWrite (p : RegPath) (r : ReachId) (now : Time) (q : PortId) (s : Fin 72) (v : Word64) (c : Chip) : Chip :=
  c.onPath p (fun c => (c.at r now).inWindow p r (fun c => c.sluiceWrite p r q s.val v))

/-- A write to MAC_CT: RESET returns LEVEL to 1 (R328). -/
def Chip.ctWrite (c : Chip) (p : RegPath) (r : ReachId) (q : PortId) (v : Word64) : Chip :=
  if !flag v 4 then c
  else c.rwlWrite p 2 (winOffset r (0x11000 + 0x100 * q.val)) 0 0x10 (fun c => c.onMac r q Mac.levelReset)

/-- MAC_CT_RESET. -/
def macCtReset (p : RegPath) (r : ReachId) (q : PortId) (c : Chip) : Chip := c.onPath p (fun c => c.inWindow p r (fun c => c.ctWrite p r q 0x10))

/-- A write to TRC_TILE_MASK, kept for R281. -/
def Chip.maskWrite (c : Chip) (p : RegPath) (r : ReachId) (v : Word64) : Chip :=
  let c' := c.trcMaskWrite p r (winOffset r 0xA000) v
  if c.allows p 3 then c'.onSite r (fun s => { s with regs := Tab.set s.regs 0xA000 (c'.reach r).trace.tileMask }) else c'

/-- HBM_NEXT and LP_NEXT of BIST_STATUS (RWS). -/
def Bist.putNext (b : Bist) (v : Word64) : Bist := { b with hbmNext := BitVec.ofNat 4 (fld v 8 4), lpNext := BitVec.ofNat 6 (fld v 16 6) }

/-- A write to a register of a reach in service: `v` is the value with the bits that the access does not cover as they stand, `ones` the ones
that the access itself writes. -/
def Chip.winWrite (c : Chip) (p : RegPath) (r : ReachId) (o : Nat) (w : WinReg) (v ones : Word64) : Chip :=
  match w with
  | .timeFloor => c.floorWrite r v
  | .bistStatus => c.onBist r (fun b => b.putNext v)
  | .trcMask => c.maskWrite p r v
  | .collStatus => if flag ones 1 then c.onReach r (fun x => { x with coll := { x.coll with testFail := false } }) else c
  | .tileFlags t => c.onTile r t.val (fun y => y.clearFlags (BitVec.ofNat 32 ones.toNat))
  | .macCt q => c.ctWrite p r q ones
  | .sluice q s => c.sluiceWrite p r q s v
  | w => match rwlMask w with
    | some m => c.rwlWindow p r o w m v
    | none => c

/-! ### Function blocks -/

/-- Fields of HOST_ADM_CFG. -/
def admCfgMask : Word64 := 0x03FFFFFFFFFFFFFF

/-- HOST_ADM_ADDR i takes a value. -/
def HostFn.putAdm (x : HostFn) (i : Fin 6) (v : Word64) : HostFn :=
  match i with
  | 0 => { x with adm0 := v }
  | 1 => { x with adm1 := v }
  | 2 => { x with adm2 := v }
  | 3 => { x with adm3 := v }
  | 4 => { x with adm4 := v }
  | 5 => { x with adm5 := v }

/-- A function that is not attached changes its admin configuration (R386). -/
def Chip.admWrite (c : Chip) (f : FnId) (g : HostFn → HostFn) : Chip := if (c.fn f).attached then c else c.onFn f g

/-- A write to a function's own block (R533, R535). -/
def Chip.fnWrite (c : Chip) (p : RegPath) (f : FnId) (x : FnReg) (v ones : Word64) : Chip :=
  if f != pathBlock p then c
  else match x with
    | .hostRev => hostRevWrite f v c
    | .ctrl =>
      let c := if flag ones 0 then attach f c else c
      if flag ones 1 then detach f c else c
    | .admCfg => c.admWrite f (fun y => { y with admCfg := v &&& admCfgMask })
    | .admAddr i => c.admWrite f (fun y => y.putAdm i v)
    | .snap => gaugeSnap p v c
    | .tileFlags r t =>
      if c.holdsTile f (64 * r.val + t.val) && c.inService r then c.onTile r t.val (fun y => y.clearFlags (BitVec.ofNat 32 ones.toNat)) else c
    | _ => c

/-! ### The gatehouse -/

/-- A write to a gatehouse register. -/
def Chip.gateWrite (c : Chip) (p : RegPath) (x : GateReg) (v ones : Word64) : Chip :=
  match x with
  | .shut => c.gateShutWrite p v
  | .hostClk => hostClkWrite p v c
  | .pwrCap => pwrCapWrite p v c
  | .xltCtrl => c.rwlWrite p 2 0x3008 c.xlt.ctrl (v &&& 0xFFFF) (fun c => { c with xlt := { c.xlt with ctrl := v &&& 0xFFFF } })
  | .ciphCtrl => c.rwlWrite p 2 0x4008 c.sec.ciphCtrl (v &&& 0xFFFF) (fun c => { c with sec := { c.sec with ciphCtrl := v &&& 0xFFFF } })
  | .trcCtrl => c.trcCtrlWrite p v
  | .trcTrig => c.trcTrigWrite p v
  | .trcTrigTime => c.trcTrigTimeWrite p v
  | .trcStatus => c.trcStatusWrite p ones
  | .trcDumpAddr => c.trcDumpAddrWrite p v
  | .trcDumpCtrl => c.trcDumpWrite p v
  | _ => c

/-! ### Accesses (R528) -/

/-- A write of the bits of `cover` to a register at PF BAR0 or VF offset `o`. -/
def Chip.regWrite (c : Chip) (p : RegPath) (o : Nat) (a : RegAddr) (cover value : Word64) : Chip :=
  let ones := value &&& cover
  let v := (c.regWord p a &&& ~~~ cover) ||| ones
  match a with
  | .gate g => c.gateWrite p g v ones
  | .fn f x => c.fnWrite p f x v ones
  | .win r w => c.inWindow p r (fun c => c.winWrite p r ((o - winBase) % 0x400000) w v ones)

/-- An access as it covers a register: the aligned offset, the bits, and the value in place; none for a size or an alignment that the module
ignores. -/
def accessOf (offset size : Nat) (value : Word64) : Option (Nat × Word64 × Word64) :=
  let low : Word64 := 0xFFFFFFFF
  if size == 8 && offset % 8 == 0 then some (offset, ~~~ 0, value)
  else if size == 4 && offset % 8 == 0 then some (offset, low, value &&& low)
  else if size == 4 && offset % 8 == 4 then some (offset - 4, low <<< 32, value <<< 32)
  else none

/-- A write of a size at an offset. -/
def Chip.barWrite (c : Chip) (p : RegPath) (offset size : Nat) (value : Word64) : Chip :=
  match accessOf offset size value with
  | none => c
  | some (o, cover, v) =>
    match pathReg p o with
    | some a => c.regWrite p o a cover v
    | none => c

/-- A vector is masked or unmasked: a pending message goes out (R372, the MSI-X rules). -/
def Chip.vectorMask (c : Chip) (f : FnId) (vector : BitVec 11) (masked : Bool) : Chip :=
  let v := vector.toNat
  let x := c.fn f
  if masked then c.onFn f (fun x => { x with masked := if x.masked.contains v then x.masked else v :: x.masked })
  else
    let c := c.onFn f (fun x => { x with masked := x.masked.filter (fun k => k != v), pending := x.pending.filter (fun k => k != v) })
    if x.pending.contains v then c.emit (.msix f vector) else c

/-- REGISTER_WRITE. -/
def registerWrite (p : RegPath) (w : RegWrite) (c : Chip) : Chip :=
  c.onPath p (fun c => match w with
    | .bar0 offset size value => c.barWrite p offset size value
    | .vectorMask vector masked => match regPathFn p with
      | some f => c.vectorMask f vector masked
      | none => c)

/-! ### Management requests (R531, R371) -/

/-- MCTP_REG_READ: an offset that no register populates, or a misaligned one, reads zero. -/
def mctpRegRead (eid : BitVec 8) (offset : Nat) (c : Chip) : Chip :=
  let p : RegPath := .mctp eid
  match accessOf offset 8 0 with
  | none => c.emit (.regRead eid 0)
  | some (o, _, _) =>
    match pathReg p o with
    | some a =>
      let (v, c) := c.regRead p a
      c.emit (.regRead eid v)
    | none => c.emit (.regRead eid 0)

/-- MCTP_REG_WRITE. -/
def mctpRegWrite (eid : BitVec 8) (offset : Nat) (value : Word64) (c : Chip) : Chip :=
  (c.barWrite (.mctp eid) offset 8 value).emit (.mctpStatus eid 0 [])

/-- MCTP_CONFIG_TABLE: a write or a read of the site tables under the management session; the answer holds the status and, for a read, the
entries. -/
def mctpConfigTable (eid : BitVec 8) (read : Bool) (t : ConfigTable) (c : Chip) : Chip :=
  if read then
    let (status, bs) := c.configRead (.mctp eid) t
    c.emit (.mctpStatus eid (BitVec.ofNat 8 status) bs)
  else
    let (status, _, c) := c.configWrite (.mctp eid) t
    c.emit (.mctpStatus eid (BitVec.ofNat 8 status) [])

end Sys2Proof.Machine
end

