-- ==== Sys2Proof/Machine/MacCmds.lean ====
section
/-!
DEFINITION. Ports, MACs and their flow control (R321 to R343): one meaning for each command, over the shared operations.
-/

namespace Sys2Proof.Machine

/-- MAC_FRAME_RX: A frame is received, FCS-checked, address-filtered and matched against receive filters into an ingress
queue (R332). -/
def execMacFrameRx (r : ReachId) (now : Time) (p : PortId) (f : EthFrame) (s : State) : Host.Outcome State Fault Refusal :=
  s.run (macFrameRx r now p f)

/-- PAUSE_RX: An 802.3 PAUSE frame stops all classes for pause_time (R334). -/
def execPauseRx (r : ReachId) (now : Time) (p : PortId) (quanta : Word16) (s : State) : Host.Outcome State Fault Refusal :=
  s.run (pauseRx r now p quanta)

/-- PFC_RX: A PFC frame stops or releases the named classes (R334). -/
def execPfcRx (r : ReachId) (now : Time) (p : PortId) (classes : BitVec 8) (times : List Word16) (s : State) : Host.Outcome State Fault Refusal :=
  s.run (pfcRx r now p classes times)

/-- PAUSE_EXPIRY: A class's pause time runs out and the class is released (R334). -/
def execPauseExpiry (r : ReachId) (now : Time) (p : PortId) (tc : Fin 8) (s : State) : Host.Outcome State Fault Refusal :=
  s.run (pauseExpiry r now p tc)

/-- PAUSE_WATCHDOG: TC6 or TC7 has been paused for WD_NS and pause is disregarded for WD_HOLD (R335). -/
def execPauseWatchdog (r : ReachId) (now : Time) (p : PortId) (tc7 : Bool) (s : State) : Host.Outcome State Fault Refusal :=
  s.run (pauseWatchdog r now p tc7)

/-- PAUSE_WATCHDOG_HOLD_END: WD_HOLD ends and the port obeys pause for the class again (R335). -/
def execPauseWatchdogHoldEnd (r : ReachId) (now : Time) (p : PortId) (tc7 : Bool) (s : State) : Host.Outcome State Fault Refusal :=
  s.run (pauseWatchdogHoldEnd r now p tc7)

/-- PFC_REPEAT_TIMER: Every 32,768 quanta the stopping PFC frame is repeated while the queue stays high (R337). -/
def execPfcRepeatTimer (r : ReachId) (now : Time) (p : PortId) (tc : Fin 6) (s : State) : Host.Outcome State Fault Refusal :=
  s.run (pfcRepeatTimer r now p tc)

/-- PORT_FRAME_START: The port is free and selects its next frame by gate, fit rule, sluices and round robin (R341). -/
def execPortFrameStart (r : ReachId) (now : Time) (p : PortId) (ending : FrameEnd) (s : State) : Host.Outcome State Fault Refusal :=
  s.run (portFrame r now p ending)

/-- SHP_SLUICE_WRITE: A write of a sluice's configuration sets its tokens to zero or to full burst (R340). -/
def execShpSluiceWrite (p : RegPath) (r : ReachId) (now : Time) (q : PortId) (slot : Fin 72) (v : Word64) (s : State) : Host.Outcome State Fault Refusal :=
  s.run (shpSluiceWrite p r now q slot v)

/-- MAC_CT_RESET: Writing MAC_CT.RESET returns LEVEL to 1 (R328). -/
def execMacCtReset (p : RegPath) (r : ReachId) (q : PortId) (s : State) : Host.Outcome State Fault Refusal :=
  s.run (macCtReset p r q)

/-- UNCORRECTABLE_CODEWORD: The PCS marks an uncorrectable RS(544,514) codeword, counted, and more than 64 within 1 ms raise
the link-degrade alert (R324). -/
def execUncorrectableCodeword (r : ReachId) (now : Time) (p : PortId) (s : State) : Host.Outcome State Fault Refusal :=
  s.run (uncorrectableCodeword r now p)

end Sys2Proof.Machine
end

