-- ==== Sys2Proof/Machine/MatrixCmds.lean ====
section
/-!
DEFINITION. Steps of the matrix unit (R87, R118, R140): one meaning for each command, over the shared operations.
-/

namespace Sys2Proof.Machine

/-- MATRIX_PRODUCT: A MATRIX step with OP 0 accumulates products exactly in anchored accumulators and rounds once at output
(R87). -/
def execMatrixProduct (r : ReachId) (now : Time) (t : TileId) (hold : Word32) (s : State) : Host.Outcome State Fault Refusal :=
  s.run (matrixStep 0 r now t hold)

/-- MATRIX_BATCHED_PRODUCT: A MATRIX step with OP 1 runs a batch of products over consecutive members (R118). -/
def execMatrixBatchedProduct (r : ReachId) (now : Time) (t : TileId) (hold : Word32) (s : State) : Host.Outcome State Fault Refusal :=
  s.run (matrixStep 1 r now t hold)

/-- MATRIX_BLOCK_FINAL: An output block of 64 × 64 becomes final 48 TCLK after its last MAC and a streaming step hands its
chunks to the collective (R140). -/
def execMatrixBlockFinal (r : ReachId) (now : Time) (t : TileId) (s : State) : Host.Outcome State Fault Refusal :=
  s.run (matrixBlockFinal r now t)

end Sys2Proof.Machine
end

