-- ==== Sys2Proof/Machine/MemCmds.lean ====
section
/-!
DEFINITION. Patrol reads and the transposition (R162, R169): one meaning for each command, over the shared operations.
-/

namespace Sys2Proof.Machine

/-- DREDGE_READ: After 64 idle FCLK cycles on a channel the controller issues the next patrol read and handles any error
(R162). -/
def execDredgeRead (r : ReachId) (now : Time) (lp : Bool) (f : DredgeFind) (s : State) : Host.Outcome State Fault Refusal :=
  s.run (fun c => (dredgeRead r now lp f c).parityReset r)

/-- XPOS_SIGNAL_POLL: Every 256 FCLK the RME reads source signal words and starts intersections whose block is ready (R169).
-/
def execXposSignalPoll (r : ReachId) (now : Time) (s : State) : Host.Outcome State Fault Refusal :=
  s.runSettle (xposSignalPoll r now)

end Sys2Proof.Machine
end

