-- ==== Sys2Proof/Machine/MgmtCmds.lean ====
section
/-!
DEFINITION. SPDM, certificates and registers over the management path (R433, R434, R531): one meaning for each command, over the shared
operations.
-/

namespace Sys2Proof.Machine

/-- SPDM_GET_VERSION: An SPDM GET_VERSION request is answered (R433). -/
def execSpdmGetVersion (eid : BitVec 8) (msg : List Byte) (s : State) : Host.Outcome State Fault Refusal :=
  s.run (spdmGetVersion eid msg)

/-- SPDM_GET_CAPABILITIES: An SPDM GET_CAPABILITIES request is answered (R433). -/
def execSpdmGetCapabilities (eid : BitVec 8) (msg : List Byte) (s : State) : Host.Outcome State Fault Refusal :=
  s.run (spdmGetCapabilities eid msg)

/-- SPDM_NEGOTIATE_ALGORITHMS: An SPDM NEGOTIATE_ALGORITHMS request is answered (R433). -/
def execSpdmNegotiateAlgorithms (eid : BitVec 8) (msg : List Byte) (offered : Bool) (s : State) : Host.Outcome State Fault Refusal :=
  s.run (spdmNegotiateAlgorithms eid msg offered)

/-- SPDM_GET_DIGESTS: An SPDM GET_DIGESTS request is answered (R433). -/
def execSpdmGetDigests (eid : BitVec 8) (msg : List Byte) (s : State) : Host.Outcome State Fault Refusal :=
  s.run (spdmGetDigests eid msg)

/-- SPDM_GET_CERTIFICATE: An SPDM GET_CERTIFICATE request returns slot 0 (R433). -/
def execSpdmGetCertificate (eid : BitVec 8) (msg : List Byte) (slot offset length : Nat) (s : State) : Host.Outcome State Fault Refusal :=
  s.run (spdmGetCertificate eid msg slot offset length)

/-- SPDM_CHALLENGE: An SPDM CHALLENGE is answered with a signed CHALLENGE_AUTH (R433). -/
def execSpdmChallenge (eid : BitVec 8) (msg : List Byte) (slot : Nat) (summary : Bool) (s : State) : Host.Outcome State Fault Refusal :=
  s.run (spdmChallenge eid msg slot summary)

/-- SPDM_GET_MEASUREMENTS: An SPDM GET_MEASUREMENTS request returns the measurement indices (R433). -/
def execSpdmGetMeasurements (eid : BitVec 8) (msg : List Byte) (op : BitVec 8) (sign : Bool) (s : State) : Host.Outcome State Fault Refusal :=
  s.run (spdmGetMeasurements eid msg op sign)

/-- PQ_COSIGN: A vendor request 0x0001 returns an ML-DSA-65 cosignature of the last signed transcript (R434). -/
def execPqCosign (eid : BitVec 8) (s : State) : Host.Outcome State Fault Refusal :=
  s.run (pqCosign eid)

/-- PQ_CHAIN: A vendor request 0x0002 returns a piece of the ML-DSA-65 identity chain (R434). -/
def execPqChain (eid : BitVec 8) (offset length : Nat) (s : State) : Host.Outcome State Fault Refusal :=
  s.run (pqChain eid offset length)

/-- MCTP_REG_READ: A management request 0x10 reads one PF BAR0 register (R531). -/
def execMctpRegRead (eid : BitVec 8) (offset : Nat) (s : State) : Host.Outcome State Fault Refusal :=
  s.run (mctpRegRead eid offset)

/-- MCTP_REG_WRITE: A management request 0x11 writes one PF BAR0 register under the management session (R531). -/
def execMctpRegWrite (eid : BitVec 8) (offset : Nat) (value : Word64) (s : State) : Host.Outcome State Fault Refusal :=
  s.run (mctpRegWrite eid offset value)

/-- MCTP_CONFIG_TABLE: A management request 0x12 carries a CONFIG_TABLE request with its entries (R371). -/
def execMctpConfigTable (eid : BitVec 8) (read : Bool) (t : ConfigTable) (s : State) : Host.Outcome State Fault Refusal :=
  s.run (mctpConfigTable eid read t)

end Sys2Proof.Machine
end

