-- ==== Sys2Proof/Machine/PlanClock.lean ====
section
/-!
DEFINITION. Plans in time (R60, R62, R70, R127, R170, R297, R314, R343, R344, R346): the start or restart of an agreed plan, lock-cycle
boundaries with the rounds and phases that begin there, and the end of entries of the gate lists.
-/

namespace Sys2Proof.Machine

/-! ### Phases -/

/-- The phase entry that a plan stands in. -/
def PlanInst.phaseEntry (p : PlanInst) : Option PhaseEntry := p.con.phaseOrder[p.phase]?

/-- Members of a collective that a reach hosts, under a plan. -/
def Chip.planMembers (c : Chip) (r : ReachId) (p : PlanInst) (d : CollDesc) : List Nat :=
  ((d.membersOf p.con.members).zipIdx.filter (fun e => p.con.peers.getD e.1.peer 0xFFFF == c.nodeId r)).map (fun e => e.2)

/-- The collectives of the plan's phase start their first invocation, at each member that this reach hosts (R297). Invocations of
earlier phases that have ended go. -/
def Chip.startColls (c : Chip) (r : ReachId) (p : PlanInst) : Chip :=
  let phase := p.phaseNo
  let c := c.onReach r (fun x => { x with coll := { x.coll with invs := x.coll.invs.filter (fun i =>
    !(i.plan == some p.handle && i.finished && i.desc.phase != phase && decide (i.last ≤ i.round))) } })
  forEach (p.con.colls.filter (fun d => d.phase == phase)) c (fun c d =>
    forEach (c.planMembers r p d) c (fun c m =>
      if ((c.reach r).inv p.handle d.coll m).isSome then c
      else
        let ms := d.membersOf p.con.members
        let i := newInv (some p.handle) p.handle d ms (ms.map (fun e => p.con.peers.getD e.peer 0xFFFF)) (d.edgesOf p.con.edges) m 0 0
          none [] 0 (c.now r)
        match p.con.streamStep d (i.mine.tile) with
        | some s => c.startInv r { i with streaming := true, streamBase := (operandOf (s.op 2)).data }
        | none => c.startInv r i))

/-- The invocations of the plan's phase know the round that it has come to; those whose round has come start, where the one before has ended
(R297). -/
def Chip.nextRounds (c : Chip) (r : ReachId) (p : PlanInst) : Chip :=
  let c := c.onReach r (fun x => { x with coll := { x.coll with invs := x.coll.invs.map (fun i =>
    if i.plan == some p.handle && i.desc.phase == p.phaseNo then { i with last := max i.last p.round } else i) } })
  forEach ((c.reach r).coll.invs.filter (fun i => i.plan == some p.handle)) c (fun c i => c.nextRound r i)

/-- The transposition run after a phase arms as the phase starts (R170). -/
def Reach.armXpos (x : Reach) (p : PlanInst) : Reach :=
  match p.phaseEntry with
  | none => x
  | some e =>
    if e.xpos = 0xFFFFFFFF then x
    else
      let span := p.con.runs.getD e.xpos (0, 0)
      let fresh := fun (f : XposFlight) => f.plan == p.handle && decide (span.1 ≤ f.desc) && decide (f.desc < span.1 + span.2)
      { x with mem := { x.mem with xposArmed := x.mem.xposArmed ++ [(p.handle, e.xpos)],
                                   xposDone := x.mem.xposDone.filter (fun f => !fresh f) } }

/-- A phase begins at a boundary: tiles that wait at a round or phase end enter it at once, all of them where the plan starts; the others
once they have ended the phase they are in. -/
def Chip.beginPhase (c : Chip) (r : ReachId) (handle : Word64) (all : Bool) : Chip :=
  match (c.reach r).planBy handle with
  | none => c
  | some p =>
    let c := forEach (p.con.tilesOn r) c (fun c t => c.onTile r (t % 64) (fun y =>
      if y.plan == some p.con.hdr.planId && (all || y.phaseEnded || y.seqState == 5) then y.enterPhase p.con t p.phaseNo p.roundStart else y))
    (c.onReach r (fun x => x.armXpos p)).startColls r p

/-! ### Start (R70, R127, R314) -/

/-- A tile goes on after a stoppage: at the first step that had not started, after a tile-array reset at the earliest step that had not
ended. A failed step runs again first, by the list of such steps. -/
def Tile.restart (t : Tile) (start : Time) : Tile :=
  let t : Tile := match t.resumeAt with
    | some i => { t with step := i, redo := [], resumeAt := none }
    | none => t
  if t.done then { t with roundStart := start, seqState := 0 } else { t with roundStart := start, seqState := 1, wait := none }

/-- A failed invocation runs again for the same round from its start: IN is as before, a DONE that was added is not added again, and the
used counts are those that the rollback took (R313 step 5, R314). -/
def Chip.rerunInv (c : Chip) (r : ReachId) (i : CollInv) : Chip :=
  let again := newInv i.plan i.key i.desc i.members i.hosts i.edges i.member i.round i.serial none i.used i.abortUsed (c.now r)
  c.replaceInv r i { again with doneAdded := i.doneAdded, last := i.last, streaming := i.streaming, streamBase := i.streamBase }

/-- PLAN_START: fabric time has reached the agreed start, and the plan runs: from its first phase, or again where it stopped. Starting requires
LOCKED (R68): in a reach that is in another state the plan stops with cause time, for a PLAN_RESUME to arm it again (assumption 89). -/
def planStart (r : ReachId) (now : Time) (handle : Word64) (c : Chip) : Chip :=
  let c := c.at r now
  match (c.reach r).planBy handle with
  | none => c
  | some p =>
    if !c.inService r || p.st != .agreed || !notBefore p.start (c.now r) then c
    else if (c.reach r).time.servo != .locked then c.declareStop r .time StopInfo.none true p
    else
      let c := c.onPlanBy r handle (fun p => { p with st := .running, roundStart := p.start, begun := true, resuming := false, cause := none })
      if !p.begun then c.beginPhase r handle true
      else
        let c := forEach (p.con.tilesOn r) c (fun c t => c.onTile r (t % 64) (fun y =>
          if y.plan == some p.con.hdr.planId then y.restart p.start else y))
        forEach ((c.reach r).coll.invs.filter (fun i => i.plan == some handle && i.code.isSome && i.finished)) c (fun c i => c.rerunInv r i)

/-! ### Lock-cycle boundaries (R60, R62, R344) -/

/-- Every tile of the module that has a program in the plan's phase has ended the phase. -/
def Chip.tilesEnded (c : Chip) (handle : Word64) : Bool :=
  (c.planReaches handle).all (fun r => match (c.reach r).planBy handle with
    | none => true
    | some p => (p.con.tilesOn r).all (fun t =>
        let y := (c.reach r).tile (t % 64)
        (p.con.program t p.phaseNo).isNone || (y.phaseEnded && y.phase.toNat == p.phaseNo)))

/-- The phase of a plan ends at a round boundary (R62): after ROUNDS rounds, or once every tile has ended it. -/
def Chip.phaseEnds (c : Chip) (p : PlanInst) : Bool :=
  match p.phaseEntry with
  | none => false
  | some e => if e.rounds = 0 then c.tilesEnded p.handle else decide (e.rounds ≤ p.round + 1)

/-- A round boundary of a running plan: the next round, the next phase, or the end of the last phase. -/
def Chip.roundBoundary (c : Chip) (r : ReachId) (b : Time) (p : PlanInst) : Chip :=
  if p.phaseOver then c
  else if !c.phaseEnds p then
    let c := c.onPlanBy r p.handle (fun p => { p with round := p.round + 1, roundStart := b })
    match (c.reach r).planBy p.handle with
    | some p => c.nextRounds r p
    | none => c
  else if p.phase + 1 < p.con.phases.length then
    (c.onPlanBy r p.handle (fun p => { p with phase := p.phase + 1, round := 0, roundStart := b })).beginPhase r p.handle false
  else
    let c := c.onPlanBy r p.handle (fun p => { p with phaseOver := true })
    forEach (p.con.tilesOn r) c (fun c t => c.onTile r (t % 64) (fun y =>
      if y.plan == some p.con.hdr.planId && (y.phaseEnded || y.seqState == 5) then { y with phaseEnded := true, seqState := 0, wait := none }
      else y))

/-- A port makes the bank active that the plan service asked for, at the first boundary at least 2 µs after the request (R344). -/
def Mac.boundary (m : Mac) (b : Time) : Mac :=
  match m.switchAt with
  | some t => if notBefore t b then { m with gateActive := m.gateActive ^^^ 1, gateEn := true, switchAt := none } else m
  | none => m

/-- The boundary of every unit that follows lock cycles advances by one LOCK_CYCLE. -/
def Chip.oneBoundary (c : Chip) (r : ReachId) : Chip :=
  match (c.reach r).plan.clock with
  | none => c
  | some k =>
    let b := k.boundary + k.cycle
    let n := k.count + 1
    let c := c.onPlan r (fun s => { s with clock := some { k with boundary := b, count := n } })
    let c := c.onReach r (fun x => forEach allPorts x (fun x p => x.onMac p (fun m => m.boundary b)))
    forEach ((c.reach r).plan.plans.filter (fun p => p.st == .running && p.con.hdr.roundCycles != 0 && n % p.con.hdr.roundCycles == 0
        && later p.roundStart b)) c (fun c p => c.roundBoundary r b p)

/-- Boundaries that fabric time has reached. -/
def Chip.boundariesDue (c : Chip) (r : ReachId) : Nat :=
  match (c.reach r).plan.clock with
  | none => 0
  | some k => if k.cycle == 0 then 0 else (timeDiff k.boundary (c.now r) / k.cycle.toNat).toNat

/-- LOCK_CYCLE_BOUNDARY: fabric time has reached one or more boundaries (R60). -/
def lockCycleBoundary (r : ReachId) (now : Time) (c : Chip) : Chip :=
  let c := c.at r now
  (List.range (c.boundariesDue r)).foldl (fun c _ => c.oneBoundary r) c

/-! ### Gate entries (R343, R346) -/

/-- The entry of a bank that ends at offset `u`; at offset 0, the last one. -/
def entryEnding (l : List GateEntry) (u : Nat) : Option GateEntry :=
  if u = 0 then l.getLast?
  else (l.foldl (fun (s : Nat × Option GateEntry) e =>
    let hi := s.1 + e.interval * 65536
    (hi, if hi = u then some e else s.2)) (0, none)).2

/-- The run of a TC6 window on a port that closes now. -/
def Reach.runClosing (x : Reach) (p : PortId) : Option Nat :=
  let m := x.mac p
  if !m.gateEn || m.closedAt == some x.time.now then none
  else match entryEnding (m.gateBank m.gateActive) (x.cycleOffset x.time.now), x.gateAt p x.time.now with
    | some e, some (f, _, _) =>
      if e.gates.toNat.testBit 6 && !f.opens 6 e.win.toNat then some e.win.toNat else none
    | _, _ => none

/-- GATE_ENTRY_BOUNDARY: an entry of a port's gate list ends. A TC6 run that closes makes a GATE record, and counts one WIN_DEFER where
frames of the window stay queued and its plan is not in a stoppage. -/
def gateEntryBoundary (r : ReachId) (now : Time) (p : PortId) (c : Chip) : Chip :=
  let c := c.at r now
  let x := c.reach r
  match x.runClosing p with
  | none => c
  | some win =>
    let m := x.mac p
    let left := ((m.queues.find? (fun q => q.tc == 6 && q.sub == win)).map (fun q => q.frames.length)).getD 0
    let plan := x.windowPlan r p win
    let id := (plan.map (fun q => q.con.hdr.planId)).getD 0
    let c := c.trace r 4 (65 + p.val) (match plan with | some q => q.fn.val | none => 0xFF)
      (BitVec.ofNat 64 (win * 2 ^ 16 + m.runBytes % 2 ^ 32 * 2 ^ 32)) (BitVec.ofNat 64 (left + id.toNat % 2 ^ 32 * 2 ^ 32))
    let c := c.onMac r p (fun m => { m with runBytes := 0, closedAt := some (c.now r) })
    match plan with
    | some q =>
      if left != 0 && !q.inStoppage then
        c.tdc r 2 (some q.fn) (65 + p.val) (BitVec.ofNat 32 (p.val + win * 2 ^ 16)) id
      else c
    | none => c

end Sys2Proof.Machine
end

