-- ==== Sys2Proof/Machine/PlanCmds.lean ====
section
/-!
DEFINITION. Commands of passage plans (R58 to R72, R343, R344): one meaning for each command, over the shared operations.
-/

namespace Sys2Proof.Machine

/-- PLAN_LOAD: A PLAN_LOAD command fetches the container, verifies its digest, validates, reserves, writes gate lists and
arms the plan (R66). -/
def execPlanLoad (ref : CmdRef) (p : PlanLoad) (s : State) : Host.Outcome State Fault Refusal :=
  s.runCmd ref (fun ref => planLoad ref p)

/-- PLAN_ARM_RX: A PLAN_ARM keeper frame from a peer arrives; once all peers' frames are held the reach computes the agreed
start (R70). -/
def execPlanArmRx (r : ReachId) (now : Time) (a : ArmFrame) (s : State) : Host.Outcome State Fault Refusal :=
  s.run (planArmRx r now a)

/-- PLAN_PEER_TIMEOUT: Arm frames of all peers are not received within 1 s of local arming and the load fails with
PLAN_PEER_TIMEOUT (R66). -/
def execPlanPeerTimeout (r : ReachId) (now : Time) (handle : Word64) (s : State) : Host.Outcome State Fault Refusal :=
  s.run (planPeerTimeout r now handle)

/-- PLAN_START: Fabric time reaches the agreed start round boundary and the plan begins running (R70). -/
def execPlanStart (r : ReachId) (now : Time) (handle : Word64) (s : State) : Host.Outcome State Fault Refusal :=
  s.run (planStart r now handle)

/-- LOCK_CYCLE_BOUNDARY: Fabric time reaches the next lock-cycle boundary and every unit advances its boundary by LOCK_CYCLE
(R60). -/
def execLockCycleBoundary (r : ReachId) (now : Time) (s : State) : Host.Outcome State Fault Refusal :=
  s.run (lockCycleBoundary r now)

/-- GATE_ENTRY_BOUNDARY: Fabric time reaches the end of a gate-list entry and the next entry opens its classes (R343). -/
def execGateEntryBoundary (r : ReachId) (now : Time) (p : PortId) (s : State) : Host.Outcome State Fault Refusal :=
  s.run (gateEntryBoundary r now p)

/-- LATE_STOPPAGE: Lateness exceeds FREEBOARD plus STOP_THRESH lock cycles and the plan service declares a late stoppage and
informs peers (R71). -/
def execLateStoppage (r : ReachId) (now : Time) (t : TileId) (s : State) : Host.Outcome State Fault Refusal :=
  s.run (lateStoppage r now t)

/-- PLAN_STOP_RX: A PLAN_STOP keeper frame from a peer arrives and the node enters a stoppage at its next step boundary
(R72). -/
def execPlanStopRx (r : ReachId) (now : Time) (planId : Word64) (cause : BitVec 3) (s : State) : Host.Outcome State Fault Refusal :=
  s.runSettle (planStopRx r now planId cause)

/-- PLAN_RESUME: A PLAN_RESUME command re-arms a stopped plan and restarts it at an agreed round boundary (R72). -/
def execPlanResume (ref : CmdRef) (handle : Word64) (s : State) : Host.Outcome State Fault Refusal :=
  s.runCmd ref (fun ref => planResume ref handle)

/-- PLAN_UNLOAD: A PLAN_UNLOAD command releases a plan's reservations, routes and gate windows (R344). -/
def execPlanUnload (ref : CmdRef) (handle : Word64) (s : State) : Host.Outcome State Fault Refusal :=
  s.runCmdSettle ref (fun ref => planUnload ref handle)

/-- PLAN_STOP: A PLAN_STOP command puts the plan into a stoppage with cause driver request (R72). -/
def execPlanStop (ref : CmdRef) (handle : Word64) (s : State) : Host.Outcome State Fault Refusal :=
  s.runCmdSettle ref (fun ref => planStop ref handle)

end Sys2Proof.Machine
end

