-- ==== Sys2Proof/Machine/PowerCmds.lean ====
section
/-!
DEFINITION. Power and clocks (R476 to R496): one meaning for each command, over the shared operations.
-/

namespace Sys2Proof.Machine

/-- PWR_EN_RISE: PWR_EN is asserted and the module powers up through its rail sequence (R478). -/
def execPwrEnRise (rails : Quad (Fin 8)) (lowLong : Bool) (s : State) : Host.Outcome State Fault Refusal :=
  s.runPin (pwrEnRise rails lowLong)

/-- PWR_EN_FALL: PWR_EN falls and the module stops transmitting and removes every rail (R480). -/
def execPwrEnFall (s : State) : Host.Outcome State Fault Refusal :=
  s.runPin pwrEnFall

/-- INPUT_CUT_OFF: The input stays below 36 V for 100 µs or above 63 V for 10 µs and power-down follows (R476). -/
def execInputCutOff (lowUs highUs : Nat) (s : State) : Host.Outcome State Fault Refusal :=
  s.runPin (inputCutOff lowUs highUs)

/-- RAIL_FAULT: A reach rail or PLL leaves regulation or lock and the reach takes a reach reset (R37). -/
def execRailFault (r : ReachId) (now : Time) (cause : RailCause) (s : State) : Host.Outcome State Fault Refusal :=
  s.runSettle (railFault r now cause)

/-- DROOP_TRIP: VCORE falls below the droop threshold and TCLK drops to the floor within 3 ns (R481). -/
def execDroopTrip (r : ReachId) (now : Time) (dropMv : Nat) (s : State) : Host.Outcome State Fault Refusal :=
  s.run (droopTrip r now dropMv)

/-- DROOP_CLEAR: The droop sensor clears and TCLK rises linearly over 200 ns to its target (R481). -/
def execDroopClear (r : ReachId) (now : Time) (s : State) : Host.Outcome State Fault Refusal :=
  s.run (droopClear r now)

/-- POWER_PEAK_TRIP: Input power over 10 µs exceeds 2,300 W and every reach's droop sensor trips (R482). -/
def execPowerPeakTrip (watts : Nat) (s : State) : Host.Outcome State Fault Refusal :=
  s.run (powerPeakTrip watts)

/-- POWER_CAP_TICK: Every 100 µs the gatehouse compares average power with the cap and steps capping targets (R484). -/
def execPowerCapTick (avg : Nat) (s : State) : Host.Outcome State Fault Refusal :=
  s.run (powerCapTick avg)

/-- THERMAL_TICK: Every 100 µs each reach steps its thermal target and acts on alert and hold limits (R485). -/
def execThermalTick (r : ReachId) (now : Time) (sensors : Sensors) (s : State) : Host.Outcome State Fault Refusal :=
  s.runSettle (thermalTick r now sensors)

/-- THERM_TRIP: A sensor exceeds 120 °C, THERM_TRIP_N asserts and the primary conversion switches off (R485). -/
def execThermTrip (hottest gatehouse : Nat) (s : State) : Host.Outcome State Fault Refusal :=
  s.runPin (thermTrip hottest gatehouse)

/-- POWER_LIMIT_UNMET: Power stays above limits at the floor for 100 ms and an alert or a fault stoppage follows (R486). -/
def execPowerLimitUnmet (avg100 : Nat) (s : State) : Host.Outcome State Fault Refusal :=
  s.run (powerLimitUnmet avg100)

/-- PWR_CAP_WRITE: A PWR_CAP write takes effect except a floor lowered below a loaded plan's FLOOR_MHZ (R492). -/
def execPwrCapWrite (p : RegPath) (value : Word64) (s : State) : Host.Outcome State Fault Refusal :=
  s.run (fun c => c.onPath p (pwrCapWrite p value))

end Sys2Proof.Machine
end

