-- ==== Sys2Proof/Machine/ResetCmds.lean ====
section
/-!
DEFINITION. Resets and self-test by command (R31, R113, R456 to R463): one meaning for each command, over the shared operations.
-/

namespace Sys2Proof.Machine

/-- RESET_TILES: A RESET_TILES command performs a tile-array reset of the named groups (R113). -/
def execResetTiles (ref : CmdRef) (reach : BitVec 8) (mark : TileResetMark) (s : State) : Host.Outcome State Fault Refusal :=
  s.runCmdSettle ref (fun ref => resetTiles ref reach mark)

/-- RESET_REACH: A RESET_REACH command resets one reach (R31). -/
def execResetReach (ref : CmdRef) (reach : BitVec 8) (s : State) : Host.Outcome State Fault Refusal :=
  s.runCmdSettle ref (fun ref => resetReach ref reach)

/-- BIST_RUN: A BIST_RUN command runs a quick or full self-test on named reaches (R462). -/
def execBistRun (ref : CmdRef) (mask kind : BitVec 8) (iova : Word64) (runs : Quad TestRun) (s : State) : Host.Outcome State Fault Refusal :=
  s.runCmdSettle ref (fun ref c => (bistRun ref mask kind iova runs c).shutResume)

/-- BIST_WINDOW_TIMEOUT: The test window is not met within WAIT_S and the test ends untested (R458). -/
def execBistWindowTimeout (r : ReachId) (now : Time) (s : State) : Host.Outcome State Fault Refusal :=
  s.run (bistWindowTimeout r now)

end Sys2Proof.Machine
end

