-- ==== Sys2Proof/Machine/RingCmds.lean ====
section
/-!
DEFINITION. The host port, rings and their commands (R346 to R386): one meaning for each command, over the shared operations.
-/

namespace Sys2Proof.Machine

/-- DOORBELL: A doorbell write makes the module read the ring's index word (R357). -/
def execDoorbell (f : FnId) (ring : BitVec 8) (s : State) : Host.Outcome State Fault Refusal :=
  s.run (doorbell f ring)

/-- INDEX_WORD_READ_DONE: The index word read returns and descriptors below the published count are fetched (R357). -/
def execIndexWordReadDone (f : FnId) (ring : BitVec 8) (word : Word32) (s : State) : Host.Outcome State Fault Refusal :=
  s.run (indexWordReadDone f ring word)

/-- DESCRIPTOR_FETCH_DONE: Fetched descriptors return; whole chains with the expected OWNER are taken (R362). -/
def execDescriptorFetchDone (f : FnId) (ring : BitVec 8) (l : List Desc) (s : State) : Host.Outcome State Fault Refusal :=
  s.run (descriptorFetchDone f ring l)

/-- COMPLETION_RING_ROOM: A full completion ring gains room and held records post and taking resumes (R360). -/
def execCompletionRingRoom (f : FnId) (ring : BitVec 8) (consumed : Word32) (s : State) : Host.Outcome State Fault Refusal :=
  s.run (completionRingRoom f ring consumed)

/-- INTERRUPT_MODERATION_TIMER: MOD_USEC passes after a record and the ring sends its MSI-X message (R373). -/
def execInterruptModerationTimer (f : FnId) (ring : BitVec 8) (elapsed : Nat) (s : State) : Host.Outcome State Fault Refusal :=
  s.run (interruptModerationTimer f ring elapsed)

/-- HOST_READ_TIMEOUT: A host-port read completion times out after 50 ms and the work fails with HOST_DMA_FAULT (R370). -/
def execHostReadTimeout (w : HostWork) (s : State) : Host.Outcome State Fault Refusal :=
  s.runSettle (hostReadTimeout w)

/-- RING_CREATE: A RING_CREATE command creates a ring and posts its held records (R370). -/
def execRingCreate (ref : CmdRef) (p : RingCreate) (s : State) : Host.Outcome State Fault Refusal :=
  s.runCmd ref (fun ref => ringCreate ref p)

/-- RING_DESTROY: A RING_DESTROY command removes a ring once its taken chains complete (R370). -/
def execRingDestroy (ref : CmdRef) (ring : BitVec 8) (s : State) : Host.Outcome State Fault Refusal :=
  s.runCmd ref (fun ref => ringDestroy ref ring)

/-- NOP: A NOP command completes with zero (R370). -/
def execNop (ref : CmdRef) (s : State) : Host.Outcome State Fault Refusal :=
  s.runCmd ref nop

/-- OBJ_QUERY: An OBJ_QUERY command writes a queue-pair context or mooring entry to a host buffer (R370). -/
def execObjQuery (ref : CmdRef) (kind : BitVec 8) (number : Word32) (iova : Word64) (s : State) : Host.Outcome State Fault Refusal :=
  s.runCmd ref (fun ref => objQuery ref kind number iova)

/-- FEED_POST: A FEED_POST command offers a bounce buffer read by the feed service in SEQ order (R376). -/
def execFeedPost (ref : CmdRef) (p : FeedPost) (s : State) : Host.Outcome State Fault Refusal :=
  s.runCmd ref (fun ref => feedPost ref p)

/-- CKPT_POST: A CKPT_POST command offers an empty buffer that the checkpoint service fills (R377). -/
def execCkptPost (ref : CmdRef) (p : FeedPost) (s : State) : Host.Outcome State Fault Refusal :=
  s.runCmd ref (fun ref => ckptPost ref p)

/-- CONFIG_TABLE_WRITE: A CONFIG_TABLE write applies partition, address or filter entries whole on the named reaches and
logs them (R371). -/
def execConfigTableWrite (ref : CmdRef) (t : ConfigTable) (s : State) : Host.Outcome State Fault Refusal :=
  s.runCmd ref (fun ref => configTableWrite ref t)

/-- CONFIG_TABLE_READ: A CONFIG_TABLE read returns entries of one reach's table (R371). -/
def execConfigTableRead (ref : CmdRef) (t : ConfigTable) (s : State) : Host.Outcome State Fault Refusal :=
  s.runCmd ref (fun ref => configTableRead ref t)

/-- ATTACH: Writing HOST_FN_CTRL.ATTACH attaches the function, continuing or shutting down its prior state (R381). -/
def execAttach (f : FnId) (s : State) : Host.Outcome State Fault Refusal :=
  s.runSettle (attach f)

/-- DETACH: Writing HOST_FN_CTRL.DETACH makes the function absent (R385). -/
def execDetach (f : FnId) (s : State) : Host.Outcome State Fault Refusal :=
  s.runSettle (detach f)

/-- HOST_REV_WRITE: A write of HOST_REV offer fields selects the highest supported revision in SEL (R384). -/
def execHostRevWrite (f : FnId) (value : Word64) (s : State) : Host.Outcome State Fault Refusal :=
  s.run (hostRevWrite f value)

/-- HOST_CLK_WRITE: A write of HOST_CLK.MODE persists and takes effect at the next host-port reset (R351). -/
def execHostClkWrite (p : RegPath) (value : Word64) (s : State) : Host.Outcome State Fault Refusal :=
  s.run (fun c => c.onPath p (hostClkWrite p value))

/-- HOST_PORT_RESET: PERST_N, hot reset or link-down resets the host port; functions become absent and completions are held
(R33). -/
def execHostPortReset (cause : HostReset) (s : State) : Host.Outcome State Fault Refusal :=
  s.runSettle (hostPortReset cause)

/-- FUNCTION_LEVEL_RESET: A function-level reset or VF Enable clear starts a shut-down of the function (R353). -/
def execFunctionLevelReset (f : FnId) (s : State) : Host.Outcome State Fault Refusal :=
  s.runSettle (functionLevelReset f)

/-- POWER_STATE_CHANGE: The host port enters or leaves D3hot, stopping or resuming DMA and MSI-X (R350). -/
def execPowerStateChange (d3hot : Bool) (s : State) : Host.Outcome State Fault Refusal :=
  s.run (powerStateChange d3hot)

end Sys2Proof.Machine
end

