-- ==== Sys2Proof/Machine/RmeCmds.lean ====
section
/-!
DEFINITION. Work entries, their completion, queue pairs and moorings (R190 to R219): one meaning for each command, over the shared
operations.
-/

namespace Sys2Proof.Machine

/-- RME_WRITE: A WRITE work entry is taken, translated and sent in barges to a remote mooring (R208). -/
def execRmeWrite (r : ReachId) (now : Time) (src : RmeSource) (s : State) : Host.Outcome State Fault Refusal :=
  s.runSettle (rmeTake 0 r now src)

/-- RME_WRITE_SIGNAL: A WRITE_SIGNAL work entry is taken and sent, its add made at the target after ordered data is visible
(R209). -/
def execRmeWriteSignal (r : ReachId) (now : Time) (src : RmeSource) (s : State) : Host.Outcome State Fault Refusal :=
  s.runSettle (rmeTake 1 r now src)

/-- RME_READ: A READ work entry is taken and a READ_REQ sent, within MAX_RD outstanding (R210). -/
def execRmeRead (r : ReachId) (now : Time) (src : RmeSource) (s : State) : Host.Outcome State Fault Refusal :=
  s.runSettle (rmeTake 2 r now src)

/-- RME_SEND: A SEND work entry is taken and its message sent to the peer's oldest posted RECV (R211). -/
def execRmeSend (r : ReachId) (now : Time) (src : RmeSource) (s : State) : Host.Outcome State Fault Refusal :=
  s.runSettle (rmeTake 3 r now src)

/-- RME_RECV: A RECV work entry posts a local buffer at the tail of the receive list (R211). -/
def execRmeRecv (r : ReachId) (now : Time) (src : RmeSource) (s : State) : Host.Outcome State Fault Refusal :=
  s.runSettle (rmeTake 4 r now src)

/-- RME_FETCH_ADD: A FETCH_ADD work entry adds to a remote signal word and optionally returns the prior value (R212). -/
def execRmeFetchAdd (r : ReachId) (now : Time) (src : RmeSource) (s : State) : Host.Outcome State Fault Refusal :=
  s.runSettle (rmeTake 5 r now src)

/-- RME_FENCE: A FENCE holds its queue pair until earlier operations complete (R213). -/
def execRmeFence (r : ReachId) (now : Time) (src : RmeSource) (s : State) : Host.Outcome State Fault Refusal :=
  s.runSettle (rmeTake 6 r now src)

/-- RME_FLUSH: A FLUSH completes when every earlier operation of its scope has completed (R213). -/
def execRmeFlush (r : ReachId) (now : Time) (src : RmeSource) (s : State) : Host.Outcome State Fault Refusal :=
  s.runSettle (rmeTake 7 r now src)

/-- RME_COMPLETION: An operation's data stands visible and its completion record, LSIG add or signal add is made in
submission order (R217). -/
def execRmeCompletion (r : ReachId) (now : Time) (qpn : BitVec 24) (which : CompletionOf) (s : State) : Host.Outcome State Fault Refusal :=
  s.runSettle (rmeCompletion r now qpn which)

/-- QP_CREATE: A QP_CREATE command creates a context in RESET at the given QPN (R542). -/
def execQpCreate (ref : CmdRef) (p : QpParams) (s : State) : Host.Outcome State Fault Refusal :=
  s.runCmd ref (fun ref => qpCreate ref p)

/-- QP_MODIFY: A QP_MODIFY command moves a context between states or retargets its peer node (R198). -/
def execQpModify (ref : CmdRef) (m : QpModify) (s : State) : Host.Outcome State Fault Refusal :=
  s.runCmdSettle ref (fun ref => qpModify ref m)

/-- QP_DRAIN_DONE: Every taken operation of a DRAIN context retires and it enters FROZEN or RESET (R198). -/
def execQpDrainDone (r : ReachId) (now : Time) (qpn : BitVec 24) (s : State) : Host.Outcome State Fault Refusal :=
  s.runSettle (qpDrainDone r now qpn)

/-- QP_DESTROY: A QP_DESTROY command moves the context to ERROR, waits for retirement and frees it (R200). -/
def execQpDestroy (ref : CmdRef) (qpn : BitVec 24) (s : State) : Host.Outcome State Fault Refusal :=
  s.runCmdSettle ref (fun ref => qpDestroy ref qpn)

/-- MOORING_REGISTER: A MOORING_REGISTER command picks the lowest free index, pins the range and returns the key (R204). -/
def execMooringRegister (ref : CmdRef) (r : ReachId) (p : MooringParams) (s : State) : Host.Outcome State Fault Refusal :=
  s.runCmd ref (fun ref => mooringRegister ref r p)

/-- MOORING_WITHDRAW: A MOORING_WITHDRAW command clears VALID and completes when no reference remains (R205). -/
def execMooringWithdraw (ref : CmdRef) (key : Word32) (s : State) : Host.Outcome State Fault Refusal :=
  s.runCmdSettle ref (fun ref => mooringWithdraw ref key)

/-- MOORING_RELEASE: The last reference on a withdrawn mooring is dropped; the runs are unpinned and the withdraw completes
(R205). -/
def execMooringRelease (r : ReachId) (now : Time) (idx : BitVec 15) (s : State) : Host.Outcome State Fault Refusal :=
  s.runSettle (mooringRelease r now idx)

/-- HOST_FLUSH_READ: FLUSH_BATCH operations wait or FLUSH_WAIT expires and a zero-length read is issued on the host port
(R219). -/
def execHostFlushRead (r : ReachId) (now : Time) (s : State) : Host.Outcome State Fault Refusal :=
  s.run (hostFlushRead r now)

/-- HOST_FLUSH_DONE: The flush read returns and the covered host-memory writes stand visible (R219). -/
def execHostFlushDone (r : ReachId) (now : Time) (s : State) : Host.Outcome State Fault Refusal :=
  s.runSettle (hostFlushDone r now)

/-- RNR_RETRY: RNR_TIMER expires after a no-receive or WAIT answer and the first barge is resent, or the operation fails at
its limit (R211). -/
def execRnrRetry (r : ReachId) (now : Time) (qpn : BitVec 24) (s : State) : Host.Outcome State Fault Refusal :=
  s.runSettle (rnrRetry r now qpn)

end Sys2Proof.Machine
end

