-- ==== Sys2Proof/Machine/RoleCmds.lean ====
section
/-!
DEFINITION. Roles, keys, the logbook and the cipher engine (R412 to R444): one meaning for each command, over the shared operations.
-/

namespace Sys2Proof.Machine

/-- ROLE_OPEN: A ROLE_OPEN request opens a role session bound to one path (R427). -/
def execRoleOpen (p : ReqPath) (b : RoleReq) (s : State) : Host.Outcome State Fault Refusal :=
  s.runReq p (fun p => roleOpen p b)

/-- ROLE_CLOSE: A ROLE_CLOSE request ends the session (R427). -/
def execRoleClose (p : ReqPath) (b : RoleReq) (s : State) : Host.Outcome State Fault Refusal :=
  s.runReq p (fun p => roleClose p b)

/-- ROLE_SESSION_EXPIRY: A role session's time runs out and it ends (R427). -/
def execRoleSessionExpiry (r : ReachId) (now : Time) (mctp : Bool) (s : State) : Host.Outcome State Fault Refusal :=
  s.run (roleSessionExpiry r now mctp)

/-- ENROL: An ENROL request enrols role keys or an operator (R424). -/
def execEnrol (p : ReqPath) (b : RoleReq) (s : State) : Host.Outcome State Fault Refusal :=
  s.runReq p (fun p => enrol p b)

/-- REVOKE: A REVOKE request revokes an enrolled key pair (R425). -/
def execRevoke (p : ReqPath) (b : RoleReq) (s : State) : Host.Outcome State Fault Refusal :=
  s.runReq p (fun p => revoke p b)

/-- IMAGE_STAGE: An IMAGE_STAGE request writes a verified image to the slot that did not boot (R422). -/
def execImageStage (p : ReqPath) (b : RoleReq) (image : Image) (s : State) : Host.Outcome State Fault Refusal :=
  s.runReq p (fun p => imageStage p b image)

/-- SVN_COMMIT: An SVN_COMMIT request raises an image type's anti-rollback counter (R422). -/
def execSvnCommit (p : ReqPath) (b : RoleReq) (s : State) : Host.Outcome State Fault Refusal :=
  s.runReq p (fun p => svnCommit p b)

/-- FABRIC_KEY: A FABRIC_KEY request installs a partition's key with an activation time (R437). -/
def execFabricKey (p : ReqPath) (b : RoleReq) (s : State) : Host.Outcome State Fault Refusal :=
  s.runReq p (fun p => fabricKey p b)

/-- FABRIC_KEY_RETIRE: T_ACT plus KEY_RETIRE passes and the older fabric key is erased on every reach (R438). -/
def execFabricKeyRetire (r : ReachId) (now : Time) (slot : Nat) (s : State) : Host.Outcome State Fault Refusal :=
  s.run (fabricKeyRetire r now slot)

/-- FABRIC_KEY_AGE_ALERT: A key in force reaches 2^45 or 2^46 ns without a newer key and an alert is raised (R440). -/
def execFabricKeyAgeAlert (r : ReachId) (now : Time) (slot : Nat) (s : State) : Host.Outcome State Fault Refusal :=
  s.run (fabricKeyAgeAlert r now slot)

/-- KEK_SET: A KEK_SET request installs a migration or tenancy KEK (R435). -/
def execKekSet (p : ReqPath) (b : RoleReq) (s : State) : Host.Outcome State Fault Refusal :=
  s.runReq p (fun p => kekSet p b)

/-- HOST_KEY: A HOST_KEY request installs a function's host-transfer key (R435). -/
def execHostKey (p : ReqPath) (b : RoleReq) (s : State) : Host.Outcome State Fault Refusal :=
  s.runReq p (fun p => hostKeyInstall p b)

/-- LOG_READ: A LOG_READ request returns logbook entries followed by a fresh seal (R430). -/
def execLogRead (p : ReqPath) (b : RoleReq) (s : State) : Host.Outcome State Fault Refusal :=
  s.runReq p (fun p => logRead p b)

/-- LOG_TRIM: A LOG_TRIM request releases logbook entries up to a SEQ (R431). -/
def execLogTrim (p : ReqPath) (b : RoleReq) (s : State) : Host.Outcome State Fault Refusal :=
  s.runReq p (fun p => logTrim p b)

/-- CIPHER: A CIPHER request runs one AES-256-GCM invocation or saves or restores a context (R441). -/
def execCipher (p : ReqPath) (b : RoleReq) (d : CipherData) (s : State) : Host.Outcome State Fault Refusal :=
  s.runReq p (fun p => cipherOp p b d)

/-- IDENTITY: An IDENTITY request returns the public keys and both certificate chains (R426). -/
def execIdentity (p : ReqPath) (b : RoleReq) (s : State) : Host.Outcome State Fault Refusal :=
  s.runReq p (fun p => identity p b)

end Sys2Proof.Machine
end

