-- ==== Sys2Proof/Machine/SelectCmds.lean ====
section
/-!
DEFINITION. SELECT and CONVERT steps (R95, R102 to R107): one meaning for each command, over the shared operations.
-/

namespace Sys2Proof.Machine

/-- TOP_K: A SELECT step picks k of up to 65,536 candidates in descending total order with their indices (R103). -/
def execTopK (r : ReachId) (now : Time) (t : TileId) (hold : Word32) (s : State) : Host.Outcome State Fault Refusal :=
  s.run (selectStep 0 r now t hold)

/-- SORT: A SELECT step sorts values under the total order with index tie-break (R102). -/
def execSort (r : ReachId) (now : Time) (t : TileId) (hold : Word32) (s : State) : Host.Outcome State Fault Refusal :=
  s.run (selectStep 1 r now t hold)

/-- MERGE: A SELECT step merges sorted runs under the total order (R102). -/
def execMerge (r : ReachId) (now : Time) (t : TileId) (hold : Word32) (s : State) : Host.Outcome State Fault Refusal :=
  s.run (selectStep 2 r now t hold)

/-- GATHER: A SELECT step gathers elements by index, reading zero out of range (R104). -/
def execGather (r : ReachId) (now : Time) (t : TileId) (hold : Word32) (s : State) : Host.Outcome State Fault Refusal :=
  s.run (selectStep 3 r now t hold)

/-- SCATTER_WRITE: A SELECT step scatters elements by index, the highest source index winning a collision (R104). -/
def execScatterWrite (r : ReachId) (now : Time) (t : TileId) (hold : Word32) (s : State) : Host.Outcome State Fault Refusal :=
  s.run (selectStep 4 r now t hold)

/-- SCATTER_ADD: A SELECT step adds elements into destinations in ascending source index (R104). -/
def execScatterAdd (r : ReachId) (now : Time) (t : TileId) (hold : Word32) (s : State) : Host.Outcome State Fault Refusal :=
  s.run (selectStep 5 r now t hold)

/-- EXPERT_ROUTE: A SELECT step assigns token slots to experts within capacities and writes routes, weights and counts
(R106). -/
def execExpertRoute (r : ReachId) (now : Time) (t : TileId) (hold : Word32) (s : State) : Host.Outcome State Fault Refusal :=
  s.run (selectStep 6 r now t hold)

/-- CONVERT: A CONVERT step rounds each source element once to OUT_FMT under the ACW (R95). -/
def execConvert (r : ReachId) (now : Time) (t : TileId) (hold : Word32) (s : State) : Host.Outcome State Fault Refusal :=
  s.run (convertStep r now t hold)

end Sys2Proof.Machine
end

