-- ==== Sys2Proof/Machine/SeqCmds.lean ====
section
/-!
DEFINITION. Moves, the issue queue, waits, markers, digests and the ends of steps and phases (R126 to R144): one meaning for each
command, over the shared operations.
-/

namespace Sys2Proof.Machine

/-- MOVE_LOAD: A MOVE step copies rows from device memory to scratchpad (R131). -/
def execMoveLoad (r : ReachId) (now : Time) (t : TileId) (hold : Word32) (s : State) : Host.Outcome State Fault Refusal :=
  s.run (moveStep 0 r now t hold)

/-- MOVE_STORE: A MOVE step copies rows from scratchpad to device memory (R131). -/
def execMoveStore (r : ReachId) (now : Time) (t : TileId) (hold : Word32) (s : State) : Host.Outcome State Fault Refusal :=
  s.run (moveStep 1 r now t hold)

/-- MOVE_COPY: A MOVE step copies rows from one scratchpad range to another (R132). -/
def execMoveCopy (r : ReachId) (now : Time) (t : TileId) (hold : Word32) (s : State) : Host.Outcome State Fault Refusal :=
  s.run (moveStep 2 r now t hold)

/-- RECLOAD: A MOVE step loads tensor records from memory into the record table (R132). -/
def execRecload (r : ReachId) (now : Time) (t : TileId) (hold : Word32) (s : State) : Host.Outcome State Fault Refusal :=
  s.run (moveStep 3 r now t hold)

/-- RECSTORE: A MOVE step stores tensor records from the record table to memory (R132). -/
def execRecstore (r : ReachId) (now : Time) (t : TileId) (hold : Word32) (s : State) : Host.Outcome State Fault Refusal :=
  s.run (moveStep 4 r now t hold)

/-- MOVE_END: A move's last byte is written and it adds its signal in issue order, or fails with SEQ_MEM_UE or SEQ_SPAD_UE
(R133). -/
def execMoveEnd (r : ReachId) (now : Time) (t : TileId) (k : Nat) (done : MoveDone) (s : State) :
    Host.Outcome State Fault Refusal :=
  s.run (fun c => (moveEnd r now t k done.finds done.cycles c).parityReset r)

/-- REMOTE: A REMOTE step copies prepared work entries into the tile's issue queue, waiting for room (R136). -/
def execRemote (r : ReachId) (now : Time) (t : TileId) (hold cycles : Word32) (s : State) : Host.Outcome State Fault Refusal :=
  s.run (remoteStep r now t hold cycles)

/-- ISSUE_QUEUE_COPY: A work entry is copied to the issue queue once room frees, with TC6 and window set where the schedule
names one (R136). -/
def execIssueQueueCopy (r : ReachId) (now : Time) (t : TileId) (stall cycles : Word32) (s : State) : Host.Outcome State Fault Refusal :=
  s.run (issueQueueCopy r now t stall cycles)

/-- WAIT_TIME: A WAIT_TIME step waits until fabric time reaches the round boundary plus its offset (R128). -/
def execWaitTime (r : ReachId) (now : Time) (t : TileId) (hold cycles : Word32) (s : State) : Host.Outcome State Fault Refusal :=
  s.run (waitTimeStep r now t hold cycles)

/-- WAIT_TIME_EXPIRY: The wait time is reached and the WAIT_TIME step completes (R128). -/
def execWaitTimeExpiry (r : ReachId) (now : Time) (t : TileId) (cycles : Word32) (s : State) : Host.Outcome State Fault Refusal :=
  s.run (waitTimeExpiry r now t cycles)

/-- WAIT_SIGNAL: A WAIT_SIGNAL step compares its signal word with THRESH and waits until it is reached (R129). -/
def execWaitSignal (r : ReachId) (now : Time) (t : TileId) (hold cycles : Word32) (s : State) : Host.Outcome State Fault Refusal :=
  s.run (waitSignalStep r now t hold cycles)

/-- SEQ_WAIT_TIMEOUT: A WAIT_SIGNAL step's TIMEOUT elapses and the step fails (R129). -/
def execSeqWaitTimeout (r : ReachId) (now : Time) (t : TileId) (s : State) : Host.Outcome State Fault Refusal :=
  s.run (seqWaitTimeout r now t)

/-- MARKER: A MARKER begin, end or point step takes 2 TCLK and emits a marker record when traced (R142). -/
def execMarker (r : ReachId) (now : Time) (t : TileId) (hold : Word32) (s : State) : Host.Outcome State Fault Refusal :=
  s.run (markerStep r now t hold)

/-- MARKER_STAMP: A stamp MARKER step writes the fabric time of its start to scratchpad (R142). -/
def execMarkerStamp (r : ReachId) (now : Time) (t : TileId) (hold : Word32) (s : State) : Host.Outcome State Fault Refusal :=
  s.run (markerStamp r now t hold)

/-- DIGEST_OPEN: A DIGEST step with OP 0 opens the digest slot for LAYER (R143). -/
def execDigestOpen (r : ReachId) (now : Time) (t : TileId) (hold : Word32) (s : State) : Host.Outcome State Fault Refusal :=
  s.run (digestOpen r now t hold)

/-- DIGEST_CLOSE: A DIGEST step with OP 1 waits for folding steps to end, writes the digest value and frees the slot (R143).
-/
def execDigestClose (r : ReachId) (now : Time) (t : TileId) (hold : Word32) (s : State) : Host.Outcome State Fault Refusal :=
  s.run (digestClose r now t hold)

/-- ROUND_END: A PHASE_END step with OP 0 waits for the tile's work to end and returns to the phase's first step for the
next round (R144). -/
def execRoundEnd (r : ReachId) (now : Time) (t : TileId) (hold cycles : Word32) (s : State) : Host.Outcome State Fault Refusal :=
  s.run (phaseEndStep 0 r now t hold cycles)

/-- PHASE_END: A PHASE_END step with OP 1 waits for the tile's work and ends the tile's phase (R144). -/
def execPhaseEnd (r : ReachId) (now : Time) (t : TileId) (hold cycles : Word32) (s : State) : Host.Outcome State Fault Refusal :=
  s.run (phaseEndStep 1 r now t hold cycles)

/-- PHASE_END_ON_SIGNAL: A PHASE_END step with OP 2 acts as phase end or round end by its signal word and threshold (R144).
-/
def execPhaseEndOnSignal (r : ReachId) (now : Time) (t : TileId) (hold cycles : Word32) (s : State) : Host.Outcome State Fault Refusal :=
  s.run (phaseEndStep 2 r now t hold cycles)

/-- STEP_END: A running step's unit writes its last output and the step ends, releasing interlocked steps (R126). -/
def execStepEnd (r : ReachId) (now : Time) (t : TileId) (unit : StepUnit) (cycles : Word32) (s : State) : Host.Outcome State Fault Refusal :=
  s.run (stepEnd r now t unit cycles)

end Sys2Proof.Machine
end

