-- ==== Sys2Proof/Machine/StartCmds.lean ====
section
/-!
DEFINITION. Start-up, shut-down, resets of the module and the set-up registers (R31, R497 to R520, R528 to R535): one meaning for each
command, over the shared operations.
-/

namespace Sys2Proof.Machine

/-- MODULE_RESET: Power-on, MRST_N or a gatehouse fatal fault resets the whole module and boot runs (R31). -/
def execModuleReset (s : State) : Host.Outcome State Fault Refusal :=
  s.run moduleReset

/-- MRST_N_LOW: MRST_N is held low and causes a module reset, with start-up on its rising edge (R518). -/
def execMrstNLow (s : State) : Host.Outcome State Fault Refusal :=
  s.runPin mrstNLow

/-- STRAP_CHANGE: A strap changes after sampling and GATE_STRAP.CHANGED reads 1 (R518). -/
def execStrapChange (modid : BitVec 10) (parity mode : Bool) (s : State) : Host.Outcome State Fault Refusal :=
  s.runPin (strapChange modid parity mode)

/-- MODULE_READY: The gatehouse runs and every reach is in service or held, and GATE_START.READY is set (R497). -/
def execModuleReady (runs : Quad TestRun) (readyMs : Word32) (s : State) : Host.Outcome State Fault Refusal :=
  s.runSettle (moduleReady runs readyMs)

/-- GATE_SHUT_GO: Writing GATE_SHUT.GO starts an orderly shut-down with draining (R509). -/
def execGateShutGo (p : RegPath) (value : Word64) (s : State) : Host.Outcome State Fault Refusal :=
  s.run (fun c => c.onPath p (gateShutGo p value))

/-- SHUTDOWN_DRAIN_END: DRAIN_MS expires; unretired operations complete and reaches enter testing (R509). -/
def execShutdownDrainEnd (r : ReachId) (now : Time) (runs : Quad TestRun) (s : State) : Host.Outcome State Fault Refusal :=
  s.run (shutdownDrainEnd r now runs)

/-- SHUTDOWN_DONE: Tests and flash writes finish, rails fall and STATE reads 3 with an alert (R509). -/
def execShutdownDone (s : State) : Host.Outcome State Fault Refusal :=
  s.run shutdownDone

/-- REGISTER_WRITE: A write to a register without its own row acts by its access code and any RWL role check (R12). -/
def execRegisterWrite (p : RegPath) (w : RegWrite) (s : State) : Host.Outcome State Fault Refusal :=
  s.runSettle (registerWrite p w)

/-- PERST_N_RELEASE: PERST_N deasserts and the host port trains its link in the HOST_CLK mode then in force (R479). -/
def execPerstNRelease (s : State) : Host.Outcome State Fault Refusal :=
  s.runPin perstRelease

/-- MRST_N_RELEASE: MRST_N rises and start-up runs from the gatehouse's exit from power-on reset, with the straps sampled
again (R518). -/
def execMrstNRelease (rails : Quad (Fin 8)) (s : State) : Host.Outcome State Fault Refusal :=
  s.runPin (mrstNRelease rails)

/-- REACH_RESET_COMPLETE: A reach finishes its reset; the gatehouse rewrites site tables and fabric keys, tables are copied
from a replica, and ports rejoin through survey (R281). -/
def execReachResetComplete (r : ReachId) (now : Time) (s : State) : Host.Outcome State Fault Refusal :=
  s.run (fun c => (reachResetComplete r now c).shutResume)

/-- PPS_OUT_EDGE: Fabric time of the lowest-numbered LOCKED or HOLDOVER reach reaches a whole second and PPS_OUT rises for
10 µs (R517). -/
def execPpsOutEdge (r : ReachId) (now : Time) (s : State) : Host.Outcome State Fault Refusal :=
  s.run (ppsOutEdge r now)

end Sys2Proof.Machine
end

