-- ==== Sys2Proof/Machine/TenBlob.lean ====
section
/-!
DEFINITION. TEN_SAVE and TEN_RESTORE (R408, R409): the blob's plaintext with its directory and sections, its segments, and the recreation
of a tenancy from it. Where the spec names a section's contents and not its bytes, the layout is the model's own (NOTES.md).
-/

namespace Sys2Proof.Machine

/-! ### Sections (table "Blob sections") -/

/-- A page of section 1, in 16 bytes. -/
def pageEntry (p : Page) : List Byte :=
  leBytes 8 p.va ++ leBytes 8 (p.size.toNat + p.tier.toNat * 2 ^ 2 + p.reach.val * 2 ^ 3 + p.set.toNat * 2 ^ 5 + bitAt p.rd 8 + bitAt p.wr 9)

/-- A host window in its entry layout (R388). -/
def winEntry (w : HostWin) : List Byte :=
  leBytes 8 (1 + 2 ^ 4 + bitAt w.rd 5 + bitAt w.wr 6) ++ leBytes 8 w.va ++ leBytes 8 w.len ++ leBytes 8 w.iova

/-- Address spaces of a function with their numbers. -/
def Chip.asidsOf (c : Chip) (f : FnId) : List (Nat × Asid) := c.xlt.asids.filter (fun e => e.2.function == f)

/-- Section 1: number, counts, pages and windows of each ASID. -/
def Chip.section1 (c : Chip) (f : FnId) : List Byte :=
  (c.asidsOf f).flatMap (fun e => leBytes 4 e.1 ++ leBytes 4 e.2.pages.length ++ leBytes 4 e.2.wins.length ++ leBytes 4 0
    ++ e.2.pages.flatMap pageEntry ++ e.2.wins.flatMap winEntry)

/-- Section 2: the bytes of every page in the order of section 1. -/
def Chip.section2 (c : Chip) (f : FnId) : List Byte :=
  (c.asidsOf f).flatMap (fun e => e.2.pages.flatMap (fun p => (c.reach p.reach).readPhys p.pa (pageBytes p.size)))

/-- Tiles of a grant, by module number. -/
def grantTiles (g : Grant) : List Nat := (List.range 256).filter (grantTile g)

/-- The reach of a module tile. -/
def tileReach (t : Nat) : ReachId := ⟨t / 64 % 4, Nat.mod_lt _ (by decide)⟩

/-- Bytes of a scratchpad and of a record table. -/
def spadBytes : Nat := 0x600000
def recBytes : Nat := 1024 * 16

/-- Bytes of a tile's 16 digest slots. -/
def slotBytes : Nat := 16 * 64

/-- Section 3: scratchpad, records, TILE_AFLAGS and SEQ_STATUS of each tile, then its 16 digest slots as 64-byte values (R188), zeros
where none is open: the table does not list them, and R174 has a restored run fold as one never frozen (DEDUCED, assumption 74). -/
def Chip.section3 (c : Chip) (g : Grant) : List Byte :=
  (grantTiles g).flatMap (fun t =>
    let y := (c.reach (tileReach t)).tile (t % 64)
    Mem.readBytes y.spad 0 spadBytes ++ (List.range 1024).flatMap (fun i => leBytes 16 (Tab.getD y.recs i 0).toNat)
      ++ leBytes 8 y.aflagsWord.toNat ++ leBytes 8 ((c.reach (tileReach t)).seqStatus (tileReach t) (t % 64)).toNat
      ++ sliceBytes (y.digests.flatMap digestBytes) 0 slotBytes)

/-- Section 4: contexts. -/
def Chip.section4 (c : Chip) (f : FnId) : List Byte := allReaches.flatMap (fun r => ((c.reach r).qpsOf f).flatMap qpBytes)

/-- Section 5: the key bits that say where an entry lies, then the entry. -/
def Chip.section5 (c : Chip) (f : FnId) : List Byte :=
  allReaches.flatMap (fun r => ((c.reach r).moorsOf f).flatMap (fun e => leBytes 4 (e.1 + r.val * 2 ^ 15) ++ mooringBytes e.2))

/-- Next step of a tile that is stopped: the earliest that has not ended. -/
def Tile.savedStep (t : Tile) : Nat := match t.resumeAt with | some n => n | none => t.unended

/-- Section 6: plans with their progress. -/
def Chip.section6 (c : Chip) (f : FnId) : List Byte :=
  (c.plansOf f).flatMap (fun h =>
    match (c.planReaches h).findSome? (fun r => (c.reach r).planBy h) with
    | none => []
    | some p =>
      let tiles := (c.planReaches h).flatMap p.con.tilesOn
      leBytes 8 p.con.hdr.planId.toNat ++ leBytes 8 h.toNat ++ leBytes 4 p.phase ++ leBytes 4 p.round ++ leBytes 4 tiles.length ++ leBytes 4 0
        ++ tiles.flatMap (fun t => leBytes 4 t ++ leBytes 4 ((c.reach (tileReach t)).tile (t % 64)).savedStep))

/-- Section 7: GAUGE_TDC_FN of each reach. -/
def Chip.section7 (c : Chip) (f : FnId) : List Byte := allReaches.flatMap (fun r => leBytes 8 (Tab.getD (c.reach r).tdc.fns f.val 0).toNat)

/-- The plaintext stream: a directory of 16-byte entries (type, format version, length, offset), then the sections. -/
def Chip.blobPlain (c : Chip) (f : FnId) (g : Grant) : List Byte :=
  let l := [c.section1 f, c.section2 f, c.section3 g, c.section4 f, c.section5 f, c.section6 f, c.section7 f]
  let dir := l.zipIdx.flatMap (fun e =>
    leBytes 2 (e.2 + 1) ++ leBytes 2 1 ++ leBytes 6 e.1.length ++ leBytes 6 (112 + ((l.take e.2).map List.length).sum))
  dir ++ l.flatten

/-! ### Segments -/

/-- Bytes of a segment's plaintext. -/
def segBytes : Nat := 0x1000000

/-- Segments of a plaintext. -/
def segCount (n : Nat) : Nat := (n + segBytes - 1) / segBytes

/-- The IV of a segment: 32 zero bits, then its number. -/
def segIv (i : Nat) : BitVec 96 := BitVec.ofNat 96 i

/-- Encrypted segments, each with its tag. -/
def sealSegments (key header : List Byte) (plain : List Byte) : List Byte :=
  (List.range (segCount plain.length)).flatMap (fun i =>
    let (data, tag) := gcmSeal key (segIv i) header ((plain.drop (i * segBytes)).take segBytes)
    data ++ tag)

/-- Decrypt the segments; none where a tag fails. -/
def openSegments (key header : List Byte) : Nat → Nat → List Byte → Option (List Byte)
  | 0, _, _ => some []
  | n + 1, i, b =>
    let part := b.take (segBytes + 16)
    let (data, ok) := gcmOpen key (segIv i) header (part.take (part.length - 16)) (part.drop (part.length - 16))
    if !ok || part.length < 16 then none
    else match openSegments key header n (i + 1) (b.drop (segBytes + 16)) with
      | some rest => some (data ++ rest)
      | none => none

/-- The 256-byte header. -/
def Chip.blobHeader (c : Chip) (f : FnId) (g : Grant) (kek : Nat) (wrapped : List Byte) (n : Nat) : List Byte :=
  leBytes 4 0x42545850 ++ leBytes 4 (1 + f.val * 2 ^ 16 + kek * 2 ^ 24) ++ leBytes 8 c.sec.eui.toNat ++ leBytes 8 (c.fn f).gen.toNat
    ++ leBytes 8 (256 + n + 16 * segCount n) ++ leBytes 8 (segCount n) ++ leBytes 8 c.gateTime.toNat ++ sliceBytes wrapped 0 40
    ++ grantBytes g ++ List.replicate 104 0

/-- A migration KEK: gatehouse slots 0 to 15, kind 3 (R435). -/
def Chip.migrationKek (c : Chip) (slot : BitVec 8) : Option (List Byte) :=
  match Tab.find? c.sec.gate.slots slot.toNat with
  | some k => if k.kind == 3 && slot.toNat < 16 then some k.key else none
  | none => none

/-- The grant that a blob carries for a function: what it holds; the PF's has no layout of its own. -/
def Chip.grantOf (c : Chip) (f : FnId) : Grant :=
  ((c.ten f).grant).getD
    { fmt := 1, function := BitVec.ofNat 8 f.val,
      tileGroups := BitVec.ofNat 16 ((List.range 16).foldl (fun m g => if c.holdsTile f (16 * g) then m + 2 ^ g else m) 0),
      hbmSets := BitVec.ofNat 32 ((List.range 32).foldl (fun m s => if c.holds f (fun g => g.hbmSets.toNat.testBit s) then m + 2 ^ s else m) 0),
      lpGib := Quad.pure 0, asidBase := 0, asidCount := 0, qpQuota := 0, moorQuota := 0, pkeyIdx := List.replicate 8 0xFF, winShare := 0,
      gateQuota := 0 }

/-- TEN_SAVE. -/
def tenSave (ref : CmdRef) (p : TenSave) (c : Chip) : Chip :=
  let f := p.fn
  if ref.fn != 0 then c.complete ref 4 0x91 0
  else if c.hostGone 0 then c.complete ref 4 0x93 0
  else if (c.fn f).shutdown || (c.ten f).state != .frozen then c.complete ref 4 0xA9 0
  else match c.migrationKek p.kek with
    | none => c.complete ref 4 0xB6 0
    | some kek =>
      match c.sec.logRefusal with
      | some s => c.complete ref 4 s 0
      | none =>
        let g := c.grantOf f
        let plain := c.blobPlain f g
        let len := 256 + plain.length + 16 * segCount plain.length
        if p.length.toNat < len then c.complete ref 4 0xAC (BitVec.ofNat 64 len)
        else
          let c := c.log 0xA (c.whoOf .pf) 0 (leBytes 1 f.val ++ leBytes 1 p.kek.toNat ++ leBytes 6 0 ++ leBytes 8 len)
          let (key, c) := c.freeBytes 32
          let header := c.blobHeader f g p.kek.toNat (aesWrap kek key) plain.length
          (c.hostWrite 0 p.iova.toNat (header ++ sealSegments key header plain)).complete ref 4 0 (BitVec.ofNat 64 len)

/-! ### Restore (R409) -/

/-- Do one thing after another until a status is not zero. -/
def stepAll {α : Type} (f : Chip → α → Chip × Nat) : List α → Chip → Chip × Nat
  | [], c => (c, 0)
  | x :: xs, c =>
    let (c, s) := f c x
    if s != 0 then (c, s) else stepAll f xs c

/-- A page of section 1; its physical place is still to be chosen. -/
def pageOfEntry (b : List Byte) : Page :=
  let w := leAt b 8 8
  { va := leAt b 0 8, size := BitVec.ofNat 2 w, tier := BitVec.ofNat 1 (natBits w 2 1), reach := ⟨natBits w 3 2 % 4, Nat.mod_lt _ (by decide)⟩,
    set := BitVec.ofNat 3 (natBits w 5 3), pa := 0, rd := natBit w 8, wr := natBit w 9 }

/-- A host window from its entry. -/
def winOfEntry (b : List Byte) : HostWin :=
  { va := leAt b 8 8, len := leAt b 0x10 8, iova := leAt b 0x18 8, rd := natBit (leAt b 0 1) 5, wr := natBit (leAt b 0 1) 6 }

/-- An address space of section 1. -/
structure SavedAsid where
  asid : Nat
  pages : List Page
  wins : List HostWin
  deriving DecidableEq, Repr

/-- Section 1 decoded. -/
def savedAsids : Nat → List Byte → List SavedAsid
  | 0, _ => []
  | n + 1, b =>
    if b.length < 16 then []
    else
      let np := leAt b 4 4
      let nw := leAt b 8 4
      { asid := leAt b 0 4, pages := (List.range np).map (fun i => pageOfEntry (sliceBytes b (16 + 16 * i) 16)),
        wins := (List.range nw).map (fun i => winOfEntry (sliceBytes b (16 + 16 * np + 32 * i) 32)) }
        :: savedAsids n (b.drop (16 + 16 * np + 32 * nw))

/-- One page is mapped afresh and takes its bytes from section 2; the count of bytes taken goes on. -/
def Chip.restorePage (c : Chip) (f : FnId) (asid : Nat) (p : Page) (bs : List Byte) : Chip × Nat :=
  let m : XltMap := { asid := BitVec.ofNat 16 asid, window := false, page := p.size, tier := p.tier, reach := p.reach, pcset := p.set, rd := p.rd,
                      wr := p.wr, va := 0, length := 0, iova := 0 }
  match c.choosePages f m 1 with
  | some (pa :: _) =>
    let q : Page := { p with pa := pa }
    let c := c.onReach p.reach (fun x => (x.zeroPhys pa (pageBytes p.size)).writePhys pa bs)
    (c.onAsid asid (fun a => { a with pages := a.pages ++ [q] }), 0)
  | _ => (c, 0xA1)

/-- Sections 1 and 2. -/
def Chip.restoreAsids (c : Chip) (f : FnId) (l : List SavedAsid) (bytes : List Byte) : Chip × Nat :=
  let pages := l.flatMap (fun a => a.pages.map (fun p => (a.asid, p)))
  let offs := pages.zipIdx.map (fun e => (e.1, ((pages.take e.2).map (fun q => pageBytes q.2.size)).sum))
  let (c, s) := stepAll (fun (c : Chip) (a : SavedAsid) =>
    if !c.holdsAsid f a.asid then (c, 0xA3)
    else if (Tab.find? c.xlt.asids a.asid).isSome then (c, 0xA8)
    else
      let x : Asid := { function := f, gen := 0, pages := [], wins := a.wins }
      ({ c with xlt := { c.xlt with asids := Tab.set c.xlt.asids a.asid x } }, 0)) l c
  if s != 0 then (c, s)
  else stepAll (fun (c : Chip) e => c.restorePage f e.1.1 e.1.2 (sliceBytes bytes e.2 (pageBytes e.1.2.size))) offs c

/-- Section 3. -/
def Chip.restoreTiles (c : Chip) (g : Grant) (bytes : List Byte) : Chip :=
  let size := spadBytes + recBytes + 16 + slotBytes
  forEach (grantTiles g).zipIdx c (fun c e =>
    let b := sliceBytes bytes (e.2 * size) size
    let recs : Tab (BitVec 128) := (List.range 1024).foldl (fun t i =>
      let v := BitVec.ofNat 128 (leAt b (spadBytes + 16 * i) 16)
      if v = 0 then t else Tab.set t i v) []
    let status := leAt b (spadBytes + recBytes + 8) 8
    c.onTile (tileReach e.1) (e.1 % 64) (fun y =>
      { y with spad := Mem.writeBytes [] 0 (b.take spadBytes), recs := recs, aflags := BitVec.ofNat 32 (leAt b (spadBytes + recBytes) 4),
               failCode := BitVec.ofNat 8 (natBits status 8 8), digests := digestsOf 16 (sliceBytes b (spadBytes + recBytes + 16) slotBytes) }))

/-- A context from its 128 bytes, for a function and its generation. -/
def qpOfBytes (b : List Byte) (f : FnId) (gen : Word16) : Qp :=
  let w0 := leAt b 0 4
  let w8 := leAt b 8 8
  let w10 := leAt b 0x10 8
  let p : QpParams :=
    { fmt := 1, owner := BitVec.ofNat 2 (natBits w0 8 2), encap := natBit w0 10, ciphEn := natBit w0 11, pkey := BitVec.ofNat 16 (w0 / 65536),
      qpn := BitVec.ofNat 24 (leAt b 4 3), peerNode := BitVec.ofNat 16 w8, peerQpn := BitVec.ofNat 24 (natBits w8 16 24),
      asid := BitVec.ofNat 16 (natBits w8 40 16), cqRing := BitVec.ofNat 16 (natBits w10 16 16), maxRd := BitVec.ofNat 4 (natBits w10 32 4),
      rnrRetry := BitVec.ofNat 3 (natBits w10 36 3), rnrTimer := BitVec.ofNat 8 (natBits w10 40 8), rqDepth := BitVec.ofNat 16 (leAt b 0x18 2) }
  newQp p f gen false 0

/-- The transport and rate state of a saved context (R252). -/
def Qp.resumed (q : Qp) (b : List Byte) : Qp :=
  let at_ := fun (off lo w : Nat) => natBits (leAt b off 8) lo w
  { q with state := .frozen, sndNxt := BitVec.ofNat 24 (at_ 0x20 0 24), sndUna := BitVec.ofNat 24 (at_ 0x20 24 24),
           retries := BitVec.ofNat 3 (at_ 0x20 56 3), rcvNxt := BitVec.ofNat 24 (at_ 0x28 0 24), rcvMsn := BitVec.ofNat 24 (at_ 0x28 24 24),
           sndMsn := BitVec.ofNat 24 (at_ 0x30 0 24), visAcked := BitVec.ofNat 24 (at_ 0x30 24 24), visMsn := BitVec.ofNat 24 (at_ 0x38 0 24),
           ackPend := BitVec.ofNat 8 (at_ 0x38 24 8), failMsn := BitVec.ofNat 24 (at_ 0x38 32 24), failCode := BitVec.ofNat 8 (at_ 0x38 56 8),
           rate := BitVec.ofNat 20 (at_ 0x40 0 20), credit := (BitVec.ofNat 32 (at_ 0x40 32 32)).toInt,
           lastTx := BitVec.ofNat 64 (leAt b 0x48 8), qmax := BitVec.ofNat 32 (at_ 0x50 0 32), ackedPk := BitVec.ofNat 16 (at_ 0x50 32 16),
           ecnPk := BitVec.ofNat 16 (at_ 0x50 48 16), intStart := BitVec.ofNat 64 (leAt b 0x58 8), visSeen := true }

/-- Section 4: one context at its number. -/
def Chip.restoreQp (c : Chip) (f : FnId) (remap : List (Word16 × Word16)) (b : List Byte) : Chip × Nat :=
  let q := qpOfBytes b f (c.fn f).gen
  let r := qpReach q.qpn
  let i := qpIndex q.qpn
  if (Tab.find? (c.reach r).rme.qps i).isSome || isMaint q.qpn then (c, 0xA8)
  else
    let q : Qp := { q with ciphCtx := BitVec.ofNat 16 ((c.reach r).ciphIndex q.pkey) }
    let q : Qp := match remap.find? (fun e => e.1 == q.peerNode) with
      | some e => { q.resumed b with peerNode := e.2 }
      | none => q
    (c.onRme r (fun m => { m with qps := Tab.set m.qps i q }), 0)

/-- Section 5: one mooring at its index and tag. -/
def Chip.restoreMoor (c : Chip) (f : FnId) (b : List Byte) : Chip × Nat :=
  let key := leAt b 0 4
  let r : ReachId := ⟨key / 2 ^ 15 % 4, Nat.mod_lt _ (by decide)⟩
  let i := natBits key 0 15
  let b := b.drop 4
  let w := leAt b 0 4
  let w4 := leAt b 4 4
  let p : MooringParams :=
    { fmt := 1, space := BitVec.ofNat 2 (natBits w 5 2), rights := BitVec.ofNat 4 (natBits w 8 4), pkey := BitVec.ofNat 16 (w / 65536),
      bindEn := natBit w4 15, base := BitVec.ofNat 64 (leAt b 8 8), length := BitVec.ofNat 48 (leAt b 0x10 6), asid := BitVec.ofNat 16 (leAt b 0x16 2),
      bindQpn := BitVec.ofNat 24 (leAt b 0x18 3) }
  match (match Tab.find? (c.reach r).rme.moorings i with | some m => if m.inUse then none else some () | none => some ()) with
  | none => (c, 0xA8)
  | some _ =>
    match c.moorRange r f p with
    | none => (c, 0xAE)
    | some runs =>
      let x : Mooring :=
        { valid := natBit w 4, space := p.space, plan := false, rights := p.rights, pkey := p.pkey, tag := BitVec.ofNat 15 w4, bindEn := p.bindEn,
          function := f, base := p.base, length := p.length, asid := p.asid, bindQpn := p.bindQpn, fnGen := (c.fn f).gen, runs := runs, refs := 0,
          withdraw := none, inUse := true }
      (c.onRme r (fun m => { m with moorings := Tab.set m.moorings i x }), 0)

/-- A plan of section 6. -/
structure SavedPlan where
  planId : Word64
  handle : Word64
  phase : Nat
  round : Nat
  tiles : List (Nat × Nat)
  deriving DecidableEq, Repr

/-- Section 6 decoded. -/
def savedPlans : Nat → List Byte → List SavedPlan
  | 0, _ => []
  | n + 1, b =>
    if b.length < 32 then []
    else
      let k := leAt b 24 4
      { planId := BitVec.ofNat 64 (leAt b 0 8), handle := BitVec.ofNat 64 (leAt b 8 8), phase := leAt b 16 4, round := leAt b 20 4,
        tiles := (List.range k).map (fun i => (leAt b (32 + 8 * i) 4, leAt b (36 + 8 * i) 4)) } :: savedPlans n (b.drop (32 + 8 * k))

/-- A plan on one reach as a restore leaves it: in a stoppage, every tile at its saved step. -/
def Chip.installStopped (c : Chip) (r : ReachId) (k : Container) (s : SavedPlan) (handle : Word64) : Chip :=
  let p : PlanInst := { con := k, st := .stopped, cmd := none, resuming := false, armTime := c.now r, arms := [], start := 0, phase := s.phase,
                        round := s.round, roundStart := 0, begun := true, phaseOver := false, cause := some .driver, runs := planRuns c r k,
                        asidGen := c.asidGen k.hdr.asid.toNat, handle := handle }
  let c := c.onReach r (fun x => (x.reserve r k true).zeroCredits k (c.nodeId r))
  let c := forEach (k.tilesOn r) c (fun c t => c.onTile r (t % 64) (fun y =>
    let step := match s.tiles.find? (fun e => e.1 == t) with | some e => e.2 | none => 0
    { y with plan := some k.hdr.planId, progs := tileProgs k t, masks := loadMasks y k t, seqState := 6, step := step, phase := BitVec.ofNat 8 s.phase,
             copy := none, wait := none, redo := [], remoteOk := [], remoteRuns := [], failStep := 0, phaseEnded := false, passes := s.round, resumeAt := some step }))
  let c := c.onPlan r (fun x => { x with plans := x.plans ++ [p],
                                         clock := match x.clock with | some q => some q | none => some (clockAt k.hdr (c.now r)) })
  c.writeGates r

/-- The handle of a restored plan: the target function and generation (R409). -/
def rehandle (h : Word64) (f : FnId) (gen : Word16) : Word64 :=
  BitVec.ofNat 64 (f.val * 2 ^ 56 + natBits h.toNat 16 40 * 65536 + gen.toNat)

/-- Section 6: one plan from its container. -/
def Chip.restorePlan (c : Chip) (f : FnId) (e : SavedPlan × PlanLoad) : Chip × Nat :=
  let k := containerOf e.2.bytes
  let named := c.namedReaches k
  if k.hdr.planId != e.1.planId then (c, 0xAF)
  else match (if named.isEmpty then [0] else named).findSome? (fun r =>
      planRefused { c := c, r := r, fn := f, k := k, bytes := e.2.bytes }) with
    | some (code, _) => (c, code)
    | none => (forEach named c (fun c r => c.installStopped r k e.1 (rehandle e.1.handle f (c.fn f).gen)), 0)

/-- A section of a plaintext, by its directory entry. -/
def blobSection (plain : List Byte) (type : Nat) : List Byte :=
  match (List.range 7).find? (fun i => leAt plain (16 * i) 2 == type) with
  | some i => sliceBytes plain (leAt plain (16 * i + 10) 6) (leAt plain (16 * i + 4) 6)
  | none => []

/-- The grant of a blob does not fit the target's (TEN_GRANT_MISMATCH): its 64 bytes in the header. -/
def grantMismatch (header : List Byte) (g : Grant) : Bool :=
  let b := sliceBytes header 0x58 64
  leAt b 2 2 != g.tileGroups.toNat || leAt b 4 4 != g.hbmSets.toNat || sliceBytes b 0x18 8 != sliceBytes g.pkeyIdx 0 8
    || g.lpGib.toList.zipIdx.any (fun e => e.1.toNat < leAt b (8 + 2 * e.2) 2)

/-- Steps 2 to 5 of a restore, from a plaintext whose tags have passed. -/
def Chip.restoreAll (c : Chip) (p : TenRestore) (header plain : List Byte) : Chip × Nat :=
  let f := p.fn
  let g := c.grantOf f
  if grantMismatch header g then (c, 0xAE)
  else
    let s1 := blobSection plain 1
    let (c, s) := c.restoreAsids f (savedAsids s1.length s1) (blobSection plain 2)
    if s != 0 then (c, s)
    else
      let c := c.restoreTiles g (blobSection plain 3)
      let s4 := blobSection plain 4
      let (c, s) := stepAll (fun (c : Chip) i => c.restoreQp f p.remap (sliceBytes s4 (128 * i) 128)) (List.range (s4.length / 128)) c
      if s != 0 then (c, s)
      else
        let s5 := blobSection plain 5
        let (c, s) := stepAll (fun (c : Chip) i => c.restoreMoor f (sliceBytes s5 (36 * i) 36)) (List.range (s5.length / 36)) c
        if s != 0 then (c, s)
        else
          let s6 := blobSection plain 6
          let plans := savedPlans s6.length s6
          if plans.length != p.loads.length then (c, 0xAF)
          else
            let (c, s) := stepAll (fun (c : Chip) e => c.restorePlan f e) (plans.zip p.loads) c
            if s != 0 then (c, s)
            else
              let s7 := blobSection plain 7
              (forEach allReaches c (fun c r => c.onReach r (fun x =>
                { x with tdc := { x.tdc with fns := Tab.set x.tdc.fns f.val (BitVec.ofNat 48 (leAt s7 (8 * r.val) 8)) } })), 0)

/-- The plaintext of a blob, or what it fails with. -/
def Chip.openBlob (c : Chip) (p : TenRestore) : Except Nat (List Byte × List Byte) :=
  let header := sliceBytes p.blob 0 256
  match c.migrationKek p.kek with
  | none => .error 0xB6
  | some kek =>
    if leAt header 0 4 != 0x42545850 || leAt header 4 1 % 16 != 1 || leAt header 0x18 8 != p.length.toNat then .error 0x92
    else match aesUnwrap kek (sliceBytes header 0x30 40) with
      | none => .error 0xAD
      | some key =>
        match openSegments key header (leAt header 0x20 8) 0 (p.blob.drop 256) with
        | none => .error 0xAD
        | some plain => .ok (header, plain)

/-- TEN_RESTORE: the tenancy is recreated frozen; a failure shuts the function down. -/
def tenRestore (ref : CmdRef) (p : TenRestore) (c : Chip) : Chip :=
  let f := p.fn
  if ref.fn != 0 then c.complete ref 4 0x91 0
  else if c.hostGone 0 then c.complete ref 4 0x93 0
  else if !(c.fn f).enabled then c.complete ref 4 0x92 0
  else if (c.fn f).shutdown || (c.ten f).state != .running || c.holdsObjects f then c.complete ref 4 0xA9 0
  else match c.sec.logRefusal with
    | some s => c.complete ref 4 s 0
    | none =>
      let c := c.log 0xA (c.whoOf .pf) 0 (leBytes 1 f.val ++ leBytes 1 p.kek.toNat ++ leBytes 6 0 ++ leBytes 8 p.length.toNat)
      match c.openBlob p with
      | .error s => ((c.complete ref 4 s 0).shutStart f).settle
      | .ok (header, plain) =>
        let (c', s) := c.restoreAll p header plain
        if s != 0 then ((c'.complete ref 4 s 0).shutStart f).settle
        else (c'.onTen f (fun t => { t with state := .frozen })).complete ref 4 0 0

end Sys2Proof.Machine
end

