-- ==== Sys2Proof/Machine/TenCmds.lean ====
section
/-!
DEFINITION. Tenancies (R403 to R411): one meaning for each command, over the shared operations.
-/

namespace Sys2Proof.Machine

/-- FUNCTION_ENABLE: A FUNCTION_ENABLE command moves a grant from the PF to a VF (R403). -/
def execFunctionEnable (ref : CmdRef) (g : Grant) (s : State) : Host.Outcome State Fault Refusal :=
  s.runCmd ref (fun ref => functionEnable ref g)

/-- FUNCTION_DISABLE: A FUNCTION_DISABLE command shuts the VF down and returns its grant to the PF (R405). -/
def execFunctionDisable (ref : CmdRef) (fn : BitVec 8) (s : State) : Host.Outcome State Fault Refusal :=
  s.runCmd ref (fun ref => functionDisable ref fn)

/-- TEN_FREEZE: A TEN_FREEZE command stops plans, drains queue pairs and freezes contexts (R407). -/
def execTenFreeze (ref : CmdRef) (fn : BitVec 8) (drainMs : Word32) (s : State) : Host.Outcome State Fault Refusal :=
  s.runCmd ref (fun ref => tenFreeze ref fn drainMs)

/-- TEN_FREEZE_DRAIN_EXPIRY: DRAIN_MS expires and unretired operations complete rolled back or uncertain (R407). -/
def execTenFreezeDrainExpiry (r : ReachId) (now : Time) (f : FnId) (s : State) : Host.Outcome State Fault Refusal :=
  s.run (tenFreezeDrainExpiry r now f)

/-- TEN_SAVE: A TEN_SAVE command writes an encrypted blob of the frozen tenancy (R408). -/
def execTenSave (ref : CmdRef) (p : TenSave) (s : State) : Host.Outcome State Fault Refusal :=
  s.runCmd ref (fun ref => tenSave ref p)

/-- TEN_RESTORE: A TEN_RESTORE command authenticates a blob and recreates the tenancy frozen (R409). -/
def execTenRestore (ref : CmdRef) (p : TenRestore) (s : State) : Host.Outcome State Fault Refusal :=
  s.runCmd ref (fun ref => tenRestore ref p)

/-- TEN_UNFREEZE: A TEN_UNFREEZE command moves frozen contexts to READY and resumes ring taking (R411). -/
def execTenUnfreeze (ref : CmdRef) (fn : BitVec 8) (s : State) : Host.Outcome State Fault Refusal :=
  s.runCmd ref (fun ref => tenUnfreeze ref fn)

end Sys2Proof.Machine
end

