-- ==== Sys2Proof/Machine/TimeCmds.lean ====
section
/-!
DEFINITION. Commands of the time service (R38 to R57): one meaning for each command, over the shared operations.
-/

namespace Sys2Proof.Machine

/-- FOLLOW_UP_RX: A PTP Follow_Up is accepted from the selected master; the reach takes the era and the servo filters and
corrects the offset by slewing or stepping (R48). -/
def execFollowUpRx (r : ReachId) (now : Time) (p : PortId) (head : PtpHead) (sec : BitVec 48) (ns : Word32) (corr : BitVec 64) (s : State) : Host.Outcome State Fault Refusal :=
  s.run (followUpRx r now p head.dom head.seq sec ns corr)

/-- SYNC_RX: A two-step PTP Sync arrives on a PTP port and is timestamped at the PMA (R43). -/
def execSyncRx (r : ReachId) (now : Time) (p : PortId) (head : PtpHead) (arrival : Time) (s : State) : Host.Outcome State Fault Refusal :=
  s.run (syncRx r now p head.dom head.seq arrival)

/-- ANNOUNCE_RX: A PTP Announce arrives; the best-master algorithm is rerun over clockClass, priorities and clock identity
(R45). -/
def execAnnounceRx (r : ReachId) (now : Time) (p : PortId) (msg : PtpAnnounce) (s : State) : Host.Outcome State Fault Refusal :=
  s.run (announceRx r now p msg.dom msg.clk)

/-- PDELAY_REQ_RX: A Pdelay_Req arrives and is answered with Pdelay_Resp and Pdelay_Resp_Follow_Up (R43). -/
def execPdelayReqRx (r : ReachId) (now : Time) (p : PortId) (head : PtpHead) (t2 t3 : Time) (s : State) : Host.Outcome State Fault Refusal :=
  s.run (pdelayReqRx r now p head.dom head.seq t2 t3)

/-- PDELAY_RESP_RX: A Pdelay_Resp or Pdelay_Resp_Follow_Up arrives and updates the port's mean path delay (R43). -/
def execPdelayRespRx (r : ReachId) (now : Time) (p : PortId) (head : PtpHead) (followUp : Bool) (stamp arrival : Time) (s : State) : Host.Outcome State Fault Refusal :=
  s.run (pdelayRespRx r now p head.dom head.seq followUp stamp arrival)

/-- PTP_MANAGEMENT_RX: A PTP management message arrives and is ignored and counted (R43). -/
def execPtpManagementRx (r : ReachId) (s : State) : Host.Outcome State Fault Refusal :=
  s.run (ptpManagementRx r)

/-- SYNC_TX_TIMER: Every 2^-7 s a master port sends Sync and Follow_Up (R43). -/
def execSyncTxTimer (r : ReachId) (now : Time) (p : PortId) (s : State) : Host.Outcome State Fault Refusal :=
  s.run (syncTxTimer r now p)

/-- ANNOUNCE_TX_TIMER: Every 2^-3 s a port sends Announce with the reach's clock quality (R43). -/
def execAnnounceTxTimer (r : ReachId) (now : Time) (p : PortId) (s : State) : Host.Outcome State Fault Refusal :=
  s.run (announceTxTimer r now p)

/-- PDELAY_REQ_TIMER: Every 2^-4 s a port sends Pdelay_Req (R43). -/
def execPdelayReqTimer (r : ReachId) (now : Time) (p : PortId) (s : State) : Host.Outcome State Fault Refusal :=
  s.run (pdelayReqTimer r now p)

/-- PPS_IN_EDGE: A PPS_IN rising edge marks a whole second of fabric time for a rank-1 reach and advances its qualification
count (R42). -/
def execPpsInEdge (at0 at1 at2 at3 : PpsMark) (s : State) : Host.Outcome State Fault Refusal :=
  s.run (ppsInEdge ⟨at0, at1, at2, at3⟩)

/-- SOURCE_QUALIFIES: A source becomes qualified and the servo leaves FREE_RUN, HOLDOVER or HOLDOVER_EXPIRED for ACQUIRE
(R46). -/
def execSourceQualifies (r : ReachId) (now : Time) (source : TimeSource) (p : PortId) (srcTime : Time) (srcEra : Word16) (s : State) : Host.Outcome State Fault Refusal :=
  s.run (sourceQualifies r now source p srcTime srcEra)

/-- LOCK_ENTRY: The filtered offset has stayed within ±8 ns for 64 Sync intervals and the reach enters LOCKED (R46). -/
def execLockEntry (r : ReachId) (now : Time) (s : State) : Host.Outcome State Fault Refusal :=
  s.run (lockEntry r now)

/-- SOURCE_LOSS: Eight Sync intervals pass without Sync, the announce receipt timeout expires, or the reference loses
qualification; the reach enters HOLDOVER, HOLDOVER_EXPIRED or FREE_RUN (R46). -/
def execSourceLoss (r : ReachId) (now : Time) (s : State) : Host.Outcome State Fault Refusal :=
  s.run (sourceLoss r now)

/-- HOLDOVER_EXPIRY: Ten seconds in HOLDOVER elapse and the reach enters HOLDOVER_EXPIRED (R46). -/
def execHoldoverExpiry (r : ReachId) (now : Time) (s : State) : Host.Outcome State Fault Refusal :=
  s.run (holdoverExpiry r now)

/-- TIME_ERA_WRAP: The integer part of fabric time wraps and a reach keeping its own timescale increments TIME_ERA (R39). -/
def execTimeEraWrap (r : ReachId) (now : Time) (s : State) : Host.Outcome State Fault Refusal :=
  s.run (timeEraWrap r now)

/-- TIME_NOW_LOW_READ: A read of TIME_NOW[31:0] latches TIME_NOW[63:32] in the same FCLK cycle (R41). -/
def execTimeNowLowRead (r : ReachId) (s : State) : Host.Outcome State Fault Refusal :=
  s.run (timeNowLowRead r)

/-- TIME_FLOOR_WRITE: A software write to TIME_FLOOR takes effect only when its value is later than the current one (R538).
-/
def execTimeFloorWrite (p : RegPath) (r : ReachId) (v : Word64) (s : State) : Host.Outcome State Fault Refusal :=
  s.run (timeFloorWrite p r v)

/-- TIMING_DOMAIN_STOP: A reach's timing domain stops, captures its last fabric time in TIME_FLOOR, and on restart resumes
from it in FREE_RUN (R54). -/
def execTimingDomainStop (r : ReachId) (s : State) : Host.Outcome State Fault Refusal :=
  s.run (timingDomainStop r)

end Sys2Proof.Machine
end

