-- ==== Sys2Proof/Machine/TraceCmds.lean ====
section
/-!
DEFINITION. Gauges and trace (R464 to R475): one meaning for each command, over the shared operations.
-/

namespace Sys2Proof.Machine

/-- GAUGE_SNAP: A write to GAUGE_SNAP latches every gauge of one object into shadow copies (R467). -/
def execGaugeSnap (p : RegPath) (value : Word64) (s : State) : Host.Outcome State Fault Refusal :=
  s.run (fun c => c.onPath p (gaugeSnap p value))

/-- TRC_CTRL_ARM: Writing TRC_CTRL.ARM as 1 arms triggers, clears FROZEN and restarts capture (R472). -/
def execTrcCtrlArm (p : RegPath) (value : Word64) (s : State) : Host.Outcome State Fault Refusal :=
  s.run (fun c => c.onPath p (trcCtrlArm p value))

/-- TRC_TRIG_FIRE: Writing TRC_TRIG.FIRE fires a KIND 6 trigger (R472). -/
def execTrcTrigFire (p : RegPath) (value : Word64) (s : State) : Host.Outcome State Fault Refusal :=
  s.run (fun c => c.onPath p (trcTrigFire p value))

/-- TRACE_TRIGGER_NOTICE: A trigger notice from another reach arrives and the reach writes its own TRIGGER record (R472). -/
def execTraceTriggerNotice (r : ReachId) (now : Time) (src : ReachId) (s : State) : Host.Outcome State Fault Refusal :=
  s.run (traceTriggerNotice r now src)

/-- TRACE_TRIGGER_TIME: Fabric time reaches TRC_TRIG_TIME and a KIND 5 trigger fires (R472). -/
def execTraceTriggerTime (r : ReachId) (now : Time) (s : State) : Host.Outcome State Fault Refusal :=
  s.run (traceTriggerTime r now)

/-- TRACE_CAPTURE_FULL: The post-trigger space is full and the reach freezes its capture (R472). -/
def execTraceCaptureFull (r : ReachId) (now : Time) (s : State) : Host.Outcome State Fault Refusal :=
  s.run (traceCaptureFull r now)

/-- TRACE_SYNC_TIMER: Every SYNC_US a SYNC record is made (R469). -/
def execTraceSyncTimer (r : ReachId) (now : Time) (s : State) : Host.Outcome State Fault Refusal :=
  s.run (traceSyncTimer r now)

/-- TRACE_STALL: A stall-mode episode ends and one TRACE_STALL is counted with its length (R473). -/
def execTraceStall (r : ReachId) (now : Time) (s : State) : Host.Outcome State Fault Refusal :=
  s.run (traceStall r now)

/-- TRACE_ROOM_RETURN: Room returns after drops and a DROP record is written (R473). -/
def execTraceRoomReturn (r : ReachId) (now : Time) (s : State) : Host.Outcome State Fault Refusal :=
  s.run (traceRoomReturn r now)

/-- TRACE_FRAME_SEND: In stream mode the gatehouse takes up to 16 records of a reach and sends a trace-port frame (R474). -/
def execTraceFrameSend (s : State) : Host.Outcome State Fault Refusal :=
  s.run traceFrameSend

/-- TRACE_ALIGNMENT_BLOCK: Every 16,384 blocks per lane all lanes send an alignment block (R474). -/
def execTraceAlignmentBlock (s : State) : Host.Outcome State Fault Refusal :=
  s.run traceAlignmentBlock

/-- TRC_DUMP_GO: Writing TRC_DUMP_CTRL.GO copies named reaches' trace records to host memory (R475). -/
def execTrcDumpGo (p : RegPath) (value : Word64) (s : State) : Host.Outcome State Fault Refusal :=
  s.run (fun c => c.onPath p (trcDumpGo p value))

/-- TRACE_DUMP_DONE: A trace dump ends, clearing DUMP_BUSY or setting DUMP_ERR (R475). -/
def execTraceDumpDone (refused : Option Nat) (s : State) : Host.Outcome State Fault Refusal :=
  s.run (traceDumpDone refused)

end Sys2Proof.Machine
end

