-- ==== Sys2Proof/Machine/VectorCmds.lean ====
section
/-!
DEFINITION. Steps of the vector unit (R97 to R101, R540): one meaning for each command, over the shared operations.
-/

namespace Sys2Proof.Machine

/-- VECTOR_ADD: A VECTOR step computes a + b per lane and rounds under R99 (R540). -/
def execVectorAdd (r : ReachId) (now : Time) (t : TileId) (hold : Word32) (s : State) : Host.Outcome State Fault Refusal :=
  s.run (vectorStep 0 r now t hold)

/-- VECTOR_SUB: A VECTOR step computes a - b per lane and rounds under R99 (R540). -/
def execVectorSub (r : ReachId) (now : Time) (t : TileId) (hold : Word32) (s : State) : Host.Outcome State Fault Refusal :=
  s.run (vectorStep 1 r now t hold)

/-- VECTOR_MUL: A VECTOR step computes a × b per lane and rounds under R99 (R540). -/
def execVectorMul (r : ReachId) (now : Time) (t : TileId) (hold : Word32) (s : State) : Host.Outcome State Fault Refusal :=
  s.run (vectorStep 2 r now t hold)

/-- VECTOR_FMA: A VECTOR step computes a × b + d with the destination as addend and rounds once (R540). -/
def execVectorFma (r : ReachId) (now : Time) (t : TileId) (hold : Word32) (s : State) : Host.Outcome State Fault Refusal :=
  s.run (vectorStep 3 r now t hold)

/-- VECTOR_CMP: A VECTOR step writes 1.0 where a < b and +0 elsewhere (R540). -/
def execVectorCmp (r : ReachId) (now : Time) (t : TileId) (hold : Word32) (s : State) : Host.Outcome State Fault Refusal :=
  s.run (vectorStep 4 r now t hold)

/-- VECTOR_MIN: A VECTOR step writes the minimum of a and b, NaN giving the canonical NaN (R99). -/
def execVectorMin (r : ReachId) (now : Time) (t : TileId) (hold : Word32) (s : State) : Host.Outcome State Fault Refusal :=
  s.run (vectorStep 5 r now t hold)

/-- VECTOR_MAX: A VECTOR step writes the maximum of a and b, NaN giving the canonical NaN (R99). -/
def execVectorMax (r : ReachId) (now : Time) (t : TileId) (hold : Word32) (s : State) : Host.Outcome State Fault Refusal :=
  s.run (vectorStep 6 r now t hold)

/-- VECTOR_SEL: A VECTOR step selects b where a is non-zero and not NaN, and the immediate elsewhere (R540). -/
def execVectorSel (r : ReachId) (now : Time) (t : TileId) (hold : Word32) (s : State) : Host.Outcome State Fault Refusal :=
  s.run (vectorStep 7 r now t hold)

/-- VECTOR_EXP2: A VECTOR step applies the fixed exp2 function to a (R100). -/
def execVectorExp2 (r : ReachId) (now : Time) (t : TileId) (hold : Word32) (s : State) : Host.Outcome State Fault Refusal :=
  s.run (vectorStep 8 r now t hold)

/-- VECTOR_LOG2: A VECTOR step applies the fixed log2 function to a (R100). -/
def execVectorLog2 (r : ReachId) (now : Time) (t : TileId) (hold : Word32) (s : State) : Host.Outcome State Fault Refusal :=
  s.run (vectorStep 9 r now t hold)

/-- VECTOR_RCP: A VECTOR step applies the fixed reciprocal function to a (R100). -/
def execVectorRcp (r : ReachId) (now : Time) (t : TileId) (hold : Word32) (s : State) : Host.Outcome State Fault Refusal :=
  s.run (vectorStep 10 r now t hold)

/-- VECTOR_RSQRT: A VECTOR step applies the fixed reciprocal square root to a (R100). -/
def execVectorRsqrt (r : ReachId) (now : Time) (t : TileId) (hold : Word32) (s : State) : Host.Outcome State Fault Refusal :=
  s.run (vectorStep 11 r now t hold)

/-- VECTOR_RSUM: A VECTOR step sums COUNT elements in the fixed lane order and writes one element (R101). -/
def execVectorRsum (r : ReachId) (now : Time) (t : TileId) (hold : Word32) (s : State) : Host.Outcome State Fault Refusal :=
  s.run (vectorStep 12 r now t hold)

/-- VECTOR_RMAX: A VECTOR step takes the maximum of COUNT elements in the fixed lane order (R101). -/
def execVectorRmax (r : ReachId) (now : Time) (t : TileId) (hold : Word32) (s : State) : Host.Outcome State Fault Refusal :=
  s.run (vectorStep 13 r now t hold)

/-- VECTOR_RMIN: A VECTOR step takes the minimum of COUNT elements in the fixed lane order (R101). -/
def execVectorRmin (r : ReachId) (now : Time) (t : TileId) (hold : Word32) (s : State) : Host.Outcome State Fault Refusal :=
  s.run (vectorStep 14 r now t hold)

end Sys2Proof.Machine
end

