-- ==== Sys2Proof/Machine/XltCmds.lean ====
section
/-!
DEFINITION. Translation (R387 to R402): one meaning for each command, over the shared operations.
-/

namespace Sys2Proof.Machine

/-- ASID_CREATE: An ASID_CREATE command allocates a requested or lowest free ASID (R394). -/
def execAsidCreate (ref : CmdRef) (asid : Word16) (s : State) : Host.Outcome State Fault Refusal :=
  s.runCmd ref (fun ref => asidCreate ref asid)

/-- XLT_MAP: An XLT_MAP command maps zeroed pages or creates a host window and resolves fault records (R393). -/
def execXltMap (ref : CmdRef) (p : XltMap) (s : State) : Host.Outcome State Fault Refusal :=
  s.runCmd ref (fun ref => xltMap ref p)

/-- XLT_WITHDRAW: An XLT_WITHDRAW command withdraws pages and windows as an invalidating command, or refuses a fault record
(R400). -/
def execXltWithdraw (ref : CmdRef) (p : XltWithdraw) (s : State) : Host.Outcome State Fault Refusal :=
  s.runCmd ref (fun ref => xltWithdraw ref p)

/-- ASID_INVALIDATE: An ASID_INVALIDATE command advances the generation and optionally frees the ASID (R398). -/
def execAsidInvalidate (ref : CmdRef) (asid : Word16) (free : Bool) (s : State) : Host.Outcome State Fault Refusal :=
  s.runCmd ref (fun ref => asidInvalidate ref asid free)

/-- XLT_INVALIDATE_DRAINED: No work of the previous generation remains; released pages return to the grant and the command
completes (R398). -/
def execXltInvalidateDrained (asid : Word16) (s : State) : Host.Outcome State Fault Refusal :=
  s.run (xltInvalidateDrained asid)

/-- XLT_FAULT_EXPIRY: FAULT_MS elapses after an open fault record and it closes as refused (R402). -/
def execXltFaultExpiry (r : ReachId) (now : Time) (f : FnId) (seq : Word16) (s : State) : Host.Outcome State Fault Refusal :=
  s.run (xltFaultExpiry r now f seq)

end Sys2Proof.Machine
end

