-- ==== Sys2Proof/Machine/Dispatch.lean ====
section
/-!
DEFINITION. The dispatch of a command to its meaning: one arm for each constructor of `Instr`.
-/

namespace Sys2Proof.Machine

def exec (i : Instr) (s : State) : Host.Outcome State Fault Refusal :=
  match i with
  | .followUpRx r now p head sec ns corr => Sys2Proof.Machine.execFollowUpRx r now p head sec ns corr s
  | .syncRx r now p head arrival => Sys2Proof.Machine.execSyncRx r now p head arrival s
  | .announceRx r now p msg => Sys2Proof.Machine.execAnnounceRx r now p msg s
  | .pdelayReqRx r now p head t2 t3 => Sys2Proof.Machine.execPdelayReqRx r now p head t2 t3 s
  | .pdelayRespRx r now p head followUp stamp arrival => Sys2Proof.Machine.execPdelayRespRx r now p head followUp stamp arrival s
  | .ptpManagementRx r => Sys2Proof.Machine.execPtpManagementRx r s
  | .syncTxTimer r now p => Sys2Proof.Machine.execSyncTxTimer r now p s
  | .announceTxTimer r now p => Sys2Proof.Machine.execAnnounceTxTimer r now p s
  | .pdelayReqTimer r now p => Sys2Proof.Machine.execPdelayReqTimer r now p s
  | .ppsInEdge at0 at1 at2 at3 => Sys2Proof.Machine.execPpsInEdge at0 at1 at2 at3 s
  | .sourceQualifies r now source p srcTime srcEra => Sys2Proof.Machine.execSourceQualifies r now source p srcTime srcEra s
  | .lockEntry r now => Sys2Proof.Machine.execLockEntry r now s
  | .sourceLoss r now => Sys2Proof.Machine.execSourceLoss r now s
  | .holdoverExpiry r now => Sys2Proof.Machine.execHoldoverExpiry r now s
  | .timeEraWrap r now => Sys2Proof.Machine.execTimeEraWrap r now s
  | .timeNowLowRead r => Sys2Proof.Machine.execTimeNowLowRead r s
  | .timeFloorWrite p r v => Sys2Proof.Machine.execTimeFloorWrite p r v s
  | .timingDomainStop r => Sys2Proof.Machine.execTimingDomainStop r s
  | .planLoad ref p => Sys2Proof.Machine.execPlanLoad ref p s
  | .planArmRx r now a => Sys2Proof.Machine.execPlanArmRx r now a s
  | .planPeerTimeout r now handle => Sys2Proof.Machine.execPlanPeerTimeout r now handle s
  | .planStart r now handle => Sys2Proof.Machine.execPlanStart r now handle s
  | .lockCycleBoundary r now => Sys2Proof.Machine.execLockCycleBoundary r now s
  | .gateEntryBoundary r now p => Sys2Proof.Machine.execGateEntryBoundary r now p s
  | .lateStoppage r now t => Sys2Proof.Machine.execLateStoppage r now t s
  | .planStopRx r now planId cause => Sys2Proof.Machine.execPlanStopRx r now planId cause s
  | .planResume ref handle => Sys2Proof.Machine.execPlanResume ref handle s
  | .planUnload ref handle => Sys2Proof.Machine.execPlanUnload ref handle s
  | .planStop ref handle => Sys2Proof.Machine.execPlanStop ref handle s
  | .matrixProduct r now t hold => Sys2Proof.Machine.execMatrixProduct r now t hold s
  | .matrixBatchedProduct r now t hold => Sys2Proof.Machine.execMatrixBatchedProduct r now t hold s
  | .matrixBlockFinal r now t => Sys2Proof.Machine.execMatrixBlockFinal r now t s
  | .vectorAdd r now t hold => Sys2Proof.Machine.execVectorAdd r now t hold s
  | .vectorSub r now t hold => Sys2Proof.Machine.execVectorSub r now t hold s
  | .vectorMul r now t hold => Sys2Proof.Machine.execVectorMul r now t hold s
  | .vectorFma r now t hold => Sys2Proof.Machine.execVectorFma r now t hold s
  | .vectorCmp r now t hold => Sys2Proof.Machine.execVectorCmp r now t hold s
  | .vectorMin r now t hold => Sys2Proof.Machine.execVectorMin r now t hold s
  | .vectorMax r now t hold => Sys2Proof.Machine.execVectorMax r now t hold s
  | .vectorSel r now t hold => Sys2Proof.Machine.execVectorSel r now t hold s
  | .vectorExp2 r now t hold => Sys2Proof.Machine.execVectorExp2 r now t hold s
  | .vectorLog2 r now t hold => Sys2Proof.Machine.execVectorLog2 r now t hold s
  | .vectorRcp r now t hold => Sys2Proof.Machine.execVectorRcp r now t hold s
  | .vectorRsqrt r now t hold => Sys2Proof.Machine.execVectorRsqrt r now t hold s
  | .vectorRsum r now t hold => Sys2Proof.Machine.execVectorRsum r now t hold s
  | .vectorRmax r now t hold => Sys2Proof.Machine.execVectorRmax r now t hold s
  | .vectorRmin r now t hold => Sys2Proof.Machine.execVectorRmin r now t hold s
  | .topK r now t hold => Sys2Proof.Machine.execTopK r now t hold s
  | .sort r now t hold => Sys2Proof.Machine.execSort r now t hold s
  | .merge r now t hold => Sys2Proof.Machine.execMerge r now t hold s
  | .gather r now t hold => Sys2Proof.Machine.execGather r now t hold s
  | .scatterWrite r now t hold => Sys2Proof.Machine.execScatterWrite r now t hold s
  | .scatterAdd r now t hold => Sys2Proof.Machine.execScatterAdd r now t hold s
  | .expertRoute r now t hold => Sys2Proof.Machine.execExpertRoute r now t hold s
  | .convert r now t hold => Sys2Proof.Machine.execConvert r now t hold s
  | .moveLoad r now t hold => Sys2Proof.Machine.execMoveLoad r now t hold s
  | .moveStore r now t hold => Sys2Proof.Machine.execMoveStore r now t hold s
  | .moveCopy r now t hold => Sys2Proof.Machine.execMoveCopy r now t hold s
  | .recload r now t hold => Sys2Proof.Machine.execRecload r now t hold s
  | .recstore r now t hold => Sys2Proof.Machine.execRecstore r now t hold s
  | .moveEnd r now t k done => Sys2Proof.Machine.execMoveEnd r now t k done s
  | .remote r now t hold cycles => Sys2Proof.Machine.execRemote r now t hold cycles s
  | .issueQueueCopy r now t stall cycles => Sys2Proof.Machine.execIssueQueueCopy r now t stall cycles s
  | .waitTime r now t hold cycles => Sys2Proof.Machine.execWaitTime r now t hold cycles s
  | .waitTimeExpiry r now t cycles => Sys2Proof.Machine.execWaitTimeExpiry r now t cycles s
  | .waitSignal r now t hold cycles => Sys2Proof.Machine.execWaitSignal r now t hold cycles s
  | .seqWaitTimeout r now t => Sys2Proof.Machine.execSeqWaitTimeout r now t s
  | .marker r now t hold => Sys2Proof.Machine.execMarker r now t hold s
  | .markerStamp r now t hold => Sys2Proof.Machine.execMarkerStamp r now t hold s
  | .digestOpen r now t hold => Sys2Proof.Machine.execDigestOpen r now t hold s
  | .digestClose r now t hold => Sys2Proof.Machine.execDigestClose r now t hold s
  | .roundEnd r now t hold cycles => Sys2Proof.Machine.execRoundEnd r now t hold cycles s
  | .phaseEnd r now t hold cycles => Sys2Proof.Machine.execPhaseEnd r now t hold cycles s
  | .phaseEndOnSignal r now t hold cycles => Sys2Proof.Machine.execPhaseEndOnSignal r now t hold cycles s
  | .stepEnd r now t unit cycles => Sys2Proof.Machine.execStepEnd r now t unit cycles s
  | .dredgeRead r now lp f => Sys2Proof.Machine.execDredgeRead r now lp f s
  | .xposSignalPoll r now => Sys2Proof.Machine.execXposSignalPoll r now s
  | .rmeWrite r now src => Sys2Proof.Machine.execRmeWrite r now src s
  | .rmeWriteSignal r now src => Sys2Proof.Machine.execRmeWriteSignal r now src s
  | .rmeRead r now src => Sys2Proof.Machine.execRmeRead r now src s
  | .rmeSend r now src => Sys2Proof.Machine.execRmeSend r now src s
  | .rmeRecv r now src => Sys2Proof.Machine.execRmeRecv r now src s
  | .rmeFetchAdd r now src => Sys2Proof.Machine.execRmeFetchAdd r now src s
  | .rmeFence r now src => Sys2Proof.Machine.execRmeFence r now src s
  | .rmeFlush r now src => Sys2Proof.Machine.execRmeFlush r now src s
  | .rmeCompletion r now qpn which => Sys2Proof.Machine.execRmeCompletion r now qpn which s
  | .qpCreate ref p => Sys2Proof.Machine.execQpCreate ref p s
  | .qpModify ref m => Sys2Proof.Machine.execQpModify ref m s
  | .qpDrainDone r now qpn => Sys2Proof.Machine.execQpDrainDone r now qpn s
  | .qpDestroy ref qpn => Sys2Proof.Machine.execQpDestroy ref qpn s
  | .mooringRegister ref r p => Sys2Proof.Machine.execMooringRegister ref r p s
  | .mooringWithdraw ref key => Sys2Proof.Machine.execMooringWithdraw ref key s
  | .mooringRelease r now idx => Sys2Proof.Machine.execMooringRelease r now idx s
  | .hostFlushRead r now => Sys2Proof.Machine.execHostFlushRead r now s
  | .hostFlushDone r now => Sys2Proof.Machine.execHostFlushDone r now s
  | .rnrRetry r now qpn => Sys2Proof.Machine.execRnrRetry r now qpn s
  | .frtPacketSend r now qpn host => Sys2Proof.Machine.execFrtPacketSend r now qpn host s
  | .frtDataRx r now p => Sys2Proof.Machine.execFrtDataRx r now p s
  | .frtReadReqRx r now p => Sys2Proof.Machine.execFrtReadReqRx r now p s
  | .frtReadRespRx r now p => Sys2Proof.Machine.execFrtReadRespRx r now p s
  | .frtAckRx r now p => Sys2Proof.Machine.execFrtAckRx r now p s
  | .frtNakRx r now p => Sys2Proof.Machine.execFrtNakRx r now p s
  | .ackDelayTimer r now qpn => Sys2Proof.Machine.execAckDelayTimer r now qpn s
  | .retransmitTimer r now qpn => Sys2Proof.Machine.execRetransmitTimer r now qpn s
  | .frameForward r now => Sys2Proof.Machine.execFrameForward r now s
  | .surveyTxTimer r now => Sys2Proof.Machine.execSurveyTxTimer r now s
  | .surveyRx r now p survey => Sys2Proof.Machine.execSurveyRx r now p survey s
  | .portUsableTimer r now p => Sys2Proof.Machine.execPortUsableTimer r now p s
  | .surveyLoss r now p => Sys2Proof.Machine.execSurveyLoss r now p s
  | .lsaRx r now p l => Sys2Proof.Machine.execLsaRx r now p l s
  | .lsaFloodTimer r now => Sys2Proof.Machine.execLsaFloodTimer r now s
  | .linkNoticeRx r now node port => Sys2Proof.Machine.execLinkNoticeRx r now node port s
  | .cmapTxTimer r now hist => Sys2Proof.Machine.execCmapTxTimer r now hist s
  | .cmapRx r now m => Sys2Proof.Machine.execCmapRx r now m s
  | .tableWriteRx r now src num entries valiant => Sys2Proof.Machine.execTableWriteRx r now src num entries valiant s
  | .tableAckRx r now src num refused => Sys2Proof.Machine.execTableAckRx r now src num refused s
  | .tableAckTimeout r now => Sys2Proof.Machine.execTableAckTimeout r now s
  | .flipRx r now src num tFlip => Sys2Proof.Machine.execFlipRx r now src num tFlip s
  | .flipAckRx r now src num => Sys2Proof.Machine.execFlipAckRx r now src num s
  | .flipRepeatTimer r now => Sys2Proof.Machine.execFlipRepeatTimer r now s
  | .epochFlip r now => Sys2Proof.Machine.execEpochFlip r now s
  | .epochDrainEnd r now => Sys2Proof.Machine.execEpochDrainEnd r now s
  | .fmHelloTimer r now => Sys2Proof.Machine.execFmHelloTimer r now s
  | .fmHelloRx r now src => Sys2Proof.Machine.execFmHelloRx r now src s
  | .fmTakeover r now => Sys2Proof.Machine.execFmTakeover r now s
  | .linkFault r now p => Sys2Proof.Machine.execLinkFault r now p s
  | .linkUp r now p peerAdv rxInv rxOrder => Sys2Proof.Machine.execLinkUp r now p peerAdv rxInv rxOrder s
  | .echoReq r now src q => Sys2Proof.Machine.execEchoReq r now src q s
  | .echoResp r now a => Sys2Proof.Machine.execEchoResp r now a s
  | .maintenanceContextIdle r now idx => Sys2Proof.Machine.execMaintenanceContextIdle r now idx s
  | .mirrorRefreshTimer r now => Sys2Proof.Machine.execMirrorRefreshTimer r now s
  | .collStart ref p => Sys2Proof.Machine.execCollStart ref p s
  | .collChunkSend r now key coll member dest => Sys2Proof.Machine.execCollChunkSend r now key coll member dest s
  | .collChunkReceive r now key coll member item => Sys2Proof.Machine.execCollChunkReceive r now key coll member item s
  | .collTimeout r now key coll member => Sys2Proof.Machine.execCollTimeout r now key coll member s
  | .adderTestBurst r now wharf pass => Sys2Proof.Machine.execAdderTestBurst r now wharf pass s
  | .macFrameRx r now p f => Sys2Proof.Machine.execMacFrameRx r now p f s
  | .pauseRx r now p quanta => Sys2Proof.Machine.execPauseRx r now p quanta s
  | .pfcRx r now p classes times => Sys2Proof.Machine.execPfcRx r now p classes times s
  | .pauseExpiry r now p tc => Sys2Proof.Machine.execPauseExpiry r now p tc s
  | .pauseWatchdog r now p tc7 => Sys2Proof.Machine.execPauseWatchdog r now p tc7 s
  | .pauseWatchdogHoldEnd r now p tc7 => Sys2Proof.Machine.execPauseWatchdogHoldEnd r now p tc7 s
  | .pfcRepeatTimer r now p tc => Sys2Proof.Machine.execPfcRepeatTimer r now p tc s
  | .portFrameStart r now p ending => Sys2Proof.Machine.execPortFrameStart r now p ending s
  | .shpSluiceWrite p r now q slot v => Sys2Proof.Machine.execShpSluiceWrite p r now q slot v s
  | .macCtReset p r q => Sys2Proof.Machine.execMacCtReset p r q s
  | .doorbell f ring => Sys2Proof.Machine.execDoorbell f ring s
  | .indexWordReadDone f ring word => Sys2Proof.Machine.execIndexWordReadDone f ring word s
  | .descriptorFetchDone f ring l => Sys2Proof.Machine.execDescriptorFetchDone f ring l s
  | .completionRingRoom f ring consumed => Sys2Proof.Machine.execCompletionRingRoom f ring consumed s
  | .interruptModerationTimer f ring elapsed => Sys2Proof.Machine.execInterruptModerationTimer f ring elapsed s
  | .hostReadTimeout w => Sys2Proof.Machine.execHostReadTimeout w s
  | .ringCreate ref p => Sys2Proof.Machine.execRingCreate ref p s
  | .ringDestroy ref ring => Sys2Proof.Machine.execRingDestroy ref ring s
  | .nop ref => Sys2Proof.Machine.execNop ref s
  | .objQuery ref kind number iova => Sys2Proof.Machine.execObjQuery ref kind number iova s
  | .feedPost ref p => Sys2Proof.Machine.execFeedPost ref p s
  | .ckptPost ref p => Sys2Proof.Machine.execCkptPost ref p s
  | .configTableWrite ref t => Sys2Proof.Machine.execConfigTableWrite ref t s
  | .configTableRead ref t => Sys2Proof.Machine.execConfigTableRead ref t s
  | .attach f => Sys2Proof.Machine.execAttach f s
  | .detach f => Sys2Proof.Machine.execDetach f s
  | .hostRevWrite f value => Sys2Proof.Machine.execHostRevWrite f value s
  | .hostClkWrite p value => Sys2Proof.Machine.execHostClkWrite p value s
  | .hostPortReset cause => Sys2Proof.Machine.execHostPortReset cause s
  | .functionLevelReset f => Sys2Proof.Machine.execFunctionLevelReset f s
  | .powerStateChange d3hot => Sys2Proof.Machine.execPowerStateChange d3hot s
  | .asidCreate ref asid => Sys2Proof.Machine.execAsidCreate ref asid s
  | .xltMap ref p => Sys2Proof.Machine.execXltMap ref p s
  | .xltWithdraw ref p => Sys2Proof.Machine.execXltWithdraw ref p s
  | .asidInvalidate ref asid free => Sys2Proof.Machine.execAsidInvalidate ref asid free s
  | .xltInvalidateDrained asid => Sys2Proof.Machine.execXltInvalidateDrained asid s
  | .xltFaultExpiry r now f seq => Sys2Proof.Machine.execXltFaultExpiry r now f seq s
  | .functionEnable ref g => Sys2Proof.Machine.execFunctionEnable ref g s
  | .functionDisable ref fn => Sys2Proof.Machine.execFunctionDisable ref fn s
  | .tenFreeze ref fn drainMs => Sys2Proof.Machine.execTenFreeze ref fn drainMs s
  | .tenFreezeDrainExpiry r now f => Sys2Proof.Machine.execTenFreezeDrainExpiry r now f s
  | .tenSave ref p => Sys2Proof.Machine.execTenSave ref p s
  | .tenRestore ref p => Sys2Proof.Machine.execTenRestore ref p s
  | .tenUnfreeze ref fn => Sys2Proof.Machine.execTenUnfreeze ref fn s
  | .resetTiles ref reach mark => Sys2Proof.Machine.execResetTiles ref reach mark s
  | .resetReach ref reach => Sys2Proof.Machine.execResetReach ref reach s
  | .bistRun ref mask kind iova runs => Sys2Proof.Machine.execBistRun ref mask kind iova runs s
  | .bistWindowTimeout r now => Sys2Proof.Machine.execBistWindowTimeout r now s
  | .roleOpen p b => Sys2Proof.Machine.execRoleOpen p b s
  | .roleClose p b => Sys2Proof.Machine.execRoleClose p b s
  | .roleSessionExpiry r now mctp => Sys2Proof.Machine.execRoleSessionExpiry r now mctp s
  | .enrol p b => Sys2Proof.Machine.execEnrol p b s
  | .revoke p b => Sys2Proof.Machine.execRevoke p b s
  | .imageStage p b image => Sys2Proof.Machine.execImageStage p b image s
  | .svnCommit p b => Sys2Proof.Machine.execSvnCommit p b s
  | .fabricKey p b => Sys2Proof.Machine.execFabricKey p b s
  | .fabricKeyRetire r now slot => Sys2Proof.Machine.execFabricKeyRetire r now slot s
  | .fabricKeyAgeAlert r now slot => Sys2Proof.Machine.execFabricKeyAgeAlert r now slot s
  | .kekSet p b => Sys2Proof.Machine.execKekSet p b s
  | .hostKey p b => Sys2Proof.Machine.execHostKey p b s
  | .logRead p b => Sys2Proof.Machine.execLogRead p b s
  | .logTrim p b => Sys2Proof.Machine.execLogTrim p b s
  | .cipher p b d => Sys2Proof.Machine.execCipher p b d s
  | .identity p b => Sys2Proof.Machine.execIdentity p b s
  | .spdmGetVersion eid msg => Sys2Proof.Machine.execSpdmGetVersion eid msg s
  | .spdmGetCapabilities eid msg => Sys2Proof.Machine.execSpdmGetCapabilities eid msg s
  | .spdmNegotiateAlgorithms eid msg offered => Sys2Proof.Machine.execSpdmNegotiateAlgorithms eid msg offered s
  | .spdmGetDigests eid msg => Sys2Proof.Machine.execSpdmGetDigests eid msg s
  | .spdmGetCertificate eid msg slot offset length => Sys2Proof.Machine.execSpdmGetCertificate eid msg slot offset length s
  | .spdmChallenge eid msg slot summary => Sys2Proof.Machine.execSpdmChallenge eid msg slot summary s
  | .spdmGetMeasurements eid msg op sign => Sys2Proof.Machine.execSpdmGetMeasurements eid msg op sign s
  | .pqCosign eid => Sys2Proof.Machine.execPqCosign eid s
  | .pqChain eid offset length => Sys2Proof.Machine.execPqChain eid offset length s
  | .mctpRegRead eid offset => Sys2Proof.Machine.execMctpRegRead eid offset s
  | .mctpRegWrite eid offset value => Sys2Proof.Machine.execMctpRegWrite eid offset value s
  | .mctpConfigTable eid read t => Sys2Proof.Machine.execMctpConfigTable eid read t s
  | .keeperWatchdogExpiry r now core => Sys2Proof.Machine.execKeeperWatchdogExpiry r now core s
  | .tileServiceTest r now t fails => Sys2Proof.Machine.execTileServiceTest r now t fails s
  | .serviceTestOverdue r now part => Sys2Proof.Machine.execServiceTestOverdue r now part s
  | .gaugeSnap p value => Sys2Proof.Machine.execGaugeSnap p value s
  | .trcCtrlArm p value => Sys2Proof.Machine.execTrcCtrlArm p value s
  | .trcTrigFire p value => Sys2Proof.Machine.execTrcTrigFire p value s
  | .traceTriggerNotice r now src => Sys2Proof.Machine.execTraceTriggerNotice r now src s
  | .traceTriggerTime r now => Sys2Proof.Machine.execTraceTriggerTime r now s
  | .traceCaptureFull r now => Sys2Proof.Machine.execTraceCaptureFull r now s
  | .traceSyncTimer r now => Sys2Proof.Machine.execTraceSyncTimer r now s
  | .traceStall r now => Sys2Proof.Machine.execTraceStall r now s
  | .traceRoomReturn r now => Sys2Proof.Machine.execTraceRoomReturn r now s
  | .traceFrameSend => Sys2Proof.Machine.execTraceFrameSend s
  | .traceAlignmentBlock => Sys2Proof.Machine.execTraceAlignmentBlock s
  | .trcDumpGo p value => Sys2Proof.Machine.execTrcDumpGo p value s
  | .traceDumpDone refused => Sys2Proof.Machine.execTraceDumpDone refused s
  | .pwrEnRise rails lowLong => Sys2Proof.Machine.execPwrEnRise rails lowLong s
  | .pwrEnFall => Sys2Proof.Machine.execPwrEnFall s
  | .inputCutOff lowUs highUs => Sys2Proof.Machine.execInputCutOff lowUs highUs s
  | .railFault r now cause => Sys2Proof.Machine.execRailFault r now cause s
  | .droopTrip r now dropMv => Sys2Proof.Machine.execDroopTrip r now dropMv s
  | .droopClear r now => Sys2Proof.Machine.execDroopClear r now s
  | .powerPeakTrip watts => Sys2Proof.Machine.execPowerPeakTrip watts s
  | .powerCapTick avg => Sys2Proof.Machine.execPowerCapTick avg s
  | .thermalTick r now sensors => Sys2Proof.Machine.execThermalTick r now sensors s
  | .thermTrip hottest gatehouse => Sys2Proof.Machine.execThermTrip hottest gatehouse s
  | .powerLimitUnmet avg100 => Sys2Proof.Machine.execPowerLimitUnmet avg100 s
  | .pwrCapWrite p value => Sys2Proof.Machine.execPwrCapWrite p value s
  | .moduleReset => Sys2Proof.Machine.execModuleReset s
  | .mrstNLow => Sys2Proof.Machine.execMrstNLow s
  | .strapChange modid parity mode => Sys2Proof.Machine.execStrapChange modid parity mode s
  | .moduleReady runs readyMs => Sys2Proof.Machine.execModuleReady runs readyMs s
  | .gateShutGo p value => Sys2Proof.Machine.execGateShutGo p value s
  | .shutdownDrainEnd r now runs => Sys2Proof.Machine.execShutdownDrainEnd r now runs s
  | .shutdownDone => Sys2Proof.Machine.execShutdownDone s
  | .registerWrite p w => Sys2Proof.Machine.execRegisterWrite p w s
  | .perstNRelease => Sys2Proof.Machine.execPerstNRelease s
  | .mrstNRelease rails => Sys2Proof.Machine.execMrstNRelease rails s
  | .reachResetComplete r now => Sys2Proof.Machine.execReachResetComplete r now s
  | .ppsOutEdge r now => Sys2Proof.Machine.execPpsOutEdge r now s
  | .uncorrectableCodeword r now p => Sys2Proof.Machine.execUncorrectableCodeword r now p s

end Sys2Proof.Machine
end

