-- ==== Sys2Proof/Machine/Step.lean ====
section
/-!
DEFINITION. The step: the command at the front of the queue acts, with the queue's rest behind it; a block with an empty queue idles.
-/

namespace Sys2Proof.Machine

/-- One step (R31, chapter 01: a command's effect is one change of the state; assumption 1 on the idle step). -/
def step (s : State) : Host.Outcome State Fault Refusal :=
  match s.pending with
  | [] => .next s
  | i :: rest => exec i { s with pending := rest }

/-- The command that a word spells put at the front of the queue; no row of the opcode table gives bits, so no word spells one and the
state stays. -/
def State.withFetchWord (s : State) (nbits w : Nat) : State :=
  match decodeTableWord nbits w with
  | some i => { s with pending := i :: s.pending }
  | none => s

end Sys2Proof.Machine
end

