-- ==== Sys2Proof/Safety.lean ====
section
/-!
DEFINITION. What counts as a sound state of the block, in the terms that the statements use: memories in their canonical form, and a
module apart from what its reports write.
-/

namespace Sys2Proof.Machine

/-- The block with another module behind the same queue. -/
def State.put (s : State) (c : Chip) : State := { s with chip := c }

/-- The memories of a tile are in canonical form. -/
def Tile.memOk (t : Tile) : Prop := Mem.wf t.spad = true

/-- The memories of a reach are in canonical form: device memory, collective buffers and scratchpads. -/
def Reach.memOk (x : Reach) : Prop :=
  Mem.wf x.mem.bytes = true ∧ Mem.wf x.coll.wharf = true ∧ ∀ e ∈ x.tiles, e.2.memOk

/-- Every memory of the module is in canonical form, host memory among them. -/
def Chip.memOk (c : Chip) : Prop := Mem.wf c.host.mem = true ∧ ∀ r, (c.reach r).memOk

/-- A reach apart from its reports: trace records, choices counted, numbers of health records. -/
def Reach.apart (x : Reach) : Reach := { x with trace := Trace.reset, tdc := Tdc.reset, bist := { x.bist with healthSeq := 0 } }

/-- The module apart from its reports: what a record on a ring, an event, an alert, a trace record, a count of R183 or an answer can
change is left out, all else is kept. Two modules that agree here differ in reports only. -/
def Chip.apart (c : Chip) : Chip :=
  { c with reaches := c.reaches.map Reach.apart, host := { c.host with fns := [], mem := [] }, sent := [],
           gate := { c.gate with alerts := [], trigReach := 0, trigNotices := [], healthSeq := 0 } }

/-- The step `i` of a tile, its words `w`, may start in the module (R125, R71): it is the sequencer's next step of a plan's program, every
condition holds, and it is no later than the limit beyond which a late stoppage comes instead. -/
def Chip.stepReady (c : Chip) (r : ReachId) (t : Nat) (p : PlanInst) (i : Nat) (w : StepWords) : Prop :=
  c.tilePlan r t = some p ∧ ((c.reach r).tile t).nextStep = some (i, w) ∧ c.mayStart r t p i w = true
    ∧ ∀ d e, c.lateness r t p i w = some (d, e) → d ≤ p.lateLimit e

/-- The module as the start of a step leaves it for the step's own effect: gauges, the trace record, the tile RUNNING (R71, R466). -/
def Chip.started (c : Chip) (r : ReachId) (t : Nat) (p : PlanInst) (i : Nat) (w : StepWords) (hold : Word32) : Chip :=
  c.begin r t i w (match c.lateness r t p i w with | some (d, _) => d.toNat | none => 0) hold.toNat

/-- The next entry of a submitter may be looked at and taken (R193, R195, R198, R360): the reach runs, nothing stalls the submitter, the entry
has FMT 1 and names a context `q` that the submitter owns and that is READY (or INIT for a RECV) and has room for it, and the function of the context
runs. -/
def Chip.entryReady (c : Chip) (r : ReachId) (src : RmeSource) (e : WorkEntry) (by_ : Submitter) (q : Qp) : Prop :=
  c.inService r = true ∧ c.rmeStalled r src = false ∧ by_.holdKey.any (c.reach r).trace.holding = false
    ∧ e.fmt = 1 ∧ (∃ f, c.nextEntry r src = some (e, by_, f) ∧ q.ownedBy by_ f = true) ∧ (c.reach r).qp e.qpn = some q
    ∧ (q.owner = 0 → c.cqOpen q.function (BitVec.ofNat 8 q.cqRing.toNat) = true)
    ∧ (q.owner ≠ 2 → (c.ten q.function).state = .running ∧ (c.fn q.function).shutdown = false)
    ∧ c.roomFor r q e = true ∧ (q.state = .ready ∨ (e.op = 4 ∧ q.state = .init))

/-- A role request may come by its path now: a ring's command acts once its chain is taken (R511). -/
def Chip.reqTaken (c : Chip) (p : ReqPath) : Prop :=
  match p with
  | .ring ref _ _ => c.taking ref = true
  | .mctp _ => True

/-- A block whose checks the module makes leaves it as `d` (R421, R425): refused at the first check that it fails; refused where the role's
request counter cannot be written; else, with that counter raised, as `ok` says. -/
def Chip.roleRequest (c : Chip) (p : ReqPath) (b : RoleReq) (ok : Chip → Chip → Prop) (d : Chip) : Prop :=
  match c.roleCheck p b with
  | some e => d = c.roleRefused p b e.1 e.2
  | none =>
    if b.role ≠ 0 ∧ c.sec.flashOk = false then d = c.answer p 0xBB 0 []
    else ok (if b.role = 0 then c else { c with sec := { c.sec with reqSeq := Tab.set c.sec.reqSeq b.role.toNat b.seq } }) d

/-- Every memory of the block is in canonical form (assumption 5). -/
def State.memOk (s : State) : Prop := s.chip.memOk

end Sys2Proof.Machine

namespace Sys2Proof

/-- An event at one of the module's pins or at its input, which acts whatever the module's state (R478, R480, R518). -/
def Instr.atPin : Instr → Bool
  | .pwrEnRise _ _ => true
  | .pwrEnFall => true
  | .inputCutOff _ _ => true
  | .thermTrip _ _ => true
  | .mrstNLow => true
  | .mrstNRelease _ => true
  | .strapChange _ _ _ => true
  | .perstNRelease => true
  | _ => false

end Sys2Proof
end

