-- ==== Sys2Proof/Certificates/Slice0/Obligations.lean ====
section
/-!
DEFINITION. The statements about the block, for the provers. Each formalises rules of the spec, or rests on them; OBLIGATIONS.json names
the rules. A statement that rests on a choice of the model says so and names the log entry.
-/

open Sys2Proof Sys2Proof.Machine

/-! ### The block as a whole -/

/-- A step takes the command at the front of the queue and does with the rest behind it what the command does. -/
def Obligations.StepTakesTheFrontCommand : Prop :=
  (∀ (s : State) (i : Instr) (rest : List Instr), s.pending = i :: rest → step s = exec i { s with pending := rest })
  ∧ (∀ (s : State) (i : Instr), step { s with pending := i :: s.pending } = exec i s)

/-- What reset leaves, by the spec's reset values: fabric time, its era and TIME_FLOOR start at zero and the servo in FREE_RUN (R54); TIME_CTRL
holds its defaults (R55); partition entry 0 alone is valid, with key 0x0001 and nine ports in both masks (R274); the targets of TCLK stand at
3,600 MHz (R483); no session, ring, address space, plan, context or mooring stands; every memory is canonical and lists nothing. -/
def Obligations.ResetLeavesTheSpecsValues : Prop :=
  let s := State.reset
  s.pending = [] ∧ s.memOk ∧ s.chip.host.fns = [] ∧ s.chip.sec.pfSession = none ∧ s.chip.sec.mctpSession = none ∧ s.chip.xlt.asids = []
  ∧ s.chip.gate.ready = false ∧ s.chip.gate.shutState = 0
  ∧ ∀ r, (s.chip.reach r).time.now = 0 ∧ (s.chip.reach r).time.era = 0 ∧ (s.chip.reach r).time.floor = 0
    ∧ (s.chip.reach r).time.servo = .freeRun ∧ fld (s.chip.reach r).time.ctrl 16 8 = 128 ∧ fld (s.chip.reach r).time.ctrl 24 8 = 128
    ∧ fld (s.chip.reach r).time.ctrl 32 16 = 1000 ∧ (s.chip.reach r).rtr.parts = [(0, partEntry0)] ∧ fld partEntry0 0 16 = 1
    ∧ fld partEntry0 16 9 = 0x1FF ∧ fld partEntry0 25 9 = 0x1FF ∧ flag partEntry0 34 = true
    ∧ s.chip.tclkTarget r = 3600 ∧ (s.chip.reach r).plan.plans = [] ∧ (s.chip.reach r).rme.qps = [] ∧ (s.chip.reach r).rme.moorings = []
    ∧ (s.chip.reach r).mem.bytes = [] ∧ (s.chip.reach r).tiles = []

/-- Every command answers a next state, and leaves the queue to the step: the block has no fault and, all its commands having a meaning, no
refusal. So `k` steps from any state take `k` commands. -/
def Obligations.EveryCommandCompletes : Prop :=
  (∀ (i : Instr) (s : State), ∃ c : Chip, exec i s = .next (s.put c))
  ∧ (∀ (k : Nat) (s : State), ∃ t, core.run k s = .next t ∧ t.pending = s.pending.drop k)

/-- A module without its rails, or in MRST_N, stays as it is until one of its pins changes (R478, R480, R518): this holds of every state with
such a module and no event at a pin or at the input in its queue, and every step keeps it. -/
def Obligations.ADeadModuleStaysAsItIs : Prop :=
  ∀ (c : Chip), c.alive = false → ∀ (s t : State), s.chip = c → (∀ i ∈ s.pending, i.atPin = false) → step s = .next t →
    t.chip = c ∧ ∀ i ∈ t.pending, i.atPin = false

/-- Every memory of the block keeps its canonical form through every step: device memory, collective buffers, scratchpads and host memory
list strictly rising addresses and no zero byte, so that equal memories are equal data (assumption 5 on the unlisted byte). -/
def Obligations.EveryStepKeepsMemoriesCanonical : Prop :=
  ∀ (s t : State), s.memOk → step s = .next t → t.memOk

/-! ### Fabric time (chapter 02) -/

/-- PTP messages of a reach whose PTP runs (R43, R45, R541). Those that arrive in its one domain: a Sync is stamped, and one from the selected
master ends the count of missing ones; an Announce is kept and the best-master algorithm runs again; a Pdelay_Req is answered; the two halves
of a Pdelay response give the mean path delay; a management message is counted. Those that its timers send on a port that is not its slave
port: Sync with Follow_Up, Announce of its own clock or of its master's one step further, Pdelay_Req. -/
def Obligations.PtpMessages : Prop :=
  (∀ (s : State) (r : ReachId) (now : Time) (p : PortId) dom, s.chip.alive = true → s.chip.ptpHears r dom = true →
    (∀ seq arrival, exec (.syncRx r now p ⟨dom, seq⟩ arrival) s = .next (s.put ((s.chip.at r now).onTime r (fun t =>
        { t.onPort p (fun x => { x with sync := some (seq, arrival) }) with syncAt := if t.masterPort.toNat = p.val then t.now else t.syncAt }))))
    ∧ (∀ clk, ∃ t, exec (.announceRx r now p ⟨dom, clk⟩) s = .next t ∧ ((t.chip.reach r).time.port p).foreign = some clk
        ∧ ((t.chip.reach r).time.port p).annDom = dom ∧ ((t.chip.reach r).time.port p).annAt = (s.chip.at r now).now r
        ∧ ((s.chip.reach r).time.source = .ptpFreq ∨ (s.chip.reach r).time.source = .ptpOnly →
            t.chip.bestMaster r ≠ 15 → (t.chip.reach r).time.masterPort.toNat = t.chip.bestMaster r))
    ∧ (∀ seq t2 t3, exec (.pdelayReqRx r now p ⟨dom, seq⟩ t2 t3) s = .next (s.put
        (((s.chip.at r now).sendPtp r p (.pdelayResp seq t2) 72).sendPtp r p (.pdelayFollowUp seq t3) 72)))
    ∧ (∀ seq t1 t2 arrival, ((s.chip.reach r).time.port p).pdelayTx = some (seq, t1) →
        exec (.pdelayRespRx r now p ⟨dom, seq⟩ false t2 arrival) s = .next (s.put ((s.chip.at r now).onTime r (fun t => t.onPort p (fun x =>
            { x with pdelayRx := some (t2, arrival) })))))
    ∧ (∀ seq t1 t2 t3 t4 arrival, ((s.chip.reach r).time.port p).pdelayTx = some (seq, t1) →
        ((s.chip.reach r).time.port p).pdelayRx = some (t2, t4) →
        exec (.pdelayRespRx r now p ⟨dom, seq⟩ true t3 arrival) s = .next (s.put ((s.chip.at r now).onTime r (fun t => t.onPort p (fun x =>
            { x with pathDelay := (timeDiff t1 t4 - timeDiff t2 t3) / 2, pdelayTx := none, pdelayRx := none })))))
    ∧ exec (.ptpManagementRx r) s = .next (s.put (s.chip.onTime r (fun t => { t with mgmtIgnored := sat48 (t.mgmtIgnored + 1) }))))
  ∧ (∀ (s : State) (r : ReachId) (now : Time) (p : PortId), s.chip.alive = true → s.chip.ptpOn r = true →
    (let c := s.chip.at r now
     let st := (c.reach r).time.stamp
     (s.chip.reach r).time.masterPort.toNat ≠ p.val →
      exec (.syncTxTimer r now p) s = .next (s.put (((c.onTime r (fun t => t.onPort p (fun x => { x with syncSeq := x.syncSeq + 1 }))).sendLink r p
          (.ptp (c.reach r).time.domain (.sync ((c.reach r).time.port p).syncSeq)) 64).sendLink r p
          (.ptp (c.reach r).time.domain (.followUp ((c.reach r).time.port p).syncSeq st.1 st.2.1 st.2.2)) 64)))
    ∧ ((s.chip.reach r).time.masterPort.toNat ≠ p.val → (s.chip.reach r).time.masterPort.toNat = 15 →
        exec (.announceTxTimer r now p) s = .next (s.put (((s.chip.at r now).onTime r (fun t => t.onPort p (fun x => { x with annSeq := x.annSeq + 1 }))).sendLink r p
            (.ptp (s.chip.reach r).time.domain (.announce ((s.chip.reach r).time.port p).annSeq (s.chip.ownClock r))) 82)))
    ∧ (∀ (q : PortId) clk, (s.chip.reach r).time.masterPort.toNat = q.val → q ≠ p →
        ((s.chip.at r now).reach r).time.heard q = some clk →
        exec (.announceTxTimer r now p) s = .next (s.put (((s.chip.at r now).onTime r (fun t => t.onPort p (fun x => { x with annSeq := x.annSeq + 1 }))).sendLink r p
            (.ptp (s.chip.reach r).time.domain (.announce ((s.chip.reach r).time.port p).annSeq { clk with steps := clk.steps + 1 })) 82)))
    ∧ exec (.pdelayReqTimer r now p) s = .next (s.put (((s.chip.at r now).onTime r (fun t => t.onPort p (fun x =>
          { x with pdelaySeq := x.pdelaySeq + 1, pdelayTx := some (x.pdelaySeq, t.now), pdelayRx := none }))).sendLink r p
          (.ptp (s.chip.reach r).time.domain (.pdelayReq ((s.chip.reach r).time.port p).pdelaySeq)) 72)))

/-- What the servo does with an offset (R48): an offset above STEP_THRESH is one forward step of exactly that offset, one earlier than
-1 ms is not followed and the reach enters AHEAD_OF_MASTER, and any other leaves the count where it is, for slewing. A reach that leaves
AHEAD_OF_MASTER, or steps while LOCKED, enters ACQUIRE.
The limits are held to the measured offset, which is the model's choice (assumption 85).
A Follow_Up in the reach's domain from the selected master, or a PPS_IN edge at a reach of rank 1, gives the servo its offset (R38, R39, R42): the
grandmaster's seconds, nanoseconds and correction, with the path delay, against the Sync's arrival; the nearest whole second against the
edge. One edge reaches all four timing domains (R24), each in its own count; two edges 1 s ± 1 µs apart advance the qualification count, and any
other starts it again. -/
def Obligations.OffsetsAreMeasuredAndFollowed : Prop :=
  (∀ (c : Chip) (r : ReachId) (m : Int) (era : Word16),
    (m < nsUnits (-1000000) → (c.servoOffset r m era).now r = c.now r
      ∧ ((c.servoOffset r m era).reach r).time.servo = .aheadOfMaster)
    ∧ (nsUnits (-1000000) ≤ m → m ≤ nsUnits (c.reach r).time.stepThresh → (c.servoOffset r m era).now r = c.now r
      ∧ ((c.servoOffset r m era).reach r).time.era = era ∧ ((c.servoOffset r m era).reach r).time.servo ≠ .aheadOfMaster)
    ∧ (nsUnits (-1000000) ≤ m → nsUnits (c.reach r).time.stepThresh < m →
      (c.servoOffset r m era).now r = c.now r + BitVec.ofInt 64 m
      ∧ ((c.servoOffset r m era).reach r).time.era = era
      ∧ ((c.reach r).time.servo = .locked ∨ (c.reach r).time.servo = .aheadOfMaster →
          ((c.servoOffset r m era).reach r).time.servo = .acquire)))
  ∧ (∀ (s : State) (r : ReachId) (now : Time), s.chip.alive = true →
    (∀ (p : PortId) dom seq sec ns corr arrival, s.chip.ptpHears r dom = true → ((s.chip.reach r).time.port p).sync = some (seq, arrival) →
      (s.chip.reach r).time.sourced = true → (s.chip.reach r).time.masterPort.toNat = p.val →
      ((s.chip.reach r).time.source = .ptpFreq ∨ (s.chip.reach r).time.source = .ptpOnly) →
      let x := (s.chip.reach r).time.port p
      let stamp := ((sec.toNat * 10 ^ 9 + ns.toNat : Nat) : Int) * 65536 + corr.toInt + x.pathDelay + x.asym
      exec (.followUpRx r now p ⟨dom, seq⟩ sec ns corr) s = .next (s.put (((s.chip.at r now).onTime r (fun t => t.onPort p (fun x => { x with sync := none }))).servoOffset r
          (timeDiff arrival (BitVec.ofInt 64 stamp)) (eraOf (stamp + timeDiff arrival ((s.chip.at r now).now r)))))))
  ∧ (∀ (s : State) (marks : Quad PpsMark), s.chip.alive = true →
      ∃ t, exec (.ppsInEdge (marks.get 0) (marks.get 1) (marks.get 2) (marks.get 3)) s = .next t
        ∧ t = s.put (forEach allReaches s.chip (fun c r => c.ppsEdge r (marks.get r).edge (marks.get r).refOk))
        ∧ ∀ r : ReachId, (s.chip.reach r).time.source ≠ .external →
          (t.chip.reach r).time.ppsLast = some (marks.get r).edge ∧ (t.chip.reach r).time.refGood = (marks.get r).refOk
          ∧ (t.chip.reach r).time.ppsRun = (if (marks.get r).refOk = true ∧ ∃ e, (s.chip.reach r).time.ppsLast = some e
              ∧ nsUnits 999999000 ≤ timeDiff e (marks.get r).edge ∧ timeDiff e (marks.get r).edge ≤ nsUnits 1000001000 then (s.chip.reach r).time.ppsRun + 1 else 0))
  ∧ (∀ (c : Chip) (r : ReachId) edge e, (c.reach r).time.source = .external → (c.reach r).time.sourced = true →
      (c.reach r).time.ppsLast = some e → nsUnits 999999000 ≤ timeDiff e edge → timeDiff e edge ≤ nsUnits 1000001000 →
      c.ppsEdge r edge true = ((c.at r edge).onTime r (fun t => { t with ppsLast := some edge, ppsRun := t.ppsRun + 1, refGood := true })).servoOffset r
        (((c.at r edge).reach r).time.ppsOffset edge) ((c.at r edge).reach r).time.era)

/-- The servo's states (R46): the first source after module reset is taken in one step (R54), a filtered offset within ±8 ns for 64 Sync
intervals leads to LOCKED, a lost source (R42, R49) to HOLDOVER after 600 s of LOCKED and to HOLDOVER_EXPIRED after less, and 10 s of HOLDOVER to
HOLDOVER_EXPIRED.
Fabric time and its registers (R39, R40, R54, R538): a later time is taken and never an earlier one; a wrap of a reach on its own
timescale counts the era; TIME_FLOOR moves only later; a domain that stops captures its last time and goes on from it in FREE_RUN. -/
def Obligations.ServoAndFabricTime : Prop :=
  (∀ (s : State) (r : ReachId) (now : Time), s.chip.alive = true →
    (∀ src (p : PortId) st era, (s.chip.at r now).qualified r src p = true → (s.chip.reach r).time.sourced = false →
      src ≠ .ownScale →
      ∃ t, exec (.sourceQualifies r now src p st era) s = .next t ∧ (t.chip.reach r).time.servo = .acquire
        ∧ t.chip.now r = st ∧ (t.chip.reach r).time.era = era ∧ (t.chip.reach r).time.source = src
        ∧ (t.chip.reach r).time.sourced = true)
    ∧ ((s.chip.reach r).time.servo = .acquire → ((s.chip.at r now).reach r).time.lockReady = true →
        ∃ t, exec (.lockEntry r now) s = .next t ∧ (t.chip.reach r).time.servo = .locked
        ∧ t.chip.now r = (s.chip.at r now).now r ∧ (t.chip.reach r).time.lockedSince = t.chip.now r)
    ∧ ((s.chip.reach r).time.servo = .locked → ((s.chip.at r now).reach r).time.sourceGone = true →
        ∃ t, exec (.sourceLoss r now) s = .next t
        ∧ (t.chip.reach r).time.servo =
          (if nsUnits 600000000000 ≤ timeDiff (s.chip.reach r).time.lockedSince (t.chip.now r) then .holdover else .holdoverExpired))
    ∧ ((s.chip.reach r).time.servo = .acquire ∨ (s.chip.reach r).time.servo = .aheadOfMaster →
        ((s.chip.at r now).reach r).time.sourceGone = true →
        ∃ t, exec (.sourceLoss r now) s = .next t
        ∧ (t.chip.reach r).time.servo = (if (s.chip.reach r).time.everLocked then .holdoverExpired else .freeRun))
    ∧ ((s.chip.reach r).time.servo = .holdover →
        nsUnits 10000000000 ≤ timeDiff (s.chip.reach r).time.holdoverSince ((s.chip.at r now).now r) →
        ∃ t, exec (.holdoverExpiry r now) s = .next t ∧ (t.chip.reach r).time.servo = .holdoverExpired
        ∧ t.chip.now r = (s.chip.at r now).now r))
  ∧ (∀ (s : State) (r : ReachId) (now : Time), s.chip.alive = true →
    ((s.chip.reach r).time.stopped = none → later (s.chip.now r) now = true →
      ∃ t, exec (.timeEraWrap r now) s = .next t ∧ t.chip.now r = now
        ∧ (t.chip.reach r).time.era = (if now.toNat < (s.chip.now r).toNat ∧ (s.chip.reach r).time.ownScale = true then
            (s.chip.reach r).time.era + 1 else (s.chip.reach r).time.era))
    ∧ (later (s.chip.now r) now = false → exec (.timeEraWrap r now) s = .next s)
    ∧ (∀ p v, s.chip.pathOpen p = true → s.chip.inService r = true →
        exec (.timeFloorWrite p r v) s = .next (s.put (s.chip.onTime r (fun t => { t with floor := if later t.floor v = true then v else t.floor }))))
    ∧ ((s.chip.reach r).time.stopped = none → ∃ t, exec (.timingDomainStop r) s = .next t
        ∧ t.chip.now r = s.chip.now r ∧ (t.chip.reach r).time.floor = s.chip.now r
        ∧ (t.chip.reach r).time.servo = .freeRun ∧ (t.chip.reach r).time.source = .none))

/-- A read of TIME_NOW[31:0] latches TIME_NOW[63:32] in the same cycle (R41), so that the low half read and then the latched high half are one
count, and changes nothing else; a 64-bit read returns the whole count. -/
def Obligations.LowReadLatchesHigh : Prop :=
  ∀ (s : State) (r : ReachId), s.chip.alive = true →
    (∃ t, exec (.timeNowLowRead r) s = .next t ∧ (t.chip.reach r).time.nowLatch ++ (s.chip.now r).extractLsb' 0 32 = s.chip.now r
      ∧ t = s.put (s.chip.onTime r (fun d => { d with nowLatch := (s.chip.now r).extractLsb' 32 32 })))
    ∧ (∀ eid, s.chip.inService r = true →
      exec (.mctpRegRead eid (winBase + r.val * 0x400000 + 0x10)) s = .next (s.put (s.chip.emit (.regRead eid (s.chip.now r)))))

/-! ### Passage plans (chapter 02) -/

/-- PLAN_LOAD that is taken, of a container in host memory or in device memory whose pages are there, that every check passes on every reach
it names (R66): each of these reaches arms the plan under the command's handle, and then looks at the arm frames it holds. Arming marks the
contexts, moorings and wharf slots that the plan reserves, gives each of its tiles its programs, clears CEIL_VALID of every record of
those tiles, and adds the plan.
PLAN_UNLOAD (R344): the plan is stopped where it runs and taken off every reach: no reach holds it, none of its tiles keeps a program
of it, and device memory and fabric time stay. -/
def Obligations.PlansLoadAndUnload : Prop :=
  ((∀ (s : State) (ref : CmdRef) (p : PlanLoad), s.chip.alive = true → s.chip.taking ref = true →
    (p.device = true → ∃ l, s.chip.translate (containerOf p.bytes).hdr.asid.toNat p.addr.toNat p.length.toNat true false = .ok l) →
    s.chip.namedReaches (containerOf p.bytes) ≠ [] →
    (∀ r ∈ s.chip.namedReaches (containerOf p.bytes),
      planRefused { c := s.chip, r := r, fn := ref.fn, k := containerOf p.bytes, bytes := p.bytes } = none) →
    let named := s.chip.namedReaches (containerOf p.bytes)
    exec (.planLoad ref p) s = .next (s.put (forEach named
      (forEach named s.chip (fun c r => c.armPlan r ref (containerOf p.bytes))) (fun c r => c.tryAgree r ref.handle))))
  ∧ (∀ (c : Chip) (r : ReachId) (ref : CmdRef) (k : Container),
      let d := c.armPlan r ref k
      (∃ q : PlanInst, (d.reach r).plan.plans = (c.reach r).plan.plans ++ [q]
        ∧ q.con = k ∧ q.handle = ref.handle ∧ q.st = .arming ∧ q.armTime = c.now r ∧ q.cmd = some ref)
      ∧ (∀ t ∈ k.tilesOn r, let y := (d.reach r).tile (t % 64)
        y.plan = some k.hdr.planId ∧ y.progs = tileProgs k t ∧ y.failCode = 0 ∧ ∀ i, recValid (y.record i) = false)
      ∧ (∀ i ∈ k.reserved r 2, Tab.find? (d.reach r).rme.qps i = (Tab.find? (c.reach r).rme.qps i).map (fun q => { q with plan := true }))
      ∧ (∀ i ∈ k.reserved r 5, Tab.find? (d.reach r).rme.moorings i = (Tab.find? (c.reach r).rme.moorings i).map (fun m =>
          { m with plan := true }))
      ∧ (d.reach r).coll.held = (c.reach r).coll.held ||| slotBits (k.reserved r 1)
      ∧ (d.reach r).time = (c.reach r).time ∧ (d.reach r).mem = (c.reach r).mem))
  ∧ ((∀ (s : State) ref handle, s.chip.alive = true → s.chip.taking ref = true → s.chip.ownPlan ref handle = true →
    s.chip.planAll handle (fun p => p.st != .arming) = true →
    let c := s.chip.driverStop handle
    exec (.planUnload ref handle) s = .next (s.put
      ((forEach (c.planReaches handle) c (fun c r => c.releasePlan r handle)).complete ref 4 0 0).settle))
  ∧ (∀ (c : Chip) (r : ReachId) handle (p : PlanInst), (c.reach r).planBy handle = some p →
    let d := c.releasePlan r handle
    (d.reach r).planBy handle = none ∧ (d.reach r).mem.bytes = (c.reach r).mem.bytes ∧ (d.reach r).time = (c.reach r).time
    ∧ (∀ t, ((c.reach r).tile t).plan = some p.con.hdr.planId → ((d.reach r).tile t).plan = none ∧ ((d.reach r).tile t).progs = [])))

/-- The start agreement (R70): with the arm frames of all peers held and none that disagrees, in a LOCKED reach none of whose tiles of the
plan is in a reset, the start is the first round boundary no earlier than the latest arm time plus ARM_MARGIN and than the requested start;
a round boundary lies a whole number of rounds from CYCLE_BASE (R60).
Phase ends (R144): a PHASE_END step that may start, or that has waited, waits on until the tile's steps, moves and copies have ended; then
OP 0 leads to the phase's first step in the next round, OP 1 ends the tile's phase, and OP 2 does the one or the other by its signal word, or
fails where that word has an uncorrectable error. A tile whose plan has moved to another phase enters that phase, and none goes on after the
last phase. -/
def Obligations.RoundsStartAndEnd : Prop :=
  ((∀ (c : Chip) (r : ReachId) (handle : Word64) (p : PlanInst), (c.reach r).planBy handle = some p → p.st = .arming →
    (c.reach r).time.servo = .locked → (∀ t ∈ p.con.tilesOn r, c.tileResets r (t % 64) = false) →
    p.arms.find? p.mismatch = none → (∀ n ∈ p.con.peers, n ≠ c.nodeId r → ∃ a ∈ p.arms, a.node = n) →
    ∃ q, ((c.tryAgree r handle).reach r).planBy handle = some q ∧ q.st = .agreed ∧ q.con = p.con
      ∧ q.start = p.agreed (c.reach r).plan.armMargin)
  ∧ (∀ (k : Container) (t : Time), 0 < k.roundTime.toNat → k.roundTime.toNat < 2 ^ 61 → -2 ^ 61 < timeDiff k.hdr.cycleBase t →
    timeDiff k.hdr.cycleBase t < 2 ^ 61 →
    (∃ m : Int, timeDiff k.hdr.cycleBase (firstRound k t) = m * k.roundTime.toNat)
    ∧ 0 ≤ timeDiff t (firstRound k t) ∧ timeDiff t (firstRound k t) < k.roundTime.toNat))
  ∧ (∀ (s : State) (r : ReachId) (now : Time) (t : TileId) (hold cycles : Word32) p i (w : StepWords) d, s.chip.alive = true →
    ((s.chip.at r now).stepReady r t.val p i w ∧ d = (s.chip.at r now).started r t.val p i w hold
      ∨ (s.chip.at r now).tilePlan r t.val = some p ∧ d = s.chip.at r now
        ∧ ∃ z, (((s.chip.at r now).reach r).tile t.val).waiting = some (z, w) ∧ z.step = i) →
    let y := (d.reach r).tile t.val
    ∀ e ∈ [(0, Instr.roundEnd r now t hold cycles), (1, .phaseEnd r now t hold cycles), (2, .phaseEndOnSignal r now t hold cycles)],
      isStep 10 e.1 w = true →
      (y.quiet = false → exec e.2 s = .next (s.put (d.waitFor r t.val i 0 3)))
      ∧ (y.quiet = true → (e.1 = 2 → y.spadErr [(fld (w.op 0) 0 23, 8)] = none) →
        exec e.2 s = .next (s.put (if e.1 = 1 ∨ (e.1 = 2 ∧ (w.op 1).toNat ≤ y.signal (fld (w.op 0) 0 23))
          then (d.doneStep r t.val i 10 cycles.toNat).phaseEnd r t.val p else (d.doneStep r t.val i 10 cycles.toNat).roundEnd r t.val p)))
      ∧ (∀ l, y.quiet = true → e.1 = 2 → y.spadErr [(fld (w.op 0) 0 23, 8)] = some l →
        exec e.2 s = .next (s.put ((d.memUe r 5 (spadWindow + t.val * 0x800000 + 64 * l) 0).waitFail r t.val i 0x50))))
  ∧ (∀ (c : Chip) (r : ReachId) (t : Nat) (p : PlanInst),
      let y := (c.reach r).tile t
      let a := ((c.roundEnd r t p).reach r).tile t
      let b := ((c.phaseEnd r t p).reach r).tile t
      (p.phaseOver = true → a = { y with phaseEnded := true, seqState := 0, wait := none } ∧ b = a)
      ∧ (p.phaseOver = false → y.phase.toNat ≠ p.phaseNo → a = y.enterPhase p.con (64 * r.val + t) p.phaseNo p.roundStart ∧ b = a)
      ∧ (p.phaseOver = false → y.phase.toNat = p.phaseNo → b = { y with phaseEnded := true, seqState := 0, wait := none }
        ∧ ∀ g, y.program = some g → a = { y with
            step := g.firstStep, seqState := 5, wait := none, passes := y.passes + 1, roundStart := y.roundStart + p.con.roundTime,
            phaseEnded := y.lastRound p }))

/-- A plan between its arming and its stop (R66, R70, R72). An arm frame of a peer joins the plan that is being armed, is kept for a load or
resume to come where none is, and does nothing where the node is no peer. 1 s without a peer's frame ends the arming: a loaded plan is
on no reach any more, a resumed one is stopped again on each. At the agreed start the plan runs in a LOCKED reach, from the first phase or
from where it stopped; in another state it stops with cause time, which is the model's choice (assumption 89). PLAN_RESUME arms a stopped plan
again on every reach, takes the frames that came early, and is refused with 0x92 where the plan is not the function's own or not
stopped and with PLAN_NO_TIME where a reach is not LOCKED. -/
def Obligations.PlansArmStartAndResume : Prop :=
  ∀ (s : State), s.chip.alive = true →
    (∀ (r : ReachId) now (a : ArmFrame),
      let c := (s.chip.at r now).takeKeeper r (isKeeper (.planArm a))
      let put := fun (l : List ArmFrame) => l.filter (fun b => !(b.node == a.node && b.planId == a.planId)) ++ [a]
      (∀ p, (c.reach r).plan.plans.find? (fun p => p.con.hdr.planId == a.planId && p.st == .arming) = some p →
        (a.node ∈ p.con.peers → exec (.planArmRx r now a) s = .next (s.put
          ((c.onPlanBy r p.handle (fun q => { q with arms := put q.arms })).tryAgree r p.handle)))
        ∧ (a.node ∉ p.con.peers → exec (.planArmRx r now a) s = .next (s.put c)))
      ∧ ((c.reach r).plan.plans.find? (fun p => p.con.hdr.planId == a.planId && p.st == .arming) = none →
        exec (.planArmRx r now a) s = .next (s.put (c.onPlan r (fun x => { x with early := put x.early })))))
    ∧ (∀ (r : ReachId) now handle (p : PlanInst), (s.chip.reach r).planBy handle = some p → p.st = .arming →
      nsUnits 1000000000 ≤ timeDiff p.armTime ((s.chip.at r now).now r) →
      ∃ t, exec (.planPeerTimeout r now handle) s = .next t
        ∧ (p.resuming = false → ∀ q, (t.chip.reach q).planBy handle = none)
        ∧ (p.resuming = true → ∀ q x, (s.chip.reach q).planBy handle = some x →
            (t.chip.reach q).planBy handle = some { x with st := .stopped, cmd := none, resuming := false })
        ∧ ∀ q, (t.chip.reach q).mem.bytes = (s.chip.reach q).mem.bytes)
    ∧ (∀ (r : ReachId) now handle (p : PlanInst), (s.chip.reach r).planBy handle = some p → s.chip.inService r = true →
      p.st = .agreed → notBefore p.start ((s.chip.at r now).now r) = true →
      let d := (s.chip.at r now).onPlanBy r handle (fun q =>
        { q with st := .running, roundStart := q.start, begun := true, resuming := false, cause := none })
      (((s.chip.at r now).reach r).time.servo = .locked → p.begun = false →
        exec (.planStart r now handle) s = .next (s.put (d.beginPhase r handle true)))
      ∧ (((s.chip.at r now).reach r).time.servo = .locked → p.begun = true →
        let e := forEach (p.con.tilesOn r) d (fun c t => c.onTile r (t % 64) (fun y =>
          if y.plan == some p.con.hdr.planId then y.restart p.start else y))
        exec (.planStart r now handle) s = .next (s.put
          (forEach ((e.reach r).coll.invs.filter (fun i => i.plan == some handle && i.code.isSome && i.finished)) e (fun c i => c.rerunInv r i))))
      ∧ (((s.chip.at r now).reach r).time.servo ≠ .locked →
        exec (.planStart r now handle) s = .next (s.put ((s.chip.at r now).declareStop r .time StopInfo.none true p))))
    ∧ (∀ (ref : CmdRef) handle, s.chip.taking ref = true →
      let mine := s.chip.planReaches handle
      (s.chip.ownPlan ref handle = true → s.chip.planAll handle (fun p => p.st == .stopped) = true →
        (∀ r ∈ mine, (s.chip.reach r).time.servo = .locked) →
        exec (.planResume ref handle) s = .next (s.put
          (forEach mine (forEach mine s.chip (fun c r => c.rearm r ref handle)) (fun c r => c.tryAgree r handle))))
      ∧ (s.chip.ownPlan ref handle = true → s.chip.planAll handle (fun p => p.st == .stopped) = true →
        ∀ r, mine.find? (fun r => (s.chip.reach r).time.servo != .locked) = some r →
        exec (.planResume ref handle) s = .next (s.put (s.chip.complete ref r.val 0x03 0)))
      ∧ (s.chip.ownPlan ref handle = false ∨ s.chip.planAll handle (fun p => p.st == .stopped) = false →
        exec (.planResume ref handle) s = .next (s.put (s.chip.complete ref 4 0x92 0))))
    ∧ (∀ (c : Chip) (r : ReachId) (ref : CmdRef) handle (p : PlanInst), (c.reach r).planBy handle = some p →
      let d := c.rearm r ref handle
      (d.reach r).planBy handle = some { p with st := .arming, cmd := some ref, resuming := true, armTime := c.now r,
                                                arms := (c.reach r).plan.early.filter (fun a => a.planId == p.con.hdr.planId) }
      ∧ (d.reach r).plan.early = (c.reach r).plan.early.filter (fun a => a.planId != p.con.hdr.planId)
      ∧ (∀ t ∈ p.con.tilesOn r, ((d.reach r).tile (t % 64)).progs = tileProgs p.con t)
      ∧ (∀ t, ((d.reach r).tile t).spad = ((c.reach r).tile t).spad) ∧ (d.reach r).mem = (c.reach r).mem ∧ (d.reach r).time = (c.reach r).time)

/-- A stoppage (R72, R127): every plan of the number stops with its cause, its tiles freeze, and nothing of the reach's memory, time or
ports changes. PLAN_STOP brings it with cause driver request, a peer's notice with the notice's cause, and a step later than FREEBOARD plus
STOP_THRESH with cause late (R71). -/
def Obligations.StoppagesFreezePlans : Prop :=
  (∀ (c : Chip) (r : ReachId) cause i tell (p : PlanInst),
    let d := c.declareStop r cause i tell p
    (d.reach r).plan.plans = (c.reach r).plan.plans.map (fun q =>
      if q.con.hdr.planId = p.con.hdr.planId then { q with st := .stopped, cause := some cause } else q)
    ∧ (∀ t, (d.reach r).tile t = (if ((c.reach r).tile t).plan = some p.con.hdr.planId then ((c.reach r).tile t).freeze else (c.reach r).tile t))
    ∧ (d.reach r).mem = (c.reach r).mem ∧ (d.reach r).time = (c.reach r).time ∧ (d.reach r).macs = (c.reach r).macs)
  ∧ (∀ (s : State), s.chip.alive = true →
      (∀ ref handle, s.chip.taking ref = true → s.chip.ownPlan ref handle = true →
        s.chip.planAll handle (fun p => p.st != .arming) = true →
        exec (.planStop ref handle) s = .next (s.put ((s.chip.driverStop handle).complete ref 4 0 0).settle))
      ∧ (∀ r now planId cause, exec (.planStopRx r now planId cause) s = .next (s.put
          (((s.chip.at r now).takeKeeper r (isKeeper (.planStop planId cause))).stopPlans r (fun p => p.con.hdr.planId == planId)
            (StopCause.ofCode cause.toNat) StopInfo.none false).settle))
      ∧ (∀ r now (t : TileId) p i w d e, (s.chip.at r now).tilePlan r t.val = some p →
          ((s.chip.reach r).tile t.val).nextStep = some (i, w) → p.st = .running → ((s.chip.reach r).tile t.val).seqState ≠ 6 →
          ((s.chip.reach r).tile t.val).seqState ≠ 7 → ((s.chip.reach r).tile t.val).done = false →
          (s.chip.at r now).lateness r t.val p i w = some (d, e) →
          nsUnits e.freeboard + (if p.con.hdr.stopThresh = 0 then p.con.roundTime.toNat else
            p.con.hdr.stopThresh * p.con.hdr.lockCycle.toNat) < d →
          exec (.lateStoppage r now t) s = .next (s.put ((s.chip.at r now).declareStop r .late
            { StopInfo.none with tile := 64 * r.val + t.val, step := i } true p))))

/-- Lock cycles follow one another without a gap (R60): at each boundary that fabric time has reached, the reach's boundary moves on by
LOCK_CYCLE, mod 2^64, and its count by one, and a bank requested 2 µs before becomes active (R344). A TC6 run that closes over frames of a
plan that is not in a stoppage counts one WIN_DEFER with the port, the window and the plan (R346, R183). -/
def Obligations.LockCyclesFollowWithoutGap : Prop :=
  (∀ (s : State) (r : ReachId) now, s.chip.alive = true →
    exec (.lockCycleBoundary r now) s = .next (s.put
      ((List.range ((s.chip.at r now).boundariesDue r)).foldl (fun c _ => c.oneBoundary r) (s.chip.at r now))))
  ∧ (∀ (c : Chip) (r : ReachId) k (n : Nat), (c.reach r).plan.clock = some k → (∀ p ∈ (c.reach r).plan.plans, p.st ≠ .running) →
    let d := (List.range n).foldl (fun c _ => c.oneBoundary r) c
    (d.reach r).plan.clock = some { k with boundary := k.boundary + BitVec.ofNat 64 (n * k.cycle.toNat), count := k.count + n }
    ∧ (d.reach r).time = (c.reach r).time ∧ (d.reach r).plan.plans = (c.reach r).plan.plans)
  ∧ (∀ (m : Mac) (b t : Time), m.switchAt = some t →
    (notBefore t b = true → (m.boundary b).gateActive = m.gateActive ^^^ 1 ∧ (m.boundary b).gateEn = true ∧ (m.boundary b).switchAt = none)
    ∧ (notBefore t b = false → m.boundary b = m))
  ∧ (∀ (s : State) (r : ReachId) now (p : PortId) win q y, s.chip.alive = true →
    ((s.chip.at r now).reach r).runClosing p = some win → (s.chip.reach r).windowPlan r p win = some q → q.inStoppage = false →
    ((s.chip.reach r).mac p).queues.find? (fun y => y.tc == 6 && y.sub == win) = some y → y.frames ≠ [] →
    ∃ t, exec (.gateEntryBoundary r now p) s = .next t
      ∧ (t.chip.reach r).tdc = (s.chip.reach r).tdc.event r 2 (some q.fn) (BitVec.ofNat 32 (p.val + win * 2 ^ 16)) q.con.hdr.planId
          ((s.chip.at r now).now r)
      ∧ ((t.chip.reach r).mac p).queues = ((s.chip.reach r).mac p).queues)

/-! ### Steps of a tile (chapters 03 and 04) -/

/-- A MATRIX, VECTOR, SELECT or CONVERT step that may start (R125) starts: the block is the one that the shared compute step gives, on the
step's unit, with what the step's operation computes from the tile, its open digest slots counted from nothing (R87, R99 to R107, R118, R540). -/
def Obligations.ComputeStepsStart : Prop :=
  ∀ (s : State) (r : ReachId) (now : Time) (t : TileId) (hold : Word32) (p : PlanInst) (i : Nat) (w : StepWords), s.chip.alive = true →
    (s.chip.at r now).stepReady r t.val p i w →
    let d := (s.chip.at r now).started r t.val p i w hold
    let y := (d.reach r).tile t.val
    (∀ e ∈ [(0, Instr.matrixProduct r now t hold), (1, .matrixBatchedProduct r now t hold)], isStep 0 e.1 w = true →
      exec e.2 s = .next (s.put (d.compute r t.val i w .matrix (w.op 2)
        (y.unfolded.matrix p.con.hdr.roundSeed w.hdr (w.op 0) (w.op 1) (w.op 2) (w.op 3) (w.op 4)) (matrixShape p (y.phaseOf i) w))))
    ∧ (∀ e ∈ [(0, Instr.vectorAdd r now t hold), (1, .vectorSub r now t hold), (2, .vectorMul r now t hold), (3, .vectorFma r now t hold),
        (4, .vectorCmp r now t hold), (5, .vectorMin r now t hold), (6, .vectorMax r now t hold), (7, .vectorSel r now t hold),
        (8, .vectorExp2 r now t hold), (9, .vectorLog2 r now t hold), (10, .vectorRcp r now t hold), (11, .vectorRsqrt r now t hold),
        (12, .vectorRsum r now t hold), (13, .vectorRmax r now t hold), (14, .vectorRmin r now t hold)], isStep 1 e.1 w = true →
      exec e.2 s = .next (s.put (d.compute r t.val i w .vector (w.op 2) (vectorComp e.1 y.unfolded p.con.hdr.roundSeed w) id)))
    ∧ (∀ e ∈ [(0, Instr.topK r now t hold), (1, .sort r now t hold), (2, .merge r now t hold), (3, .gather r now t hold),
        (4, .scatterWrite r now t hold), (5, .scatterAdd r now t hold), (6, .expertRoute r now t hold)], isStep 2 e.1 w = true →
      exec e.2 s = .next (s.put (d.compute r t.val i w .vector (w.op 2) (selectComp e.1 y.unfolded p.con.hdr.roundSeed w) id)))
    ∧ (isStep 3 0 w = true → exec (.convert r now t hold) s = .next (s.put (d.compute r t.val i w .vector (w.op 1)
        (y.unfolded.convert p.con.hdr.roundSeed w.hdr (w.op 0) (w.op 1) (w.op 2)) id)))

/-- What a started compute step does to its tile (R84, R108, R109, R126): the step runs on its unit from now and holds its masks, the
sequencer moves on, flags are ORed in, and CEIL_VALID of the output record is clear; a step that neither fails nor reads an uncorrectable
error has its outputs in place and keeps the folds that it adds to its digest slots when it ends, and one that fails keeps its code and no
fold. Other tiles, device memory, the RME,
the ports and fabric time are as before.
An element-wise VECTOR step in FP32 rounds each element once (R99, R540): element i of the destination is the exact lane result of
elements i of its sources, the destination's old element being the addend of an FMA and the immediate standing for a source that word 2
leaves out.
SELECT's order (R102): ranking keeps every value of the source with its logical index, and no value stands before one that the total
order, with the lower index first among equals, puts ahead of it. -/
def Obligations.ComputeWritesAndValues : Prop :=
  (∀ (c : Chip) (r : ReachId) (t i : Nat) (w : StepWords) (unit : StepUnit) (out : Word64) (k : Comp),
    let y := (c.reach r).tile t
    let d := c.compute r t i w unit out k id
    let z := (d.reach r).tile t
    y.spadErr (stepUse y.spad y.iqAddr w).reads = none →
    (∃ x, z.running = y.running ++ [x] ∧ x.step = i ∧ x.unit = unit ∧ x.started = c.now r ∧ x.ceils = [((operandOf out).rec_, k.ceil)]
      ∧ x.fail = k.fail.map (BitVec.ofNat 8) ∧ x.readMask = (y.holdOf i w).readMask ∧ x.writeMask = (y.holdOf i w).writeMask
      ∧ x.folds = (if k.fail = none then k.slots else []))
    ∧ z.step = y.advance.step ∧ z.redo = y.advance.redo ∧ recValid (z.record (operandOf out).rec_) = false
    ∧ z.aflags = y.aflags ||| BitVec.ofNat 32 k.flags
    ∧ (∀ j, j ≠ (operandOf out).rec_ → z.record j = y.record j)
    ∧ (k.fail = none → z.spad = k.spad) ∧ z.digests = y.digests
    ∧ (∀ q, q ≠ t → (d.reach r).tile q = (c.reach r).tile q)
    ∧ (d.reach r).mem = (c.reach r).mem ∧ (d.reach r).rme = (c.reach r).rme ∧ (d.reach r).macs = (c.reach r).macs
    ∧ (d.reach r).time = (c.reach r).time ∧ (d.reach r).plan = (c.reach r).plan ∧ (d.host) = c.host)
  ∧ ((∀ (y : Tile) (op : Nat) (seed hdr w1 w2 w3 w4 : Word64) (i : Nat), op ≤ 7 → (acwOf hdr).out = 0 → (acwOf hdr).sr = false →
    bf16Lanes w1 w2 = false → i < fld w4 0 32 →
    let a := laneVal y.spad false (operandOf w1) i
    let b := if w2 = 0 then fp32Val (fld w4 32 32) else laneVal y.spad false (operandOf w2) i
    let d := if op = 3 then widen false (readVal y.spad 0 (operandOf w3).data (operandOf w3).scale 0 i) else fp32Val (fld w4 32 32)
    readCode (y.vectorElementwise op seed hdr w1 w2 w3 w4).spad 0 (operandOf w3).data i
      = (roundFloat ⟨8, 127, 23, .ieee⟩ .even (acwOf hdr).ovfInf (laneOp op a b d).1).1 % 2 ^ 32)
  ∧ (∀ (sp : Mem) (w1 : Word64) (base n : Nat) (desc : Bool),
    (rankAll sp w1 base n desc).Perm ((selectSource sp w1 n).zipIdx.map (fun e => { v := e.1, idx := base + e.2 : Ranked }))
    ∧ (rankAll sp w1 base n desc).Pairwise (fun x y => y.before desc x = false)))

/-- A step ends (R84, R126, R140, R143): CEIL of its records is stored and valid and its folds join the open slots where it did not fail, the
unit is free, and its failure is declared where it did. A block of a MATRIX step becomes final one by one, and a streaming one hands the
chunks that are whole with it: a refused one fails the step with SEQ_COLL (R141).
A failing step (R109, R127, R145): the first code stays, the tile is FAILED, the step is among those that run again on resume, and the
plan that runs it is stopped. -/
def Obligations.UnitStepsEndAndFailuresStop : Prop :=
  (∀ (s : State) (r : ReachId) (now : Time) (t : TileId), s.chip.alive = true →
    let c := s.chip.at r now
    (∀ unit cycles x, ((c.reach r).tile t.val).running.find? (fun z => z.unit == unit) = some x → x.fail = none →
      x.blocksFinal = x.blocks → x.handed.length = x.chunks →
      exec (.stepEnd r now t unit cycles) s = .next (s.put ((((c.onTile r t.val (fun y =>
        x.ceils.foldl (fun y e => y.setRecord e.1 (recStore (y.record e.1) e.2))
          (Tile.addFolds { y with running := y.running.filter (fun z => z.unit != unit) } x.folds))).busy r t.val x.started cycles.toNat).stepTrace
            r t.val x.step (stepClass x.hdr) true cycles.toNat).wakeTile r t.val)))
    ∧ (∀ unit cycles x code, ((c.reach r).tile t.val).running.find? (fun z => z.unit == unit) = some x → x.fail = some code →
      exec (.stepEnd r now t unit cycles) s = .next (s.put ((((c.onTile r t.val (fun y =>
        { y with running := y.running.filter (fun z => z.unit != unit) })).busy r t.val x.started cycles.toNat).stepTrace
            r t.val x.step (stepClass x.hdr) true cycles.toNat).stepFail r t.val x.step code.toNat)))
    ∧ (∀ x, ((c.reach r).tile t.val).running.find? (fun z => z.unit == .matrix) = some x → x.blocksFinal < x.blocks → x.coll = none →
      exec (.matrixBlockFinal r now t) s = .next (s.put (c.onTile r t.val (fun y =>
        y.onRunning .matrix (fun z => { z with blocksFinal := x.blocksFinal + 1 })))))
    ∧ (∀ x idx p, ((c.reach r).tile t.val).running.find? (fun z => z.unit == .matrix) = some x → x.blocksFinal < x.blocks → x.coll = some idx →
      x.fail = none → c.tilePlan r t.val = some p →
      let h := Chip.handChunks r t.val p idx x.base
        ((List.range x.chunks).filter (fun k => !x.handed.contains k && x.chunkFinal (x.blocksFinal + 1) k))
        (c.onTile r t.val (fun y => y.onRunning .matrix (fun z => { z with blocksFinal := x.blocksFinal + 1 })))
      let d := h.1.onTile r t.val (fun y => y.onRunning .matrix (fun z =>
        { z with handed := z.handed ++ h.2.1, fail := if h.2.2 = true then none else some 0x54 }))
      (h.2.2 = true → exec (.matrixBlockFinal r now t) s = .next (s.put d))
      ∧ (h.2.2 = false → exec (.matrixBlockFinal r now t) s = .next (s.put (d.tileFail r t.val x.step 0x54 .collective idx true)))))
  ∧ (∀ (c : Chip) (r : ReachId) (t i code : Nat) (p : PlanInst), c.tilePlan r t = some p → (p.st = .running ∨ p.st = .agreed) →
    let d := c.stepFail r t i code
    let y := (c.reach r).tile t
    let z := (d.reach r).tile t
    z.failCode = (if y.failCode = 0 then BitVec.ofNat 8 code else y.failCode) ∧ z.redo = (if i ∈ y.redo then y.redo else y.redo ++ [i]) ∧ z.seqState = 7
    ∧ z.spad = y.spad
    ∧ (∀ q ∈ (d.reach r).plan.plans, q.con.hdr.planId = p.con.hdr.planId → q.st = .stopped ∧ q.cause = some (failCause code))
    ∧ (d.reach r).mem = (c.reach r).mem ∧ (d.reach r).time = (c.reach r).time)

/-- Moves (R84, R131 to R134): a MOVE step of each kind joins the mover's queue with its rows as pinned at load, a RECLOAD with CEIL_VALID of its
records cleared; a move whose reads find no error that fails it writes its rows and leaves the queue when every move before it has, adding
1 to its signal word where it names one; then a WAIT_SIGNAL step of the tile compares again, and a pseudo-channel in fault resets the
reach (R159). -/
def Obligations.MovesQueueAndEndInOrder : Prop :=
  (∀ (s : State) (r : ReachId) (now : Time) (t : TileId) (hold : Word32) (p : PlanInst) (i : Nat) (w : StepWords), s.chip.alive = true →
    (s.chip.at r now).stepReady r t.val p i w →
    ∀ e ∈ [(0, Instr.moveLoad r now t hold), (1, .moveStore r now t hold), (2, .moveCopy r now t hold), (3, .recload r now t hold),
      (4, .recstore r now t hold)], isStep 4 0 w = true → (moveOf w.ops).kind = e.1 →
    ∃ j : MoveJob, j.step = i ∧ j.desc = w.ops ∧ j.ended = false ∧ j.failed = false
      ∧ j.rows = (moveOf w.ops).memRows.map (fun q =>
          pinnedRow (p.runs.filter (fun q => q.tile == t.val && q.step == i)) (q.2 / 64 + 2) q.1 q.2)
      ∧ exec e.2 s = .next (s.put (((s.chip.at r now).started r t.val p i w hold).onTile r t.val (fun y =>
          { (if e.1 = 3 then y.clearCeils (moveOf w.ops) else y).advance with moves := y.moves ++ [j] }))))
  ∧ (∀ (s : State) (r : ReachId) (now : Time) (t : TileId) k finds cycles (j : MoveJob), s.chip.alive = true →
    let m := moveOf j.desc
    let c := ((s.chip.at r now).moveFinds r t.val m j.rows finds).1
    (((s.chip.at r now).reach r).tile t.val).moves[k]? = some j → j.ended = false →
    ((s.chip.at r now).moveFinds r t.val m j.rows finds).2 = none → c.moveErr r t.val m j.rows = none →
    (m.sigEn = true → ((c.reach r).tile t.val).spadErr [(m.sigAddr, 8)] = none) →
    exec (.moveEnd r now t k ⟨finds, cycles⟩) s = .next (s.put ((((((c.onReach r (fun x => x.countMove m j.rows)).stepTrace r t.val j.step 4 true
      cycles.toNat).moveDest r t.val m j.rows (c.moveSource r t.val m j.rows)).onTile r t.val (fun y => (y.endMove k false).settleMoves)).wakeTile r t.val).parityReset r)))
  ∧ (∀ (y : Tile) (j : MoveJob) (rest : List MoveJob), y.moves = j :: rest → (∀ x ∈ rest, x.ended = false) →
    (j.ended = false → y.settleMoves = y)
    ∧ (j.ended = true → y.settleMoves.moves = rest
      ∧ ((moveOf j.desc).sigEn = true → j.failed = false →
          y.settleMoves.signal (moveOf j.desc).sigAddr = (y.signal (moveOf j.desc).sigAddr + 1) % 2 ^ 64)
      ∧ (∀ a, (a < (moveOf j.desc).sigAddr ∨ (moveOf j.desc).sigAddr + 8 ≤ a) → Mem.read y.settleMoves.spad a = Mem.read y.spad a)))

/-- The issue queue (R135 to R137): a REMOTE step copies its entries while there is room, and ISSUE_QUEUE_COPY one more once room frees;
an entry goes to the place of the tail, with TC6 and the window where the schedule names one. A step that runs again after a failure passes
over the entries that completed with RME_OK, and one that starts anew knows none (R127). -/
def Obligations.IssueQueueTakesEntries : Prop :=
  (∀ (s : State) (r : ReachId) (now : Time) (t : TileId) (hold cycles : Word32) (p : PlanInst) (i : Nat) (w : StepWords),
    s.chip.alive = true → (s.chip.at r now).stepReady r t.val p i w → isStep 5 0 w = true →
    ∃ k : IqCopy, k.step = i ∧ k.first = fld (w.op 0) 0 23 ∧ k.count = fld (w.op 0) 32 9 ∧ k.next = 0
      ∧ (∀ e, p.sched r t.val (((s.chip.reach r).tile t.val).phaseOf i) i w = some e →
          k.win = if e.winRef = 0xFFFF then none else some (BitVec.ofNat 16 e.winRef))
      ∧ (p.sched r t.val (((s.chip.reach r).tile t.val).phaseOf i) i w = none → k.win = none)
      ∧ exec (.remote r now t hold cycles) s = .next (s.put ((((s.chip.at r now).started r t.val p i w hold).onTile r t.val (fun y =>
          { y.startRun i k.run with copy := some k })).copyOn r t.val 256 cycles.toNat)))
  ∧ (∀ (y : Tile) (i run : Nat), ((y.startRun i run).step = y.advance.step ∧ (y.startRun i run).redo = y.advance.redo)
    ∧ (y.redo.head? = some i → (y.startRun i run).remoteOk = y.remoteOk)
    ∧ (y.redo.head? ≠ some i → ∀ k ∈ (y.startRun i run).remoteOk, k.1 ≠ i))
  ∧ (∀ (s : State) (r : ReachId) (now : Time) (t : TileId) (stall cycles : Word32) k, s.chip.alive = true →
    ((s.chip.reach r).tile t.val).copy = some k → ((s.chip.reach r).tile t.val).iqCount < 64 →
    exec (.issueQueueCopy r now t stall cycles) s = .next (s.put
      (((s.chip.at r now).onReach r (fun x => x.gaugeAdd 1 t.val 4 stall.toNat)).copyOn r t.val 1 cycles.toNat)))
  ∧ (∀ (y : Tile) (k : IqCopy), y.copy = some k → y.remoteOk.contains (k.step, k.next) = false →
    let z := y.copyEntry k
    z.iqTags = y.iqTags ++ [(k.step, k.next, k.run)] ∧ z.iqCount = y.iqCount + 1 ∧ z.iqTail = y.iqTail + 1 ∧ z.copy = some { k with next := k.next + 1 }
    ∧ (k.win = none → Mem.readBytes z.spad (y.iqAddr + 64 * y.iqTail.toNat) 64 = Mem.readBytes y.spad (k.first + 64 * k.next) 64)
    ∧ (∀ win, k.win = some win → natBits (Mem.readLe z.spad (y.iqAddr + 64 * y.iqTail.toNat) 4) 8 3 = 6
        ∧ natBits (Mem.readLe z.spad (y.iqAddr + 64 * y.iqTail.toNat) 4) 16 16 = win.toNat)
    ∧ (∀ a, (a < y.iqAddr + 64 * y.iqTail.toNat ∨ y.iqAddr + 64 * y.iqTail.toNat + 64 ≤ a) → Mem.read z.spad a = Mem.read y.spad a))
  ∧ (∀ (y : Tile) (k : IqCopy), y.remoteOk.contains (k.step, k.next) = true → y.copyEntry k = { y with copy := some { k with next := k.next + 1 } })

/-- Waits (R128, R129): a WAIT_TIME step completes once fabric time has reached its offset from the round boundary, and waits before; a
WAIT_SIGNAL step completes when its word is at least THRESH, waits below it, and fails with SEQ_WAIT_TIMEOUT at its
deadline, or with SEQ_SPAD_UE where its word has an uncorrectable error. A wait that fails leaves the sequencer at its step (R127). -/
def Obligations.WaitsHoldTheSequencer : Prop :=
  ∀ (s : State) (r : ReachId) (now : Time) (t : TileId), s.chip.alive = true →
    let c := s.chip.at r now
    let y := (c.reach r).tile t.val
    (∀ hold cycles p i w, c.stepReady r t.val p i w → isStep 6 0 w = true → notBefore (y.roundStart + w.op 0) (c.now r) = true →
      ∃ d : Chip, exec (.waitTime r now t hold cycles) s = .next (s.put (d.doneStep r t.val i 6 cycles.toNat))
        ∧ d.now r = c.now r ∧ (d.reach r).mem = (c.reach r).mem ∧ ∀ q, q ≠ t.val → (d.reach r).tile q = (c.reach r).tile q)
    ∧ (∀ hold cycles p i w, c.stepReady r t.val p i w → isStep 6 0 w = true → notBefore (y.roundStart + w.op 0) (c.now r) = false →
      exec (.waitTime r now t hold cycles) s = .next (s.put ((c.started r t.val p i w hold).waitFor r t.val i (y.roundStart + w.op 0) 1)))
    ∧ (∀ cycles k w, y.waiting = some (k, w) → isStep 6 0 w = true → notBefore k.deadline (c.now r) = true →
      exec (.waitTimeExpiry r now t cycles) s = .next (s.put (c.doneStep r t.val k.step 6 cycles.toNat)))
    ∧ (∀ hold cycles p i w, c.stepReady r t.val p i w → isStep 7 0 w = true →
      y.spadErr [(fld (w.op 0) 0 23, 8)] = none →
      exec (.waitSignal r now t hold cycles) s = .next (s.put (if (w.op 1).toNat ≤ y.signal (fld (w.op 0) 0 23)
        then (c.started r t.val p i w hold).doneStep r t.val i 7 cycles.toNat
        else (c.started r t.val p i w hold).waitFor r t.val i (signalDeadline p w (c.now r)) 2)))
    ∧ (∀ hold cycles k w, y.waiting = some (k, w) → isStep 7 0 w = true → y.spadErr [(fld (w.op 0) 0 23, 8)] = none →
      exec (.waitSignal r now t hold cycles) s = .next (s.put (if (w.op 1).toNat ≤ y.signal (fld (w.op 0) 0 23)
        then c.doneStep r t.val k.step 7 cycles.toNat else c)))
    ∧ (∀ hold cycles k w l, y.waiting = some (k, w) → isStep 7 0 w = true → y.spadErr [(fld (w.op 0) 0 23, 8)] = some l →
      exec (.waitSignal r now t hold cycles) s = .next (s.put
        ((c.memUe r 5 (spadWindow + t.val * 0x800000 + 64 * l) 0).waitFail r t.val k.step 0x50)))
    ∧ (∀ d i code, let z := ((d : Chip).waitFail r t.val i code |>.reach r).tile t.val
        z.redo = ((d.reach r).tile t.val).redo ∧ z.step = ((d.reach r).tile t.val).step ∧ z.seqState = 7 ∧ z.wait = none)
    ∧ (∀ k w, y.waiting = some (k, w) → isStep 7 0 w = true → notBefore k.deadline (c.now r) = true →
      y.signal (fld (w.op 0) 0 23) < (w.op 1).toNat →
      exec (.seqWaitTimeout r now t) s = .next (s.put (c.waitFail r t.val k.step 0x52)))

/-- Markers and digests (R142, R143, R188): a stamp writes fabric time to its eight bytes, an opened slot has folded nothing, and a closed
one is written as its 64-byte value and freed once no step folds into it. -/
def Obligations.MarkersAndDigests : Prop :=
  ∀ (s : State) (r : ReachId) (now : Time) (t : TileId) (hold : Word32) p i (w : StepWords), s.chip.alive = true →
    (s.chip.at r now).stepReady r t.val p i w →
    let d := (s.chip.at r now).started r t.val p i w hold
    let y := (d.reach r).tile t.val
    (stepClass w.hdr = 8 → stepOp w.hdr ≤ 2 →
      exec (.marker r now t hold) s = .next (s.put ((d.marker r t.val i p w).doneStep r t.val i 8 2)))
    ∧ (isStep 8 3 w = true → ∃ u, exec (.markerStamp r now t hold) s = .next u
        ∧ Mem.readLe ((u.chip.reach r).tile t.val).spad (fld (w.op 1) 0 23) 8 = (u.chip.now r).toNat
        ∧ (u.chip.reach r).mem = (s.chip.reach r).mem
        ∧ ∀ a, (a < fld (w.op 1) 0 23 ∨ fld (w.op 1) 0 23 + 8 ≤ a) →
            Mem.read ((u.chip.reach r).tile t.val).spad a = Mem.read ((s.chip.reach r).tile t.val).spad a)
    ∧ (isStep 9 0 w = true → ∃ u, exec (.digestOpen r now t hold) s = .next u
        ∧ ((u.chip.reach r).tile t.val).digests
          = y.digests.filter (fun x => x.layer != stepLayer w.hdr) ++ [DigestSlot.fresh (stepLayer w.hdr)]
        ∧ ((u.chip.reach r).tile t.val).spad = y.spad)
    ∧ (isStep 9 1 w = true → y.folding (stepLayer w.hdr) = true →
        exec (.digestClose r now t hold) s = .next (s.put (d.waitFor r t.val i 0 3)))
    ∧ (isStep 9 1 w = true → y.folding (stepLayer w.hdr) = false →
        exec (.digestClose r now t hold) s = .next (s.put ((d.onTile r t.val (fun y => y.closeDigest w)).doneStep r t.val i 9 2)))
    ∧ (∀ z v, (((s.chip.at r now).reach r).tile t.val).waiting = some (z, v) → isStep 9 1 v = true →
        (((s.chip.at r now).reach r).tile t.val).folding (stepLayer v.hdr) = false →
        exec (.digestClose r now t hold) s = .next (s.put
          (((s.chip.at r now).onTile r t.val (fun y => y.closeDigest v)).doneStep r t.val z.step 9 2)))
    ∧ (∀ (y : Tile) x, y.digests.find? (fun x => x.layer == stepLayer w.hdr) = some x →
        Mem.readBytes (y.closeDigest w).spad (fld (w.op 0) 0 23) 64 = digestBytes x
        ∧ (y.closeDigest w).digests.find? (fun x => x.layer == stepLayer w.hdr) = none ∧ (y.closeDigest w).lastDigest = some x)

/-! ### Device memory (chapter 05) -/

/-- Writing and clearing device memory, scratchpad and host memory keeps each memory in canonical form, changes no byte outside the range,
and a byte written reads back (R148, assumption 5). -/
def Obligations.MemoryWritesStayCanonical : Prop :=
  (∀ (x : Reach) (pa : Nat) (bs : List Byte), x.memOk → (x.writePhys pa bs).memOk
    ∧ (pa < spadWindow → (x.writePhys pa bs).readPhys pa bs.length = bs)
    ∧ (∀ a, pa < spadWindow → (a < pa ∨ pa + bs.length ≤ a) → Mem.read (x.writePhys pa bs).mem.bytes a = Mem.read x.mem.bytes a)
    ∧ (pa < spadWindow → (x.writePhys pa bs).tiles = x.tiles) ∧ (spadWindow ≤ pa → (x.writePhys pa bs).mem = x.mem))
  ∧ (∀ (c : Chip) r runs off bs, c.memOk → (c.writeRuns r runs off bs).memOk)
  ∧ (∀ (c : Chip) r n runs off bs, c.memOk → (c.storeRuns r n runs off bs).memOk)
  ∧ (∀ (x : Reach) pa n, x.memOk → (x.zeroPhys pa n).memOk
    ∧ (∀ a, Mem.read (x.zeroPhys pa n).mem.bytes a = if pa ≤ a ∧ a < pa + n then 0 else Mem.read x.mem.bytes a))
  ∧ (∀ (t : Tile) a n, t.memOk → (t.signalAdd a n).memOk ∧ (t.signalAdd a n).signal a = (t.signal a + n) % 2 ^ 64)
  ∧ (∀ (c : Chip) f a bs, c.memOk → (c.hostWrite f a bs).memOk)

/-- A patrol read of an enabled pass (R159, R162, R163): the pass of the tier moves on by one line, the last line of LPDDR5X data being followed
by its check lines and the last of all by the first; a clean line is counted and changes no data, a corrected one is handled as a
correctable event, an uncorrectable one is known bad from then on with its record posted, and a bad check line makes every line it
covers so; a line already known bad is found so again; a parity error that outlasts its retries is recorded. No byte of memory changes before
the reset that a pseudo-channel in fault brings.
The transposition's poll (R169): the flights in hand go on, and of each armed run the intersections start in their fixed order while
their sources are ready. -/
def Obligations.PatrolReadsAndTransposition : Prop :=
  (∀ (s : State) (r : ReachId) (now : Time) (lp : Bool), s.chip.alive = true → s.chip.inService r = true →
    flag (s.chip.reach r).mem.dredge (if lp = true then 1 else 0) = true →
    let m := (s.chip.reach r).mem
    let pa := if lp = true then lpBase + 64 * m.lpPos else 64 * m.hbmPos
    let c := s.chip.at r now
    let d := (c.onReach r (fun x => (x.patrolNext lp).countLines pa 64 false))
    let bad := fun (e : Chip) (l : List Nat) => (e.reach r).mem.bytes = m.bytes ∧ (e.reach r).mem.errSeq = m.errSeq + 1
      ∧ ∀ i ∈ l, 64 * i < spadWindow → (e.reach r).hasUe (64 * i) 64 = true
    (lp = false → (d.reach r).mem.hbmPos = (if hbmLines ≤ m.hbmPos + 1 then 0 else m.hbmPos + 1) ∧ (d.reach r).mem.lpPos = m.lpPos)
    ∧ (lp = true → (d.reach r).mem.lpPos = (if lpLines ≤ m.lpPos + 1 then 0 else m.lpPos + 1) ∧ (d.reach r).mem.hbmPos = m.hbmPos)
    ∧ ((if lp = true then m.lpPos < lpData else m.hbmPos < hbmLines) →
      ((s.chip.reach r).hasUe pa 64 = true → ∀ f, exec (.dredgeRead r now lp f) s = .next (s.put ((d.memUe r 2 pa 0).parityReset r)))
      ∧ ((s.chip.reach r).hasUe pa 64 = false →
        exec (.dredgeRead r now lp .clean) s = .next (s.put (d.parityReset r))
        ∧ (d.reach r).mem.bytes = m.bytes ∧ (d.reach r).mem.ue = m.ue
        ∧ (∀ bit, exec (.dredgeRead r now lp (.corrected bit)) s = .next (s.put ((d.memCe r pa bit).parityReset r)))
        ∧ (exec (.dredgeRead r now lp .bad) s = .next (s.put (((d.addUe r [pa / 64]).memUe r 2 pa 0).parityReset r))
          ∧ bad ((d.addUe r [pa / 64]).memUe r 2 pa 0) [pa / 64])
        ∧ (lp = true → exec (.dredgeRead r now lp .badCheckLine) s
            = .next (s.put (((d.addUe r (coveredLines (checkLine pa))).memUe r 3 pa 0).parityReset r))
          ∧ bad ((d.addUe r (coveredLines (checkLine pa))).memUe r 3 pa 0) (coveredLines (checkLine pa)))
        ∧ (lp = false → exec (.dredgeRead r now lp .parity) s = .next (s.put ((d.memParity r pa 0).parityReset r))
          ∧ bad (d.memParity r pa 0) [])))
    ∧ (lp = true → lpData ≤ m.lpPos → m.lpPos < lpLines →
      let k := m.lpPos - lpData
      let e := c.onReach r (fun x => x.patrolNext lp)
      exec (.dredgeRead r now lp .clean) s = .next (s.put (e.parityReset r))
      ∧ exec (.dredgeRead r now lp .badCheckLine) s
          = .next (s.put (((e.addUe r (coveredLines k)).memUe r 3 (lpBase + 2048 * k) 0).parityReset r))
      ∧ bad ((e.addUe r (coveredLines k)).memUe r 3 (lpBase + 2048 * k) 0) (coveredLines k)))
  ∧ ((∀ (s : State) (r : ReachId) (now : Time), s.chip.alive = true → s.chip.inService r = true →
    exec (.xposSignalPoll r now) s = .next (s.put (forEach ((forEach ((s.chip.at r now).reach r).mem.xposFlight (s.chip.at r now)
        (fun c f => Chip.xposPump r 8192 c f)).reach r).mem.xposArmed
      (forEach ((s.chip.at r now).reach r).mem.xposFlight (s.chip.at r now) (fun c f => Chip.xposPump r 8192 c f)) (fun c e =>
        match (c.reach r).planBy e.1 with
        | none => c
        | some p => (forEach (c.xposOrder r p e.2) (c, true) (fun (s : Chip × Bool) f => if s.2 then s.1.xposStart r f else s)).1)).settle))
  ∧ (∀ (c : Chip) (r : ReachId) f (j : XposJob), (c.reach r).xposJob f = some j → j.rect.rows ≠ 0 → j.rect.cols ≠ 0 →
    ((c.reach r).mem.xposDone.any (fun g => g.same f)) = false → j.plan.st = .running →
    (((c.reach r).tile (j.src.sigTile % 64)).signal j.src.sigAddr < j.src.thresh → c.xposStart r f = (c, false))
    ∧ (j.src.thresh ≤ ((c.reach r).tile (j.src.sigTile % 64)).signal j.src.sigAddr →
        j.plan.con.peers.getD j.dst.peer 0xFFFF = c.nodeId r →
        c.xposStart r f = ((c.onReach r (fun x => { x with mem := { x.mem with xposDone := x.mem.xposDone ++ [f] } })).xposLocal r f j, true))
    ∧ (j.src.thresh ≤ ((c.reach r).tile (j.src.sigTile % 64)).signal j.src.sigAddr →
        j.plan.con.peers.getD j.dst.peer 0xFFFF ≠ c.nodeId r → 8 ≤ (c.reach r).mem.xposFlight.length → c.xposStart r f = (c, false))))

/-! ### Remote memory (chapter 06) -/

/-- The RME takes the submitter's next entry whose tag is oldest, the lower requester number among equal tags (R182): where another claim
comes before the one named, nothing happens; else the entry, of each operation, is answered as R193 to R198 say. One that may be looked at,
is good, has its local range mapped and its peer known leaves its submitter and stands last in its context's list, a RECV in the
receive list. -/
def Obligations.WorkEntriesAreTaken : Prop :=
  (∀ (s : State) (r : ReachId) (now : Time) src, s.chip.alive = true →
    let c := s.chip.at r now
    let claims := c.rmeClaims r src
    ∀ x ∈ [((0 : BitVec 4), Instr.rmeWrite r now src), (1, .rmeWriteSignal r now src), (2, .rmeRead r now src), (3, .rmeSend r now src),
      (4, .rmeRecv r now src), (5, .rmeFetchAdd r now src), (6, .rmeFence r now src), (7, .rmeFlush r now src)],
      (∀ h, c.nextEntry r src = some h → h.1.fmt = 1 → h.1.op.toNat ≤ 7 → h.1.op = x.1) →
      ((∃ k ∈ claims, k.1 < c.issueTag r src ∨ (k.1 = c.issueTag r src ∧ k.2 < issuer src)) → exec x.2 s = .next (s.put c.settle))
      ∧ ((∀ k ∈ claims, ¬ (k.1 < c.issueTag r src) ∧ ¬ (k.1 = c.issueTag r src ∧ k.2 < issuer src)) →
        exec x.2 s = .next (s.put ((((c.issueTie r src claims).rmeAnswer r src).getD c).settle)))
      ∧ (∀ e by_ q, claims = [] → c.entryReady r src e by_ q →
        exec x.2 s = .next (s.put (((c.takeReady r src q e by_).getD c).settle))))
  ∧ (∀ (c : Chip) (r : ReachId) src e by_ q runs, c.badEntry r q e by_ = false → c.localRange r q e by_ = .ok runs →
    (c.reach r).qp e.qpn = some q → (c.reach r).rme.runsHeld + runs.length ≤ 262144 →
    (e.op ≠ 4 → (c.reach r).peerKnown q = true →
      ∃ d q' o, c.takeReady r src q e by_ = some d
        ∧ (d.reach r).qp e.qpn = some q' ∧ q'.ops = q.ops ++ [o] ∧ o.entry = e ∧ o.by_ = by_ ∧ o.runs = runs ∧ o.status = none
        ∧ o.seq = q.nextOp ∧ q'.recvs = q.recvs ∧ q'.state = q.state ∧ (d.reach r).mem = (c.reach r).mem
        ∧ (d.reach r).time = (c.reach r).time)
    ∧ (e.op = 4 → q.standing.length < q.rqDepth.toNat →
      ∃ d q' o, c.takeReady r src q e by_ = some d
        ∧ (d.reach r).qp e.qpn = some q' ∧ q'.recvs = q.recvs ++ [o] ∧ o.entry = e ∧ o.by_ = by_ ∧ o.runs = runs ∧ o.status = none
        ∧ q'.ops = q.ops ∧ q'.state = q.state ∧ (d.reach r).mem = (c.reach r).mem))

/-- Completion is in order (R214, R217): the oldest operation of a context completes once it can, leaves the list and is told to its
submitter, fails where its local signal word has an uncorrectable error, and one that cannot complete holds back all behind it;
receives complete in posting order. -/
def Obligations.OperationsCompleteInOrder : Prop :=
  ∀ (s : State) (r : ReachId) (now : Time) qpn q, s.chip.alive = true → s.chip.inService r = true → (s.chip.reach r).qp qpn = some q →
    let c := s.chip.at r now
    (∀ o rest st, q.ops = o :: rest → (s.chip.reach r).headStatus o = some st → s.chip.lsigUe r o st = none →
      exec (.rmeCompletion r now qpn .request) s = .next (s.put ((((c.onQp r qpn (fun q => { q with ops := rest, again := q.again.filter (fun n => n != o.seq) })).tellOp
        r q o st.toNat).retired r qpn).settle)))
    ∧ (∀ o rest st pa, q.ops = o :: rest → (s.chip.reach r).headStatus o = some st → s.chip.lsigUe r o st = some pa →
      exec (.rmeCompletion r now qpn .request) s = .next (s.put (((c.memUe r 5 pa 0).failOp r qpn o.seq 0x6C).settle)))
    ∧ (∀ o rest, q.ops = o :: rest → (s.chip.reach r).headStatus o = none →
      exec (.rmeCompletion r now qpn .request) s = .next (s.put c.settle))
    ∧ (∀ x rest st, q.recvs = x :: rest → x.status = some st →
      exec (.rmeCompletion r now qpn .receive) s = .next (s.put ((((((c.onQp r qpn (fun q => { q with recvs := rest })).rmeTrace r q x.by_ x.entry true
        st.toNat 0).opGauge r qpn st.toNat).reportEntry r x.by_ (BitVec.ofNat 8 q.cqRing.toNat) x.entry true st.toNat x.rxLen).retired r qpn).settle)))
    ∧ exec (.rmeCompletion r now qpn .target) s = .next (s.put ((c.targetVisible r qpn).settle))

/-- Host memory becomes visible by flush reads (R219), and an operation without a receive is sent again (R211): a read goes out for the
operations that wait once FLUSH_BATCH wait or FLUSH_WAIT has passed, its return clears their wait, and at RNR_TIMER the first barge of the
operation is resent, or the operation fails with RME_RNR_EXCEEDED at its limit. -/
def Obligations.FlushReadsAndRetries : Prop :=
  ∀ (s : State) (r : ReachId) (now : Time), s.chip.alive = true → s.chip.inService r = true →
    let c := s.chip.at r now
    let m := (s.chip.reach r).rme
    (s.chip.host.inReset = false → m.flushQ ≠ [] → (max 1 (fld m.ctrl 16 8) ≤ m.flushQ.length
        ∨ ∃ t, m.flushSince = some t ∧ notBefore (t + nsTime (fld m.ctrl 0 12)) (c.now r) = true) →
      exec (.hostFlushRead r now) s = .next (s.put ((c.onRme r (fun m =>
        { m with flushOut := m.flushOut ++ [m.flushQ], flushQ := [], flushSince := none })).emit (.flushRead r))))
    ∧ (∀ l rest, m.flushOut = l :: rest → exec (.hostFlushDone r now) s = .next (s.put
        ((forEach l (c.onRme r (fun m => { m with flushOut := rest })) (fun c x => c.flushed r x)).settle)))
    ∧ (∀ qpn q o due, (s.chip.reach r).qp qpn = some q →
        q.ops.find? (fun o => o.status.isNone && (match o.rnrDue with | some t => notBefore t (c.now r) | none => false)) = some o →
        o.rnrDue = some due →
        (q.rnrOver o (c.now r) = true → exec (.rnrRetry r now qpn) s = .next (s.put ((c.failOp r qpn o.seq 0x69).settle)))
        ∧ (q.rnrOver o (c.now r) = false → ∃ d : Chip, exec (.rnrRetry r now qpn) s = .next (s.put d.settle)
          ∧ ∃ q', (d.reach r).qp qpn = some q' ∧ q'.state = q.state ∧ q'.recvs = q.recvs ∧ (∀ z ∈ q'.ops, z.seq = o.seq → z.rnrDue = none)
          ∧ (∀ p, q.out.find? (fun p => !p.isResp && p.op == o.seq) = some p → ∃ p' ∈ q'.out, p'.psn = p.psn ∧ p'.resend = true)))

/-- Queue-pair commands (R198, R200, R410, R542): QP_CREATE makes a context in RESET; QP_MODIFY moves it from RESET to INIT, to READY with
the sequence numbers it gives, from READY to DRAIN, on the way to FROZEN or RESET, and from FROZEN to RESET; a context in DRAIN leaves it
once its operations have retired, in a freeze once no invocation of the function is in flight; QP_DESTROY frees an idle one; a plan's
context is not a driver's to change. -/
def Obligations.QueuePairLifeCycle : Prop :=
  ∀ (s : State), s.chip.alive = true →
    (∀ ref p, s.chip.taking ref = true → s.chip.inService (qpReach p.qpn) = true →
      (∀ n, s.chip.qpCreateCheck (qpReach p.qpn) ref.fn p = some n →
        exec (.qpCreate ref p) s = .next (s.put (s.chip.complete ref (qpReach p.qpn).val n 0)))
      ∧ (s.chip.qpCreateCheck (qpReach p.qpn) ref.fn p = none → ∃ t q, exec (.qpCreate ref p) s = .next t
        ∧ (t.chip.reach (qpReach p.qpn)).qp p.qpn = some q ∧ q.state = .reset ∧ q.params = { p with fmt := 1 } ∧ q.function = ref.fn
        ∧ q.ops = [] ∧ q.recvs = [] ∧ q.out = []))
    ∧ (∀ ref (m : QpModify) q, let r := qpReach m.ctx.qpn
      s.chip.taking ref = true → s.chip.inService r = true → (s.chip.reach r).qp m.ctx.qpn = some q →
      q.function = ref.fn → q.destroying = none →
      (q.plan = true → (q.isRetarget m = false ∨ (s.chip.reach r).planStopped r (qpIndex m.ctx.qpn) = false) →
        exec (.qpModify ref m) s = .next (s.put ((s.chip.complete ref r.val 0x70 0).settle)))
      ∧ (q.plan = false → q.isRetarget m = false →
      (q.state = .reset → m.state.toNat = 1 → m.ctx.fmt = 1 → m.ctx.owner ≠ 3 → m.ctx.rqDepth.toNat ≤ 4096 →
        s.chip.badAsid ref.fn m.ctx.asid = false → (s.chip.reach r).rme.rqPool (qpIndex m.ctx.qpn) + m.ctx.rqDepth.toNat ≤ 65536 →
        exec (.qpModify ref m) s = .next (s.put (((s.chip.onQp r m.ctx.qpn (fun q =>
          { q.give m.ctx ((s.chip.reach r).ciphIndex m.ctx.pkey) with state := .init })).complete
            ref r.val 0 (BitVec.ofNat 64 m.ctx.qpn.toNat)).settle)))
      ∧ (q.state = .init → m.state.toNat = 2 → m.ctx.fmt = 1 → m.ctx.owner ≠ 3 → m.ctx.rqDepth.toNat ≤ 4096 →
        s.chip.badAsid ref.fn m.ctx.asid = false → (s.chip.reach r).rme.rqPool (qpIndex m.ctx.qpn) + m.ctx.rqDepth.toNat ≤ 65536 →
        exec (.qpModify ref m) s = .next (s.put (((s.chip.onQp r m.ctx.qpn (fun q =>
          (q.give m.ctx ((s.chip.reach r).ciphIndex m.ctx.pkey)).open (s.chip.reach r).rme (s.chip.now r) m.sndPsn m.rcvPsn m.sndMsn m.rcvMsn)).complete
            ref r.val 0 (BitVec.ofNat 64 m.ctx.qpn.toNat)).settle)))
      ∧ (q.state = .ready → (m.state.toNat = 3 ∨ m.state.toNat = 4) → exec (.qpModify ref m) s = .next (s.put ((s.chip.onQp r m.ctx.qpn (fun q =>
          { q with state := .drain, drainTo := .frozen, drainCmd := some ref })).settle)))
      ∧ (q.state = .ready → m.state.toNat = 0 → exec (.qpModify ref m) s = .next (s.put ((s.chip.onQp r m.ctx.qpn (fun q =>
          { q with state := .drain, drainTo := .reset, drainCmd := some ref })).settle)))
      ∧ (q.state = .frozen → m.state.toNat = 0 → exec (.qpModify ref m) s = .next (s.put (((s.chip.toReset r m.ctx.qpn).complete
          ref r.val 0 (BitVec.ofNat 64 m.ctx.qpn.toNat)).settle)))
      ∧ (q.state = .ready → (m.state.toNat = 1 ∨ 4 < m.state.toNat) →
          exec (.qpModify ref m) s = .next (s.put ((s.chip.complete ref r.val 0x92 0).settle)))))
    ∧ (∀ (r : ReachId) now qpn q, (s.chip.reach r).qp qpn = some q → q.state = .drain → q.ops = [] → q.resps = [] →
      ((s.chip.ten q.function).state ≠ .freezing ∨ (s.chip.at r now).collsInFlight q.function r = false) →
      (q.drainTo ≠ .reset → exec (.qpDrainDone r now qpn) s = .next (s.put ((((s.chip.at r now).onQp r qpn (fun q =>
        { q with state := .frozen, timer := none, drainCmd := none })).completeOpt q.drainCmd r.val 0 (BitVec.ofNat 64 qpn.toNat)).settle)))
      ∧ (q.drainTo = .reset → exec (.qpDrainDone r now qpn) s = .next (s.put
        ((((s.chip.at r now).toReset r qpn).completeOpt q.drainCmd r.val 0 (BitVec.ofNat 64 qpn.toNat)).settle))))
    ∧ (∀ ref qpn q, s.chip.taking ref = true → s.chip.inService (qpReach qpn) = true → (s.chip.reach (qpReach qpn)).qp qpn = some q →
      q.function = ref.fn → q.destroying = none →
      (q.plan = true → exec (.qpDestroy ref qpn) s = .next (s.put ((s.chip.complete ref (qpReach qpn).val 0x70 0).settle)))
      ∧ (q.plan = false → q.idle = true → ∃ c : Chip, exec (.qpDestroy ref qpn) s = .next (s.put c.settle)
        ∧ (c.reach (qpReach qpn)).qp qpn = none ∧ (c.reach (qpReach qpn)).mem = (s.chip.reach (qpReach qpn)).mem))

/-- Mooring commands (R204, R205): MOORING_REGISTER puts the range at the lowest free index of the reach under a new tag and answers its
key; a withdrawn entry takes no new access and is released, its runs unpinned, once no reference is left. -/
def Obligations.MooringsComeAndGo : Prop :=
  ∀ (s : State), s.chip.alive = true →
    (∀ ref (r : ReachId) p runs i, s.chip.taking ref = true → s.chip.inService r = true → p.fmt = 1 → p.space ≠ 3 →
      (p.space = 0 → s.chip.badAsid ref.fn p.asid = false) → s.chip.moorRange r ref.fn p = some runs →
      s.chip.holdsKey ref.fn r p.pkey.toNat = true → s.chip.moorQuotaFull r ref.fn = false → (s.chip.reach r).rme.freeMoor = some i →
      ∃ t x, exec (.mooringRegister ref r p) s = .next t ∧ Tab.find? (t.chip.reach r).rme.moorings i = some x
        ∧ x.valid = true ∧ x.inUse = true ∧ x.runs = runs ∧ x.refs = 0 ∧ x.tag = (s.chip.reach r).rme.nextTag i ∧ x.rights = p.rights
        ∧ x.base = p.base ∧ x.length = p.length ∧ x.function = ref.fn
        ∧ (∀ j, j ≠ i → Tab.find? (t.chip.reach r).rme.moorings j = Tab.find? (s.chip.reach r).rme.moorings j)
        ∧ (t.chip.reach r).mem = (s.chip.reach r).mem)
    ∧ (∀ ref (key : Word32) (r : ReachId) m, r.val = key.toNat / 2 ^ 15 % 4 → s.chip.taking ref = true → s.chip.inService r = true →
      Tab.find? (s.chip.reach r).rme.moorings (natBits key.toNat 0 15) = some m → m.valid = true → m.tag.toNat = natBits key.toNat 17 15 →
      m.function = ref.fn → m.plan = false →
      exec (.mooringWithdraw ref key) s = .next (s.put (((s.chip.onRme r (fun x =>
        { x with moorings := Tab.set x.moorings (natBits key.toNat 0 15) { m with valid := false, withdraw := some ref } })).releaseMoor r
          (natBits key.toNat 0 15)).settle)))
    ∧ (∀ (r : ReachId) now (idx : BitVec 15),
      exec (.mooringRelease r now idx) s = .next (s.put (((s.chip.at r now).releaseMoor r idx.toNat).settle)))
    ∧ (∀ (c : Chip) (r : ReachId) i m ref, Tab.find? (c.reach r).rme.moorings i = some m → m.withdraw = some ref →
      (m.refs ≠ 0 → c.releaseMoor r i = c)
      ∧ (m.refs = 0 → ∃ x, Tab.find? ((c.releaseMoor r i).reach r).rme.moorings i = some x ∧ x.inUse = false ∧ x.runs = [] ∧ x.valid = false
          ∧ x.tag = m.tag))

/-! ### FRT packets (chapters 07 and 08) -/

/-- FRT_PACKET_SEND and ACK_DELAY_TIMER (R242, R245): the next packet of a direction whose credit is not negative goes to router port 7 with
a transmit time of its own and joins the outstanding ones, its bytes taken from the credit; an acknowledgement that falls due goes out
with the sequence and visibility numbers of the context, encrypted where the context encrypts and a key is there. -/
def Obligations.PacketsLeaveForTheRouter : Prop :=
  ∀ (s : State) (r : ReachId) (now : Time) (qpn : BitVec 24) (q : Qp), s.chip.alive = true → s.chip.inService r = true →
    (s.chip.reach r).qp qpn = some q → q.state = .ready ∨ q.state = .drain →
    let c := s.chip.at r now
    (∀ host n g d p, q.next (c.reach r).rme = some n → c.outgoing r q n host = some g → c.host.inReset = false →
      c.sourceUe r g.runs g.off g.len = none →
      (g.say.tc ≠ 6 → 0 ≤ (g.after.paced (c.reach r).rme (c.now r)).credit) → c.sendFrt r q.peer g.say = (d, some p) →
      ∃ t q', exec (.frtPacketSend r now qpn host) s = .next t
        ∧ (t.chip.reach r).rtr.inbox = (s.chip.reach r).rtr.inbox
            ++ [{ ingress := 7, body := .frt p, len := frtFrameLen p, arrived := c.now r, queue := g.say.tc.toNat }]
        ∧ p.psn = g.say.psn ∧ p.txTime = (c.stamp r).1 ∧ p.dst = q.peerNode ∧ p.dstQpn = q.peerQpn ∧ p.retx = g.say.retx
        ∧ (t.chip.reach r).qp qpn = some q' ∧ q'.out = g.after.out ∧ q'.sndNxt = g.after.sndNxt ∧ q'.ops = g.after.ops
        ∧ (g.say.tc ≠ 6 → q'.credit = (g.after.paced (c.reach r).rme (c.now r)).credit - (frtFrameLen p : Int) ∧ q'.lastTx = c.now r)
        ∧ (t.chip.reach r).mem.bytes = (s.chip.reach r).mem.bytes)
    ∧ (∀ due, q.ackDue = some due → notBefore due (c.now r) = true →
      ∃ t q', exec (.ackDelayTimer r now qpn) s = .next t
        ∧ (t.chip.reach r).qp qpn = some q' ∧ q'.ackDue = none ∧ q'.ackPend = 0 ∧ q'.rcvNxt = q.rcvNxt
        ∧ ((q.ciphEn = true → ((c.reach r).cipher.fabricKey q.pkey (c.stamp r).1).isSome = true) →
          ∃ f p, (t.chip.reach r).rtr.inbox = (s.chip.reach r).rtr.inbox ++ [f] ∧ f.body = .frt p
            ∧ p.ext = .ack { vis := q.visSeen, cumPsn := q.rcvNxt, visMsn := q.visMsn, qdelay := q.rxQdelay, pkts := q.rxPkts,
                             ecnCnt := q.rxEcn, sack := q.sack }))

/-- A packet that passes its checks (R206, R226, R236) is classed by its PSN (R241): a DATA packet of an operation and a READ_REQ arrive as
operations; a response in order or ahead is accepted and landed; outside the window it is dropped and counted.
A packet that is dropped, answered or classed as a duplicate does nothing more: no operation or receive of any context changes, and RCV_NXT
stays (R206, R232, R241); no byte of device memory, scratchpad or host memory changes, but the plaintext of a barge whose tag fails (R236). -/
def Obligations.PacketsArriveOrAreRefused : Prop :=
  (∀ (s : State) (r : ReachId) (now : Time) (p p' : FrtPacket) (q : Qp) (d : Chip), s.chip.alive = true → s.chip.inService r = true →
    ((s.chip.at r now).receive r p frtData = (d, none) → exec (.frtDataRx r now p) s = .next (s.put d.settle))
    ∧ ((s.chip.at r now).receive r p frtReadReq = (d, none) → exec (.frtReadReqRx r now p) s = .next (s.put d.settle))
    ∧ ((s.chip.at r now).receive r p frtReadResp = (d, none) → exec (.frtReadRespRx r now p) s = .next (s.put d.settle))
    ∧ (∀ e, (s.chip.at r now).receive r p frtData = (d, some (q, p')) → p'.ext = .op e → (e.op = 0 ∨ e.op = 1 ∨ e.op = 3 ∨ e.op = 5) →
      exec (.frtDataRx r now p) s = .next (s.put ((d.opArrives r q p' e).settle)))
    ∧ (∀ e, (s.chip.at r now).receive r p frtReadReq = (d, some (q, p')) → p'.ext = .op e → e.op = 2 →
      exec (.frtReadReqRx r now p) s = .next (s.put ((d.opArrives r q p' e).settle)))
    ∧ (∀ e, (s.chip.at r now).receive r p frtReadResp = (d, some (q, p')) → p'.ext = .resp e →
      (q.classOf p'.psn = .inOrder → exec (.frtReadRespRx r now p) s = .next (s.put
        ((((d.accept r q p' .inOrder).landResp r q.qpn p' e).afterPacket r q.qpn p' .inOrder).settle)))
      ∧ (q.classOf p'.psn = .ahead → (q.roSlot ≠ 0x1FFF ∨ (d.reach r).rme.freeSlot ≠ none) → exec (.frtReadRespRx r now p) s = .next (s.put
        ((((d.accept r q p' .ahead).landResp r q.qpn p' e).afterPacket r q.qpn p' .ahead).settle)))
      ∧ (q.classOf p'.psn = .duplicate → exec (.frtReadRespRx r now p) s = .next (s.put ((d.dupPacket r q p').settle)))
      ∧ (q.classOf p'.psn = .outside → exec (.frtReadRespRx r now p) s = .next (s.put
        ((d.onRme r (fun m => { m with dropWindow := m.dropWindow + 1 })).settle)))))
  ∧ ((∀ (c d : Chip) (r : ReachId) (p : FrtPacket) (ty : BitVec 4), c.receive r p ty = (d, none) →
    ((p.ciph = false ∨ (d.reach r).rme.dropTag = (c.reach r).rme.dropTag) →
      (d.reach r).mem = (c.reach r).mem ∧ (d.reach r).tiles = (c.reach r).tiles ∧ d.host = c.host)
    ∧ ∀ qpn q, (c.reach r).qp qpn = some q → ∃ q', (d.reach r).qp qpn = some q' ∧ q'.ops = q.ops ∧ q'.recvs = q.recvs
      ∧ q'.inOps = q.inOps ∧ q'.rcvNxt = q.rcvNxt ∧ q'.state = q.state)
  ∧ (∀ (c : Chip) (r : ReachId) (q : Qp) (p : FrtPacket) (e : OpExt), (c.reach r).qp q.qpn = some q →
    (q.classOf p.psn = .duplicate ∨ q.classOf p.psn = .outside) →
    let d := c.opArrives r q p e
    (d.reach r).mem = (c.reach r).mem ∧ (d.reach r).tiles = (c.reach r).tiles ∧ d.host = c.host
    ∧ ∃ q', (d.reach r).qp q.qpn = some q' ∧ q'.ops = q.ops ∧ q'.recvs = q.recvs ∧ q'.inOps = q.inOps ∧ q'.rcvNxt = q.rcvNxt))

/-- The class of a PSN (R240, R241): RCV_NXT itself is in order; of the 127 PSNs after it a new one is ahead and a seen one a duplicate; the
half of the space before it is a duplicate; the rest lies outside. -/
def Obligations.ReceiveClassesPartition : Prop :=
  ∀ (q : Qp) (k : Nat), k < 2 ^ 24 →
    let psn := q.rcvNxt + BitVec.ofNat 24 k
    (q.classOf psn = .inOrder ↔ k = 0)
    ∧ (q.classOf psn = .ahead ↔ 1 ≤ k ∧ k < 128 ∧ q.ahead.contains psn = false)
    ∧ (q.classOf psn = .outside ↔ 128 ≤ k ∧ k < 2 ^ 23)
    ∧ (q.classOf psn = .duplicate ↔ (1 ≤ k ∧ k < 128 ∧ q.ahead.contains psn = true) ∨ 2 ^ 23 ≤ k)

/-- Answers at the source (R231, R232, R243): an ACK moves SND_UNA to its CUM_PSN and drops the packets before it; a NAK fails its operation
with RME_PEER_GONE or the status it gives, or sets the resend after WAIT and no-receive. -/
def Obligations.AnswersReachTheirOperations : Prop :=
  (∀ (s : State) (r : ReachId) (now : Time) (p p' : FrtPacket) (q : Qp) (d : Chip), s.chip.alive = true → s.chip.inService r = true →
    ((s.chip.at r now).receive r p frtAck = (d, none) → exec (.frtAckRx r now p) s = .next (s.put d.settle))
    ∧ ((s.chip.at r now).receive r p frtNak = (d, none) → exec (.frtNakRx r now p) s = .next (s.put d.settle))
    ∧ (∀ e, (s.chip.at r now).receive r p frtAck = (d, some (q, p')) → p'.ext = .ack e →
      exec (.frtAckRx r now p) s = .next (s.put (((d.onQp r q.qpn (fun _ => d.ackQp r q e)).endResps r q.qpn).settle)))
    ∧ (∀ e o, (s.chip.at r now).receive r p frtNak = (d, some (q, p')) → p'.ext = .nak e →
      q.ops.find? (fun o => o.msn == some e.msn && o.status.isNone) = some o →
      let c := (d.onQp r q.qpn (fun _ => d.cumAck r q e.cumPsn)).endResps r q.qpn
      (e.code = 1 → exec (.frtNakRx r now p) s = .next (s.put ((c.failOp r q.qpn o.seq 0x6B).settle)))
      ∧ (e.code = 4 → exec (.frtNakRx r now p) s = .next (s.put ((c.failOp r q.qpn o.seq e.status.toNat).settle)))
      ∧ ((e.code = 2 ∨ e.code = 3) → q.state ≠ .error → exec (.frtNakRx r now p) s = .next (s.put
          (((c.onQp r q.qpn (fun q => q.rnr o (e.code.toNat == 2) (c.now r))).onReach r (fun x =>
            x.gaugeAdd 2 (qpIndex q.qpn) 5 1)).settle)))))
  ∧ (∀ (c : Chip) (r : ReachId) (q : Qp) (cum : BitVec 24), 1 ≤ dist24 q.sndUna cum → dist24 q.sndUna cum ≤ 128 →
    (c.cumAck r q cum).sndUna = cum ∧ (c.cumAck r q cum).out = q.out.filter (fun p => !before24 p.psn cum)
    ∧ (c.cumAck r q cum).retries = 0 ∧ (c.cumAck r q cum).ops = q.ops)

/-- The retransmission timer (R243, R248, R249): at its expiry a direction sends every unacknowledged packet again, counts one retry and
halves its rate, not below RATE_MIN, but for the lock class, whose rate stays and whose expiry waits while the packet it runs by is still
to be carried by its window; the eighth expiry without progress ends every operation and receive with a status and the context in ERROR. -/
def Obligations.RetransmissionAfterExpiry : Prop :=
  (∀ (s : State) (r : ReachId) (now : Time) (qpn : BitVec 24) (q : Qp) due, s.chip.alive = true → s.chip.inService r = true →
    (s.chip.reach r).qp qpn = some q → q.timer = some due →
    let c := s.chip.at r now
    notBefore due (c.now r) = true →
    let held := q.leadClass.1 = 6 ∧ ∃ l, q.lead = some l ∧ c.uncarried r q l.1 = true
    (q.state = .error → exec (.retransmitTimer r now qpn) s = .next (s.put ((c.onQp r qpn Qp.abandon).settle)))
    ∧ (q.state ≠ .error → held → exec (.retransmitTimer r now qpn) s = .next (s.put c.settle))
    ∧ (q.state ≠ .error → ¬ held → q.retries ≠ 7 →
        exec (.retransmitTimer r now qpn) s = .next (s.put ((c.onQp r qpn (fun _ => c.expire r q)).settle)))
    ∧ (q.state ≠ .error → ¬ held → q.retries = 7 →
        exec (.retransmitTimer r now qpn) s = .next (s.put ((c.retryExceeded r q).settle))))
  ∧ (∀ (c : Chip) (r : ReachId) (q : Qp),
    let q' := c.expire r q
    q'.retries = q.retries + 1 ∧ q'.state = q.state ∧ q'.out.length = q.out.length
    ∧ q'.rate = (if q.leadClass.1 = 6 then q.rate else BitVec.ofNat 20 (max (c.reach r).rme.rateMin (q.rate.toNat / 2)))
    ∧ ∀ p ∈ q.out, p.sacked = false → (p.isResp = true ∨ ∃ o, q.op? p.op = some o ∧ o.rnrDue = none) →
        { p with resend := true, carried := none } ∈ q'.out)
  ∧ (∀ (c : Chip) (r : ReachId) (qpn : BitVec 24) (q : Qp), (c.reach r).qp qpn = some q →
    ∃ q', ((c.retryExceeded r q).reach r).qp qpn = some q' ∧ q'.state = .error ∧ q'.timer = none
      ∧ (∀ o ∈ q'.ops, o.status.isSome = true) ∧ (∀ x ∈ q'.recvs, x.status.isSome = true)
      ∧ q'.ops.map (fun o => o.entry) = q.ops.map (fun o => o.entry))

/-! ### The router, survey and the fabric manager (chapter 09) -/

/-- FRAME_FORWARD (R15, R265, R275): the oldest frame of the router goes on alone where no other of its cycle claims its egress queue. A frame of
a format version that the module does not support is dropped and counted, and so is one that no partition entry admits; a frame for
this node goes to the RME or the keepers; any other unplanned one from a port leaves by the primary port of its entry while that is USABLE
and not its own ingress, else by the backup, else nowhere. -/
def Obligations.FramesFollowTheTables : Prop :=
  (∀ (s : State) (r : ReachId) (now : Time) f, s.chip.alive = true → (s.chip.reach r).rtr.inbox = [f] →
    exec (.frameForward r now) s = .next (s.put (((s.chip.at r now).onRtr r (fun y => { y with inbox := [] })).forward r f)))
  ∧ (∀ (c : Chip) (r : ReachId) (f : RtrFrame),
    (bodyUnsupported f.body = true → c.forward r f = (c.dropFrame r f).onRtr r (fun y => { y with unsupported := sat48 (y.unsupported + 1) }))
    ∧ (bodyUnsupported f.body = false → (c.reach r).portAdmits f = true → ∀ q, f.body = .frt q →
      ((∀ e ∈ (c.reach r).rtr.parts, partAdmits e.2 true q.pkey.toNat f.ingress = false) →
        c.forward r f = (c.dropFrame r f).portDrop r f.ingress (fun y => { y with dropIn := y.dropIn + 1 }))
      ∧ (∀ e ∈ (c.reach r).rtr.parts, partAdmits e.2 true q.pkey.toNat f.ingress = true → ∀ k, routeKey f.body = some k →
        c.forward r f = c.forwardRouted r f k)))
  ∧ (∀ (c : Chip) (r : ReachId) (k : RouteKey) (i : Nat),
    (k.dst = (c.nodeId r).toNat → (c.route r k i).dest = (if k.isFrt = true then .rme else .keepers))
    ∧ (k.dst ≠ (c.nodeId r).toNat → (k.isFrt = false ∨ k.tc < 6) → i < 7 → k.via = 0xFFFF →
      let b := (c.reach r).rtr.bank (BitVec.ofNat 1 k.epoch)
      let prim := natBits (Tab.getD b.entries k.dst 0).toNat 0 4
      let back := natBits (Tab.getD b.entries k.dst 0).toNat 4 4
      (b.state = .active ∨ b.state = .draining) →
      ((Tab.getD b.entries k.dst 0).getLsbD 8 = true → (c.reach r).usable prim = true → prim ≠ i →
        ∃ p : PortId, p.val = prim ∧ (c.route r k i).dest = .port p prim false)
      ∧ ((Tab.getD b.entries k.dst 0).getLsbD 8 = true → ((c.reach r).usable prim = false ∨ prim = i) →
        (c.reach r).usable back = true → back ≠ i → ∃ p : PortId, p.val = back ∧ (c.route r k i).dest = .port p prim true)
      ∧ (((c.reach r).usable prim = false ∨ prim = i) → ((c.reach r).usable back = false ∨ back = i) → (c.route r k i).dest = .noRoute)))

/-- Survey and port states (R261, R279): a trained link enters TRAINING; the third SURVEY in a row that names this node moves the port to
HELD; 100 ms there without a SURVEY missed make it USABLE; 3 ms of silence, or a link fault, take it DOWN, and a fault of a USABLE port
stops the plans that run over it (R280). A cross-reach link needs the reach at its other end in service, and leads to that reach (R21). -/
def Obligations.PortsComeUpByOrder : Prop :=
  ∀ (s : State) (r : ReachId) (now : Time) (p : PortId), s.chip.alive = true → s.chip.inService r = true →
    let c := s.chip.at r now
    let q := (s.chip.reach r).port p
    let x := c.reach r
    let up := BitVec.ofNat 7 (x.usablePorts.foldl (fun n p => n + 2 ^ p.val) 0)
    exec (.surveyTxTimer r now) s = .next (s.put (forEach (allPorts.filter (fun p => (x.port p).state != .down)) c (fun c p =>
      c.sendLocal r p (.survey (Survey.mk c.sec.eui (c.nodeId r) (BitVec.ofNat 4 p.val) (x.gbps p) (flag x.rtr.fm 0)
        (BitVec.ofNat 8 (fld x.rtr.fm 8 8)) up (((x.port p).peer).getD 0xFFFF) (portAddress r p))))))
    ∧ (∀ peerAdv inv order rt, q.state = .down → s.chip.sec.bootFail.contains 3 = false →
        (p.val < 4 → flag ((s.chip.reach r).mac p).port 0 = true ∧ ((s.chip.reach r).mac p).trainRate peerAdv = some rt
          ∧ (rt.toNat < 2 ∨ natBits order.toNat 0 2 = 0)) →
        (4 ≤ p.val → rt = 0) → (∀ k, crossPeer r p = some k → s.chip.inService k = true) →
        ∃ t, exec (.linkUp r now p peerAdv inv order) s = .next t ∧ ((t.chip.reach r).port p).state = .training
          ∧ ((t.chip.reach r).mac p).up = true ∧ ((t.chip.reach r).mac p).curRate = rt ∧ ((t.chip.reach r).mac p).level = 1)
    ∧ (∀ v, q.state = .training → v.heard = s.chip.nodeId r → 2 ≤ q.heardRun →
        ∃ t, exec (.surveyRx r now p v) s = .next t ∧ ((t.chip.reach r).port p).state = .held
          ∧ ((t.chip.reach r).port p).heldSince = t.chip.now r ∧ ((t.chip.reach r).port p).peerMac = v.mac
          ∧ ((t.chip.reach r).port p).peer = some (match crossPeer r p with | some k => s.chip.nodeId k | none => v.node))
    ∧ (q.state = .held → (4 ≤ p.val ∨ (s.chip.gate.parity = true ∧ (s.chip.reach r).rtr.dupNode = false)) →
        nsUnits 100000000 ≤ timeDiff q.heldSince (c.now r) → timeDiff q.lastSurvey (c.now r) < nsUnits 2000000 →
        ∃ t, exec (.portUsableTimer r now p) s = .next t ∧ ((t.chip.reach r).port p).state = .usable)
    ∧ (q.state = .usable → nsUnits 3000000 ≤ timeDiff q.lastSurvey (c.now r) →
        ∃ t, exec (.surveyLoss r now p) s = .next t ∧ ((t.chip.reach r).port p).state = .down ∧ ((t.chip.reach r).port p).peer = none)
    ∧ (∃ t, exec (.linkFault r now p) s = .next t ∧ ((t.chip.reach r).port p).state = .down
        ∧ ((t.chip.reach r).mac p).up = false
        ∧ (q.state = .usable → ∀ x ∈ (t.chip.reach r).plan.plans, (x.con.routes.any (fun e => e.reach == r.val && e.outPort == p.val)
            || x.con.windows.any (fun w => w.reach == r.val && w.rport == p.val)) = true → x.st ≠ .running ∧ x.st ≠ .agreed))

/-- The link-state database and the congestion maps (R262, R263, R277, R279): the newest LSA of another origin is kept and an older one is not,
and of two holders of one identifier the one with the lower EUI-64 stands; each
flood of the node's own LSA has a sequence number one higher; the manager takes a link that a notice names out of its database and keeps
the newest map of each node, one of an unsupported format version dropped and counted (R15); a node sends its map and begins a new
interval. -/
def Obligations.LinkStateIsNewest : Prop :=
  ∀ (s : State) (r : ReachId) (now : Time), s.chip.alive = true → s.chip.inService r = true →
    let db := (s.chip.reach r).rtr.lsdb
    let stands := fun (l o : Lsa) => if o.eui = l.eui then newerLsa l o = true else l.eui.toNat < o.eui.toNat
    (∀ p l, l.origin ≠ s.chip.nodeId r → (∀ o, lsaOf db l.origin.toNat = some o → stands l o) →
      ∃ t, exec (.lsaRx r now p l) s = .next t ∧ lsaOf (t.chip.reach r).rtr.lsdb l.origin.toNat = some l)
    ∧ (∀ p l o, l.origin ≠ s.chip.nodeId r → lsaOf db l.origin.toNat = some o → ¬ stands l o →
      exec (.lsaRx r now p l) s = .next (s.put ((s.chip.at r now).takeKeeper r (isKeeper (.lsa l)))))
    ∧ (∃ t l, exec (.lsaFloodTimer r now) s = .next t ∧ (t.chip.reach r).rtr.lsaSeq = (s.chip.reach r).rtr.lsaSeq + 1
        ∧ lsaOf (t.chip.reach r).rtr.lsdb (s.chip.nodeId r).toNat = some l ∧ l.seq = (s.chip.reach r).rtr.lsaSeq + 1
        ∧ l.links = (s.chip.reach r).usablePorts.filterMap (fun p => ((s.chip.reach r).port p).peer.bind (fun n =>
            if (s.chip.reach r).peerLeftOut p n = true then none else some (p, n))))
    ∧ (∀ node port, (s.chip.reach r).rtr.self = true → ∃ t, exec (.linkNoticeRx r now node port) s = .next t
        ∧ (∀ l ∈ (t.chip.reach r).rtr.lsdb, l.origin = node → ∀ e ∈ l.links, e.1 ≠ port)
        ∧ (∀ l ∈ db, l.origin ≠ node → l ∈ (t.chip.reach r).rtr.lsdb))
    ∧ (∀ hist, (s.chip.reach r).rtr.elected ≠ 0xFFFF → ∃ t, exec (.cmapTxTimer r now hist) s = .next t
        ∧ (t.chip.reach r).rtr.cmapSeq = (s.chip.reach r).rtr.cmapSeq + 1 ∧ (t.chip.reach r).rtr.cmapStart = t.chip.now r
        ∧ ∀ p, ((t.chip.reach r).port p).marks = 0 ∧ ((t.chip.reach r).port p).drops = 0 ∧ ((t.chip.reach r).port p).backup = 0
            ∧ ((t.chip.reach r).port p).state = ((s.chip.reach r).port p).state)
    ∧ (∀ m, (s.chip.reach r).rtr.self = true → m.fmt ≠ 1 → exec (.cmapRx r now m) s = .next (s.put
        (((s.chip.at r now).takeKeeper r (isKeeper (.cmap m))).onRtr r (fun y => { y with unsupported := sat48 (y.unsupported + 1) }))))
    ∧ (∀ m, (s.chip.reach r).rtr.self = true → m.fmt = 1 → exec (.cmapRx r now m) s = .next (s.put
        (((s.chip.at r now).takeKeeper r (isKeeper (.cmap m))).onRtr r (fun y => { y with fmWork := { y.fmWork with
          maps := (y.fmWork.maps.filter (fun k => k.node != m.node)) ++ [m] } }))))

/-- A node's part in a change of epoch (R271, R272, R283): TABLE_WRITE fills and stages the bank of its number's lowest bit and never the
ACTIVE or DRAINING one, a further piece of the same number adding to it; FLIP of the staged number sets T_flip; at T_flip the staged bank becomes ACTIVE and the old one DRAINING, for
DRAIN µs; then it is CLOSED. -/
def Obligations.NodesChangeEpoch : Prop :=
  ∀ (s : State) (r : ReachId) (now : Time), s.chip.alive = true → s.chip.inService r = true →
    let x := (s.chip.reach r).rtr
    (∀ src (num : BitVec 24) entries valiant, let b : BitVec 1 := num.setWidth 1
      ((x.bank b).state = .active ∨ (x.bank b).state = .draining →
        exec (.tableWriteRx r now src num entries valiant) s = .next (s.put
          (((s.chip.at r now).takeKeeper r (isKeeper (.tableWrite num entries valiant))).sendKeeper r src (.tableAck num true))))
      ∧ ((x.bank b).state = .closed ∨ (x.bank b).state = .staged →
        exec (.tableWriteRx r now src num entries valiant) s = .next (s.put
          ((((s.chip.at r now).takeKeeper r (isKeeper (.tableWrite num entries valiant))).onRtr r (fun y => y.stage num entries valiant)).sendKeeper
            r src (.tableAck num false)))
        ∧ (let z := x.stage num entries valiant
          let more := (x.bank b).state = .staged ∧ (x.bank b).epochNum = num
          (z.bank b).state = .staged ∧ (z.bank b).epochNum = num ∧ z.bank (b ^^^ 1) = x.bank (b ^^^ 1) ∧ z.active = x.active
          ∧ (more → z.valiant = (x.valiant ++ valiant).take 256) ∧ (¬ more → z.valiant = valiant.take 256)
          ∧ (∀ e, entries = [e] → e.1 < 4096 → z.entry b e.1 = e.2 ∧ ∀ k, k ≠ e.1 → z.entry b k = if more then x.entry b k else 0))))
    ∧ (∀ src (num : BitVec 24) tf, (x.bank (num.setWidth 1)).state = .staged → (x.bank (num.setWidth 1)).epochNum = num →
        ∃ t, exec (.flipRx r now src num tf) s = .next t ∧ (t.chip.reach r).rtr.tFlip = some tf
          ∧ (t.chip.reach r).rtr.bank 0 = x.bank 0 ∧ (t.chip.reach r).rtr.bank 1 = x.bank 1)
    ∧ (∀ tf, x.tFlip = some tf → notBefore tf ((s.chip.at r now).now r) = true → (x.bank (x.active ^^^ 1)).state = .staged →
        ∃ t, exec (.epochFlip r now) s = .next t ∧ (t.chip.reach r).rtr.active = x.active ^^^ 1
          ∧ (t.chip.reach r).rtr.bank (x.active ^^^ 1) = { x.bank (x.active ^^^ 1) with state := .active }
          ∧ (t.chip.reach r).rtr.bank x.active = { x.bank x.active with state := .draining }
          ∧ (t.chip.reach r).rtr.drainEnd = some (t.chip.now r + nsTime (1000 * x.drain)) ∧ (t.chip.reach r).rtr.tFlip = none)
    ∧ (∀ te, x.drainEnd = some te → notBefore te ((s.chip.at r now).now r) = true → x.rebuild = false →
        (x.bank (x.active ^^^ 1)).state = .draining →
        ∃ t, exec (.epochDrainEnd r now) s = .next t ∧ ((t.chip.reach r).rtr.bank (x.active ^^^ 1)).state = .closed
          ∧ (t.chip.reach r).rtr.bank x.active = x.bank x.active ∧ (t.chip.reach r).rtr.active = x.active
          ∧ (t.chip.reach r).rtr.drainEnd = none)

/-- The manager's part (R272, R273, R276): once every node has acknowledged every piece of its table, FLIP goes to all with T_flip = now +
FLIP_LEAD, and again to those that have not answered; a missing or refused acknowledgement ends the change, as the last answer does, and one
that waited for it may start; FM_HELLO keeps the manager known, and 1 ms without it makes the standby the manager and every other node
build its own tables; a manager that fell silent is no candidate until it is heard again. -/
def Obligations.TheManagerRunsTheChange : Prop :=
  ∀ (s : State) (r : ReachId) (now : Time), s.chip.alive = true → s.chip.inService r = true →
    let x := (s.chip.reach r).rtr
    let w := x.fmWork
    let c := s.chip.at r now
    (∀ src, x.self = true → w.busy = true → w.flip = none → w.written.contains src = true →
      let took := fun (b : Bool) => c.takeKeeper r (fun f => isKeeper (.tableAck w.epochNum b) f && (match f.body with
        | .keeper k => k.src == src | _ => false))
      exec (.tableAckRx r now src w.epochNum true) s = .next (s.put
        (((took true).onRtr r (fun y => { y with fmWork := { y.fmWork with busy := false } })).epochOver r))
      ∧ ((∀ n ∈ w.written, w.written.count n ≤ (src :: w.acked).count n) → ∃ t, exec (.tableAckRx r now src w.epochNum false) s = .next t
        ∧ (t.chip.reach r).rtr.fmWork.flip = some (c.now r + nsTime (1000 * x.flipLead))
        ∧ (t.chip.reach r).rtr.fmWork.flipWait = w.written.eraseDups ∧ (t.chip.reach r).rtr.fmWork.busy = true
        ∧ (t.chip.reach r).rtr.inbox.length = x.inbox.length + w.written.eraseDups.length)
      ∧ (∀ n ∈ w.written, (src :: w.acked).count n < w.written.count n → exec (.tableAckRx r now src w.epochNum false) s = .next (s.put
        ((took false).onRtr r (fun y => { y with fmWork := { y.fmWork with acked := src :: w.acked } })))))
    ∧ (w.busy = true → w.flip = none → nsUnits 1000000 ≤ timeDiff w.since (c.now r) →
      exec (.tableAckTimeout r now) s = .next (s.put ((c.onRtr r (fun y => { y with fmWork := { y.fmWork with busy := false, written := [], acked := [] } })).epochOver r)))
    ∧ (∀ src tf, w.busy = true → w.flip = some tf →
      let left := w.flipWait.filter (fun n => n != src)
      let d := (c.takeKeeper r (fun f => isKeeper (.flipAck w.epochNum) f && (match f.body with
        | .keeper k => k.src == src | _ => false))).onRtr r (fun y =>
          { y with fmWork := { y.fmWork with flipWait := left, busy := !left.isEmpty } })
      exec (.flipAckRx r now src w.epochNum) s = .next (s.put (if left = [] then d.epochOver r else d)))
    ∧ (∀ d : Chip, (d.reach r).rtr.rebuild = false → d.epochOver r = d)
    ∧ (∀ tf, w.busy = true → w.flip = some tf →
      exec (.flipRepeatTimer r now) s = .next (s.put (forEach w.flipWait c (fun c n => c.sendKeeper r n (.flip w.epochNum tf)))))
    ∧ (x.self = true → exec (.fmHelloTimer r now) s = .next (s.put (forEach ((x.lsdb.map (fun l => l.origin)).filter (fun n => n != s.chip.nodeId r))
        (c.onRtr r (fun y => { y with fmHeard := true, lastHello := c.now r })) (fun c n => c.sendKeeper r n .hello))))
    ∧ (∀ src, let d := c.takeKeeper r (fun f => isKeeper .hello f && (match f.body with | .keeper k => k.src == src | _ => false))
      let heard := fun (f : Router → Router) => d.onRtr r (fun y => { f y with fmHeard := true, lastHello := c.now r })
      (src ∈ x.silent → exec (.fmHelloRx r now src) s = .next (s.put
        (heard (fun y => ({ y with silent := y.silent.erase src } : Router).elect (s.chip.nodeId r)))))
      ∧ (src ∉ x.silent → src = x.elected → exec (.fmHelloRx r now src) s = .next (s.put (heard id)))
      ∧ (src ∉ x.silent → src ≠ x.elected → src = x.standby → exec (.fmHelloRx r now src) s = .next (s.put
        (heard (fun y => y.lose (s.chip.nodeId r) x.elected)))))
    ∧ (x.self = false → x.standby = s.chip.nodeId r → nsUnits 1000000 ≤ timeDiff x.lastHello (c.now r) →
      ∃ t, exec (.fmTakeover r now) s = .next t ∧ (t.chip.reach r).rtr.self = true ∧ (t.chip.reach r).rtr.elected = s.chip.nodeId r
        ∧ (t.chip.reach r).rtr.lsdb = x.lsdb ∧ (x.elected ≠ 0xFFFF → x.elected ∈ (t.chip.reach r).rtr.silent))
    ∧ (x.self = false → x.standby ≠ s.chip.nodeId r → nsUnits 1000000 ≤ timeDiff x.lastHello (c.now r) →
      exec (.fmTakeover r now) s = .next (s.put ((c.onRtr r (fun y => { y with fmHeard := false })).onRtr r (fun y =>
        y.rebuildOwn (s.chip.nodeId r).toNat (c.now r)))))

/-- The maintenance service (R504 to R506, R539): an echo request is answered to its source with its token; one that opens a context gets a
READY one of owner keeper with key 0x0001 and no receives; a context without a packet for 10 s goes; a refresh writes the node mirror and
nothing outside it. -/
def Obligations.MaintenanceServes : Prop :=
  ∀ (s : State) (r : ReachId) (now : Time), s.chip.alive = true →
    (∀ src q, s.chip.inService r = true → q.open_ = false → exec (.echoReq r now src q) s = .next (s.put
      (((s.chip.at r now).takeKeeper r (isKeeper (.echoReq q))).sendKeeper r src (.echoResp
        (EchoResp.mk q.token 0 0xFFFFFF 0 q.reqTime ((s.chip.at r now).now r))))))
    ∧ (∀ src q i, s.chip.inService r = true → q.open_ = true → (s.chip.reach r).ctrlOnly = false →
      List.find? (fun e => e.2.1 == src && e.2.2.1 == q.reqQpn) (s.chip.reach r).maint = none →
      Tab.lowestFree (s.chip.reach r).maint 0x3FC0 64 = some i →
      ∃ t x, exec (.echoReq r now src q) s = .next t ∧ Tab.find? (t.chip.reach r).rme.qps i = some x ∧ x.state = .ready ∧ x.owner = 2
        ∧ x.pkey = 1 ∧ x.peerNode = src ∧ x.peerQpn = q.reqQpn ∧ x.rqDepth = 0 ∧ x.rcvNxt = q.reqPsn
        ∧ (t.chip.reach r).rtr.inbox.length = (s.chip.reach r).rtr.inbox.length + 1)
    ∧ (∀ a, exec (.echoResp r now a) s = .next (s.put ((s.chip.at r now).takeKeeper r (isKeeper (.echoResp a)))))
    ∧ (∀ (idx : Fin 64) q, Tab.find? (s.chip.reach r).rme.qps (0x3FC0 + idx.val) = some q →
      nsUnits (10 * secondNs) ≤ timeDiff q.lastPkt ((s.chip.at r now).now r) →
      ∃ t, exec (.maintenanceContextIdle r now idx) s = .next t ∧ Tab.find? (t.chip.reach r).rme.qps (0x3FC0 + idx.val) = none
        ∧ Tab.find? (t.chip.reach r).maint (0x3FC0 + idx.val) = none)
    ∧ (s.chip.inService r = true → ∃ t, exec (.mirrorRefreshTimer r now) s = .next t
      ∧ (t.chip.reach r).mirrorSeq = (s.chip.reach r).mirrorSeq + 2
      ∧ Mem.readBytes (t.chip.reach r).mem.bytes mirrorPa 40 = ((s.chip.at r now).reach r).mirrorHead (t.chip.reach r).mirrorSeq
      ∧ ∀ a, (a < mirrorPa ∨ mirrorPa + mirrorBytes ≤ a) → Mem.read (t.chip.reach r).mem.bytes a = Mem.read (s.chip.reach r).mem.bytes a)

/-! ### Collectives (chapter 10) -/

/-- COLL_START, COLL_TIMEOUT and the bursts of the adder self-test (R296, R297, R312, R310): a member that passes the checks starts its
invocation on the reach of its tile; a member that has begun and waits too long fails it with COLL_TIMEOUT, counted as a timing-dependent
choice; a burst that fails takes its adder out of service, and the 500th that passes ends a test: it dates and counts the wharf's, and brings
the endpoint adder back. -/
def Obligations.CollectivesStartAndTimeOut : Prop :=
  ∀ (s : State), s.chip.alive = true →
    (∀ ref (p : CollStart) fmt ds ms es d m (r : ReachId), s.chip.taking ref = true → collSection p.section_ = (fmt, ds, ms, es) →
      ds[p.index]? = some d → (d.membersOf ms)[p.member]? = some m → r.val = m.tile / 64 % 4 → s.chip.inService r = true →
      s.chip.collStartCheck r ref.fn fmt d ms es m = none → m.peer = (s.chip.nodeId r).toNat →
      exec (.collStart ref p) s = .next (s.put ((s.chip.startInv r (newInv none ref.handle d (d.membersOf ms)
        ((d.membersOf ms).map (fun e => BitVec.ofNat 16 e.peer)) (d.edgesOf es) p.member 0 (BitVec.ofNat 32 (ref.handle.toNat / 65536))
        (some ref) [] 0 (s.chip.now r))).settle)))
    ∧ (∀ (r : ReachId) now key coll member i0 i, s.chip.inService r = true → (s.chip.reach r).inv key coll member = some i0 →
      let w := (s.chip.at r now).collWake r i0
      let c := w.nextRound r (w.invNow r i0)
      (c.reach r).inv key coll member = some i → i.finished = false → i.code = none →
      (if i.streaming = true then i.streamed ≠ [] else i.ready = true) →
      (i.done.length < i.recvs.length ∨ i.sent.foldl (fun n e => n + e.2) 0 < i.sends.length) →
      c.collPatience r i ≤ timeDiff i.lastProgress (c.now r) →
      exec (.collTimeout r now key coll member) s = .next (s.put (((c.tdc r 8 (c.collFn r i) 73 (BitVec.ofNat 32 coll)
        (match i.plan.bind (fun h => (c.reach r).planBy h) with | some p => p.con.hdr.planId | none => 0)).collFail r i 0x80 0).settle)))
    ∧ (∀ (r : ReachId) now pass, s.chip.inService r = true → (flag (s.chip.reach r).bist.svc 0 = true ∨ (s.chip.reach r).coll.recover = true) →
      (burstOn (s.chip.reach r).bist.burstEnd ((s.chip.at r now).now r) = false →
        ∃ t : Chip, exec (.adderTestBurst r now false pass) s = .next (s.put t.settle)
        ∧ (t.reach r).coll.endpointOk = (pass && ((s.chip.reach r).coll.endpointOk || decide (499 ≤ (s.chip.reach r).bist.burstsEnd)))
        ∧ (t.reach r).coll.testFail = ((s.chip.reach r).coll.testFail || !pass))
      ∧ (burstOn (s.chip.reach r).bist.burstWharf ((s.chip.at r now).now r) = false →
      ∃ t : Chip, exec (.adderTestBurst r now true pass) s = .next (s.put t.settle)
        ∧ (t.reach r).coll.wharfOk = ((s.chip.reach r).coll.wharfOk && pass)
        ∧ (t.reach r).coll.testFail = ((s.chip.reach r).coll.testFail || !pass)
        ∧ (pass = true → 499 ≤ (s.chip.reach r).bist.burstsWharf → Tab.find? (t.reach r).bist.lastPass 64 = some (t.now r)
            ∧ (t.reach r).coll.tests = (s.chip.reach r).coll.tests + 1)
        ∧ (t.reach r).mem = (s.chip.reach r).mem))

/-- Chunks of a collective (R290, R298 to R300, R307 to R309): a chunk whose source stands goes out against a credit, in its turn among direct
sends, to a member of the node or to another node; a chunk that stands whole in its entry is checked, and where it is good its sum, made
beside the local operand in the slot where there is one, or its copy goes to W with a new tail and the item is done; where it is not, or an
operand has an uncorrectable error, the invocation fails with the check's code.
The check of an exact add (R307): while no element of the sum leaves the 128-bit range, the residue of the sum of two chunks is the sum of
their residues mod 2^61 - 1, and the order of the operands does not matter. -/
def Obligations.ChunksAreSentAddedAndChecked : Prop :=
  (∀ (s : State) (r : ReachId) (now : Time) key coll member i0 i, s.chip.alive = true → s.chip.inService r = true →
    (s.chip.reach r).inv key coll member = some i0 →
    let w := (s.chip.at r now).collWake r i0
    let c := w.nextRound r (w.invNow r i0)
    (c.reach r).inv key coll member = some i →
    (∀ dest x p, i.finished = false → i.code = none → (i.sends.filter (fun x => x.dest == dest))[Tab.getD i.sent dest 0]? = some x →
      ((recvList i.desc i.edges dest).zipIdx.filter (fun e => e.1.1 == i.member))[Tab.getD i.sent dest 0]? = some p →
      i.sourceReady x = true → i.inTurn dest = true →
      Tab.getD i.used (i.desc.slotOf x dest) 0 < c.memberWord r i.mine (i.mine.creditAddr + 8 * (i.desc.slotOf x dest + 1)) →
      let bs := c.memberRead r i.mine (i.chunkAddr x.fromIn x.src) i.desc.c
      exec (.collChunkSend r now key coll member dest) s = .next (s.put ((if i.host dest = c.nodeId r
        then c.sendMember r i x (p.2 % (i.entry dest).stageDepth) bs (c.chunkTail r i x bs)
        else c.sendRemote r i x (p.2 % (i.entry dest).stageDepth) (c.chunkTail r i x bs)).settle)))
    ∧ (∀ item e m x, i.landed.find? (fun e => e.1 == item) = some e → i.recvs[item]? = some (m, x) →
      let c' := if x.adds = true then c.claimSlot r i (c.now r) (c.nodeId r) else c
      let j := c'.invNow r i
      let entry := item % j.mine.stageDepth
      j.finished = false → j.code = none →
      (x.adds = true → j.operandReady x = true
        ∧ burstOn (if j.slot.isSome = true then (c.reach r).bist.burstWharf else (c.reach r).bist.burstEnd) (c'.now r) = false) →
      (x.adds = false → j.wReady x.chunk false x.level = true) →
      let b := c'.stagedChunk r j entry
      let d := if x.adds = true then c'.loadOperand r j entry (c'.localOperand r j x).bytes else c'
      (∀ l, c'.operandUe r j entry x = some l → exec (.collChunkReceive r now key coll member item) s = .next (s.put
        (((c'.memUe r 5 (spadWindow + j.mine.tile % 64 * 0x800000 + 64 * l) 0).collFail r j 0x81 0).settle)))
      ∧ (∀ code, c'.operandUe r j entry x = none → d.chunkResult r j m x b.1 b.2 = .error code →
        exec (.collChunkReceive r now key coll member item) s = .next (s.put (((d.noteRefusal r j code).collFail r j code 0).settle)))
      ∧ (∀ v contrib, c'.operandUe r j entry x = none → d.chunkResult r j m x b.1 b.2 = .ok (v, contrib) → e.2 = none →
        let tail := tailBytes j.desc.wire coll j.serial x.chunk j.member (j.desc.stepOf x) (chunkCheck j.desc.wire v) contrib
        let f := (d.memberWrite r j.mine (j.chunkAddr false x.chunk) v).memberWrite r j.mine (j.tailAddr x.chunk) tail
        let g := f.onInv r j (fun k =>
          { k with landed := k.landed.filter (fun z => z.1 != item), done := k.done ++ [item], lastProgress := f.now r,
                   rounds := if k.plan.isNone = true then Tab.set k.rounds m (leAt b.2 4 4) else k.rounds })
        exec (.collChunkReceive r now key coll member item) s = .next (s.put
          ((((if (g.invNow r j).addsDone = true then g.freeSlots r (g.invNow r j) else g).grants r j).collEnd r j).settle)))))
  ∧ (∀ (a b : List Byte) (n : Nat), a.length = 16 * n → b.length = 16 * n →
    addChunks 0 a b = addChunks 0 b a
    ∧ ((∀ k, k < n → -(2 : Int) ^ 127 ≤ (BitVec.ofNat 128 (leAt a (16 * k) 16)).toInt + (BitVec.ofNat 128 (leAt b (16 * k) 16)).toInt
          ∧ (BitVec.ofNat 128 (leAt a (16 * k) 16)).toInt + (BitVec.ofNat 128 (leAt b (16 * k) 16)).toInt < (2 : Int) ^ 127) →
        residue (addChunks 0 a b) = (residue a + residue b) % residueM))

/-! ### Ports (chapter 11) -/

/-- A receiver drops every frame whose FCS fails (R326): one whose FCS equals the inverse of the computed CRC counts as stomped, any other failure
as an FCS error, and neither reaches the router. -/
def Obligations.FramesWithBadFcsAreDropped : Prop :=
  ∀ (s : State) (r : ReachId) (now : Time) (p : PortId) (f : EthFrame), s.chip.alive = true → ((s.chip.reach r).mac p).up = true →
    let c := (s.chip.at r now).countCorrected r p f
    (f.fcs = .stomped → exec (.macFrameRx r now p f) s = .next (s.put (c.onMac r p (fun m => { m with stomped := sat48 (m.stomped + 1) }))))
    ∧ (f.fcs = .bad → exec (.macFrameRx r now p f) s = .next (s.put (c.onMac r p (fun m => { m with fcsErr := sat48 (m.fcsErr + 1) }))))
    ∧ (f.fcs ≠ .good → ∃ t, exec (.macFrameRx r now p f) s = .next t ∧ (t.chip.reach r).rtr = (s.chip.reach r).rtr)

/-- A received frame (R323, R326, R330 to R332): FCS, size, address, IP checksum, filter and room are judged in that order, each refusal
counting once and nothing else but the codewords that its FEC has corrected (R322); an accepted frame stands last in the router with its queue's bytes counted. -/
def Obligations.FramesAreFilteredInOrder : Prop :=
  ∀ (s : State) (r : ReachId) (now : Time) (p : PortId) (f : EthFrame), s.chip.alive = true → ((s.chip.reach r).mac p).up = true →
    let m := (s.chip.reach r).mac p
    let c := (s.chip.at r now).countCorrected r p f
    let own := f.dst = portAddress r p ∨ f.dst = ptpAddress ∨ f.dst = macCtlAddress
    (f.fcs = .bad → exec (.macFrameRx r now p f) s = .next (s.put (c.onMac r p (fun m => { m with fcsErr := sat48 (m.fcsErr + 1) }))))
    ∧ (f.fcs = .good → (f.len < 64 ∨ 9216 < f.len) →
      exec (.macFrameRx r now p f) s = .next (s.put (c.onMac r p (fun m => { m with sizeDrop := sat48 (m.sizeDrop + 1) }))))
    ∧ (f.fcs = .good → 64 ≤ f.len → f.len ≤ 9216 → ¬ own →
      exec (.macFrameRx r now p f) s = .next (s.put (c.onMac r p (fun m => { m with addrDrop := sat48 (m.addrDrop + 1) }))))
    ∧ (f.fcs = .good → 64 ≤ f.len → f.len ≤ 9216 → own → frameIpFails f = true →
      exec (.macFrameRx r now p f) s = .next (s.put (c.onMac r p (fun m => { m with ipDrop := sat48 (m.ipDrop + 1) }))))
    ∧ (f.fcs = .good → 64 ≤ f.len → f.len ≤ 9216 → own → frameIpFails f = false → frameEtype f = 0x8808 →
      exec (.macFrameRx r now p f) s = .next (s.put (c.onMac r p (fun m => { m with macCtl := sat48 (m.macCtl + 1) }))))
    ∧ (f.fcs = .good → 64 ≤ f.len → f.len ≤ 9216 → own → frameIpFails f = false → frameEtype f ≠ 0x8808 →
      (m.filterOf f = none → exec (.macFrameRx r now p f) s = .next (s.put
        (c.onMac r p (fun m => { m with filterDrops := Tab.modify m.filterDrops 64 0 (fun n => sat48 (n + 1)) }))))
      ∧ (∀ i e, m.filterOf f = some (i, e) → e.action ≠ 1 → exec (.macFrameRx r now p f) s = .next (s.put
        (c.onMac r p (fun m => { m with filterDrops := Tab.modify m.filterDrops i 0 (fun n => sat48 (n + 1)) }))))
      ∧ (∀ i e, m.filterOf f = some (i, e) → e.action = 1 → m.ingressRoom (e.queueOf f) f.len = false →
        exec (.macFrameRx r now p f) s = .next (s.put (c.onMac r p (fun m => { m with roomDrop := sat48 (m.roomDrop + 1) }))))
      ∧ (∀ i e, m.filterOf f = some (i, e) → e.action = 1 → m.ingressRoom (e.queueOf f) f.len = true →
        ∃ t, exec (.macFrameRx r now p f) s = .next t
          ∧ (t.chip.reach r).rtr.inbox = (s.chip.reach r).rtr.inbox
              ++ [{ ingress := p.val, body := f.body, len := f.len, arrived := c.now r, queue := e.queueOf f }]
          ∧ ((t.chip.reach r).mac p).ingressBytes (e.queueOf f) = m.ingressBytes (e.queueOf f) + f.len
          ∧ ((t.chip.reach r).mac p).queues = m.queues))

/-- PAUSE and PFC (R334 to R337): a frame sets the time of the classes it names, and releases by zero; the time runs out; TC6 or TC7 stopped
for WD_NS are let go for WD_HOLD ms with one event counted; a stopping frame of the port's own, for a class of GEN_MASK, is repeated while its queue stays at XON. -/
def Obligations.PauseStopsClassesForATime : Prop :=
  ∀ (s : State) (r : ReachId) (now : Time) (p : PortId), s.chip.alive = true →
    let m := (s.chip.reach r).mac p
    let c := s.chip.at r now
    let g := (c.reach r).gbps p
    (∀ quanta : Word16, ∃ t, exec (.pauseRx r now p quanta) s = .next t ∧ ((t.chip.reach r).mac p).macCtl = sat48 (m.macCtl + 1)
      ∧ ∀ tc, tc < 8 → (m.pauseOf tc).ignored (c.now r) = false → (((t.chip.reach r).mac p).pauseOf tc).until_ =
          (if quanta = 0 then none else some (c.now r + pauseTime quanta.toNat g)))
    ∧ (∀ (classes : BitVec 8) times, ∃ t, exec (.pfcRx r now p classes times) s = .next t
      ∧ ∀ tc, tc < 8 → (m.pauseOf tc).ignored (c.now r) = false → (((t.chip.reach r).mac p).pauseOf tc).until_ =
          (if classes.toNat.testBit tc = false then (m.pauseOf tc).until_ else if ((times[tc]?).getD 0) = 0 then none
            else some (c.now r + pauseTime ((times[tc]?).getD 0).toNat g)))
    ∧ (∀ tc : Fin 8, ∃ t, exec (.pauseExpiry r now p tc) s = .next t
      ∧ (∀ u, (m.pauseOf tc.val).until_ = some u → notBefore u (c.now r) = true → (((t.chip.reach r).mac p).pauseOf tc.val).until_ = none)
      ∧ (∀ u, (m.pauseOf tc.val).until_ = some u → notBefore u (c.now r) = false → ((t.chip.reach r).mac p).pauseOf tc.val = m.pauseOf tc.val)
      ∧ ∀ k, k ≠ tc.val → ((t.chip.reach r).mac p).pauseOf k = m.pauseOf k)
    ∧ (∀ tc7 since, let tc := if tc7 = true then 7 else 6
      (m.pauseOf tc).since = some since → nsUnits m.wdNs ≤ timeDiff since (c.now r) →
      ∃ t, exec (.pauseWatchdog r now p tc7) s = .next t ∧ ((t.chip.reach r).mac p).wdEvents = sat48 (m.wdEvents + 1)
        ∧ ((t.chip.reach r).mac p).pauseOf tc = { until_ := none, since := none, hold := some (c.now r + nsTime (1000000 * m.wdHoldMs)) })
    ∧ (∀ tc7, let tc := if tc7 = true then 7 else 6
      ∃ t, exec (.pauseWatchdogHoldEnd r now p tc7) s = .next t
      ∧ ((m.pauseOf tc).ignored (c.now r) = false → (((t.chip.reach r).mac p).pauseOf tc).hold = none)
      ∧ ((m.pauseOf tc).ignored (c.now r) = true → ((t.chip.reach r).mac p).pauseOf tc = m.pauseOf tc))
    ∧ (∀ (tc : Fin 6) last, (fld m.pauseReg 24 6).testBit tc.val = true → Tab.find? m.pfcSent tc.val = some last → (pauseTime 32768 g).toInt ≤ timeDiff last (c.now r) →
      1024 * m.xon ≤ m.ingressBytes tc.val →
      exec (.pfcRepeatTimer r now p tc) s = .next (s.put ((c.onMac r p (fun m => { m with pfcSent := Tab.set m.pfcSent tc.val (c.now r) })).emit
        (.pfc r p (BitVec.ofNat 8 (2 ^ tc.val)) 0xFFFF))))

/-- A free port that is up sends the frame its selection gives (R341), its FCS inverted where it did not end whole (R325), unless the port is not
USABLE: then it sends link-local frames only and drops the others (R261). Sluices and the port's other controls (R324, R328, R340): a write of a
sluice sets its tokens to zero or to the full burst, tokens never exceed the burst, MAC_CT.RESET returns LEVEL to 1, and the 65th
uncorrectable codeword within 1 ms raises one health record. -/
def Obligations.PortsSendAndMeter : Prop :=
  ∀ (s : State) (r : ReachId) (now : Time) (q : PortId), s.chip.alive = true →
    let c := s.chip.at r now
    let m := (c.reach r).mac q
    (∀ ch turn ending, s.chip.inService r = true → m.up = true → later (c.now r) m.busyUntil = false →
      (c.reach r).select r q (c.now r) = some (ch, turn) →
      ((((c.reach r).port q).state = .usable ∨ linkLocal ch.frame.body = true) →
        ∃ t pre, exec (.portFrameStart r now q ending) s = .next t
        ∧ t.chip.sent = s.chip.sent ++ pre ++ [.frame r q ((c.reach r).frameDst q ch.frame.body) (portAddress r q) ch.frame.vid ch.frame.len
            (if ending = .whole then .good else .stomped) ch.frame.body] ∧ pre.length ≤ 1
        ∧ ((t.chip.reach r).mac q).queues = (m.pop ch.tc ch.sub).queues)
      ∧ (((c.reach r).port q).state ≠ .usable → linkLocal ch.frame.body = false →
        ∃ t, exec (.portFrameStart r now q ending) s = .next t ∧ ((t.chip.reach r).mac q).queues = (m.pop ch.tc ch.sub).queues
        ∧ ((t.chip.reach r).port q).dropHeld = ((c.reach r).port q).dropHeld + 1))
    ∧ (∀ p (slot : Fin 72) v, s.chip.pathOpen p = true → s.chip.inService r = true → c.allows p 2 = true →
      c.sec.logRefusal = none → ∃ t, exec (.shpSluiceWrite p r now q slot v) s = .next t
        ∧ ((t.chip.reach r).mac q).sluice slot.val = Sluice.configure (v &&& sluiceMask) (c.now r)
        ∧ (∀ k, k ≠ slot.val → ((t.chip.reach r).mac q).sluice k = m.sluice k) ∧ ((t.chip.reach r).mac q).queues = m.queues)
    ∧ (∀ (x : Sluice) b, x.tokensAt b ≤ x.full)
    ∧ (∀ p, s.chip.pathOpen p = true → s.chip.inService r = true → s.chip.allows p 2 = true → s.chip.sec.logRefusal = none →
      ∃ t, exec (.macCtReset p r q) s = .next t ∧ ((t.chip.reach r).mac q).level = 1
        ∧ ((t.chip.reach r).mac q).queues = ((s.chip.reach r).mac q).queues)
    ∧ (let recent := m.uncorrTimes.filter (fun x => decide (timeDiff x (c.now r) < nsUnits 1000000))
      ∃ t, exec (.uncorrectableCodeword r now q) s = .next t ∧ ((t.chip.reach r).mac q).uncorr = sat48 (m.uncorr + 1)
      ∧ ((t.chip.reach r).mac q).up = m.up ∧ ((t.chip.reach r).mac q).queues = m.queues
      ∧ (recent.length < 64 → ((t.chip.reach r).mac q).uncorrTimes = recent ++ [c.now r] ∧ t.chip.gate.alerts = s.chip.gate.alerts)
      ∧ (64 ≤ recent.length → ((t.chip.reach r).mac q).uncorrTimes = []))

/-! ### Host port (chapter 12) -/

/-- Rings as the module reads them (R356, R357, R359, R360, R362, R368, R373): doorbells read index words, an index word publishes
descriptors or puts the ring in ERROR, fetched descriptors are taken in whole chains of 1 to 16 with the expected OWNER, each under its
handle, room on a completion ring lets waiting records post, and a moderated message goes out when its time has passed. -/
def Obligations.RingsAreReadAndTaken : Prop :=
  (∀ (s : State) (f : FnId) (ring : BitVec 8), s.chip.alive = true → s.chip.portOpen = true →
    (s.chip.ring? f ring = none → exec (.doorbell f ring) s = .next (s.put (s.chip.countRing f ring 2)))
    ∧ (∀ q, s.chip.ring? f ring = some q →
      (q.destroying = none → q.reading = false → exec (.doorbell f ring) s = .next (s.put
          ((s.chip.onRing f ring (fun q => { q with reading := true })).emit (.indexRead f ring))))
      ∧ (q.destroying = none → q.reading = true → exec (.doorbell f ring) s = .next (s.put
          (s.chip.onRing f ring (fun q => { q with readAgain := true }))))
      ∧ (∀ word, q.reading = true → q.kind = .submission → q.error = false →
        (2 ^ q.log2 < (word - q.taken).toNat → exec (.indexWordReadDone f ring word) s = .next (s.put
            ((s.chip.readBack f ring).ringFails f ring)))
        ∧ ((word - q.taken).toNat ≤ 2 ^ q.log2 → exec (.indexWordReadDone f ring word) s = .next (s.put
            (((s.chip.readBack f ring).onRing f ring (fun q => { q with published := word })).fetch f ring))))
      ∧ (∀ l, q.fetching = true → exec (.descriptorFetchDone f ring l) s = .next (s.put
          ((s.chip.onRing f ring (fun q => { q with fetching := false })).takeChains
            ((l.take (min prefetch (q.published - q.taken).toNat)).length + 1) f ring
            (l.take (min prefetch (q.published - q.taken).toNat)))))
      ∧ (∀ n, q.reading = true → q.kind ≠ .submission → q.room = false →
          exec (.completionRingRoom f ring n) s = .next (s.put ((s.chip.readBack f ring).roomRead f ring n)))
      ∧ (∀ ns, q.kind = .completion → q.sinceMsg ≠ 0 → q.modUsec ≠ 0 → 1000 * q.modUsec.toNat ≤ ns + 1000 → q.vecEn = true →
          exec (.interruptModerationTimer f ring ns) s = .next (s.put
            ((s.chip.onRing f ring (fun q => { q with sinceMsg := 0 })).msix f q.vector)))
      ∧ (q.reading = true → exec (.hostReadTimeout (.index f ring)) s = .next (s.put (s.chip.readBack f ring).settle))))
  ∧ (∀ (s : State) ref t, s.chip.alive = true → s.chip.chain? ref = some t → t.isCommand = true → s.chip.host.feeds = [] →
      exec (.hostReadTimeout (.command ref)) s = .next (s.put (s.chip.complete ref 4 0x93 0).settle))
  ∧ (∀ (log2 first : Nat) (l : List Desc) (n : Nat), headOf log2 0 first l = .chain n →
      1 ≤ n ∧ n ≤ 16 ∧ n ≤ l.length ∧ ∀ k d, k < n → l[k]? = some d →
        d.owner = ownerBit (first + k) log2 ∧ (d.first = true ↔ k = 0) ∧ (d.last = true ↔ k + 1 = n))
  ∧ (∀ (c : Chip) (f : FnId) (ring : BitVec 8) (q : HostRing) (l : List Desc), c.ring? f ring = some q → chainBad l = false →
      ∃ t q', ((c.takeChain f ring q l).fn f).out = (c.fn f).out ++ [t] ∧ (c.takeChain f ring q l).ring? f ring = some q'
        ∧ t.handle = handleOf f ring (q.serialBase + q.chains) (c.fn f).gen ∧ t.size = l.length
        ∧ q'.taken = q.taken + BitVec.ofNat 32 l.length ∧ q'.chains = q.chains + 1)

/-- Host commands (R370, R371, R376, R377, R444): each does its work and completes once with its status; a query answers the 128 bytes of a
context or the 32 of a mooring entry, a feed's buffers are read in the order of SEQ, and the checkpoint service fills a buffer with bytes of
the plan's own. -/
def Obligations.HostCommandsComplete : Prop :=
  (∀ (s : State) (ref : CmdRef), s.chip.alive = true → s.chip.taking ref = true →
    exec (.nop ref) s = .next (s.put (s.chip.complete ref 4 0 0))
    ∧ (∀ p, s.chip.ringCreateCheck ref.fn p ≠ 0 →
        exec (.ringCreate ref p) s = .next (s.put (s.chip.complete ref 4 (s.chip.ringCreateCheck ref.fn p) 0)))
    ∧ (∀ p, s.chip.ringCreateCheck ref.fn p = 0 → s.chip.ring? ref.fn p.ring = none ∧ 3 ≤ p.ring.toNat ∧ 6 ≤ p.log2.toNat ∧ p.log2.toNat ≤ 16
        ∧ p.base.toNat % 4096 = 0 ∧ p.index.toNat % 8 = 0 ∧ ∃ q : HostRing, q.published = 0 ∧ q.taken = 0 ∧ q.posted = 0 ∧ q.log2 = p.log2.toNat
        ∧ q.base = p.base ∧ q.index = p.index ∧ (q.kind = .completion ↔ p.completion = true)
        ∧ exec (.ringCreate ref p) s = .next (s.put (((s.chip.onFn ref.fn (fun x =>
            { x with rings := Tab.set x.rings p.ring.toNat q })).complete ref 4 0 0).postHeld ref.fn p.ring)))
    ∧ (∀ ring q, s.chip.ring? ref.fn ring = some q → 3 ≤ ring.toNat → q.destroying = none →
        (q.kind = .submission → exec (.ringDestroy ref ring) s = .next (s.put
          ((s.chip.onRing ref.fn ring (fun q => { q with destroying := some ref })).chainGone ref.fn ring)))
        ∧ (q.kind ≠ .submission → s.chip.cqNamed ref.fn ring = false → q.waiting = [] → exec (.ringDestroy ref ring) s = .next (s.put
          ((s.chip.onFn ref.fn (fun x => { x with rings := Tab.erase x.rings ring.toNat })).complete ref 4 0 0))))
    ∧ (s.chip.host.d3hot = false → s.chip.hostGone ref.fn = false →
      (∀ (n : Word32) iova q, let qpn := BitVec.ofNat 24 n.toNat
        s.chip.inService (qpReach qpn) = true → (s.chip.reach (qpReach qpn)).qp qpn = some q → q.function = ref.fn →
        exec (.objQuery ref 1 n iova) s = .next (s.put ((s.chip.hostWrite ref.fn iova.toNat (qpBytes q)).complete ref 4 0 0)))
      ∧ (∀ (r : ReachId) (n : Word32) iova m, r.val = n.toNat / 2 ^ 15 % 4 → s.chip.inService r = true →
        Tab.find? (s.chip.reach r).rme.moorings (natBits n.toNat 0 15) = some m → m.function = ref.fn → m.inUse = true →
        exec (.objQuery ref 2 n iova) s = .next (s.put ((s.chip.hostWrite ref.fn iova.toNat (mooringBytes m)).complete ref 4 0 0)))
      ∧ (∀ p, s.chip.feedCheck ref p = 0 → p.seq = s.chip.feedNext p.plan p.feed → s.chip.host.feeds = [] →
        (s.chip.feedOk { cmd := ref, post := p } = false → exec (.feedPost ref p) s = .next (s.put (s.chip.complete ref 4 0xB9 0)))
        ∧ (s.chip.feedOk { cmd := ref, post := p } = true → exec (.feedPost ref p) s = .next (s.put
          (({ s.chip with host := { s.chip.host with feeds := [], feedSeq := s.chip.host.feedSeq.filter (fun (e : Word64 × Word16 × Word64) => !(e.1 == p.plan && e.2.1 == p.feed)) ++ [(p.plan, p.feed, p.seq + 1)] } }).complete ref 4 0 (BitVec.ofNat 64 p.length.toNat)))))
      ∧ (∀ p m, s.chip.feedCheck ref p = 0 → s.chip.bounce ref.fn p = some m → p.keySlot = 0xFFFF →
        ∃ (bs : List Byte) (n : Nat), bs.length ≤ p.length.toNat ∧ exec (.ckptPost ref p) s = .next (s.put
          (({ s.chip with freeCtr := n }.hostWrite ref.fn (m.base.toNat + p.roff.toNat) bs).complete ref 4 0 (BitVec.ofNat 64 bs.length))))
      ∧ (ref.fn = 0 → ∀ t, exec (.configTableWrite ref t) s = .next (s.put
          ((s.chip.configWrite .pf t).2.2.complete ref 4 (s.chip.configWrite .pf t).1 (BitVec.ofNat 64 (s.chip.configWrite .pf t).2.1))))
      ∧ (ref.fn = 0 → ∀ t, (s.chip.configRead .pf t).1 = 0 → exec (.configTableRead ref t) s = .next (s.put
          ((s.chip.hostWrite ref.fn t.iova.toNat (s.chip.configRead .pf t).2).complete ref 4 0 (BitVec.ofNat 64 t.count))))
      ∧ (ref.fn ≠ 0 → ∀ t, exec (.configTableWrite ref t) s = .next (s.put (s.chip.complete ref 4 0x91 0))
          ∧ exec (.configTableRead ref t) s = .next (s.put (s.chip.complete ref 4 0x91 0)))))
  ∧ (∀ q, (qpBytes q).length = 128) ∧ (∀ m, (mooringBytes m).length = 32)

/-- Functions of the host port (R33, R350, R351, R353, R379 to R386): an ATTACH that finds no error stands up the admin rings, a detach or a
function-level reset makes the function absent, the reset of the port makes the link take the clock mode that was written, and D3hot only
closes the port. -/
def Obligations.FunctionsComeAndGo : Prop :=
  ∀ (s : State) (f : FnId), s.chip.alive = true →
    (s.chip.portOpen = true → (s.chip.fn f).attached = false → (s.chip.ten f).attaching = false →
      (s.chip.attachErr f ≠ 0 → exec (.attach f) s = .next (s.put
        (s.chip.onFn f (fun x => { x with attachErr := BitVec.ofNat 4 (s.chip.attachErr f) })).settle))
      ∧ (let d := s.chip.onFn f (fun x => { x with attachErr := 0 })
        s.chip.attachErr f = 0 → d.gate.ready = true → (d.fn f).shutdown = false → ((d.fn f).continues = true ∨ d.holdsObjects f = false) →
        exec (.attach f) s = .next (s.put (d.attachDone f).settle) ∧ ((d.attachDone f).fn f).attached = true))
    ∧ (s.chip.portOpen = true → (s.chip.fn f).attached = true → exec (.detach f) s = .next (s.put (s.chip.absent f).settle))
    ∧ (∀ v, s.chip.portOpen = true → ∃ t, exec (.hostRevWrite f v) s = .next t ∧ (t.chip.fn f).offerMin.toNat = fld v 0 8
        ∧ (t.chip.fn f).offerMax.toNat = fld v 8 8
        ∧ (t.chip.fn f).sel = (if fld v 0 8 ≤ 1 ∧ 1 ≤ fld v 8 8 then 1 else 0) ∧ (t.chip.fn f).attached = (s.chip.fn f).attached)
    ∧ (∀ p v, s.chip.pathOpen p = true → s.chip.allows p 2 = true → s.chip.sec.logRefusal = none →
        ∃ t, exec (.hostClkWrite p v) s = .next t ∧ t.chip.host.clkMode.toNat = fld v 0 2
        ∧ t.chip.host.clkActive = s.chip.host.clkActive)
    ∧ (∀ cause, cause ≠ .perst → s.chip.host.inReset = false → s.chip.sec.recovery = false →
        ∃ d : Chip, exec (.hostPortReset cause) s = .next (s.put d.settle) ∧ d.host.inReset = false ∧ d.host.trained = true
        ∧ d.host.clkActive = clkInForce s.chip.host.clkMode ∧ d.host.d3hot = false)
    ∧ (∃ d : Chip, exec (.hostPortReset .perst) s = .next (s.put d.settle) ∧ d.host.inReset = true ∧ d.host.trained = false
        ∧ d.gate.perstN = false)
    ∧ (f ≠ 0 → s.chip.portOpen = true → exec (.functionLevelReset f) s = .next (s.put ((s.chip.absent f).shutStart f).settle))
    ∧ (s.chip.host.inReset = false → s.chip.host.d3hot = false →
        exec (.powerStateChange true) s = .next (s.put { s.chip with host := { s.chip.host with d3hot := true } }))
    ∧ (let d : Chip := { s.chip with host := { s.chip.host with d3hot := false } }
      s.chip.host.inReset = false → s.chip.host.d3hot = true → exec (.powerStateChange false) s = .next (s.put
        (forEach d.functions d (fun c f => (forEach ((c.fn f).rings.map (fun e => e.1)) c (fun c n =>
          c.postHeld f (BitVec.ofNat 8 n))).fetchAll f))))
    ∧ (s.chip.host.inReset = true → s.chip.sec.recovery = false →
        exec .perstNRelease s = .next (s.put { s.chip with gate := { s.chip.gate with perstN := true }, host := { s.chip.host with inReset := false, trained := true, clkActive := clkInForce s.chip.host.clkMode } }))

/-! ### Translation and tenancies (chapter 13) -/

/-- Translation commands (R392 to R400, R402): an address space is made under the number asked for or the lowest free one, a map takes
aligned, unmapped ranges and zeroed pages of the grant, invalidating commands of an address space go one after another and finish when no
work of the previous generation is left, and an open fault record closes as refused when its time is over. -/
def Obligations.AddressSpacesChange : Prop :=
  (∀ (s : State) (ref : CmdRef), s.chip.alive = true → s.chip.taking ref = true → s.chip.xltWaits = false →
    (∀ a : Word16, a ≠ 0xFFFF → s.chip.holdsAsid ref.fn a.toNat = true → Tab.find? s.chip.xlt.asids a.toNat = none →
      exec (.asidCreate ref a) s = .next (s.put ({ s.chip with xlt := { s.chip.xlt with asids := Tab.set s.chip.xlt.asids a.toNat { function := ref.fn, gen := 0, pages := [], wins := [] } } }.complete
        ref 4 0 (BitVec.ofNat 64 a.toNat))))
    ∧ (∀ a, s.chip.freeAsid ref.fn = some a →
      s.chip.holdsAsid ref.fn a = true ∧ Tab.find? s.chip.xlt.asids a = none
      ∧ exec (.asidCreate ref 0xFFFF) s = .next (s.put ({ s.chip with xlt := { s.chip.xlt with asids := Tab.set s.chip.xlt.asids a { function := ref.fn, gen := 0, pages := [], wins := [] } } }.complete
        ref 4 0 (BitVec.ofNat 64 a))))
    ∧ (∀ p, s.chip.xltMapCheck ref.fn p ≠ 0 → exec (.xltMap ref p) s = .next (s.put (s.chip.complete ref 4 (s.chip.xltMapCheck ref.fn p) 0)))
    ∧ (∀ p, s.chip.xltMapCheck ref.fn p = 0 → p.window = true → exec (.xltMap ref p) s = .next (s.put (((s.chip.onAsid p.asid.toNat (fun a =>
        { a with wins := a.wins ++ [{ va := natBits p.va.toNat 0 57, len := p.length.toNat, iova := p.iova.toNat, rd := p.rd, wr := p.wr }] })).complete
          ref 4 0 0).resolveFaults p.asid)))
    ∧ (∀ p l, s.chip.xltMapCheck ref.fn p = 0 → p.window = false → s.chip.inService p.reach = true →
        s.chip.choosePages ref.fn p (p.length.toNat / pageBytes p.page) = some l →
        exec (.xltMap ref p) s = .next (s.put ((((s.chip.onReach p.reach (fun x => forEach l x (fun x pa => x.zeroPhys pa (pageBytes p.page)))).onAsid
          p.asid.toNat (fun a => { a with pages := a.pages ++ l.zipIdx.map (fun e =>
            { va := natBits p.va.toNat 0 57 + e.2 * pageBytes p.page, size := p.page, tier := p.tier, reach := p.reach,
              set := if p.tier == 1 then 0 else p.pcset, pa := e.1, rd := p.rd, wr := p.wr }) })).complete ref 4 0
            (BitVec.ofNat 64 l.length)).resolveFaults p.asid)))
    ∧ (∀ p, p.refuse = false → s.chip.ownAsid ref.fn p.asid ≠ none → exec (.xltWithdraw ref p) s = .next (s.put
        (s.chip.invPut { cmd := ref, asid := p.asid, free := false, range := some (natBits p.va.toNat 0 57, p.length.toNat), started := false, released := [] })))
    ∧ (∀ a free, s.chip.ownAsid ref.fn a ≠ none → exec (.asidInvalidate ref a free) s = .next (s.put
        (s.chip.invPut { cmd := ref, asid := a, free := free, range := none, started := false, released := [] }))))
  ∧ (∀ (c : Chip) (f : FnId) p n l, c.choosePages f p n = some l → l.length = n ∧
      (∀ pa ∈ l, ∀ e ∈ c.busyRanges p.reach, e.1 + e.2 ≤ pa ∨ pa + pageBytes p.page ≤ e.1)
      ∧ l.Pairwise (fun x y => x + pageBytes p.page ≤ y))
  ∧ (∀ (c : Chip) (i : InvCmd) a, Tab.find? c.xlt.asids i.asid.toNat = some a → c.invCheck a i ≠ 0 →
      c.invStart i = ({ c with xlt := c.xlt.onInv i.cmd.handle (fun _ => none) }).complete i.cmd 4 (c.invCheck a i) 0)
  ∧ (∀ (s : State) (asid : Word16) i a, s.chip.alive = true →
      s.chip.xlt.inv.find? (fun i => i.asid == asid && i.started) = some i → Tab.find? s.chip.xlt.asids asid.toNat = some a →
      (s.chip.oldWork asid a.gen = true → exec (.xltInvalidateDrained asid) s = .next (s.put s.chip.settle))
      ∧ (s.chip.oldWork asid a.gen = false → exec (.xltInvalidateDrained asid) s = .next (s.put
        ((s.chip.invFinish i a.gen).invRun (s.chip.invFinish i a.gen).xlt.inv.length asid).settle)))
  ∧ (∀ (s : State) (r : ReachId) (now : Time) f seq, s.chip.alive = true →
      exec (.xltFaultExpiry r now f seq) s = .next (s.put ((s.chip.at r now).closeFaults (fun x => x.function == f && x.seq == seq
        && notBefore (x.time + nsTime (1000000 * clampNat 10 60000 (fld s.chip.xlt.ctrl 0 16))) ((s.chip.at r now).now r)) false)))

/-- Tenancies (R403 to R411): a grant that conflicts with none moves to its function, with an entry in the logbook; a disable starts a
shut-down; a freeze ends with every context out of READY and no invocation in flight, at its limit with what is unretired rolled back or uncertain, and an unfreeze
lets contexts and rings go on. -/
def Obligations.TenanciesEnableAndFreeze : Prop :=
  (∀ (s : State) (ref : CmdRef), s.chip.alive = true → s.chip.taking ref = true →
    (ref.fn ≠ 0 → (∀ g, exec (.functionEnable ref g) s = .next (s.put (s.chip.complete ref 4 0x91 0)))
      ∧ (∀ n, exec (.functionDisable ref n) s = .next (s.put (s.chip.complete ref 4 0x91 0)))
      ∧ (∀ n ms, exec (.tenFreeze ref n ms) s = .next (s.put (s.chip.complete ref 4 0x91 0)))
      ∧ (∀ n, exec (.tenUnfreeze ref n) s = .next (s.put (s.chip.complete ref 4 0x91 0))))
    ∧ (ref.fn = 0 → s.chip.sec.logRefusal = none →
      (∀ g, grantBad g = false → (s.chip.fn (grantFn g)).shutdown = false → s.chip.grantConflict g = true →
        exec (.functionEnable ref g) s = .next (s.put (s.chip.complete ref 4 0xA8 0)))
      ∧ (∀ g, grantBad g = false → (s.chip.fn (grantFn g)).shutdown = false → s.chip.grantConflict g = false →
        exec (.functionEnable ref g) s = .next (s.put ((s.chip.log 9 (s.chip.whoOf .pf) 0 (grantBytes g)).enableNow ref g)))
      ∧ (∀ (f : FnId) (n : BitVec 8) g, n.toNat = f.val → f ≠ 0 → (s.chip.fn f).enabled = true → (s.chip.ten f).grant = some g →
        exec (.functionDisable ref n) s = .next (s.put ((((s.chip.log 9 (s.chip.whoOf .pf) 0 (grantBytes g)).onTen f (fun t =>
          { t with disable := t.disable ++ [ref] })).shutStart f).settle))))
    ∧ (ref.fn = 0 → ∀ (f : FnId) (n : BitVec 8), n.toNat = f.val → (s.chip.fn f).enabled = true → (s.chip.fn f).shutdown = false →
      ((s.chip.ten f).state = .running → ∀ ms : Word32, ∃ d : Chip, exec (.tenFreeze ref n ms) s = .next (s.put d.settle)
        ∧ (d.ten f).state = .freezing ∧ (d.ten f).freezeCmd = some ref)
      ∧ ((s.chip.ten f).state ≠ .running → ∀ ms, exec (.tenFreeze ref n ms) s = .next (s.put (s.chip.complete ref 4 0xA9 0)))
      ∧ ((s.chip.ten f).state ≠ .frozen → exec (.tenUnfreeze ref n) s = .next (s.put (s.chip.complete ref 4 0xA9 0)))
      ∧ ((s.chip.ten f).state = .frozen → (∀ r, (s.chip.reach r).qpsOf f = []) → exec (.tenUnfreeze ref n) s = .next (s.put
          (((s.chip.onTen f (fun t => { t with state := .running })).complete ref 4 0 0).fetchAll f)))))
  ∧ (∀ (c : Chip) (f : FnId), c.allFrozen f = true ↔ ∀ r, c.collsInFlight f r = false ∧ ∀ q ∈ (c.reach r).qpsOf f, q.state ≠ .ready ∧ q.state ≠ .drain)
  ∧ (∀ (s : State) (r : ReachId) (now : Time) (f : FnId), s.chip.alive = true → (s.chip.ten f).state = .freezing →
      (notBefore (s.chip.ten f).freezeEnd (s.chip.at r now).gateTime = true ∨ (s.chip.at r now).steadyReach = none) →
      (∀ r, ∀ q ∈ (s.chip.reach r).qpsOf f, q.state ≠ .drain) →
      exec (.tenFreezeDrainExpiry r now f) s = .next (s.put ((s.chip.at r now).freezeDone f 0 0)))
  ∧ (∀ q : Qp, q.freezeNow.state = .frozen ∧ q.freezeNow.out = q.out
      ∧ ∀ o ∈ q.freezeNow.ops, o.status ≠ none)
  ∧ (∀ o : RmeOp, frozenStatus o = (if o.entry.op = 0 ∨ o.entry.op = 2 ∨ o.sent = 0 then 0xAA else 0xAB))
  ∧ (∀ (s : State) (ref : CmdRef) (p : TenSave) kek, s.chip.alive = true → s.chip.taking ref = true → ref.fn = 0 →
      s.chip.hostGone 0 = false → (s.chip.fn p.fn).shutdown = false → (s.chip.ten p.fn).state = .frozen → s.chip.migrationKek p.kek = some kek →
      s.chip.sec.logRefusal = none →
      let plain := s.chip.blobPlain p.fn (s.chip.grantOf p.fn)
      let len := 256 + plain.length + 16 * segCount plain.length
      (p.length.toNat < len → exec (.tenSave ref p) s = .next (s.put (s.chip.complete ref 4 0xAC (BitVec.ofNat 64 len))))
      ∧ (len ≤ p.length.toNat → ∃ (key : List Byte) (d : Chip), key.length = 32
        ∧ d = { s.chip.log 0xA (s.chip.whoOf .pf) 0 (leBytes 1 p.fn.val ++ leBytes 1 p.kek.toNat ++ leBytes 6 0 ++ leBytes 8 len) with freeCtr := d.freeCtr }
        ∧ exec (.tenSave ref p) s = .next (s.put
          ((d.hostWrite 0 p.iova.toNat (d.blobHeader p.fn (s.chip.grantOf p.fn) p.kek.toNat (aesWrap kek key) plain.length
              ++ sealSegments key (d.blobHeader p.fn (s.chip.grantOf p.fn) p.kek.toNat (aesWrap kek key) plain.length) plain)).complete
            ref 4 0 (BitVec.ofNat 64 len)))))
  ∧ (∀ (s : State) (ref : CmdRef) (p : TenRestore), s.chip.alive = true → s.chip.taking ref = true → ref.fn = 0 →
      s.chip.hostGone 0 = false → (s.chip.fn p.fn).enabled = true → (s.chip.fn p.fn).shutdown = false →
      (s.chip.ten p.fn).state = .running → s.chip.holdsObjects p.fn = false → s.chip.sec.logRefusal = none →
      let d := s.chip.log 0xA (s.chip.whoOf .pf) 0 (leBytes 1 p.fn.val ++ leBytes 1 p.kek.toNat ++ leBytes 6 0 ++ leBytes 8 p.length.toNat)
      (∀ n, d.openBlob p = .error n → exec (.tenRestore ref p) s = .next (s.put (((d.complete ref 4 n 0).shutStart p.fn).settle)))
      ∧ (∀ header plain c', d.openBlob p = .ok (header, plain) → d.restoreAll p header plain = (c', 0) →
        exec (.tenRestore ref p) s = .next (s.put ((c'.onTen p.fn (fun t => { t with state := .frozen })).complete ref 4 0 0))))

/-! ### Security (chapter 14) -/

/-- Role sessions and the logbook (R423 to R431): a request is refused at the first check that it fails, else raises its role's counter; a
session stands on its path until it is closed or expires; LOG_READ answers entries and a fresh seal, and LOG_TRIM releases entries up to a
sequence number and no other. -/
def Obligations.RoleSessionsAndLogbook : Prop :=
  (∀ (s : State) (p : ReqPath) (b : RoleReq), s.chip.alive = true → s.chip.reqTaken p →
    (b.subop = 1 → ∃ d, exec (.roleOpen p b) s = .next (s.put d) ∧ s.chip.roleRequest p b (fun c d =>
      let path := leAt b.body 0 1
      let secs := leAt b.body 2 2
      ((path ≠ 0 ∧ path ≠ 2) ∨ secs = 0 ∨ 3600 < secs → d = c.answer p 0xB0 0 [])
      ∧ (1 ≤ secs → secs ≤ 3600 → path = 0 → ∃ e : Chip, d = e.answer p 0 (c.gateTime + nsTime (1000000000 * secs)) []
        ∧ e.sec.pfSession = some (Session.mk b.role 0 (c.gateTime + nsTime (1000000000 * secs))) ∧ e.sec.mctpSession = c.sec.mctpSession)
      ∧ (1 ≤ secs → secs ≤ 3600 → path = 2 → ∃ e : Chip, d = e.answer p 0 (c.gateTime + nsTime (1000000000 * secs)) []
        ∧ e.sec.mctpSession = some (Session.mk b.role (BitVec.ofNat 8 (leAt b.body 1 1)) (c.gateTime + nsTime (1000000000 * secs)))
        ∧ e.sec.pfSession = c.sec.pfSession)) d)
    ∧ (b.subop = 2 → ∃ d, exec (.roleClose p b) s = .next (s.put d) ∧ s.chip.roleRequest p b (fun c d =>
      ∃ e : Chip, d = e.answer p 0 0 [] ∧ (match p with
        | .ring _ _ _ => e.sec.pfSession = none ∧ e.sec.mctpSession = c.sec.mctpSession
        | .mctp _ => e.sec.mctpSession = none ∧ e.sec.pfSession = c.sec.pfSession)) d)
    ∧ (b.subop = 0xA → ∃ d, exec (.logRead p b) s = .next (s.put d) ∧ s.chip.roleRequest p b (fun c d =>
      let l := (c.sec.log.filter (fun e => leAt b.body 0 4 ≤ e.seq.toNat)).take (leAt b.body 4 4)
      (256 < leAt b.body 4 4 → d = c.answer p 0xB0 0 [])
      ∧ (leAt b.body 4 4 ≤ 256 → d = Chip.answer { c with sec := c.sec.seal c.gateTime } p 0 (BitVec.ofNat 64 l.length)
          (l.flatMap logBytes ++ sealOut (c.sec.seal c.gateTime)))) d)
    ∧ (b.subop = 0xB → ∃ d, exec (.logTrim p b) s = .next (s.put d) ∧ s.chip.roleRequest p b (fun c d =>
      let last := leAt b.body 0 4
      (c.sec.logFlashOk = false → d = c.answer p 0xBB 0 [])
      ∧ (c.sec.logFlashOk = true → ∃ e : Chip,
        d = e.answer p 0 (BitVec.ofNat 64 (c.sec.log.filter (fun e => e.seq.toNat ≤ last)).length) []
        ∧ (∀ x ∈ e.sec.log, last < x.seq.toNat ∨ x.kind = 0xD) ∧ (∀ x ∈ c.sec.log, last < x.seq.toNat → x ∈ e.sec.log))) d)
    ∧ (b.subop = 0xD → ∃ d, exec (.identity p b) s = .next (s.put d) ∧ s.chip.roleRequest p b (fun c d =>
      let bs := Config.identityKey 0 ++ Config.identityKey 1 ++ Config.identityChain 0 ++ Config.identityChain 1
      d = c.answer p 0 (BitVec.ofNat 64 bs.length) bs) d))
  ∧ (∀ (s : State) (r : ReachId) (now : Time) (x : Session), s.chip.alive = true → notBefore x.expiry (s.chip.at r now).gateTime = true →
    (s.chip.sec.mctpSession = some x → ∃ t, exec (.roleSessionExpiry r now true) s = .next t ∧ t.chip.sec.mctpSession = none
      ∧ t.chip.sec.pfSession = s.chip.sec.pfSession)
    ∧ (s.chip.sec.pfSession = some x → ∃ t, exec (.roleSessionExpiry r now false) s = .next t ∧ t.chip.sec.pfSession = none
      ∧ t.chip.sec.mctpSession = s.chip.sec.mctpSession))

/-- Keys and images by role requests (R417, R421, R422, R424, R435 to R440): a key pair is enrolled or revoked, a verified image goes into the
slot that did not boot, a rollback counter only rises, and keys are unwrapped under the KEK that the table names into the slots they
serve. The bytes of these bodies are the model's choice (assumption 61). -/
def Obligations.RoleRequestsChangeKeys : Prop :=
  ∀ (s : State) (p : ReqPath) (b : RoleReq), s.chip.alive = true → s.chip.reqTaken p →
    (b.subop = 3 → ∃ d, exec (.enrol p b) s = .next (s.put d) ∧ s.chip.roleRequest p b (fun c d =>
      let id := keyIdOf (enrolKeys b.body)
      c.sec.flashOk = true →
      (leAt b.body 0 1 = 1 → makerCertOk (enrolKeys b.body) (enrolExtra b.body) = false → d = c.answer p 0xB1 0 [])
      ∧ (leAt b.body 0 1 = 1 → makerCertOk (enrolKeys b.body) (enrolExtra b.body) = true → ∃ e : Chip, d = e.answer p 0 id []
        ∧ e.sec.enrolled 1 id = some (Enrolled.mk 1 id (enrolKeys b.body) []))
      ∧ (leAt b.body 0 1 = 2 → c.sec.installer = none → (enrolExtra b.body).length = 32 → ∃ e : Chip, d = e.answer p 0 id []
        ∧ e.sec.installer = some (Enrolled.mk 2 id (enrolKeys b.body) (enrolExtra b.body)))
      ∧ (∀ i kek, leAt b.body 0 1 = 3 → c.sec.installer = some i → aesUnwrap i.kek (enrolExtra b.body) = some kek →
        (c.sec.keys.filter (fun k => k.role == 3 && k.keyId != id)).length < 8 → ∃ e : Chip, d = e.answer p 0 id []
        ∧ e.sec.enrolled 3 id = some (Enrolled.mk 3 id (enrolKeys b.body) kek))) d)
    ∧ (b.subop = 4 → ∃ d, exec (.revoke p b) s = .next (s.put d) ∧ s.chip.roleRequest p b (fun c d =>
      let role := if b.role = 1 then 1 else 3
      let id := BitVec.ofNat 64 (leAt b.body 0 8)
      (c.sec.enrolled role id = none → d = c.answer p 0xB6 0 [])
      ∧ (c.sec.enrolled role id ≠ none → c.sec.flashOk = true → ∃ e : Chip, d = e.answer p 0 0 [] ∧ e.sec.enrolled role id = none)) d)
    ∧ (∀ image, b.subop = 5 → ∃ d, exec (.imageStage p b image) s = .next (s.put d) ∧ s.chip.roleRequest p b (fun c d =>
      let type := leAt b.body 0 1
      1 ≤ type → type ≤ 4 → leAt b.body 16 8 = image.header.length + image.payload.length →
      (c.sec.imageCheck type image ≠ 0 → d = c.answer p (c.sec.imageCheck type image) 0 [])
      ∧ (c.sec.imageCheck type image = 0 → c.sec.flashOk = true → ∃ e : Chip, d = e.answer p 0 (BitVec.ofNat 64 (leAt image.header 8 4)) []
        ∧ Tab.find? e.sec.images (2 * type + (1 - Tab.getD c.sec.booted type 0)) = some image ∧ e.sec.booted = c.sec.booted)) d)
    ∧ (b.subop = 6 → ∃ d, exec (.svnCommit p b) s = .next (s.put d) ∧ s.chip.roleRequest p b (fun c d =>
      let type := leAt b.body 0 1
      let svn := leAt b.body 4 4
      1 ≤ type → type ≤ 4 → (svn < c.sec.counter type → d = c.answer p 0xB4 0 [])
      ∧ (svn = c.sec.counter type → d = c.answer p 0 0 [])
      ∧ (c.sec.counter type < svn → c.sec.flashOk = true → ∃ e : Chip, d = e.answer p 0 0 [] ∧ e.sec.counter type = svn)) d)
    ∧ (b.subop = 7 → ∃ d, exec (.fabricKey p b) s = .next (s.put d) ∧ s.chip.roleRequest p b (fun c d =>
      let pkey := BitVec.ofNat 16 (leAt b.body 0 2)
      let tAct := BitVec.ofNat 64 (leAt b.body 8 8)
      (c.sec.installer = none → d = c.answer p 0xB7 0 [])
      ∧ (∀ i key, c.sec.installer = some i → aesUnwrap i.kek (sliceBytes b.body 16 40) = some key →
        (c.tActOk tAct = false ∨ 2 ≤ (c.sec.master.vals.filter (fun k => k.pkey == pkey)).length → d = c.answer p 0xB6 0 [])
        ∧ (∀ slot, c.tActOk tAct = true → (c.sec.master.vals.filter (fun k => k.pkey == pkey)).length < 2 → c.freeKeySlot = some slot →
          ∃ (e : Chip) (k : KeySlot), d = e.answer p 0 (BitVec.ofNat 64 slot) [] ∧ k.kind = 1 ∧ k.key = key ∧ k.pkey = pkey ∧ k.tAct = tAct
          ∧ Tab.find? e.sec.master slot = some k ∧ ∀ r, c.inService r = true → Tab.find? (e.reach r).cipher.slots slot = some k))) d)
    ∧ (b.subop = 8 → ∃ d, exec (.kekSet p b) s = .next (s.put d) ∧ s.chip.roleRequest p b (fun c d =>
      let i := leAt b.body 1 1
      let slot := if leAt b.body 0 1 = 3 then i else 16 + i
      (leAt b.body 0 1 = 3 ∧ i < 16) ∨ (leAt b.body 0 1 = 4 ∧ 1 ≤ i ∧ i < 64) → c.sec.flashOk = true →
      ∀ x, c.sec.enrolled b.role.toNat b.keyId = some x →
        (aesUnwrap x.kek (sliceBytes b.body 8 40) = none → d = c.answer p 0xB7 0 [])
        ∧ (∀ key, aesUnwrap x.kek (sliceBytes b.body 8 40) = some key → ∃ (e : Chip) (k : KeySlot),
          d = e.answer p 0 (BitVec.ofNat 64 slot) [] ∧ Tab.find? e.sec.gate.slots slot = some k ∧ k.key = key
          ∧ k.kind.toNat = leAt b.body 0 1 ∧ k.index.toNat = i)) d)
    ∧ (b.subop = 9 → ∃ d, exec (.hostKey p b) s = .next (s.put d) ∧ s.chip.roleRequest p b (fun c d =>
      (pathFn p = none → d = c.answer p 0xB6 0 [])
      ∧ (∀ f kek, pathFn p = some f → c.tenancyKek f = some kek →
        (aesUnwrap kek (sliceBytes b.body 0 40) = none → d = c.answer p 0xB7 0 [])
        ∧ (∀ key slot, aesUnwrap kek (sliceBytes b.body 0 40) = some key → c.freeKeySlot = some slot →
          ∃ (e : Chip) (k : KeySlot), d = e.answer p 0 (BitVec.ofNat 64 slot) [] ∧ k.kind = 2 ∧ k.key = key ∧ k.function = f
          ∧ ∀ r ∈ c.grantReaches f, c.inService r = true → Tab.find? (e.reach r).cipher.slots slot = some k))) d)

/-- Fabric keys age and go, and the cipher engine's work (R438, R440 to R443): the older key of a partition is erased everywhere once the newer
has been in force for KEY_RETIRE; a key with no newer one raises its alert at 2^45 ns and again at 2^46; a message in one invocation is
sealed as AES-256-GCM seals it. -/
def Obligations.KeysAgeAndCipherSeals : Prop :=
  (∀ (s : State) (r : ReachId) (now : Time) slot k, s.chip.alive = true → Tab.find? s.chip.sec.master slot = some k →
    let c := s.chip.at r now
    c.steadyReach ≠ none →
    (∀ n ∈ c.sec.master.vals, n.pkey = k.pkey → later k.tAct n.tAct = true →
      notBefore (n.tAct + nsTime (1000000 * fld c.sec.ciphCtrl 0 16)) c.gateTime = true →
      ∃ t, exec (.fabricKeyRetire r now slot) s = .next t ∧ Tab.find? t.chip.sec.master slot = none
      ∧ ∀ q, Tab.find? (t.chip.reach q).cipher.slots slot = none)
    ∧ ((∀ n ∈ c.sec.master.vals, n.pkey = k.pkey → later k.tAct n.tAct = false) → k.aged < 2 →
      nsPow (45 + k.aged) ≤ timeDiff k.tAct c.gateTime → exec (.fabricKeyAgeAlert r now slot) s = .next (s.put
        (Chip.gateHealth { c with sec := { c.sec with master := Tab.set c.sec.master slot { k with aged := k.aged + 1 } } } 7 0xC 0))))
  ∧ (∀ (s : State) (p : ReqPath) (b : RoleReq) (x : CipherData) f k, s.chip.alive = true → s.chip.reqTaken p → b.subop = 0xC →
    (∀ e, s.chip.roleCheck p b = some e → exec (.cipher p b x) s = .next (s.put (s.chip.roleRefused p b e.1 e.2)))
    ∧ (let q := cipherReqOf b.body
      let sealed := gcmSeal k.key q.iv (sliceBytes x.aad 0 q.aadLen.toNat) (sliceBytes x.src 0 q.length.toNat)
      s.chip.roleCheck p b = none → pathFn p = some f → q.first = true → q.last = true → q.dir = false → q.host = true → q.length ≠ 0 →
      s.chip.cipherRefusal (some f) q = 0 → (s.chip.engine q.engine).hostKey? f q.keySlot = some k →
      exec (.cipher p b x) s = .next (s.put ((((s.chip.hostWrite f q.dst.toNat sealed.1).hostWrite f q.tag.toNat sealed.2).putCtx q CipherCtx.reset).answer
        p 0 (cipherResult q.length.toNat false) []))))

/-- The SPDM responder and the management endpoint (R371, R433, R434, R531): messages are answered in the order of the standard that the spec
names (the order and the codes are the model's, PRESUMED), a signed answer leaves its transcript hash for the cosignature, and management
requests read and write registers and site tables. -/
def Obligations.ManagementRequestsAnswered : Prop :=
  ∀ (s : State) (eid : BitVec 8) (msg : List Byte), s.chip.alive = true →
    let c := s.chip
    let x := s.chip.spdmOf eid
    exec (.spdmGetVersion eid msg) s = .next (s.put ((c.setSpdm eid { SpdmConn.reset with version := true, vca := msg ++ [0x12, 0x13] }).emit (.spdm eid 0x04 [0x12, 0x13])))
    ∧ (x.version = true → x.caps = false → exec (.spdmGetCapabilities eid msg) s = .next (s.put
        ((c.setSpdm eid { x with caps := true, vca := x.vca ++ msg ++ [0x16] }).emit (.spdm eid 0x61 [0x16]))))
    ∧ (x.caps = true → x.algs = false → exec (.spdmNegotiateAlgorithms eid msg true) s = .next (s.put
        ((c.setSpdm eid { x with algs := true, vca := x.vca ++ msg ++ [1, 2, 2] }).emit (.spdm eid 0x63 [1, 2, 2]))))
    ∧ (x.algs = true → exec (.spdmGetDigests eid msg) s = .next (s.put
        ((c.setSpdm eid { x with certs := x.certs ++ msg ++ 1 :: slot0Digest }).emit (.spdm eid 0x01 (1 :: slot0Digest)))))
    ∧ (∀ offset length, x.algs = true → offset ≤ (Config.identityChain 0).length → exec (.spdmGetCertificate eid msg 0 offset length) s = .next (s.put
        ((c.setSpdm eid { x with certs := x.certs ++ msg ++ ((Config.identityChain 0).drop offset).take length }).emit
          (.spdm eid 0x02 (((Config.identityChain 0).drop offset).take length)))))
    ∧ (x.algs = true → ∃ (nonce : List Byte) (n : Nat), nonce.length = 32 ∧
        let h := sha384 (x.vca ++ x.certs ++ msg ++ slot0Digest ++ nonce)
        exec (.spdmChallenge eid msg 0 false) s = .next (s.put ((Chip.setSpdm { c with freeCtr := n } eid { x with certs := [], lastSigned := some h }).emit
          (.spdm eid 0x03 (slot0Digest ++ nonce ++ Config.edSign (beBytes 48 h.toNat))))))
    ∧ (∀ op : BitVec 8, x.algs = true → op.toNat ≤ 10 ∨ op = 0xFF →
        exec (.spdmGetMeasurements eid msg op false) s = .next (s.put (((c.measures op.toNat).2.setSpdm eid
          { x with meas := x.meas ++ msg ++ (c.measures op.toNat).1 }).emit (.spdm eid 0x60 (c.measures op.toNat).1))))
    ∧ (x.algs = false → exec (.spdmChallenge eid msg 0 false) s = .next (s.put (c.emit (.spdm eid 0x7F [0x04]))))
    ∧ (∀ h, x.lastSigned = some h → exec (.pqCosign eid) s = .next (s.put (c.emit
        (.spdm eid 0x7E (Config.mlSign (beBytes 48 h.toNat ++ leBytes 8 c.sec.eui.toNat))))))
    ∧ (∀ offset length, exec (.pqChain eid offset length) s = .next (s.put (c.emit
        (.spdm eid 0x7E (((Config.identityChain 1).drop offset).take (min length 1024))))))
    ∧ (∀ offset a, offset % 8 = 0 → pathReg (.mctp eid) offset = some a →
        exec (.mctpRegRead eid offset) s = .next (s.put ((c.regRead (.mctp eid) a).2.emit (.regRead eid (c.regRead (.mctp eid) a).1)))
        ∧ ∀ v, exec (.mctpRegWrite eid offset v) s = .next (s.put ((c.regWrite (.mctp eid) offset a (~~~ 0) v).emit (.mctpStatus eid 0 []))))
    ∧ (∀ offset, offset % 8 ≠ 0 ∨ pathReg (.mctp eid) offset = none →
        exec (.mctpRegRead eid offset) s = .next (s.put (c.emit (.regRead eid 0))))
    ∧ (∀ t, exec (.mctpConfigTable eid true t) s = .next (s.put (c.emit (.mctpStatus eid (BitVec.ofNat 8 (c.configRead (.mctp eid) t).1) (c.configRead (.mctp eid) t).2)))
        ∧ exec (.mctpConfigTable eid false t) s = .next (s.put ((c.configWrite (.mctp eid) t).2.2.emit
          (.mctpStatus eid (BitVec.ofNat 8 (c.configWrite (.mctp eid) t).1) []))))

/-! ### Faults and self-test (chapter 16) -/

/-- Resets of tiles and reaches (R31, R34, R113, R281, R435): the tile-array reset empties the tiles of its groups and completes as it ends, a
reach reset leaves the reach out of service with memory outside the scratch window, repairs, self-test record and TX_INV kept and no
tile-array reset in progress there, and at its end the reach is in service with the fabric keys. -/
def Obligations.ResetsOfTilesAndReaches : Prop :=
  (∀ (s : State) ref (r : ReachId) (k : BitVec 8) (mask : Word16), s.chip.alive = true → s.chip.taking ref = true → k.toNat = r.val →
    (mask.toNat < 16 → (∀ t ∈ groupTiles mask.toNat, s.chip.holdsTile ref.fn (64 * r.val + t) = true) → s.chip.inService r = true →
      s.chip.gate.tileResets.any (fun t => t.cmd == ref) = false →
      let d := s.chip.resetGroups r mask.toNat
      exec (.resetTiles ref k (.begins mask)) s = .next (s.put (Chip.settle { d with
        gate := { d.gate with tileResets := d.gate.tileResets ++ [{ cmd := ref, reach := r, mask := mask }] } })))
    ∧ (∀ t, s.chip.gate.tileResets.find? (fun t => t.cmd == ref) = some t →
      let d := Chip.complete { s.chip with gate := { s.chip.gate with tileResets := s.chip.gate.tileResets.filter (fun t => t.cmd != ref) } }
        ref t.reach.val 0 0
      exec (.resetTiles ref k .ends) s = .next (s.put (forEach (d.reach t.reach).plan.plans d (fun c p => c.tryAgree t.reach p.handle)).settle))
    ∧ (mask.toNat < 16 → (∃ t ∈ groupTiles mask.toNat, s.chip.holdsTile ref.fn (64 * r.val + t) = false) →
      s.chip.gate.tileResets.any (fun t => t.cmd == ref) = false →
      exec (.resetTiles ref k (.begins mask)) s = .next (s.put ((s.chip.complete ref 4 0x91 0).settle)))
    ∧ (ref.fn = 0 → s.chip.sec.logRefusal = none → (s.chip.reach r).service = .inService →
      exec (.resetReach ref k) s = .next (s.put ((Chip.reachReset { s.chip.log 0xB (Who.function ref.fn) 0 [BitVec.ofNat 8 r.val] with
        gate := { (s.chip.log 0xB (Who.function ref.fn) 0 [BitVec.ofNat 8 r.val]).gate with
          resets := (s.chip.log 0xB (Who.function ref.fn) 0 [BitVec.ofNat 8 r.val]).gate.resets ++ [(r, ref)] } } r).settle)))
    ∧ (ref.fn ≠ 0 → exec (.resetReach ref k) s = .next (s.put ((s.chip.complete ref 4 0x91 0).settle))))
  ∧ (∀ (c : Chip) (r : ReachId) mask t, t < 64 → mask.testBit (t / 16) = true →
      (((c.resetGroups r mask).reach r).tile t).spad = [] ∧ (((c.resetGroups r mask).reach r).tile t).recs = []
      ∧ (((c.resetGroups r mask).reach r).tile t).aflags = 0 ∧ (((c.resetGroups r mask).reach r).tile t).progs = []
      ∧ (((c.resetGroups r mask).reach r).tile t).iqCount = 0)
  ∧ (∀ x : Reach, x.afterReset.service = .inReset ∧ x.afterReset.tiles = [] ∧ x.afterReset.rme = Reach.reset.rme ∧ x.afterReset.plan = Reach.reset.plan
      ∧ x.afterReset.mem.repair = x.mem.repair ∧ x.afterReset.mem.retired = x.mem.retired ∧ x.afterReset.bist.record = x.bist.record
      ∧ (∀ p v, Tab.find? x.lanemap p = some v → ∃ w, Tab.find? x.afterReset.lanemap p = some w ∧ fld w 0 4 = fld v 0 4)
      ∧ ∀ a, Mem.read x.afterReset.mem.bytes a = if scratchPa ≤ a ∧ a < scratchPa + scratchBytes then 0 else Mem.read x.mem.bytes a)
  ∧ (∀ (c : Chip) (r : ReachId), ((c.reachReset r).reach r).service = .inReset ∧ ((c.holdReach r).reach r).service = .held
      ∧ (∀ t ∈ (c.reachReset r).gate.tileResets, t.reach ≠ r))
  ∧ (∀ (s : State) (r : ReachId) now, s.chip.alive = true → s.chip.sec.recovery = false → s.chip.gate.shutState.toNat < 2 →
      (s.chip.reach r).service = .inReset → s.chip.sec.bootFail.contains 2 = false → s.chip.xlt.lost = false →
      ∃ d : Chip, exec (.reachResetComplete r now) s = .next (s.put (((d.bistFinished r).settle).shutResume))
      ∧ (d.reach r).service = .inService ∧ (d.reach r).cipher.slots = s.chip.sec.master ∧ ∀ e ∈ d.gate.resets, e.1 ≠ r)

/-- Self-tests (R450, R452, R454 to R463): a BIST_RUN logs, isolates and tests the reaches that it names; a reach whose window does not come ends
untested with cause 1; a core's second expiry within 100 ms, or an error where its firmware lies, resets its reach, or the module; a tile's test in a
gap notes its time or holds the reach; a part not tested for twice its period is reported once. -/
def Obligations.SelfTestsAndWatchdogs : Prop :=
  (∀ (s : State) ref (mask kind : BitVec 8) iova (runs : Quad TestRun), s.chip.alive = true → s.chip.taking ref = true → ref.fn = 0 →
    let named := allReaches.filter (fun r => mask.toNat.testBit r.val)
    let d := s.chip.log 0xB (Who.function ref.fn) 0 [mask, kind]
    let e : Chip := { d with gate := { d.gate with bists := d.gate.bists ++ [BistRun.mk ref named (kind == 1) iova named 0] } }
    named ≠ [] → mask.toNat < 16 → kind.toNat < 2 → s.chip.sec.bootFail.contains 4 = false → s.chip.sec.logRefusal = none →
    (∀ r ∈ named, (s.chip.reach r).plan.plans = [] ∧ ((s.chip.reach r).service = .inService ∨ (s.chip.reach r).service = .held)) →
    exec (.bistRun ref mask kind iova runs) s = .next (s.put (((forEach named e (fun c r =>
      match runs.get r with
      | .waits => c.testBegin r 2
      | .ran t => ((c.testBegin r 2).testRuns r t).bistEnded r)).shutResume).settle)))
  ∧ (∀ (c : Chip) (r : ReachId) kind, ((c.testBegin r kind).reach r).service = .testing ∧ ((c.testBegin r kind).reach r).bist.running = true)
  ∧ (∀ (s : State) (r : ReachId) now, s.chip.alive = true → (s.chip.at r now).windowLate r = true →
    ((s.chip.reach r).bist.kind = 2 → exec (.bistWindowTimeout r now) s = .next (s.put (((((s.chip.at r now).testUntested r).bistEnded r).settle).shutResume)))
    ∧ ((s.chip.reach r).bist.kind = 1 → exec (.bistWindowTimeout r now) s = .next (s.put (((s.chip.at r now).testUntested r).quickDone r)))
    ∧ ((s.chip.reach r).bist.kind = 0 → exec (.bistWindowTimeout r now) s = .next (s.put (((s.chip.at r now).testUntested r).shutTested r)))
    ∧ ∃ x, (((s.chip.at r now).testUntested r).reach r).bist.record = some x ∧ x.outcome = 2 ∧ x.cause = 1)
  ∧ (∀ (s : State) (r : ReachId) now, s.chip.alive = true →
    (∀ core : Fin 12, core.val < 8 → s.chip.inService r = true → ∃ d : Chip,
      (d.reach r).service = .inService ∧ (d.reach r).mem.bytes = (s.chip.reach r).mem.bytes ∧
      let again := ∃ t, Tab.find? (s.chip.reach r).bist.expiry core.val = some t ∧ timeDiff t ((s.chip.at r now).now r) < watchSpan
      let sick := ∃ l ∈ (s.chip.reach r).mem.ue, lpBase ≤ 64 * l ∧ 64 * l < lpAvail
      (core.val = Config.healthCore.val ∨ again ∨ sick → exec (.keeperWatchdogExpiry r now core) s = .next (s.put (d.reachReset r).settle))
      ∧ (core.val ≠ Config.healthCore.val → ¬ again → ¬ sick → exec (.keeperWatchdogExpiry r now core) s = .next (s.put d.settle)))
    ∧ (∀ core : Fin 12, 8 ≤ core.val → (∀ e ∈ s.chip.gate.expiry, watchSpan ≤ timeDiff e.2 ((s.chip.at r now).now r)) →
      exec (.keeperWatchdogExpiry r now core) s = .next (s.put (Chip.gateHealth { s.chip.at r now with
        gate := { s.chip.gate with expiry := Tab.set s.chip.gate.expiry core.val ((s.chip.at r now).now r) } } 7 0x0D core.val)))
    ∧ (∀ core : Fin 12, 8 ≤ core.val → (∃ e ∈ s.chip.gate.expiry, timeDiff e.2 ((s.chip.at r now).now r) < watchSpan) →
      exec (.keeperWatchdogExpiry r now core) s = .next (s.put (moduleReset (Chip.gateHealth { s.chip.at r now with
        gate := { s.chip.gate with expiry := Tab.set s.chip.gate.expiry core.val ((s.chip.at r now).now r) } } 6 0x0D core.val)))))
  ∧ (∀ (s : State) (r : ReachId) now (t : TileId), s.chip.alive = true → (s.chip.at r now).testGap r t.val = true →
    exec (.tileServiceTest r now t none) s = .next (s.put (((s.chip.at r now).onBist r (fun b =>
      { b with lastPass := Tab.set b.lastPass t.val now, overdue := b.overdue.filter (fun k => k != t.val) })).settle))
    ∧ ∀ u, exec (.tileServiceTest r now t (some u)) s = .next (s.put ((((s.chip.at r now).health r ((s.chip.at r now).tileOwner r t.val) 5
        (testBlock u) t.val 0 (Tab.getD (s.chip.reach r).bist.lastPass t.val 0) 0).holdReach r).settle)))
  ∧ (∀ (s : State) (r : ReachId) now (part : Fin 66), s.chip.alive = true → s.chip.inService r = true →
    (s.chip.reach r).bist.overdue.contains part.val = false →
    (2 * (s.chip.reach r).bist.periodS : Int) * 1000000000 * 65536
      < timeDiff (Tab.getD (s.chip.reach r).bist.lastPass part.val (s.chip.reach r).bist.inSince) ((s.chip.at r now).now r) →
    exec (.serviceTestOverdue r now part) s = .next (s.put (((s.chip.at r now).onBist r (fun b => { b with overdue := part.val :: b.overdue })).health r
      (if part.val < 64 then (s.chip.at r now).tileOwner r part.val else 0) 7 0x12 part.val 0 0 0)))

/-! ### Gauges and trace (chapter 17) -/

/-- Gauges and trace records (R466 to R475): a snapshot latches one object's gauges for its path, or counts a denial; arming restarts the capture;
a trigger fires, travels and freezes; the timers write their records; frames of up to 16 records leave in stream mode; a dump copies what
its reaches hold. -/
def Obligations.GaugesAndTrace : Prop :=
  (∀ (s : State) (p : RegPath) (v : Word64), s.chip.alive = true → s.chip.pathOpen p = true →
    (∀ owner l, s.chip.gaugeRow (pathBlock p) (gaugeSel v) = some (owner, l) → s.chip.mayGauge p owner = true → ∃ x : Snap,
      x.owner = owner ∧ x.values = l.map (BitVec.ofNat 64) ∧ x.time = s.chip.snapTime (gaugeSel v) ∧
      exec (.gaugeSnap p v) s = .next (s.put { s.chip with gate := { s.chip.gate with snaps := Tab.set s.chip.gate.snaps (pathBlock p).val x } }))
    ∧ (∀ owner l, s.chip.gaugeRow (pathBlock p) (gaugeSel v) = some (owner, l) → s.chip.mayGauge p owner = false →
      exec (.gaugeSnap p v) s = .next (s.put (s.chip.gaugeDenied p)))
    ∧ (flag v 3 = true → s.chip.allows p 3 = true → s.chip.sec.logRefusal = none → ∃ d : Chip,
      d.sec.keys = s.chip.sec.keys ∧ (∀ r, d.reach r = s.chip.reach r) ∧
      exec (.trcCtrlArm p v) s = .next (s.put (d.trcControl (v &&& trcCtrlMask))))
    ∧ (∀ r, flag v 4 = true → s.chip.allows p 3 = true → s.chip.sec.logRefusal = none → allReaches.find? s.chip.inService = some r →
      ∃ d : Chip, d.gate.trcTrig = v &&& trcTrigMask ∧ (∀ q, d.reach q = s.chip.reach q) ∧ exec (.trcTrigFire p v) s = .next (s.put (d.fire r 6)))
    ∧ (flag v 0 = true → s.chip.allows p 3 = true → s.chip.sec.logRefusal = none → s.chip.gate.dumpBusy = false → ∃ d : Chip,
      d.gate.dumpMask.toNat = fld v 4 4 ∧ (∀ q, d.reach q = s.chip.reach q) ∧
      exec (.trcDumpGo p v) s = .next (s.put { d with gate := { d.gate with dumpBusy := d.dumpOk, dumpErr := !d.dumpOk } })))
  ∧ (∀ (c : Chip) v, flag v 3 = true → ∀ r, ((c.trcControl v).reach r).trace.frozen = false ∧ ((c.trcControl v).reach r).trace.postLeft = none
      ∧ (flag v 1 = false → ((c.trcControl v).reach r).trace.store = []))
  ∧ (∀ (s : State) (r : ReachId) (now : Time), s.chip.alive = true →
    let c := s.chip.at r now
    (∀ src, s.chip.gate.trigNotices.contains (r, src) = true → s.chip.inService r = true → exec (.traceTriggerNotice r now src) s = .next (s.put
      (Chip.triggerRecord { c with gate := { c.gate with trigNotices := c.gate.trigNotices.erase (r, src) } } r src)))
    ∧ (s.chip.inService r = true → s.chip.gate.trigTimeDone.contains r = false → flag s.chip.gate.trcCtrl 3 = true → fld s.chip.gate.trcTrig 0 4 = 5 →
      notBefore ((s.chip.gate.trcTrigTime >>> 16) <<< 16) (c.now r) = true → exec (.traceTriggerTime r now) s = .next (s.put
        { c.fire r 5 with gate := { (c.fire r 5).gate with trigTimeDone := (c.fire r 5).gate.trigTimeDone ++ [r] } }))
    ∧ (s.chip.streaming = false → (s.chip.reach r).trace.postLeft = some 0 → exec (.traceCaptureFull r now) s = .next (s.put
        (c.onTrace r (fun t => { t with frozen := true }))))
    ∧ (s.chip.inService r = true → exec (.traceSyncTimer r now) s = .next (s.put (c.trace r 8 74 0xFF
        (BitVec.ofNat 64 ((c.reach r).time.era.toNat % 2 ^ 16 + (c.reach r).time.servo.code * 2 ^ 16)) (BitVec.ofNat 64 (c.reach r).tdc.count.toNat))))
    ∧ (∀ t, (s.chip.reach r).trace.stallSince = some t → (s.chip.reach r).trace.waiting = [] → ∃ d : Chip, ∃ f,
        exec (.traceStall r now) s = .next (s.put (d.tdc r 0xB f 74 0 (BitVec.ofNat 64 (timeNs (c.now r - t)))))
        ∧ (d.reach r).trace.stallSince = none ∧ (d.reach r).trace.stalls = sat48 ((s.chip.reach r).trace.stalls + 1)
        ∧ (d.reach r).trace.stallNs = sat48 ((s.chip.reach r).trace.stallNs + timeNs (c.now r - t)))
    ∧ exec (.traceRoomReturn r now) s = .next (s.put (c.onTrace r (fun t => t.flushDrop r s.chip.streaming (c.now r)))))
  ∧ (∀ (s : State) (r : ReachId), s.chip.alive = true → s.chip.streaming = true → s.chip.traceTurn = some r → (s.chip.reach r).trace.waiting = [] →
      exec .traceFrameSend s = .next (s.put (Chip.onTrace { s.chip.emit (.traceFrame r (s.chip.reach r).trace.frameNo ((s.chip.reach r).trace.store.take 16)) with
        gate := { s.chip.gate with trcNext := r + 1, trcFrames := sat48 (s.chip.gate.trcFrames + 1), trcBytes := sat48 (s.chip.gate.trcBytes + 8 * (1 + 4 * ((s.chip.reach r).trace.store.take 16).length)) } }
        r (fun t => { t with store := t.store.drop 16, frameNo := t.frameNo + 1 }))))
  ∧ (∀ (s : State), s.chip.alive = true → exec .traceAlignmentBlock s = .next (s.put (s.chip.emit .traceAlign)))
  ∧ (∀ (s : State), s.chip.alive = true → s.chip.gate.dumpBusy = true → s.chip.hostGone 0 = false →
      s.chip.gate.dumpAddr.toNat + dumpRegion * s.chip.dumpReaches.length ≤ 2 ^ 64 →
      (s.chip.dumpOk = true → ∃ d : Chip, exec (.traceDumpDone none) s = .next (s.put d) ∧ d.gate.dumpBusy = false ∧ d.gate.dumpErr = false
        ∧ d.host.mem = (s.chip.dumpCopy (dumpRegion * s.chip.dumpReaches.length) 0 s.chip.dumpReaches).host.mem)
      ∧ (s.chip.dumpOk = false → exec (.traceDumpDone none) s = .next (s.put { s.chip with gate := { s.chip.gate with dumpBusy := false, dumpErr := true } })))

/-! ### Power, start and shut-down (chapters 18 and 19) -/

/-- Power and temperature (R37, R476 to R486, R492, R517): rails rise and fall with PWR_EN, the input and the thermal trip, and one that fails takes
the later ones of its reach and its links with it; a droop holds TCLK at its floor; the capping and thermal targets move by 36 MHz a tick within the floor and 3,600 MHz; 110 °C holds a reach; a limit not met at
the floor stops plans. -/
def Obligations.PowerAndTemperature : Prop :=
  (∀ (s : State) (rails : Quad (Fin 8)) (lowLong : Bool), s.chip.gate.pwrEn = false →
    (lowLong = true ∨ (s.chip.gate.cutOff = false ∧ s.chip.gate.thermTrip = false)) →
    let d : Chip := { s.chip with gate := { s.chip.gate with
      pwrEn := true, cutOff := false, thermTrip := false, thermTrips := 0, pwrgd := true } }
    exec (.pwrEnRise rails lowLong) s = .next (s.put (if s.chip.gate.mrstN then (d.moduleReset rails).boot else d.moduleReset noRails)))
  ∧ (∀ (s : State), s.chip.gate.pwrEn = true →
    exec .pwrEnFall s = .next (s.put (Chip.powerOff { s.chip with gate := { s.chip.gate with pwrEn := false } })))
  ∧ (∀ (s : State) lo hi, s.chip.gate.pwrgd = true → (100 ≤ lo ∨ 10 ≤ hi) →
    exec (.inputCutOff lo hi) s = .next (s.put (Chip.powerOff { s.chip with gate := { s.chip.gate with cutOff := true } })))
  ∧ (∀ (s : State) hot gate, s.chip.gate.pwrgd = true → (120 < hot ∨ 110 < gate) →
    exec (.thermTrip hot gate) s = .next (s.put (Chip.powerOff { s.chip with gate := { s.chip.gate with
      thermTrip := true, thermTrips := s.chip.gate.thermTrips + 1 } })))
  ∧ (∀ c : Chip, c.powerOff.gate.pwrgd = false ∧ c.powerOff.sec.keys = c.sec.keys ∧ c.powerOff.sec.log = c.sec.log ∧ c.powerOff.alive = false
    ∧ ∀ r, (c.powerOff.reach r).service = .inReset ∧ (c.powerOff.reach r).pwr.railsOk = false)
  ∧ (∀ (s : State) (r : ReachId) (now : Time), s.chip.alive = true →
    let c := s.chip.at r now
    (∀ k, (s.chip.reach r).service ≠ .inReset → exec (.railFault r now (.rail k)) s = .next (s.put
      ((((c.health r 0 4 0x10 0 0 0 0).reachReset r).onPwr r (fun p => p.railFalls k)).settle)))
    ∧ ((s.chip.reach r).service ≠ .inReset →
      exec (.railFault r now .pll) s = .next (s.put (((c.health r 0 4 0x0F 0 0 0 0).reachReset r).settle)))
    ∧ (∀ (p : Power) k, (p.railFalls k).railsOk = false ∧ (p.railFalls k).rails ≤ p.rails)
    ∧ (∀ mv, clampNat 20 80 (fld s.chip.gate.cap 24 8) < mv → (s.chip.reach r).clocked = true → exec (.droopTrip r now mv) s = .next (s.put
        (c.onPwr r (fun p => p.trip (c.floorMhz r) (c.tclkTarget r) (c.now r)))))
    ∧ exec (.droopClear r now) s = .next (s.put (c.onPwr r (fun p => p.clear (c.floorMhz r) (c.tclkTarget r) (c.now r))))
    ∧ (∀ x : Sensors, hottest x.die ≤ 110 → hottest x.hbm ≤ 105 → hottest x.lp ≤ 105 → ∃ d : Chip,
        exec (.thermalTick r now x) s = .next (s.put d.settle) ∧ d.gate.hot = decide (105 < hottest x.gate)
        ∧ (d.reach r).service = (s.chip.reach r).service ∧ (d.reach r).pwr.dieMax = BitVec.ofNat 8 (hottest x.die)
        ∧ (d.reach r).pwr.thermTarget =
          (let t := (s.chip.reach r).pwr.thermTarget
          if 100 < hottest x.die ∨ 95 < hottest x.hbm ∨ 95 < hottest x.lp then (if c.floorMhz r < t then max (c.floorMhz r) (t - 36) else t)
          else if hottest x.die ≤ 97 ∧ hottest x.hbm ≤ 92 ∧ hottest x.lp ≤ 92 then min 3600 (t + 36) else t))
    ∧ (∀ x : Sensors, s.chip.inService r = true → (110 < hottest x.die ∨ 105 < hottest x.hbm ∨ 105 < hottest x.lp) → ∃ d : Chip,
        exec (.thermalTick r now x) s = .next (s.put ((d.holdReach r).settle)) ∧ (d.reach r).service = .inService)
    ∧ (c.steadyReach = some r → (c.reach r).time.wholeSecond = true → exec (.ppsOutEdge r now) s = .next (s.put (c.emit .ppsPulse))))
  ∧ (∀ (s : State), s.chip.alive = true →
    (∀ w, 2300 < w → exec (.powerPeakTrip w) s = .next (s.put (forEach allReaches s.chip (fun c r => c.droop r))))
    ∧ (∀ avg, ∃ t, exec (.powerCapTick avg) s = .next t ∧ t.chip.gate.powerAvg = avg ∧ ∀ r, (t.chip.reach r).pwr.capTarget =
        (let x := (s.chip.reach r).pwr.capTarget
        if s.chip.moduleW < avg then (if s.chip.floorMhz r < x then max (s.chip.floorMhz r) (x - 36) else x)
        else if 100 * avg < 98 * s.chip.moduleW then min 3600 (x + 36) else x))
    ∧ (∀ avg, 1650 < avg → s.chip.allAtFloor = true → s.chip.gate.overTicks < 1000 → exec (.powerLimitUnmet avg) s = .next (s.put
        (forEach (allReaches.filter (fun r => s.chip.inService r)) s.chip (fun c r =>
          (c.health r 0 2 0x10 0 0 0 0).stopPlans r (fun _ => true) .fault StopInfo.none true))))
    ∧ (∀ avg, avg ≤ 1650 → 1000 ≤ s.chip.gate.overTicks → exec (.powerLimitUnmet avg) s = .next (s.put
        (Chip.gateHealth { s.chip with gate := { s.chip.gate with overTicks := 0 } } 7 0x10 0)))
    ∧ (∀ p v, s.chip.pathOpen p = true →
      let f := clampNat 2700 3600 (fld v 12 12)
      let refused := f < clampNat 2700 3600 (fld s.chip.gate.cap 12 12) ∧ ∃ r, ∃ q ∈ (s.chip.reach r).plan.plans, f < q.con.hdr.floorMhz
      (refused → exec (.pwrCapWrite p v) s = .next (s.put (s.chip.ignoreWrite p)))
      ∧ (¬ refused → s.chip.allows p 2 = true → s.chip.sec.logRefusal = none →
        ∃ t, exec (.pwrCapWrite p v) s = .next t ∧ t.chip.gate.cap = BitVec.ofNat 64 (fld v 0 32))))

/-- Module reset, start and orderly shut-down (R31, R422, R478, R479, R497, R498, R507 to R512, R518): a module reset keeps the secure flash and boots
from sampled straps, after Remote Fault on every link; the module is ready once every reach is in service or held; a shut-down drains, tests or skips every reach, and ends with
the rails down. -/
def Obligations.ModuleStartsAndShutsDown : Prop :=
  (∀ (s : State), s.chip.alive = true → exec .moduleReset s = .next (s.put ((s.chip.faultAll.moduleReset s.chip.railsNow).boot)))
  ∧ (∀ (c : Chip) rails, let d := c.moduleReset rails
      d.sec.keys = c.sec.keys ∧ d.sec.rollback = c.sec.rollback ∧ d.sec.log = c.sec.log ∧ d.sec.images = c.sec.images
      ∧ d.sec.pfSession = none ∧ d.sec.mctpSession = none ∧ d.sec.master = [] ∧ d.xlt = Xlt.reset ∧ d.gate.ready = false
      ∧ d.host.clkMode = c.host.clkMode ∧ ∀ r, (d.reach r).mem.repair = (c.reach r).mem.repair ∧ (d.reach r).bist.record = (c.reach r).bist.record
        ∧ (d.reach r).tiles = [] ∧ (d.reach r).service = (if rails.get r = 7 then .starting else .inReset))
  ∧ (∀ (s : State), exec .mrstNLow s = .next (s.put (Chip.moduleReset { s.chip.faultAll with gate := { s.chip.gate with mrstN := false } } noRails)))
  ∧ (∀ (s : State) rails, s.chip.gate.mrstN = false → s.chip.gate.pwrgd = true → exec (.mrstNRelease rails) s = .next (s.put
      ((Chip.moduleReset { s.chip with gate := { s.chip.gate with mrstN := true } } rails).boot)))
  ∧ (∀ (s : State) modid parity mode, exec (.strapChange modid parity mode) s = .next (s.put
      { s.chip with gate := { s.chip.gate with modidLive := modid, parityLive := parity, modeLive := mode } }))
  ∧ (∀ (s : State) runs ms, s.chip.alive = true → s.chip.sec.recovery = false → s.chip.gate.ready = false → s.chip.gate.shutState = 0 →
      let clean := allReaches.all (fun r => (s.chip.reach r).bist.stored 0)
      let d := forEach allReaches { s.chip with gate := { s.chip.gate with clean := clean } } (fun c r => c.startReach r (runs.get r))
      ((∃ r, (s.chip.reach r).service = .starting) → (∀ r, (d.reach r).service = .inService ∨ (d.reach r).service = .held) →
        exec (.moduleReady runs ms) s = .next (s.put ((d.becomeReady ms).settle)))
      ∧ ((∀ r, (s.chip.reach r).service = .inService ∨ (s.chip.reach r).service = .held) →
        exec (.moduleReady runs ms) s = .next (s.put ((s.chip.becomeReady ms).settle))))
  ∧ (∀ (c : Chip) (r : ReachId) run, (c.reach r).service = .starting → c.sec.bootFail = [] → (c.reach r).bist.stored 1 = true →
      ((c.startReach r run).reach r).service = .held)
  ∧ (∀ (s : State) p v, s.chip.alive = true → s.chip.pathOpen p = true → flag v 0 = true → s.chip.allows p 3 = true → s.chip.sec.logRefusal = none →
      s.chip.gate.shutState = 0 → s.chip.gate.shutWaits = false → s.chip.gate.bists = [] → s.chip.sec.log.length + 1 < logMax → ∃ d : Chip,
      exec (.gateShutGo p v) s = .next (s.put d.drainBegin) ∧ d.gate.noTest = flag v 1 ∧ d.gate.drainMs.toNat = fld v 16 16
      ∧ d.drainBegin.gate.shutState = 1 ∧ ∀ r, d.reach r = s.chip.reach r)
  ∧ (∀ (s : State) (r : ReachId) (now : Time) runs, s.chip.alive = true → s.chip.gate.shutState = 1 →
      notBefore (s.chip.gate.shutSince + nsTime (1000000 * clampNat 1 10000 s.chip.gate.drainMs.toNat)) (s.chip.at r now).gateTime = true →
      ∃ d : Chip, exec (.shutdownDrainEnd r now runs) s = .next (s.put ((forEach allReaches d (fun c q => c.shutReach q (runs.get q))).settle))
      ∧ d.gate.shutState = 2 ∧ d.gate.shutLeft = [])
  ∧ (∀ (s : State), s.chip.alive = true → s.chip.gate.shutState = 2 → s.chip.gate.shutLeft = [] →
      ∃ t, exec .shutdownDone s = .next t ∧ t.chip.gate.shutState = 3
      ∧ ∀ r, (t.chip.reach r).pwr.railsOk = false ∧ ∀ w ∈ (t.chip.reach r).mem.repair, w.state ≠ 1 ∧ w.state ≠ 2)
  ∧ (∀ (s : State) p, s.chip.alive = true → s.chip.pathOpen p = true →
      (∀ offset size v o cover w a, accessOf offset size v = some (o, cover, w) → pathReg p o = some a →
        exec (.registerWrite p (.bar0 offset size v)) s = .next (s.put ((s.chip.regWrite p o a cover w).settle)))
      ∧ (∀ f vec masked, regPathFn p = some f → exec (.registerWrite p (.vectorMask vec masked)) s = .next (s.put ((s.chip.vectorMask f vec masked).settle))))

/-! ### Registers (chapter 20) -/

/-- The PF reads every function block and writes only its own (R533): an offset of function `f`'s block names that function's register, what it
reads, but for a gauge that it may not read (R466), is the register's value, and a write of another function's register changes nothing (work that had retired goes on, as after every
write). -/
def Obligations.PfWritesOnlyItsOwnBlock : Prop :=
  (∀ (f : FnId) (o : Nat), o < 0x10000 → pathReg .pf (fnBase + f.val * 0x10000 + o) = (fnReg o).map (RegAddr.fn f))
  ∧ (∀ (c : Chip) (f : FnId) (x : FnReg), c.gaugeOwner (.fn f x) = none → c.regRead .pf (.fn f x) = (c.regWord .pf (.fn f x), c))
  ∧ (∀ (s : State) offset size v o cover w (f : FnId) x, s.chip.alive = true → s.chip.portOpen = true → accessOf offset size v = some (o, cover, w) →
      pathReg .pf o = some (.fn f x) → f ≠ 0 → exec (.registerWrite .pf (.bar0 offset size v)) s = .next (s.put s.chip.settle))
end

