-- ==== Sys2Proof/Laws/Data.lean ====
section
/-!
SUPPORT. Tables and memories: what an operation leaves at each key, and that memories keep their canonical form (assumption 5).
-/

namespace Sys2Proof

/-! ### Four of a kind -/

@[simp] theorem Quad.get_set_self {α : Type} (q : Quad α) (r : ReachId) (v : α) : (q.set r v).get r = v := by
  match r with
  | 0 => rfl
  | 1 => rfl
  | 2 => rfl
  | 3 => rfl

theorem Quad.get_set_ne {α : Type} (q : Quad α) {r k : ReachId} (v : α) (h : k ≠ r) : (q.set r v).get k = q.get k := by
  match r, k, h with
  | 0, 1, _ | 0, 2, _ | 0, 3, _ | 1, 0, _ | 1, 2, _ | 1, 3, _ | 2, 0, _ | 2, 1, _ | 2, 3, _ | 3, 0, _ | 3, 1, _ | 3, 2, _ => rfl
  | 0, 0, h | 1, 1, h | 2, 2, h | 3, 3, h => exact absurd rfl h

@[simp] theorem Quad.set_set {α : Type} (q : Quad α) (r : ReachId) (u v : α) : (q.set r u).set r v = q.set r v := by
  match r with
  | 0 | 1 | 2 | 3 => rfl

@[simp] theorem Quad.set_get {α : Type} (q : Quad α) (r : ReachId) : q.set r (q.get r) = q := by
  match r with
  | 0 | 1 | 2 | 3 => rfl

@[simp] theorem Quad.get_pure {α : Type} (v : α) (r : ReachId) : (Quad.pure v).get r = v := by
  match r with
  | 0 | 1 | 2 | 3 => rfl

@[simp] theorem Quad.get_map {α β : Type} (q : Quad α) (f : α → β) (r : ReachId) : (q.map f).get r = f (q.get r) := by
  match r with
  | 0 | 1 | 2 | 3 => rfl

theorem Quad.map_set {α β : Type} (q : Quad α) (f : α → β) (r : ReachId) (v : α) : (q.set r v).map f = (q.map f).set r (f v) := by
  match r with
  | 0 | 1 | 2 | 3 => rfl

/-! ### Tables -/

@[simp] theorem Tab.find?_set_self {α : Type} (t : Tab α) (k : Nat) (v : α) : Tab.find? (Tab.set t k v) k = some v := by
  induction t with
  | nil => simp [Tab.set, Tab.find?]
  | cons e t ih =>
    obtain ⟨k', v'⟩ := e
    unfold Tab.set
    split
    · simp [Tab.find?]
    · split
      · simp [Tab.find?]
      · rename_i h; simp [Tab.find?, h, ih]

theorem Tab.find?_set_ne {α : Type} (t : Tab α) {k j : Nat} (v : α) (h : j ≠ k) : Tab.find? (Tab.set t k v) j = Tab.find? t j := by
  induction t with
  | nil => simp [Tab.set, Tab.find?, h]
  | cons e t ih =>
    obtain ⟨k', v'⟩ := e
    unfold Tab.set
    split
    · simp [Tab.find?, h]
    · split
      · rename_i h1; subst h1; simp [Tab.find?, h]
      · simp [Tab.find?, ih]

@[simp] theorem Tab.getD_set_self {α : Type} (t : Tab α) (k : Nat) (v d : α) : Tab.getD (Tab.set t k v) k d = v := by
  simp [Tab.getD]

theorem Tab.getD_set_ne {α : Type} (t : Tab α) {k j : Nat} (v d : α) (h : j ≠ k) : Tab.getD (Tab.set t k v) j d = Tab.getD t j d := by
  simp [Tab.getD, Tab.find?_set_ne t v h]

@[simp] theorem Tab.getD_nil {α : Type} (k : Nat) (d : α) : Tab.getD ([] : Tab α) k d = d := rfl

@[simp] theorem Tab.getD_modify_self {α : Type} (t : Tab α) (k : Nat) (d : α) (f : α → α) :
    Tab.getD (Tab.modify t k d f) k d = f (Tab.getD t k d) := by
  simp [Tab.modify]

theorem Tab.getD_modify_ne {α : Type} (t : Tab α) {k j : Nat} (d e : α) (f : α → α) (h : j ≠ k) :
    Tab.getD (Tab.modify t k d f) j e = Tab.getD t j e := by
  simp [Tab.modify, Tab.getD_set_ne t _ e h]

/-! ### Memories -/

theorem Mem.wfFrom_cons {lo a : Nat} {b : Byte} {m : Mem} :
    Mem.wfFrom lo ((a, b) :: m) = true ↔ lo ≤ a ∧ b ≠ 0 ∧ Mem.wfFrom (a + 1) m = true := by
  simp [Mem.wfFrom, and_assoc]

theorem Mem.wfFrom_mono {lo lo' : Nat} {m : Mem} (h : Mem.wfFrom lo' m = true) (hl : lo ≤ lo') : Mem.wfFrom lo m = true := by
  cases m with
  | nil => rfl
  | cons e m =>
    obtain ⟨h1, h2, h3⟩ := Mem.wfFrom_cons.1 h
    exact Mem.wfFrom_cons.2 ⟨Nat.le_trans hl h1, h2, h3⟩

/-- A write keeps the canonical form. -/
theorem Mem.wfFrom_write {m : Mem} {lo a : Nat} (b : Byte) (h : Mem.wfFrom lo m = true) (ha : lo ≤ a) :
    Mem.wfFrom lo (Mem.write m a b) = true := by
  induction m generalizing lo with
  | nil =>
    unfold Mem.write
    split
    · rfl
    · rename_i hb; exact Mem.wfFrom_cons.2 ⟨ha, hb, rfl⟩
  | cons e m ih =>
    obtain ⟨a', b'⟩ := e
    obtain ⟨h1, h2, h3⟩ := Mem.wfFrom_cons.1 h
    unfold Mem.write
    split
    · split
      · exact h
      · rename_i hlt hb
        exact Mem.wfFrom_cons.2 ⟨ha, hb, Mem.wfFrom_cons.2 ⟨by omega, h2, h3⟩⟩
    · split
      · rename_i heq
        split
        · exact Mem.wfFrom_mono h3 (by omega)
        · rename_i hb; subst heq; exact Mem.wfFrom_cons.2 ⟨h1, hb, h3⟩
      · exact Mem.wfFrom_cons.2 ⟨h1, h2, ih h3 (by omega)⟩

theorem Mem.wf_write {m : Mem} (a : Nat) (b : Byte) (h : Mem.wf m = true) : Mem.wf (Mem.write m a b) = true :=
  Mem.wfFrom_write b h (Nat.zero_le a)

theorem Mem.wf_writeBytes {m : Mem} (a : Nat) (bs : List Byte) (h : Mem.wf m = true) : Mem.wf (Mem.writeBytes m a bs) = true := by
  induction bs generalizing m a with
  | nil => exact h
  | cons b bs ih => exact ih (a + 1) (Mem.wf_write a b h)

theorem Mem.wf_writeLe {m : Mem} (a n x : Nat) (h : Mem.wf m = true) : Mem.wf (Mem.writeLe m a n x) = true :=
  Mem.wf_writeBytes a _ h

theorem Mem.wfFrom_zeroRange {m : Mem} {k : Nat} (lo hi : Nat) (h : Mem.wfFrom k m = true) :
    Mem.wfFrom k (Mem.zeroRange m lo hi) = true := by
  induction m generalizing k with
  | nil => rfl
  | cons e m ih =>
    obtain ⟨a, b⟩ := e
    obtain ⟨h1, h2, h3⟩ := Mem.wfFrom_cons.1 h
    have h4 := ih h3
    simp only [Mem.zeroRange, List.filter_cons] at h4 ⊢
    split
    · exact Mem.wfFrom_cons.2 ⟨h1, h2, h4⟩
    · exact Mem.wfFrom_mono h4 (by omega)

theorem Mem.wf_zeroRange {m : Mem} (lo hi : Nat) (h : Mem.wf m = true) : Mem.wf (Mem.zeroRange m lo hi) = true :=
  Mem.wfFrom_zeroRange lo hi h

@[simp] theorem Mem.wf_nil : Mem.wf [] = true := rfl

theorem Mem.read_below {m : Mem} {lo a : Nat} (h : Mem.wfFrom lo m = true) (ha : a < lo) : Mem.read m a = 0 := by
  induction m generalizing lo with
  | nil => rfl
  | cons e m ih =>
    obtain ⟨a', b'⟩ := e
    obtain ⟨h1, _, h3⟩ := Mem.wfFrom_cons.1 h
    rw [Mem.read, if_neg (by omega)]
    exact ih h3 (by omega)

/-- A byte written is read back. -/
theorem Mem.read_write_self {m : Mem} {lo : Nat} (a : Nat) (b : Byte) (h : Mem.wfFrom lo m = true) :
    Mem.read (Mem.write m a b) a = b := by
  induction m generalizing lo with
  | nil =>
    unfold Mem.write
    split
    · rename_i hb; exact hb.symm
    · rw [Mem.read, if_pos rfl]
  | cons e m ih =>
    obtain ⟨a', b'⟩ := e
    obtain ⟨h1, _, h3⟩ := Mem.wfFrom_cons.1 h
    unfold Mem.write
    split
    · split
      · rename_i hlt hb
        rw [Mem.read, if_neg (by omega), hb]
        exact Mem.read_below h3 (by omega)
      · rw [Mem.read, if_pos rfl]
    · split
      · rename_i hlt heq
        split
        · rename_i hb; rw [hb]; exact Mem.read_below h3 (by omega)
        · rw [Mem.read, if_pos rfl]
      · rename_i hne
        rw [Mem.read, if_neg hne]
        exact ih h3

/-- Every other byte stays. -/
theorem Mem.read_write_ne {m : Mem} {lo : Nat} {a k : Nat} (b : Byte) (h : Mem.wfFrom lo m = true) (hk : k ≠ a) :
    Mem.read (Mem.write m a b) k = Mem.read m k := by
  induction m generalizing lo with
  | nil =>
    unfold Mem.write
    split
    · rfl
    · exact if_neg hk
  | cons e m ih =>
    obtain ⟨a', b'⟩ := e
    obtain ⟨h1, _, h3⟩ := Mem.wfFrom_cons.1 h
    unfold Mem.write
    split
    · split
      · rfl
      · rw [Mem.read, if_neg hk]
    · split
      · rename_i hlt heq
        split
        · rw [Mem.read, if_neg (by omega)]
        · rw [Mem.read, Mem.read, if_neg hk, if_neg (by omega)]
      · rw [Mem.read, Mem.read, ih h3]

theorem Mem.read_writeBytes_out {m : Mem} {a k : Nat} {bs : List Byte} (h : Mem.wf m = true) (hk : k < a ∨ a + bs.length ≤ k) :
    Mem.read (Mem.writeBytes m a bs) k = Mem.read m k := by
  induction bs generalizing m a with
  | nil => rfl
  | cons b bs ih =>
    simp only [List.length_cons] at hk
    rw [Mem.writeBytes, ih (Mem.wf_write a b h) (by omega), Mem.read_write_ne b h (by omega)]

theorem Mem.read_zeroRange {m : Mem} (lo hi k : Nat) :
    Mem.read (Mem.zeroRange m lo hi) k = if lo ≤ k ∧ k < hi then 0 else Mem.read m k := by
  induction m with
  | nil => simp [Mem.zeroRange, Mem.read]
  | cons e m ih =>
    obtain ⟨a, b⟩ := e
    simp only [Mem.zeroRange, List.filter_cons] at ih ⊢
    by_cases hin : lo ≤ a ∧ a < hi
    · have : (decide (a < lo) || decide (hi ≤ a)) = false := by simp; omega
      simp only [this, Bool.false_eq_true, if_false, ih, Mem.read]
      by_cases hka : k = a
      · subst hka; simp [hin]
      · simp [hka]
    · have : (decide (a < lo) || decide (hi ≤ a)) = true := by simp; omega
      simp only [this, if_true, Mem.read, ih]
      by_cases hka : k = a
      · subst hka; simp [hin]
      · simp [hka]

end Sys2Proof
end

