-- ==== Sys2Proof/Laws/State.lean ====
section
/-!
SUPPORT. What each update of the state leaves: one lemma for each field of each update.
-/

namespace Sys2Proof.Machine

/-! ### A reach, after one has changed -/

@[simp] theorem Chip.reach_onReach (c : Chip) (r : ReachId) (f : Reach → Reach) : (c.onReach r f).reach r = f (c.reach r) := by
  simp [Chip.reach, Chip.onReach]

theorem Chip.reach_onReach_ne (c : Chip) {r q : ReachId} (f : Reach → Reach) (h : q ≠ r) : (c.onReach r f).reach q = c.reach q := by
  simp [Chip.reach, Chip.onReach, Quad.get_set_ne _ _ h]

@[simp] theorem Chip.onReach_onReach (c : Chip) (r : ReachId) (f g : Reach → Reach) :
    (c.onReach r f).onReach r g = c.onReach r (fun x => g (f x)) := by
  simp [Chip.onReach]

@[simp] theorem Reach.tile_onTile (x : Reach) (t : Nat) (f : Tile → Tile) : (x.onTile t f).tile t = f (x.tile t) := by
  simp [Reach.tile, Reach.onTile]

theorem Reach.tile_onTile_ne (x : Reach) {t u : Nat} (f : Tile → Tile) (h : u ≠ t) : (x.onTile t f).tile u = x.tile u := by
  simp [Reach.tile, Reach.onTile, Tab.getD_set_ne _ _ _ h]

@[simp] theorem Reach.mac_onMac (x : Reach) (p : PortId) (f : Mac → Mac) : (x.onMac p f).mac p = f (x.mac p) := by
  simp [Reach.mac, Reach.onMac]

@[simp] theorem Reach.port_onPort (x : Reach) (p : PortId) (f : RtrPort → RtrPort) : (x.onPort p f).port p = f (x.port p) := by
  simp [Reach.port, Reach.onPort]

@[simp] theorem Chip.fn_onFn (c : Chip) (f : FnId) (g : HostFn → HostFn) : (c.onFn f g).fn f = g (c.fn f) := by
  simp [Chip.fn, Chip.onFn]

theorem Chip.fn_onFn_ne (c : Chip) {f k : FnId} (g : HostFn → HostFn) (h : k ≠ f) : (c.onFn f g).fn k = c.fn k := by
  have : k.val ≠ f.val := fun e => h (Fin.ext e)
  simp [Chip.fn, Chip.onFn, Tab.getD_set_ne _ _ _ this]

@[simp] theorem Chip.ten_onTen (c : Chip) (f : FnId) (g : Tenancy → Tenancy) : (c.onTen f g).ten f = g (c.ten f) := by
  simp [Chip.ten, Chip.onTen]

/-! ### The fields that an update does not name -/

/-! ### Chip: one reach -/

@[simp] theorem Chip.onReach_host (c : Chip) (r : ReachId) (f : Reach → Reach) : (c.onReach r f).host = c.host := rfl

@[simp] theorem Chip.onReach_xlt (c : Chip) (r : ReachId) (f : Reach → Reach) : (c.onReach r f).xlt = c.xlt := rfl

@[simp] theorem Chip.onReach_sec (c : Chip) (r : ReachId) (f : Reach → Reach) : (c.onReach r f).sec = c.sec := rfl

@[simp] theorem Chip.onReach_gate (c : Chip) (r : ReachId) (f : Reach → Reach) : (c.onReach r f).gate = c.gate := rfl

@[simp] theorem Chip.onReach_freeCtr (c : Chip) (r : ReachId) (f : Reach → Reach) : (c.onReach r f).freeCtr = c.freeCtr := rfl

@[simp] theorem Chip.onReach_sent (c : Chip) (r : ReachId) (f : Reach → Reach) : (c.onReach r f).sent = c.sent := rfl

@[simp] theorem Chip.onTile_host (c : Chip) (r : ReachId) (t : Nat) (f : Tile → Tile) : (c.onTile r t f).host = c.host := rfl

@[simp] theorem Chip.onTile_xlt (c : Chip) (r : ReachId) (t : Nat) (f : Tile → Tile) : (c.onTile r t f).xlt = c.xlt := rfl

@[simp] theorem Chip.onTile_sec (c : Chip) (r : ReachId) (t : Nat) (f : Tile → Tile) : (c.onTile r t f).sec = c.sec := rfl

@[simp] theorem Chip.onTile_gate (c : Chip) (r : ReachId) (t : Nat) (f : Tile → Tile) : (c.onTile r t f).gate = c.gate := rfl

@[simp] theorem Chip.onTile_freeCtr (c : Chip) (r : ReachId) (t : Nat) (f : Tile → Tile) : (c.onTile r t f).freeCtr = c.freeCtr := rfl

@[simp] theorem Chip.onTile_sent (c : Chip) (r : ReachId) (t : Nat) (f : Tile → Tile) : (c.onTile r t f).sent = c.sent := rfl

@[simp] theorem Chip.at_host (c : Chip) (r : ReachId) (now : Time) : (c.at r now).host = c.host := rfl

@[simp] theorem Chip.at_xlt (c : Chip) (r : ReachId) (now : Time) : (c.at r now).xlt = c.xlt := rfl

@[simp] theorem Chip.at_sec (c : Chip) (r : ReachId) (now : Time) : (c.at r now).sec = c.sec := rfl

@[simp] theorem Chip.at_gate (c : Chip) (r : ReachId) (now : Time) : (c.at r now).gate = c.gate := rfl

@[simp] theorem Chip.at_freeCtr (c : Chip) (r : ReachId) (now : Time) : (c.at r now).freeCtr = c.freeCtr := rfl

@[simp] theorem Chip.at_sent (c : Chip) (r : ReachId) (now : Time) : (c.at r now).sent = c.sent := rfl

@[simp] theorem Chip.onFn_reaches (c : Chip) (f : FnId) (g : HostFn → HostFn) : (c.onFn f g).reaches = c.reaches := rfl

@[simp] theorem Chip.onFn_xlt (c : Chip) (f : FnId) (g : HostFn → HostFn) : (c.onFn f g).xlt = c.xlt := rfl

@[simp] theorem Chip.onFn_sec (c : Chip) (f : FnId) (g : HostFn → HostFn) : (c.onFn f g).sec = c.sec := rfl

@[simp] theorem Chip.onFn_gate (c : Chip) (f : FnId) (g : HostFn → HostFn) : (c.onFn f g).gate = c.gate := rfl

@[simp] theorem Chip.onFn_freeCtr (c : Chip) (f : FnId) (g : HostFn → HostFn) : (c.onFn f g).freeCtr = c.freeCtr := rfl

@[simp] theorem Chip.onFn_sent (c : Chip) (f : FnId) (g : HostFn → HostFn) : (c.onFn f g).sent = c.sent := rfl

@[simp] theorem Chip.onFn_reach (c : Chip) (f : FnId) (g : HostFn → HostFn) (q : ReachId) : (c.onFn f g).reach q = c.reach q := rfl

@[simp] theorem Chip.onFn_host_clkMode (c : Chip) (f : FnId) (g : HostFn → HostFn) : (c.onFn f g).host.clkMode = c.host.clkMode := rfl

@[simp] theorem Chip.onFn_host_clkActive (c : Chip) (f : FnId) (g : HostFn → HostFn) : (c.onFn f g).host.clkActive = c.host.clkActive := rfl

@[simp] theorem Chip.onFn_host_inReset (c : Chip) (f : FnId) (g : HostFn → HostFn) : (c.onFn f g).host.inReset = c.host.inReset := rfl

@[simp] theorem Chip.onFn_host_trained (c : Chip) (f : FnId) (g : HostFn → HostFn) : (c.onFn f g).host.trained = c.host.trained := rfl

@[simp] theorem Chip.onFn_host_d3hot (c : Chip) (f : FnId) (g : HostFn → HostFn) : (c.onFn f g).host.d3hot = c.host.d3hot := rfl

@[simp] theorem Chip.onFn_host_mem (c : Chip) (f : FnId) (g : HostFn → HostFn) : (c.onFn f g).host.mem = c.host.mem := rfl

@[simp] theorem Chip.onFn_host_feeds (c : Chip) (f : FnId) (g : HostFn → HostFn) : (c.onFn f g).host.feeds = c.host.feeds := rfl

@[simp] theorem Chip.onFn_host_feedSeq (c : Chip) (f : FnId) (g : HostFn → HostFn) : (c.onFn f g).host.feedSeq = c.host.feedSeq := rfl

@[simp] theorem Chip.onTen_reaches (c : Chip) (f : FnId) (g : Tenancy → Tenancy) : (c.onTen f g).reaches = c.reaches := rfl

@[simp] theorem Chip.onTen_host (c : Chip) (f : FnId) (g : Tenancy → Tenancy) : (c.onTen f g).host = c.host := rfl

@[simp] theorem Chip.onTen_sec (c : Chip) (f : FnId) (g : Tenancy → Tenancy) : (c.onTen f g).sec = c.sec := rfl

@[simp] theorem Chip.onTen_gate (c : Chip) (f : FnId) (g : Tenancy → Tenancy) : (c.onTen f g).gate = c.gate := rfl

@[simp] theorem Chip.onTen_freeCtr (c : Chip) (f : FnId) (g : Tenancy → Tenancy) : (c.onTen f g).freeCtr = c.freeCtr := rfl

@[simp] theorem Chip.onTen_sent (c : Chip) (f : FnId) (g : Tenancy → Tenancy) : (c.onTen f g).sent = c.sent := rfl

@[simp] theorem Chip.onTen_reach (c : Chip) (f : FnId) (g : Tenancy → Tenancy) (q : ReachId) : (c.onTen f g).reach q = c.reach q := rfl

@[simp] theorem Chip.onTen_xlt_asids (c : Chip) (f : FnId) (g : Tenancy → Tenancy) : (c.onTen f g).xlt.asids = c.xlt.asids := rfl

@[simp] theorem Chip.onTen_xlt_inv (c : Chip) (f : FnId) (g : Tenancy → Tenancy) : (c.onTen f g).xlt.inv = c.xlt.inv := rfl

@[simp] theorem Chip.onTen_xlt_faults (c : Chip) (f : FnId) (g : Tenancy → Tenancy) : (c.onTen f g).xlt.faults = c.xlt.faults := rfl

@[simp] theorem Chip.onTen_xlt_ctrl (c : Chip) (f : FnId) (g : Tenancy → Tenancy) : (c.onTen f g).xlt.ctrl = c.xlt.ctrl := rfl

@[simp] theorem Chip.onTen_xlt_lost (c : Chip) (f : FnId) (g : Tenancy → Tenancy) : (c.onTen f g).xlt.lost = c.xlt.lost := rfl

@[simp] theorem Chip.emit_reaches (c : Chip) (o : Out) : (c.emit o).reaches = c.reaches := rfl

@[simp] theorem Chip.emit_host (c : Chip) (o : Out) : (c.emit o).host = c.host := rfl

@[simp] theorem Chip.emit_xlt (c : Chip) (o : Out) : (c.emit o).xlt = c.xlt := rfl

@[simp] theorem Chip.emit_sec (c : Chip) (o : Out) : (c.emit o).sec = c.sec := rfl

@[simp] theorem Chip.emit_gate (c : Chip) (o : Out) : (c.emit o).gate = c.gate := rfl

@[simp] theorem Chip.emit_freeCtr (c : Chip) (o : Out) : (c.emit o).freeCtr = c.freeCtr := rfl

@[simp] theorem Chip.emit_reach (c : Chip) (o : Out) (q : ReachId) : (c.emit o).reach q = c.reach q := rfl

@[simp] theorem Chip.alert_reaches (c : Chip) (kind reach : Nat) (arg : Word64) : (c.alert kind reach arg).reaches = c.reaches := rfl

@[simp] theorem Chip.alert_host (c : Chip) (kind reach : Nat) (arg : Word64) : (c.alert kind reach arg).host = c.host := rfl

@[simp] theorem Chip.alert_xlt (c : Chip) (kind reach : Nat) (arg : Word64) : (c.alert kind reach arg).xlt = c.xlt := rfl

@[simp] theorem Chip.alert_sec (c : Chip) (kind reach : Nat) (arg : Word64) : (c.alert kind reach arg).sec = c.sec := rfl

@[simp] theorem Chip.alert_freeCtr (c : Chip) (kind reach : Nat) (arg : Word64) : (c.alert kind reach arg).freeCtr = c.freeCtr := rfl

@[simp] theorem Chip.alert_sent (c : Chip) (kind reach : Nat) (arg : Word64) : (c.alert kind reach arg).sent = c.sent := rfl

@[simp] theorem Chip.alert_reach (c : Chip) (kind reach : Nat) (arg : Word64) (q : ReachId) :
    (c.alert kind reach arg).reach q = c.reach q := rfl

/-! ### Reach -/

@[simp] theorem Reach.onTile_service (x : Reach) (t : Nat) (f : Tile → Tile) : (x.onTile t f).service = x.service := rfl

@[simp] theorem Reach.onTile_time (x : Reach) (t : Nat) (f : Tile → Tile) : (x.onTile t f).time = x.time := rfl

@[simp] theorem Reach.onTile_plan (x : Reach) (t : Nat) (f : Tile → Tile) : (x.onTile t f).plan = x.plan := rfl

@[simp] theorem Reach.onTile_mem (x : Reach) (t : Nat) (f : Tile → Tile) : (x.onTile t f).mem = x.mem := rfl

@[simp] theorem Reach.onTile_tdc (x : Reach) (t : Nat) (f : Tile → Tile) : (x.onTile t f).tdc = x.tdc := rfl

@[simp] theorem Reach.onTile_rme (x : Reach) (t : Nat) (f : Tile → Tile) : (x.onTile t f).rme = x.rme := rfl

@[simp] theorem Reach.onTile_rtr (x : Reach) (t : Nat) (f : Tile → Tile) : (x.onTile t f).rtr = x.rtr := rfl

@[simp] theorem Reach.onTile_coll (x : Reach) (t : Nat) (f : Tile → Tile) : (x.onTile t f).coll = x.coll := rfl

@[simp] theorem Reach.onTile_macs (x : Reach) (t : Nat) (f : Tile → Tile) : (x.onTile t f).macs = x.macs := rfl

@[simp] theorem Reach.onTile_cipher (x : Reach) (t : Nat) (f : Tile → Tile) : (x.onTile t f).cipher = x.cipher := rfl

@[simp] theorem Reach.onTile_bist (x : Reach) (t : Nat) (f : Tile → Tile) : (x.onTile t f).bist = x.bist := rfl

@[simp] theorem Reach.onTile_trace (x : Reach) (t : Nat) (f : Tile → Tile) : (x.onTile t f).trace = x.trace := rfl

@[simp] theorem Reach.onTile_pwr (x : Reach) (t : Nat) (f : Tile → Tile) : (x.onTile t f).pwr = x.pwr := rfl

@[simp] theorem Reach.onTile_pkmap (x : Reach) (t : Nat) (f : Tile → Tile) : (x.onTile t f).pkmap = x.pkmap := rfl

@[simp] theorem Reach.onTile_addr (x : Reach) (t : Nat) (f : Tile → Tile) : (x.onTile t f).addr = x.addr := rfl

@[simp] theorem Reach.onTile_lanemap (x : Reach) (t : Nat) (f : Tile → Tile) : (x.onTile t f).lanemap = x.lanemap := rfl

@[simp] theorem Reach.onTile_serdes (x : Reach) (t : Nat) (f : Tile → Tile) : (x.onTile t f).serdes = x.serdes := rfl

@[simp] theorem Reach.onTile_maint (x : Reach) (t : Nat) (f : Tile → Tile) : (x.onTile t f).maint = x.maint := rfl

@[simp] theorem Reach.onTile_mirrorSeq (x : Reach) (t : Nat) (f : Tile → Tile) : (x.onTile t f).mirrorSeq = x.mirrorSeq := rfl

@[simp] theorem Reach.onTile_gauges (x : Reach) (t : Nat) (f : Tile → Tile) : (x.onTile t f).gauges = x.gauges := rfl

@[simp] theorem Reach.onTile_claims (x : Reach) (t : Nat) (f : Tile → Tile) : (x.onTile t f).claims = x.claims := rfl

@[simp] theorem Reach.onMac_service (x : Reach) (p : PortId) (f : Mac → Mac) : (x.onMac p f).service = x.service := rfl

@[simp] theorem Reach.onMac_time (x : Reach) (p : PortId) (f : Mac → Mac) : (x.onMac p f).time = x.time := rfl

@[simp] theorem Reach.onMac_plan (x : Reach) (p : PortId) (f : Mac → Mac) : (x.onMac p f).plan = x.plan := rfl

@[simp] theorem Reach.onMac_tiles (x : Reach) (p : PortId) (f : Mac → Mac) : (x.onMac p f).tiles = x.tiles := rfl

@[simp] theorem Reach.onMac_mem (x : Reach) (p : PortId) (f : Mac → Mac) : (x.onMac p f).mem = x.mem := rfl

@[simp] theorem Reach.onMac_tdc (x : Reach) (p : PortId) (f : Mac → Mac) : (x.onMac p f).tdc = x.tdc := rfl

@[simp] theorem Reach.onMac_rme (x : Reach) (p : PortId) (f : Mac → Mac) : (x.onMac p f).rme = x.rme := rfl

@[simp] theorem Reach.onMac_rtr (x : Reach) (p : PortId) (f : Mac → Mac) : (x.onMac p f).rtr = x.rtr := rfl

@[simp] theorem Reach.onMac_coll (x : Reach) (p : PortId) (f : Mac → Mac) : (x.onMac p f).coll = x.coll := rfl

@[simp] theorem Reach.onMac_cipher (x : Reach) (p : PortId) (f : Mac → Mac) : (x.onMac p f).cipher = x.cipher := rfl

@[simp] theorem Reach.onMac_bist (x : Reach) (p : PortId) (f : Mac → Mac) : (x.onMac p f).bist = x.bist := rfl

@[simp] theorem Reach.onMac_trace (x : Reach) (p : PortId) (f : Mac → Mac) : (x.onMac p f).trace = x.trace := rfl

@[simp] theorem Reach.onMac_pwr (x : Reach) (p : PortId) (f : Mac → Mac) : (x.onMac p f).pwr = x.pwr := rfl

@[simp] theorem Reach.onMac_pkmap (x : Reach) (p : PortId) (f : Mac → Mac) : (x.onMac p f).pkmap = x.pkmap := rfl

@[simp] theorem Reach.onMac_addr (x : Reach) (p : PortId) (f : Mac → Mac) : (x.onMac p f).addr = x.addr := rfl

@[simp] theorem Reach.onMac_lanemap (x : Reach) (p : PortId) (f : Mac → Mac) : (x.onMac p f).lanemap = x.lanemap := rfl

@[simp] theorem Reach.onMac_serdes (x : Reach) (p : PortId) (f : Mac → Mac) : (x.onMac p f).serdes = x.serdes := rfl

@[simp] theorem Reach.onMac_maint (x : Reach) (p : PortId) (f : Mac → Mac) : (x.onMac p f).maint = x.maint := rfl

@[simp] theorem Reach.onMac_mirrorSeq (x : Reach) (p : PortId) (f : Mac → Mac) : (x.onMac p f).mirrorSeq = x.mirrorSeq := rfl

@[simp] theorem Reach.onMac_gauges (x : Reach) (p : PortId) (f : Mac → Mac) : (x.onMac p f).gauges = x.gauges := rfl

@[simp] theorem Reach.onMac_claims (x : Reach) (p : PortId) (f : Mac → Mac) : (x.onMac p f).claims = x.claims := rfl

@[simp] theorem Reach.onPort_service (x : Reach) (p : PortId) (f : RtrPort → RtrPort) : (x.onPort p f).service = x.service := rfl

@[simp] theorem Reach.onPort_time (x : Reach) (p : PortId) (f : RtrPort → RtrPort) : (x.onPort p f).time = x.time := rfl

@[simp] theorem Reach.onPort_plan (x : Reach) (p : PortId) (f : RtrPort → RtrPort) : (x.onPort p f).plan = x.plan := rfl

@[simp] theorem Reach.onPort_tiles (x : Reach) (p : PortId) (f : RtrPort → RtrPort) : (x.onPort p f).tiles = x.tiles := rfl

@[simp] theorem Reach.onPort_mem (x : Reach) (p : PortId) (f : RtrPort → RtrPort) : (x.onPort p f).mem = x.mem := rfl

@[simp] theorem Reach.onPort_tdc (x : Reach) (p : PortId) (f : RtrPort → RtrPort) : (x.onPort p f).tdc = x.tdc := rfl

@[simp] theorem Reach.onPort_rme (x : Reach) (p : PortId) (f : RtrPort → RtrPort) : (x.onPort p f).rme = x.rme := rfl

@[simp] theorem Reach.onPort_coll (x : Reach) (p : PortId) (f : RtrPort → RtrPort) : (x.onPort p f).coll = x.coll := rfl

@[simp] theorem Reach.onPort_macs (x : Reach) (p : PortId) (f : RtrPort → RtrPort) : (x.onPort p f).macs = x.macs := rfl

@[simp] theorem Reach.onPort_cipher (x : Reach) (p : PortId) (f : RtrPort → RtrPort) : (x.onPort p f).cipher = x.cipher := rfl

@[simp] theorem Reach.onPort_bist (x : Reach) (p : PortId) (f : RtrPort → RtrPort) : (x.onPort p f).bist = x.bist := rfl

@[simp] theorem Reach.onPort_trace (x : Reach) (p : PortId) (f : RtrPort → RtrPort) : (x.onPort p f).trace = x.trace := rfl

@[simp] theorem Reach.onPort_pwr (x : Reach) (p : PortId) (f : RtrPort → RtrPort) : (x.onPort p f).pwr = x.pwr := rfl

@[simp] theorem Reach.onPort_pkmap (x : Reach) (p : PortId) (f : RtrPort → RtrPort) : (x.onPort p f).pkmap = x.pkmap := rfl

@[simp] theorem Reach.onPort_addr (x : Reach) (p : PortId) (f : RtrPort → RtrPort) : (x.onPort p f).addr = x.addr := rfl

@[simp] theorem Reach.onPort_lanemap (x : Reach) (p : PortId) (f : RtrPort → RtrPort) : (x.onPort p f).lanemap = x.lanemap := rfl

@[simp] theorem Reach.onPort_serdes (x : Reach) (p : PortId) (f : RtrPort → RtrPort) : (x.onPort p f).serdes = x.serdes := rfl

@[simp] theorem Reach.onPort_maint (x : Reach) (p : PortId) (f : RtrPort → RtrPort) : (x.onPort p f).maint = x.maint := rfl

@[simp] theorem Reach.onPort_mirrorSeq (x : Reach) (p : PortId) (f : RtrPort → RtrPort) : (x.onPort p f).mirrorSeq = x.mirrorSeq := rfl

@[simp] theorem Reach.onPort_gauges (x : Reach) (p : PortId) (f : RtrPort → RtrPort) : (x.onPort p f).gauges = x.gauges := rfl

@[simp] theorem Reach.onPort_claims (x : Reach) (p : PortId) (f : RtrPort → RtrPort) : (x.onPort p f).claims = x.claims := rfl

@[simp] theorem Reach.gaugeAdd_service (x : Reach) (group obj idx n : Nat) : (x.gaugeAdd group obj idx n).service = x.service := rfl

@[simp] theorem Reach.gaugeAdd_time (x : Reach) (group obj idx n : Nat) : (x.gaugeAdd group obj idx n).time = x.time := rfl

@[simp] theorem Reach.gaugeAdd_plan (x : Reach) (group obj idx n : Nat) : (x.gaugeAdd group obj idx n).plan = x.plan := rfl

@[simp] theorem Reach.gaugeAdd_tiles (x : Reach) (group obj idx n : Nat) : (x.gaugeAdd group obj idx n).tiles = x.tiles := rfl

@[simp] theorem Reach.gaugeAdd_mem (x : Reach) (group obj idx n : Nat) : (x.gaugeAdd group obj idx n).mem = x.mem := rfl

@[simp] theorem Reach.gaugeAdd_tdc (x : Reach) (group obj idx n : Nat) : (x.gaugeAdd group obj idx n).tdc = x.tdc := rfl

@[simp] theorem Reach.gaugeAdd_rme (x : Reach) (group obj idx n : Nat) : (x.gaugeAdd group obj idx n).rme = x.rme := rfl

@[simp] theorem Reach.gaugeAdd_rtr (x : Reach) (group obj idx n : Nat) : (x.gaugeAdd group obj idx n).rtr = x.rtr := rfl

@[simp] theorem Reach.gaugeAdd_coll (x : Reach) (group obj idx n : Nat) : (x.gaugeAdd group obj idx n).coll = x.coll := rfl

@[simp] theorem Reach.gaugeAdd_macs (x : Reach) (group obj idx n : Nat) : (x.gaugeAdd group obj idx n).macs = x.macs := rfl

@[simp] theorem Reach.gaugeAdd_cipher (x : Reach) (group obj idx n : Nat) : (x.gaugeAdd group obj idx n).cipher = x.cipher := rfl

@[simp] theorem Reach.gaugeAdd_bist (x : Reach) (group obj idx n : Nat) : (x.gaugeAdd group obj idx n).bist = x.bist := rfl

@[simp] theorem Reach.gaugeAdd_trace (x : Reach) (group obj idx n : Nat) : (x.gaugeAdd group obj idx n).trace = x.trace := rfl

@[simp] theorem Reach.gaugeAdd_pwr (x : Reach) (group obj idx n : Nat) : (x.gaugeAdd group obj idx n).pwr = x.pwr := rfl

@[simp] theorem Reach.gaugeAdd_pkmap (x : Reach) (group obj idx n : Nat) : (x.gaugeAdd group obj idx n).pkmap = x.pkmap := rfl

@[simp] theorem Reach.gaugeAdd_addr (x : Reach) (group obj idx n : Nat) : (x.gaugeAdd group obj idx n).addr = x.addr := rfl

@[simp] theorem Reach.gaugeAdd_lanemap (x : Reach) (group obj idx n : Nat) : (x.gaugeAdd group obj idx n).lanemap = x.lanemap := rfl

@[simp] theorem Reach.gaugeAdd_serdes (x : Reach) (group obj idx n : Nat) : (x.gaugeAdd group obj idx n).serdes = x.serdes := rfl

@[simp] theorem Reach.gaugeAdd_maint (x : Reach) (group obj idx n : Nat) : (x.gaugeAdd group obj idx n).maint = x.maint := rfl

@[simp] theorem Reach.gaugeAdd_mirrorSeq (x : Reach) (group obj idx n : Nat) : (x.gaugeAdd group obj idx n).mirrorSeq = x.mirrorSeq := rfl

@[simp] theorem Reach.gaugeAdd_claims (x : Reach) (group obj idx n : Nat) : (x.gaugeAdd group obj idx n).claims = x.claims := rfl

@[simp] theorem Reach.gaugeMax_service (x : Reach) (group obj idx n : Nat) : (x.gaugeMax group obj idx n).service = x.service := rfl

@[simp] theorem Reach.gaugeMax_time (x : Reach) (group obj idx n : Nat) : (x.gaugeMax group obj idx n).time = x.time := rfl

@[simp] theorem Reach.gaugeMax_plan (x : Reach) (group obj idx n : Nat) : (x.gaugeMax group obj idx n).plan = x.plan := rfl

@[simp] theorem Reach.gaugeMax_tiles (x : Reach) (group obj idx n : Nat) : (x.gaugeMax group obj idx n).tiles = x.tiles := rfl

@[simp] theorem Reach.gaugeMax_mem (x : Reach) (group obj idx n : Nat) : (x.gaugeMax group obj idx n).mem = x.mem := rfl

@[simp] theorem Reach.gaugeMax_tdc (x : Reach) (group obj idx n : Nat) : (x.gaugeMax group obj idx n).tdc = x.tdc := rfl

@[simp] theorem Reach.gaugeMax_rme (x : Reach) (group obj idx n : Nat) : (x.gaugeMax group obj idx n).rme = x.rme := rfl

@[simp] theorem Reach.gaugeMax_rtr (x : Reach) (group obj idx n : Nat) : (x.gaugeMax group obj idx n).rtr = x.rtr := rfl

@[simp] theorem Reach.gaugeMax_coll (x : Reach) (group obj idx n : Nat) : (x.gaugeMax group obj idx n).coll = x.coll := rfl

@[simp] theorem Reach.gaugeMax_macs (x : Reach) (group obj idx n : Nat) : (x.gaugeMax group obj idx n).macs = x.macs := rfl

@[simp] theorem Reach.gaugeMax_cipher (x : Reach) (group obj idx n : Nat) : (x.gaugeMax group obj idx n).cipher = x.cipher := rfl

@[simp] theorem Reach.gaugeMax_bist (x : Reach) (group obj idx n : Nat) : (x.gaugeMax group obj idx n).bist = x.bist := rfl

@[simp] theorem Reach.gaugeMax_trace (x : Reach) (group obj idx n : Nat) : (x.gaugeMax group obj idx n).trace = x.trace := rfl

@[simp] theorem Reach.gaugeMax_pwr (x : Reach) (group obj idx n : Nat) : (x.gaugeMax group obj idx n).pwr = x.pwr := rfl

@[simp] theorem Reach.gaugeMax_pkmap (x : Reach) (group obj idx n : Nat) : (x.gaugeMax group obj idx n).pkmap = x.pkmap := rfl

@[simp] theorem Reach.gaugeMax_addr (x : Reach) (group obj idx n : Nat) : (x.gaugeMax group obj idx n).addr = x.addr := rfl

@[simp] theorem Reach.gaugeMax_lanemap (x : Reach) (group obj idx n : Nat) : (x.gaugeMax group obj idx n).lanemap = x.lanemap := rfl

@[simp] theorem Reach.gaugeMax_serdes (x : Reach) (group obj idx n : Nat) : (x.gaugeMax group obj idx n).serdes = x.serdes := rfl

@[simp] theorem Reach.gaugeMax_maint (x : Reach) (group obj idx n : Nat) : (x.gaugeMax group obj idx n).maint = x.maint := rfl

@[simp] theorem Reach.gaugeMax_mirrorSeq (x : Reach) (group obj idx n : Nat) : (x.gaugeMax group obj idx n).mirrorSeq = x.mirrorSeq := rfl

@[simp] theorem Reach.gaugeMax_claims (x : Reach) (group obj idx n : Nat) : (x.gaugeMax group obj idx n).claims = x.claims := rfl


end Sys2Proof.Machine
end

