-- ==== Sys2Proof/Laws/Reports.lean ====
section
/-!
SUPPORT. What reports leave: posting a record, completing a command, an event, an alert, a trace record, a counted choice and a health
record change nothing of the module apart from its reports, and so no register, memory or object of it.
-/

namespace Sys2Proof.Machine

/-! ### What `apart` keeps -/

@[simp] theorem Chip.reach_apart (c : Chip) (r : ReachId) : c.apart.reach r = (c.reach r).apart := by
  simp [Chip.reach, Chip.apart]

theorem Chip.apart_reach {c d : Chip} (h : c.apart = d.apart) (r : ReachId) : (c.reach r).apart = (d.reach r).apart := by
  rw [← Chip.reach_apart, ← Chip.reach_apart, h]

theorem Chip.apart_time {c d : Chip} (h : c.apart = d.apart) (r : ReachId) : (c.reach r).time = (d.reach r).time := by
  have := congrArg Reach.time (Chip.apart_reach h r)
  exact this

theorem Chip.apart_tiles {c d : Chip} (h : c.apart = d.apart) (r : ReachId) : (c.reach r).tiles = (d.reach r).tiles := by
  have := congrArg Reach.tiles (Chip.apart_reach h r)
  exact this

theorem Chip.apart_plan {c d : Chip} (h : c.apart = d.apart) (r : ReachId) : (c.reach r).plan = (d.reach r).plan := by
  have := congrArg Reach.plan (Chip.apart_reach h r)
  exact this

theorem Chip.apart_mem {c d : Chip} (h : c.apart = d.apart) (r : ReachId) : (c.reach r).mem = (d.reach r).mem := by
  have := congrArg Reach.mem (Chip.apart_reach h r)
  exact this

theorem Chip.apart_rme {c d : Chip} (h : c.apart = d.apart) (r : ReachId) : (c.reach r).rme = (d.reach r).rme := by
  have := congrArg Reach.rme (Chip.apart_reach h r)
  exact this

theorem Chip.apart_rtr {c d : Chip} (h : c.apart = d.apart) (r : ReachId) : (c.reach r).rtr = (d.reach r).rtr := by
  have := congrArg Reach.rtr (Chip.apart_reach h r)
  exact this

theorem Chip.apart_macs {c d : Chip} (h : c.apart = d.apart) (r : ReachId) : (c.reach r).macs = (d.reach r).macs := by
  have := congrArg Reach.macs (Chip.apart_reach h r)
  exact this

theorem Chip.apart_service {c d : Chip} (h : c.apart = d.apart) (r : ReachId) : (c.reach r).service = (d.reach r).service := by
  have := congrArg Reach.service (Chip.apart_reach h r)
  exact this

theorem Chip.apart_xlt {c d : Chip} (h : c.apart = d.apart) : c.xlt = d.xlt := by
  have := congrArg Chip.xlt h
  exact this

theorem Chip.apart_sec {c d : Chip} (h : c.apart = d.apart) : c.sec = d.sec := by
  have := congrArg Chip.sec h
  exact this

/-- A change of one reach that a report never makes goes through `apart`. -/
theorem Chip.onReach_apart (c : Chip) (r : ReachId) (f g : Reach → Reach) (h : (f (c.reach r)).apart = g (c.reach r).apart) :
    (c.onReach r f).apart = c.apart.onReach r g := by
  simp only [Chip.onReach, Chip.apart, Quad.map_set, Quad.get_map]
  rw [show (f (c.reaches.get r)).apart = g (c.reaches.get r).apart from h]

/-- A change of reports of one reach. -/
theorem Chip.onReach_report (c : Chip) (r : ReachId) (f : Reach → Reach) (h : (f (c.reach r)).apart = (c.reach r).apart) :
    (c.onReach r f).apart = c.apart := by
  rw [Chip.onReach_apart c r f id h]
  simp [Chip.onReach]

/-! ### Records on rings -/

@[simp] theorem Chip.emit_apart (c : Chip) (o : Out) : (c.emit o).apart = c.apart := rfl

@[simp] theorem Chip.alert_apart (c : Chip) (kind reach : Nat) (arg : Word64) : (c.alert kind reach arg).apart = c.apart := rfl

@[simp] theorem Chip.onFn_apart (c : Chip) (f : FnId) (g : HostFn → HostFn) : (c.onFn f g).apart = c.apart := rfl

@[simp] theorem Chip.hostWrite_apart (c : Chip) (f : FnId) (iova : Nat) (bs : List Byte) : (c.hostWrite f iova bs).apart = c.apart := rfl

@[simp] theorem Chip.msix_apart (c : Chip) (f : FnId) (v : BitVec 11) : (c.msix f v).apart = c.apart := by
  unfold Chip.msix; split <;> simp

@[simp] theorem Chip.postNow_apart (c : Chip) (f : FnId) (q : HostRing) (p : Posting) : (c.postNow f q p).apart = c.apart := by
  unfold Chip.postNow; dsimp only; split <;> split <;> simp

@[simp] theorem Chip.hold_apart (c : Chip) (f : FnId) (p : Posting) : (c.hold f p).apart = c.apart := rfl

@[simp] theorem Chip.post_apart (c : Chip) (f : FnId) (p : Posting) : (c.post f p).apart = c.apart := by
  unfold Chip.post; dsimp only; split
  · simp
  · split
    · simp
    · split <;> simp

@[simp] theorem Chip.postRecord_apart (c : Chip) (f : FnId) (ring : BitVec 8) (x : Record) (nomod : Bool) :
    (c.postRecord f ring x nomod).apart = c.apart := by
  unfold Chip.postRecord; split <;> simp

@[simp] theorem Chip.dropChain_apart (c : Chip) (ref : CmdRef) : (c.dropChain ref).apart = c.apart := rfl

@[simp] theorem Chip.onChain_apart (c : Chip) (ref : CmdRef) (f : TakenChain → TakenChain) : (c.onChain ref f).apart = c.apart := rfl

theorem Chip.completeFuel_apart (n : Nat) (c : Chip) (ref : CmdRef) (source status : Nat) (result : Word64) :
    (c.completeFuel n ref source status result).apart = c.apart := by
  induction n generalizing c ref source status result with
  | zero => rfl
  | succ n ih =>
    unfold Chip.completeFuel; dsimp only; split
    · simp [ih]
    · simp

/-- A completion changes reports only. -/
@[simp] theorem Chip.complete_apart (c : Chip) (ref : CmdRef) (source status : Nat) (result : Word64) :
    (c.complete ref source status result).apart = c.apart := Chip.completeFuel_apart _ c ref source status result

@[simp] theorem Chip.completeOpt_apart (c : Chip) (ref : Option CmdRef) (source status : Nat) (result : Word64) :
    (c.completeOpt ref source status result).apart = c.apart := by
  unfold Chip.completeOpt; split <;> simp

/-! ### Trace, events, counts -/

@[simp] theorem Chip.traceFrom_apart (c : Chip) (r : ReachId) (kind src : Nat) (hold : Option Nat) (fn : Nat) (p0 p1 : Word64) :
    (c.traceFrom r kind src hold fn p0 p1).apart = c.apart := by
  unfold Chip.traceFrom; dsimp only; split
  · rfl
  · split
    · rfl
    · exact Chip.onReach_report c r _ rfl

@[simp] theorem Chip.trace_apart (c : Chip) (r : ReachId) (kind src fn : Nat) (p0 p1 : Word64) :
    (c.trace r kind src fn p0 p1).apart = c.apart := by simp [Chip.trace]

@[simp] theorem Chip.triggerRecord_apart (c : Chip) (r q : ReachId) : (c.triggerRecord r q).apart = c.apart := by
  unfold Chip.triggerRecord; dsimp only; split
  · rw [Chip.trace_apart]; exact Chip.onReach_report c r _ rfl
  · simp

@[simp] theorem Chip.fire_apart (c : Chip) (r : ReachId) (kind : Nat) : (c.fire r kind).apart = c.apart := by
  unfold Chip.fire; dsimp only; split
  · exact Chip.triggerRecord_apart c r r
  · rfl

@[simp] theorem Chip.postEvent_apart (c : Chip) (f : FnId) (code source : Nat) (body : List Byte) (handle result : Word64) :
    (c.postEvent f code source body handle result).apart = c.apart := by
  unfold Chip.postEvent; split <;> simp

@[simp] theorem Chip.event_apart (c : Chip) (r : ReachId) (owner : FnId) (alsoPf : Bool) (code : Nat) (body : List Byte)
    (handle : Word64) : (c.event r owner alsoPf code body handle).apart = c.apart := by
  unfold Chip.event; dsimp only; split <;> simp

@[simp] theorem Chip.tdc_apart (c : Chip) (r : ReachId) (cause : Nat) (fn : Option FnId) (src : Nat) (a : Word32) (b : Word64) :
    (c.tdc r cause fn src a b).apart = c.apart := by
  unfold Chip.tdc; dsimp only
  rw [apply_ite Chip.apart]
  simp only [Chip.fire_apart, ite_self, Chip.trace_apart]
  exact Chip.onReach_report c r _ rfl

@[simp] theorem Chip.health_apart (c : Chip) (r : ReachId) (owner : FnId) (action block inst sub : Nat) (detail handle : Word64) :
    (c.health r owner action block inst sub detail handle).apart = c.apart := by
  unfold Chip.health; dsimp only; split
  · simp only [Chip.fire_apart, Chip.alert_apart, Chip.event_apart]; exact Chip.onReach_report c r _ rfl
  · simp only [Chip.fire_apart, Chip.event_apart]; exact Chip.onReach_report c r _ rfl

end Sys2Proof.Machine
end

