-- ==== Sys2Proof/Laws/Time.lean ====
section
/-!
SUPPORT. What a timed command's arrival does: the counter of its reach moves to its time or stays, and nothing else changes (R38, R40).
-/

namespace Sys2Proof.Machine

/-! ### The counter -/

/-- A later time is taken by a domain that runs. -/
theorem TimeDom.advance_now (t : TimeDom) (now : Time) :
    (t.advance now).now = if t.stopped.isNone && later t.now now then now else t.now := by
  unfold TimeDom.advance; split <;> rfl

@[simp] theorem TimeDom.advance_floor (t : TimeDom) (now : Time) : (t.advance now).floor = t.floor := by
  unfold TimeDom.advance; split <;> rfl

@[simp] theorem TimeDom.advance_ctrl (t : TimeDom) (now : Time) : (t.advance now).ctrl = t.ctrl := by
  unfold TimeDom.advance; split <;> rfl

@[simp] theorem TimeDom.advance_nowLatch (t : TimeDom) (now : Time) : (t.advance now).nowLatch = t.nowLatch := by
  unfold TimeDom.advance; split <;> rfl

@[simp] theorem TimeDom.advance_insideSince (t : TimeDom) (now : Time) : (t.advance now).insideSince = t.insideSince := by
  unfold TimeDom.advance; split <;> rfl

@[simp] theorem TimeDom.advance_syncAt (t : TimeDom) (now : Time) : (t.advance now).syncAt = t.syncAt := by
  unfold TimeDom.advance; split <;> rfl

@[simp] theorem TimeDom.advance_servo (t : TimeDom) (now : Time) : (t.advance now).servo = t.servo := by
  unfold TimeDom.advance; split <;> rfl

@[simp] theorem TimeDom.advance_source (t : TimeDom) (now : Time) : (t.advance now).source = t.source := by
  unfold TimeDom.advance; split <;> rfl

@[simp] theorem TimeDom.advance_masterPort (t : TimeDom) (now : Time) : (t.advance now).masterPort = t.masterPort := by
  unfold TimeDom.advance; split <;> rfl

@[simp] theorem TimeDom.advance_discCount (t : TimeDom) (now : Time) : (t.advance now).discCount = t.discCount := by
  unfold TimeDom.advance; split <;> rfl

@[simp] theorem TimeDom.advance_offset (t : TimeDom) (now : Time) : (t.advance now).offset = t.offset := by
  unfold TimeDom.advance; split <;> rfl

@[simp] theorem TimeDom.advance_sourced (t : TimeDom) (now : Time) : (t.advance now).sourced = t.sourced := by
  unfold TimeDom.advance; split <;> rfl

@[simp] theorem TimeDom.advance_everLocked (t : TimeDom) (now : Time) : (t.advance now).everLocked = t.everLocked := by
  unfold TimeDom.advance; split <;> rfl

@[simp] theorem TimeDom.advance_heldRank1 (t : TimeDom) (now : Time) : (t.advance now).heldRank1 = t.heldRank1 := by
  unfold TimeDom.advance; split <;> rfl

@[simp] theorem TimeDom.advance_freqHeld (t : TimeDom) (now : Time) : (t.advance now).freqHeld = t.freqHeld := by
  unfold TimeDom.advance; split <;> rfl

@[simp] theorem TimeDom.advance_lockRun (t : TimeDom) (now : Time) : (t.advance now).lockRun = t.lockRun := by
  unfold TimeDom.advance; split <;> rfl

@[simp] theorem TimeDom.advance_lockedSince (t : TimeDom) (now : Time) : (t.advance now).lockedSince = t.lockedSince := by
  unfold TimeDom.advance; split <;> rfl

@[simp] theorem TimeDom.advance_holdoverSince (t : TimeDom) (now : Time) : (t.advance now).holdoverSince = t.holdoverSince := by
  unfold TimeDom.advance; split <;> rfl

@[simp] theorem TimeDom.advance_freshSource (t : TimeDom) (now : Time) : (t.advance now).freshSource = t.freshSource := by
  unfold TimeDom.advance; split <;> rfl

@[simp] theorem TimeDom.advance_disc (t : TimeDom) (now : Time) : (t.advance now).disc = t.disc := by
  unfold TimeDom.advance; split <;> rfl

@[simp] theorem TimeDom.advance_ptp (t : TimeDom) (now : Time) : (t.advance now).ptp = t.ptp := by
  unfold TimeDom.advance; split <;> rfl

@[simp] theorem TimeDom.advance_ppsRun (t : TimeDom) (now : Time) : (t.advance now).ppsRun = t.ppsRun := by
  unfold TimeDom.advance; split <;> rfl

@[simp] theorem TimeDom.advance_ppsLast (t : TimeDom) (now : Time) : (t.advance now).ppsLast = t.ppsLast := by
  unfold TimeDom.advance; split <;> rfl

@[simp] theorem TimeDom.advance_refGood (t : TimeDom) (now : Time) : (t.advance now).refGood = t.refGood := by
  unfold TimeDom.advance; split <;> rfl

@[simp] theorem TimeDom.advance_mgmtIgnored (t : TimeDom) (now : Time) : (t.advance now).mgmtIgnored = t.mgmtIgnored := by
  unfold TimeDom.advance; split <;> rfl

@[simp] theorem TimeDom.advance_stopped (t : TimeDom) (now : Time) : (t.advance now).stopped = t.stopped := by
  unfold TimeDom.advance; split <;> rfl

/-! ### The reach and the module -/

@[simp] theorem Chip.reach_at_time (c : Chip) (r : ReachId) (now : Time) : ((c.at r now).reach r).time = (c.reach r).time.advance now := by
  simp [Chip.at]

theorem Chip.reach_at_ne (c : Chip) {r q : ReachId} (now : Time) (h : q ≠ r) : (c.at r now).reach q = c.reach q :=
  Chip.reach_onReach_ne c _ h

@[simp] theorem Chip.reach_at_service (c : Chip) (r q : ReachId) (now : Time) : ((c.at r now).reach q).service = (c.reach q).service := by
  by_cases h : q = r
  · subst h; simp [Chip.at]
  · rw [Chip.reach_at_ne c now h]

@[simp] theorem Chip.reach_at_plan (c : Chip) (r q : ReachId) (now : Time) : ((c.at r now).reach q).plan = (c.reach q).plan := by
  by_cases h : q = r
  · subst h; simp [Chip.at]
  · rw [Chip.reach_at_ne c now h]

@[simp] theorem Chip.reach_at_tiles (c : Chip) (r q : ReachId) (now : Time) : ((c.at r now).reach q).tiles = (c.reach q).tiles := by
  by_cases h : q = r
  · subst h; simp [Chip.at]
  · rw [Chip.reach_at_ne c now h]

@[simp] theorem Chip.reach_at_mem (c : Chip) (r q : ReachId) (now : Time) : ((c.at r now).reach q).mem = (c.reach q).mem := by
  by_cases h : q = r
  · subst h; simp [Chip.at]
  · rw [Chip.reach_at_ne c now h]

@[simp] theorem Chip.reach_at_tdc (c : Chip) (r q : ReachId) (now : Time) : ((c.at r now).reach q).tdc = (c.reach q).tdc := by
  by_cases h : q = r
  · subst h; simp [Chip.at]
  · rw [Chip.reach_at_ne c now h]

@[simp] theorem Chip.reach_at_rme (c : Chip) (r q : ReachId) (now : Time) : ((c.at r now).reach q).rme = (c.reach q).rme := by
  by_cases h : q = r
  · subst h; simp [Chip.at]
  · rw [Chip.reach_at_ne c now h]

@[simp] theorem Chip.reach_at_rtr (c : Chip) (r q : ReachId) (now : Time) : ((c.at r now).reach q).rtr = (c.reach q).rtr := by
  by_cases h : q = r
  · subst h; simp [Chip.at]
  · rw [Chip.reach_at_ne c now h]

@[simp] theorem Chip.reach_at_coll (c : Chip) (r q : ReachId) (now : Time) : ((c.at r now).reach q).coll = (c.reach q).coll := by
  by_cases h : q = r
  · subst h; simp [Chip.at]
  · rw [Chip.reach_at_ne c now h]

@[simp] theorem Chip.reach_at_macs (c : Chip) (r q : ReachId) (now : Time) : ((c.at r now).reach q).macs = (c.reach q).macs := by
  by_cases h : q = r
  · subst h; simp [Chip.at]
  · rw [Chip.reach_at_ne c now h]

@[simp] theorem Chip.reach_at_cipher (c : Chip) (r q : ReachId) (now : Time) : ((c.at r now).reach q).cipher = (c.reach q).cipher := by
  by_cases h : q = r
  · subst h; simp [Chip.at]
  · rw [Chip.reach_at_ne c now h]

@[simp] theorem Chip.reach_at_bist (c : Chip) (r q : ReachId) (now : Time) : ((c.at r now).reach q).bist = (c.reach q).bist := by
  by_cases h : q = r
  · subst h; simp [Chip.at]
  · rw [Chip.reach_at_ne c now h]

@[simp] theorem Chip.reach_at_trace (c : Chip) (r q : ReachId) (now : Time) : ((c.at r now).reach q).trace = (c.reach q).trace := by
  by_cases h : q = r
  · subst h; simp [Chip.at]
  · rw [Chip.reach_at_ne c now h]

@[simp] theorem Chip.reach_at_pwr (c : Chip) (r q : ReachId) (now : Time) : ((c.at r now).reach q).pwr = (c.reach q).pwr := by
  by_cases h : q = r
  · subst h; simp [Chip.at]
  · rw [Chip.reach_at_ne c now h]

@[simp] theorem Chip.reach_at_pkmap (c : Chip) (r q : ReachId) (now : Time) : ((c.at r now).reach q).pkmap = (c.reach q).pkmap := by
  by_cases h : q = r
  · subst h; simp [Chip.at]
  · rw [Chip.reach_at_ne c now h]

@[simp] theorem Chip.reach_at_addr (c : Chip) (r q : ReachId) (now : Time) : ((c.at r now).reach q).addr = (c.reach q).addr := by
  by_cases h : q = r
  · subst h; simp [Chip.at]
  · rw [Chip.reach_at_ne c now h]

@[simp] theorem Chip.reach_at_lanemap (c : Chip) (r q : ReachId) (now : Time) : ((c.at r now).reach q).lanemap = (c.reach q).lanemap := by
  by_cases h : q = r
  · subst h; simp [Chip.at]
  · rw [Chip.reach_at_ne c now h]

@[simp] theorem Chip.reach_at_serdes (c : Chip) (r q : ReachId) (now : Time) : ((c.at r now).reach q).serdes = (c.reach q).serdes := by
  by_cases h : q = r
  · subst h; simp [Chip.at]
  · rw [Chip.reach_at_ne c now h]

@[simp] theorem Chip.reach_at_maint (c : Chip) (r q : ReachId) (now : Time) : ((c.at r now).reach q).maint = (c.reach q).maint := by
  by_cases h : q = r
  · subst h; simp [Chip.at]
  · rw [Chip.reach_at_ne c now h]

@[simp] theorem Chip.reach_at_mirrorSeq (c : Chip) (r q : ReachId) (now : Time) : ((c.at r now).reach q).mirrorSeq = (c.reach q).mirrorSeq := by
  by_cases h : q = r
  · subst h; simp [Chip.at]
  · rw [Chip.reach_at_ne c now h]

@[simp] theorem Chip.reach_at_gauges (c : Chip) (r q : ReachId) (now : Time) : ((c.at r now).reach q).gauges = (c.reach q).gauges := by
  by_cases h : q = r
  · subst h; simp [Chip.at]
  · rw [Chip.reach_at_ne c now h]

@[simp] theorem Chip.reach_at_claims (c : Chip) (r q : ReachId) (now : Time) : ((c.at r now).reach q).claims = (c.reach q).claims := by
  by_cases h : q = r
  · subst h; simp [Chip.at]
  · rw [Chip.reach_at_ne c now h]

@[simp] theorem Chip.inService_at (c : Chip) (r q : ReachId) (now : Time) : (c.at r now).inService q = c.inService q := by
  simp [Chip.inService]

@[simp] theorem Chip.nodeId_at (c : Chip) (r q : ReachId) (now : Time) : (c.at r now).nodeId q = c.nodeId q := rfl

@[simp] theorem Chip.alive_at (c : Chip) (r : ReachId) (now : Time) : (c.at r now).alive = c.alive := rfl

end Sys2Proof.Machine
end

