-- ==== Sys2Proof/Laws/Run.lean ====
section
/-!
SUPPORT. How a command's effect becomes an outcome: one lemma for each way of running, and the block with another module behind its queue.
-/

namespace Sys2Proof.Machine

@[simp] theorem State.put_chip (s : State) (c : Chip) : (s.put c).chip = c := rfl

@[simp] theorem State.put_pending (s : State) (c : Chip) : (s.put c).pending = s.pending := rfl

@[simp] theorem State.put_put (s : State) (c d : Chip) : (s.put c).put d = s.put d := rfl

@[simp] theorem State.put_self (s : State) : s.put s.chip = s := rfl

/-- A pin's event is carried out whatever the module's state. -/
theorem State.runPin_eq (s : State) (f : Chip → Chip) : s.runPin f = .next (s.put (f s.chip)) := rfl

/-- An effect is carried out by a live module. -/
theorem State.run_live {s : State} (f : Chip → Chip) (h : s.chip.alive = true) : s.run f = .next (s.put (f s.chip)) := by
  simp [State.run, State.runPin, State.put, h]

/-- A module without its rails or in MRST_N does nothing. -/
theorem State.run_dead {s : State} (f : Chip → Chip) (h : s.chip.alive = false) : s.run f = .next s := by
  simp [State.run, State.runPin, h]

theorem State.runSettle_live {s : State} (f : Chip → Chip) (h : s.chip.alive = true) :
    s.runSettle f = .next (s.put (f s.chip).settle) := State.run_live _ h

/-- A host command is carried out while its chain may be taken. -/
theorem State.runCmd_live {s : State} {ref : CmdRef} (f : CmdRef → Chip → Chip) (h : s.chip.alive = true)
    (ht : s.chip.taking ref = true) : s.runCmd ref f = .next (s.put (f ref s.chip)) := by
  simp [State.runCmd, State.run_live _ h, ht]

theorem State.runCmdSettle_live {s : State} {ref : CmdRef} (f : CmdRef → Chip → Chip) (h : s.chip.alive = true)
    (ht : s.chip.taking ref = true) : s.runCmdSettle ref f = .next (s.put (f ref s.chip).settle) := by
  simp [State.runCmdSettle, State.run_live _ h, ht]

/-- A command of a chain that a shut-down left untaken has no effect (R511). -/
theorem State.runCmd_untaken {s : State} {ref : CmdRef} (f : CmdRef → Chip → Chip) (ht : s.chip.taking ref = false) :
    s.runCmd ref f = .next s := by
  simp [State.runCmd, State.run, State.runPin, ht]

theorem State.runReq_ring_live {s : State} {ref : CmdRef} {resp : Word64} {n : Word32} (f : ReqPath → Chip → Chip) (h : s.chip.alive = true)
    (ht : s.chip.taking ref = true) : s.runReq (.ring ref resp n) f = .next (s.put (f (.ring ref resp n) s.chip)) := by
  simp [State.runReq, State.runCmd_live _ h ht]

theorem State.runReq_mctp_live {s : State} {eid : BitVec 8} (f : ReqPath → Chip → Chip) (h : s.chip.alive = true) :
    s.runReq (.mctp eid) f = .next (s.put (f (.mctp eid) s.chip)) := State.run_live _ h

end Sys2Proof.Machine
end

