-- ==== Sys2Proof/Laws/Updates.lean ====
section
/-!
SUPPORT. What the updates of one part of a reach leave: the part itself changed as they say, every other reach and every other part of the
module as it was.
-/

namespace Sys2Proof.Machine

/-! ### Chip.onTime -/

@[simp] theorem Chip.reach_onTime (c : Chip) (r : ReachId) (f : TimeDom → TimeDom) :
    (c.onTime r f).reach r = { c.reach r with time := f (c.reach r).time } := by
  simp [Chip.onTime]

theorem Chip.reach_onTime_ne (c : Chip) {r q : ReachId} (f : TimeDom → TimeDom) (h : q ≠ r) : (c.onTime r f).reach q = c.reach q :=
  Chip.reach_onReach_ne c _ h

@[simp] theorem Chip.onTime_host (c : Chip) (r : ReachId) (f : TimeDom → TimeDom) : (c.onTime r f).host = c.host := rfl

@[simp] theorem Chip.onTime_xlt (c : Chip) (r : ReachId) (f : TimeDom → TimeDom) : (c.onTime r f).xlt = c.xlt := rfl

@[simp] theorem Chip.onTime_sec (c : Chip) (r : ReachId) (f : TimeDom → TimeDom) : (c.onTime r f).sec = c.sec := rfl

@[simp] theorem Chip.onTime_gate (c : Chip) (r : ReachId) (f : TimeDom → TimeDom) : (c.onTime r f).gate = c.gate := rfl

@[simp] theorem Chip.onTime_freeCtr (c : Chip) (r : ReachId) (f : TimeDom → TimeDom) : (c.onTime r f).freeCtr = c.freeCtr := rfl

@[simp] theorem Chip.onTime_sent (c : Chip) (r : ReachId) (f : TimeDom → TimeDom) : (c.onTime r f).sent = c.sent := rfl

/-! ### Chip.onRtr -/

@[simp] theorem Chip.reach_onRtr (c : Chip) (r : ReachId) (f : Router → Router) :
    (c.onRtr r f).reach r = { c.reach r with rtr := f (c.reach r).rtr } := by
  simp [Chip.onRtr]

theorem Chip.reach_onRtr_ne (c : Chip) {r q : ReachId} (f : Router → Router) (h : q ≠ r) : (c.onRtr r f).reach q = c.reach q :=
  Chip.reach_onReach_ne c _ h

@[simp] theorem Chip.onRtr_host (c : Chip) (r : ReachId) (f : Router → Router) : (c.onRtr r f).host = c.host := rfl

@[simp] theorem Chip.onRtr_xlt (c : Chip) (r : ReachId) (f : Router → Router) : (c.onRtr r f).xlt = c.xlt := rfl

@[simp] theorem Chip.onRtr_sec (c : Chip) (r : ReachId) (f : Router → Router) : (c.onRtr r f).sec = c.sec := rfl

@[simp] theorem Chip.onRtr_gate (c : Chip) (r : ReachId) (f : Router → Router) : (c.onRtr r f).gate = c.gate := rfl

@[simp] theorem Chip.onRtr_freeCtr (c : Chip) (r : ReachId) (f : Router → Router) : (c.onRtr r f).freeCtr = c.freeCtr := rfl

@[simp] theorem Chip.onRtr_sent (c : Chip) (r : ReachId) (f : Router → Router) : (c.onRtr r f).sent = c.sent := rfl

/-! ### Chip.onRme -/

@[simp] theorem Chip.reach_onRme (c : Chip) (r : ReachId) (f : Rme → Rme) :
    (c.onRme r f).reach r = { c.reach r with rme := f (c.reach r).rme } := by
  simp [Chip.onRme]

theorem Chip.reach_onRme_ne (c : Chip) {r q : ReachId} (f : Rme → Rme) (h : q ≠ r) : (c.onRme r f).reach q = c.reach q :=
  Chip.reach_onReach_ne c _ h

@[simp] theorem Chip.onRme_host (c : Chip) (r : ReachId) (f : Rme → Rme) : (c.onRme r f).host = c.host := rfl

@[simp] theorem Chip.onRme_xlt (c : Chip) (r : ReachId) (f : Rme → Rme) : (c.onRme r f).xlt = c.xlt := rfl

@[simp] theorem Chip.onRme_sec (c : Chip) (r : ReachId) (f : Rme → Rme) : (c.onRme r f).sec = c.sec := rfl

@[simp] theorem Chip.onRme_gate (c : Chip) (r : ReachId) (f : Rme → Rme) : (c.onRme r f).gate = c.gate := rfl

@[simp] theorem Chip.onRme_freeCtr (c : Chip) (r : ReachId) (f : Rme → Rme) : (c.onRme r f).freeCtr = c.freeCtr := rfl

@[simp] theorem Chip.onRme_sent (c : Chip) (r : ReachId) (f : Rme → Rme) : (c.onRme r f).sent = c.sent := rfl

/-! ### Chip.onPlan -/

@[simp] theorem Chip.reach_onPlan (c : Chip) (r : ReachId) (f : PlanService → PlanService) :
    (c.onPlan r f).reach r = { c.reach r with plan := f (c.reach r).plan } := by
  simp [Chip.onPlan]

theorem Chip.reach_onPlan_ne (c : Chip) {r q : ReachId} (f : PlanService → PlanService) (h : q ≠ r) : (c.onPlan r f).reach q = c.reach q :=
  Chip.reach_onReach_ne c _ h

@[simp] theorem Chip.onPlan_host (c : Chip) (r : ReachId) (f : PlanService → PlanService) : (c.onPlan r f).host = c.host := rfl

@[simp] theorem Chip.onPlan_xlt (c : Chip) (r : ReachId) (f : PlanService → PlanService) : (c.onPlan r f).xlt = c.xlt := rfl

@[simp] theorem Chip.onPlan_sec (c : Chip) (r : ReachId) (f : PlanService → PlanService) : (c.onPlan r f).sec = c.sec := rfl

@[simp] theorem Chip.onPlan_gate (c : Chip) (r : ReachId) (f : PlanService → PlanService) : (c.onPlan r f).gate = c.gate := rfl

@[simp] theorem Chip.onPlan_freeCtr (c : Chip) (r : ReachId) (f : PlanService → PlanService) : (c.onPlan r f).freeCtr = c.freeCtr := rfl

@[simp] theorem Chip.onPlan_sent (c : Chip) (r : ReachId) (f : PlanService → PlanService) : (c.onPlan r f).sent = c.sent := rfl

/-! ### Chip.onPwr -/

@[simp] theorem Chip.reach_onPwr (c : Chip) (r : ReachId) (f : Power → Power) :
    (c.onPwr r f).reach r = { c.reach r with pwr := f (c.reach r).pwr } := by
  simp [Chip.onPwr]

theorem Chip.reach_onPwr_ne (c : Chip) {r q : ReachId} (f : Power → Power) (h : q ≠ r) : (c.onPwr r f).reach q = c.reach q :=
  Chip.reach_onReach_ne c _ h

@[simp] theorem Chip.onPwr_host (c : Chip) (r : ReachId) (f : Power → Power) : (c.onPwr r f).host = c.host := rfl

@[simp] theorem Chip.onPwr_xlt (c : Chip) (r : ReachId) (f : Power → Power) : (c.onPwr r f).xlt = c.xlt := rfl

@[simp] theorem Chip.onPwr_sec (c : Chip) (r : ReachId) (f : Power → Power) : (c.onPwr r f).sec = c.sec := rfl

@[simp] theorem Chip.onPwr_gate (c : Chip) (r : ReachId) (f : Power → Power) : (c.onPwr r f).gate = c.gate := rfl

@[simp] theorem Chip.onPwr_freeCtr (c : Chip) (r : ReachId) (f : Power → Power) : (c.onPwr r f).freeCtr = c.freeCtr := rfl

@[simp] theorem Chip.onPwr_sent (c : Chip) (r : ReachId) (f : Power → Power) : (c.onPwr r f).sent = c.sent := rfl

/-! ### Chip.onBist -/

@[simp] theorem Chip.reach_onBist (c : Chip) (r : ReachId) (f : Bist → Bist) :
    (c.onBist r f).reach r = { c.reach r with bist := f (c.reach r).bist } := by
  simp [Chip.onBist]

theorem Chip.reach_onBist_ne (c : Chip) {r q : ReachId} (f : Bist → Bist) (h : q ≠ r) : (c.onBist r f).reach q = c.reach q :=
  Chip.reach_onReach_ne c _ h

@[simp] theorem Chip.onBist_host (c : Chip) (r : ReachId) (f : Bist → Bist) : (c.onBist r f).host = c.host := rfl

@[simp] theorem Chip.onBist_xlt (c : Chip) (r : ReachId) (f : Bist → Bist) : (c.onBist r f).xlt = c.xlt := rfl

@[simp] theorem Chip.onBist_sec (c : Chip) (r : ReachId) (f : Bist → Bist) : (c.onBist r f).sec = c.sec := rfl

@[simp] theorem Chip.onBist_gate (c : Chip) (r : ReachId) (f : Bist → Bist) : (c.onBist r f).gate = c.gate := rfl

@[simp] theorem Chip.onBist_freeCtr (c : Chip) (r : ReachId) (f : Bist → Bist) : (c.onBist r f).freeCtr = c.freeCtr := rfl

@[simp] theorem Chip.onBist_sent (c : Chip) (r : ReachId) (f : Bist → Bist) : (c.onBist r f).sent = c.sent := rfl

/-! ### Chip.onTrace -/

@[simp] theorem Chip.reach_onTrace (c : Chip) (r : ReachId) (f : Trace → Trace) :
    (c.onTrace r f).reach r = { c.reach r with trace := f (c.reach r).trace } := by
  simp [Chip.onTrace]

theorem Chip.reach_onTrace_ne (c : Chip) {r q : ReachId} (f : Trace → Trace) (h : q ≠ r) : (c.onTrace r f).reach q = c.reach q :=
  Chip.reach_onReach_ne c _ h

@[simp] theorem Chip.onTrace_host (c : Chip) (r : ReachId) (f : Trace → Trace) : (c.onTrace r f).host = c.host := rfl

@[simp] theorem Chip.onTrace_xlt (c : Chip) (r : ReachId) (f : Trace → Trace) : (c.onTrace r f).xlt = c.xlt := rfl

@[simp] theorem Chip.onTrace_sec (c : Chip) (r : ReachId) (f : Trace → Trace) : (c.onTrace r f).sec = c.sec := rfl

@[simp] theorem Chip.onTrace_gate (c : Chip) (r : ReachId) (f : Trace → Trace) : (c.onTrace r f).gate = c.gate := rfl

@[simp] theorem Chip.onTrace_freeCtr (c : Chip) (r : ReachId) (f : Trace → Trace) : (c.onTrace r f).freeCtr = c.freeCtr := rfl

@[simp] theorem Chip.onTrace_sent (c : Chip) (r : ReachId) (f : Trace → Trace) : (c.onTrace r f).sent = c.sent := rfl

/-! ### Chip.onMac -/

@[simp] theorem Chip.reach_onMac (c : Chip) (r : ReachId) (p : PortId) (f : Mac → Mac) : (c.onMac r p f).reach r = (c.reach r).onMac p f := by
  simp [Chip.onMac]

theorem Chip.reach_onMac_ne (c : Chip) {r q : ReachId} (p : PortId) (f : Mac → Mac) (h : q ≠ r) : (c.onMac r p f).reach q = c.reach q :=
  Chip.reach_onReach_ne c _ h

@[simp] theorem Chip.onMac_host (c : Chip) (r : ReachId) (p : PortId) (f : Mac → Mac) : (c.onMac r p f).host = c.host := rfl

@[simp] theorem Chip.onMac_xlt (c : Chip) (r : ReachId) (p : PortId) (f : Mac → Mac) : (c.onMac r p f).xlt = c.xlt := rfl

@[simp] theorem Chip.onMac_sec (c : Chip) (r : ReachId) (p : PortId) (f : Mac → Mac) : (c.onMac r p f).sec = c.sec := rfl

@[simp] theorem Chip.onMac_gate (c : Chip) (r : ReachId) (p : PortId) (f : Mac → Mac) : (c.onMac r p f).gate = c.gate := rfl

@[simp] theorem Chip.onMac_freeCtr (c : Chip) (r : ReachId) (p : PortId) (f : Mac → Mac) : (c.onMac r p f).freeCtr = c.freeCtr := rfl

@[simp] theorem Chip.onMac_sent (c : Chip) (r : ReachId) (p : PortId) (f : Mac → Mac) : (c.onMac r p f).sent = c.sent := rfl

end Sys2Proof.Machine
end

