-- ==== Sys2Proof/WellFormed.lean ====
section
/-!
DEFINITION. Well-formed commands: the sizes that the spec gives to what an operand carries as a list or a number. The machine gives every
command its meaning, well formed or not.
-/

namespace Sys2Proof

/-- The extension is the one that TYPE names (table "FRT packet types"), the payload fits a packet, and a tag has 16 bytes (R227, R228). -/
def packetOk (p : FrtPacket) : Bool :=
  (match p.ext, p.type.toNat with
    | .op _, 0 | .op _, 1 => true
    | .resp _, 2 => true
    | .ack _, 3 => true
    | .nak _, 4 => true
    | _, _ => false)
  && decide (p.payload.length ≤ 4096) && (p.tag.length == if p.ciph then 16 else 0)

/-- Seven ports at most have a peer (R21, R262). -/
def lsaOk (l : Lsa) : Bool := decide (l.links.length ≤ 7)

/-- A congestion map has nine port records of eight bins (R277). -/
def cmapOk (m : Cmap) : Bool := m.ports.length == 9 && m.ports.all (fun p => p.hist.length == 8)

/-- Histograms of nine ports (R277). -/
def histOk (h : List (List Word16)) : Bool := h.length == 9 && h.all (fun l => l.length == 8)

/-- The port rate has 16 bits (R261). -/
def surveyOk (s : Survey) : Bool := decide (s.rateGbps < 2 ^ 16)

/-- ROUND_CYCLES and LOG2_L have the widths of the plan header (R60). -/
def armOk (a : ArmFrame) : Bool := decide (a.roundCycles < 2 ^ 32) && decide (a.log2L < 2 ^ 8)

/-- The body of a keeper frame (R260 to R277). -/
def keeperOk : KeeperBody → Bool
  | .survey p => surveyOk p
  | .lsa l => lsaOk l
  | .cmap m => cmapOk m
  | .planArm a => armOk a
  | .tableWrite _ entries _ => entries.all (fun e => decide (e.1 < 4096))
  | .linkNotice _ _ | .tableAck _ _ | .flip _ _ | .flipAck _ | .hello | .echoReq _ | .echoResp _ | .planStop _ _ | .other _ => true

/-- A frame at a port (R323). -/
def frameOk (f : EthFrame) : Bool :=
  decide (0 < f.len) && decide (f.len < 2 ^ 16) && (match f.body with
    | .frt p => packetOk p
    | .keeper k => keeperOk k.body
    | .ptp .. | .other .. => true)

/-- A descriptor has 60 bytes beside the ring layer's word (R361). -/
def descOk (d : Desc) : Bool := d.body.length == 60

/-- A feed carries the bytes that LENGTH names (R376). -/
def feedOk (p : FeedPost) : Bool := decide (p.bytes.length ≤ p.length.toNat)

/-- A container carries the bytes that LENGTH names (R65). -/
def loadOk (p : PlanLoad) : Bool := p.bytes.length == p.length.toNat

/-- FIRST and COUNT have 32 bits (R371). -/
def tableOk (t : ConfigTable) : Bool := decide (t.first < 2 ^ 32) && decide (t.count < 2 ^ 32)

/-- A collective's index and a member have 16 bits (R370). -/
def collOk (p : CollStart) : Bool := decide (p.index < 2 ^ 16) && decide (p.member < 2 ^ 16)

/-- A blob carries the bytes that the command names (R409). -/
def restoreOk (p : TenRestore) : Bool := p.blob.length == p.length.toNat && p.loads.all loadOk

/-- A body of 0 to 8,192 bytes, and signatures of Ed25519 and ML-DSA-65 (R425). -/
def roleOk (b : RoleReq) : Bool :=
  decide (b.body.length ≤ 8192) && (b.role == 0 || (b.edSig.length == 64 && b.mlSig.length == 3309))

/-- An image header has 4,096 bytes (R417). -/
def imageOk (i : Image) : Bool := i.header.length == 4096

/-- Additional data of at most 65,536 bytes, and a tag of at most 16 (R441). -/
def cipherOk (d : CipherData) : Bool := decide (d.aad.length ≤ 65536) && decide (d.tag.length ≤ 16)

/-- A reach's sensors: 16, 2, 6 and 2 temperatures and seven currents (R485, R496). -/
def sensorsOk (s : Sensors) : Bool :=
  s.die.length == 16 && s.hbm.length == 2 && s.lp.length == 6 && s.gate.length == 2 && s.amps.length == 7

/-- A test marches at most 16 sixteenths and 64 sixty-fourths (R457). -/
def runOk : TestRun → Bool
  | .waits => true
  | .ran t => decide (t.hbm ≤ 16) && decide (t.lp ≤ 64)

/-- A bit of a 64-byte line (R161). -/
def dredgeOk : DredgeFind → Bool
  | .corrected b => decide (b < 512)
  | .parityRetried n => decide (1 ≤ n) && decide (n ≤ 3)
  | .clean | .bad | .badCheckLine | .onDie | .parity => true

/-- A write has bytes (R528). -/
def regWriteOk : RegWrite → Bool
  | .bar0 _ size _ => decide (0 < size)
  | .vectorMask _ _ => true

/-- A grant lists at most eight partition entries (R403). -/
def grantOk (g : Grant) : Bool := decide (g.pkeyIdx.length ≤ 8)

/-- Well-formed commands. -/
def Instr.wellFormed : Instr → Bool
  | .followUpRx _ _ _ _ _ _ _ => true
  | .syncRx _ _ _ _ _ => true
  | .announceRx _ _ _ _ => true
  | .pdelayReqRx _ _ _ _ _ _ => true
  | .pdelayRespRx _ _ _ _ _ _ _ => true
  | .ptpManagementRx _ => true
  | .syncTxTimer _ _ _ => true
  | .announceTxTimer _ _ _ => true
  | .pdelayReqTimer _ _ _ => true
  | .ppsInEdge _ _ _ _ => true
  | .sourceQualifies _ _ _ _ _ _ => true
  | .lockEntry _ _ => true
  | .sourceLoss _ _ => true
  | .holdoverExpiry _ _ => true
  | .timeEraWrap _ _ => true
  | .timeNowLowRead _ => true
  | .timeFloorWrite _ _ _ => true
  | .timingDomainStop _ => true
  | .planLoad _ p => loadOk p
  | .planArmRx _ _ a => armOk a
  | .planPeerTimeout _ _ _ => true
  | .planStart _ _ _ => true
  | .lockCycleBoundary _ _ => true
  | .gateEntryBoundary _ _ _ => true
  | .lateStoppage _ _ _ => true
  | .planStopRx _ _ _ _ => true
  | .planResume _ _ => true
  | .planUnload _ _ => true
  | .planStop _ _ => true
  | .matrixProduct _ _ _ _ => true
  | .matrixBatchedProduct _ _ _ _ => true
  | .matrixBlockFinal _ _ _ => true
  | .vectorAdd _ _ _ _ => true
  | .vectorSub _ _ _ _ => true
  | .vectorMul _ _ _ _ => true
  | .vectorFma _ _ _ _ => true
  | .vectorCmp _ _ _ _ => true
  | .vectorMin _ _ _ _ => true
  | .vectorMax _ _ _ _ => true
  | .vectorSel _ _ _ _ => true
  | .vectorExp2 _ _ _ _ => true
  | .vectorLog2 _ _ _ _ => true
  | .vectorRcp _ _ _ _ => true
  | .vectorRsqrt _ _ _ _ => true
  | .vectorRsum _ _ _ _ => true
  | .vectorRmax _ _ _ _ => true
  | .vectorRmin _ _ _ _ => true
  | .topK _ _ _ _ => true
  | .sort _ _ _ _ => true
  | .merge _ _ _ _ => true
  | .gather _ _ _ _ => true
  | .scatterWrite _ _ _ _ => true
  | .scatterAdd _ _ _ _ => true
  | .expertRoute _ _ _ _ => true
  | .convert _ _ _ _ => true
  | .moveLoad _ _ _ _ => true
  | .moveStore _ _ _ _ => true
  | .moveCopy _ _ _ _ => true
  | .recload _ _ _ _ => true
  | .recstore _ _ _ _ => true
  | .moveEnd _ _ _ _ done => done.finds.all (fun e => dredgeOk e.2)
  | .remote _ _ _ _ _ => true
  | .issueQueueCopy _ _ _ _ _ => true
  | .waitTime _ _ _ _ _ => true
  | .waitTimeExpiry _ _ _ _ => true
  | .waitSignal _ _ _ _ _ => true
  | .seqWaitTimeout _ _ _ => true
  | .marker _ _ _ _ => true
  | .markerStamp _ _ _ _ => true
  | .digestOpen _ _ _ _ => true
  | .digestClose _ _ _ _ => true
  | .roundEnd _ _ _ _ _ => true
  | .phaseEnd _ _ _ _ _ => true
  | .phaseEndOnSignal _ _ _ _ _ => true
  | .stepEnd _ _ _ _ _ => true
  | .dredgeRead _ _ _ f => dredgeOk f
  | .xposSignalPoll _ _ => true
  | .rmeWrite _ _ _ => true
  | .rmeWriteSignal _ _ _ => true
  | .rmeRead _ _ _ => true
  | .rmeSend _ _ _ => true
  | .rmeRecv _ _ _ => true
  | .rmeFetchAdd _ _ _ => true
  | .rmeFence _ _ _ => true
  | .rmeFlush _ _ _ => true
  | .rmeCompletion _ _ _ _ => true
  | .qpCreate _ _ => true
  | .qpModify _ _ => true
  | .qpDrainDone _ _ _ => true
  | .qpDestroy _ _ => true
  | .mooringRegister _ _ _ => true
  | .mooringWithdraw _ _ => true
  | .mooringRelease _ _ _ => true
  | .hostFlushRead _ _ => true
  | .hostFlushDone _ _ => true
  | .rnrRetry _ _ _ => true
  | .frtPacketSend _ _ _ _ => true
  | .frtDataRx _ _ p => packetOk p
  | .frtReadReqRx _ _ p => packetOk p
  | .frtReadRespRx _ _ p => packetOk p
  | .frtAckRx _ _ p => packetOk p
  | .frtNakRx _ _ p => packetOk p
  | .ackDelayTimer _ _ _ => true
  | .retransmitTimer _ _ _ => true
  | .frameForward _ _ => true
  | .surveyTxTimer _ _ => true
  | .surveyRx _ _ _ survey => surveyOk survey
  | .portUsableTimer _ _ _ => true
  | .surveyLoss _ _ _ => true
  | .lsaRx _ _ _ l => lsaOk l
  | .lsaFloodTimer _ _ => true
  | .linkNoticeRx _ _ _ _ => true
  | .cmapTxTimer _ _ hist => histOk hist
  | .cmapRx _ _ m => cmapOk m
  | .tableWriteRx _ _ _ _ entries _ => entries.all (fun e => decide (e.1 < 4096))
  | .tableAckRx _ _ _ _ _ => true
  | .tableAckTimeout _ _ => true
  | .flipRx _ _ _ _ _ => true
  | .flipAckRx _ _ _ _ => true
  | .flipRepeatTimer _ _ => true
  | .epochFlip _ _ => true
  | .epochDrainEnd _ _ => true
  | .fmHelloTimer _ _ => true
  | .fmHelloRx _ _ _ => true
  | .fmTakeover _ _ => true
  | .linkFault _ _ _ => true
  | .linkUp _ _ _ _ _ _ => true
  | .echoReq _ _ _ _ => true
  | .echoResp _ _ _ => true
  | .maintenanceContextIdle _ _ _ => true
  | .mirrorRefreshTimer _ _ => true
  | .collStart _ p => collOk p
  | .collChunkSend _ _ _ _ _ _ => true
  | .collChunkReceive _ _ _ _ _ _ => true
  | .collTimeout _ _ _ _ _ => true
  | .adderTestBurst _ _ _ _ => true
  | .macFrameRx _ _ _ f => frameOk f
  | .pauseRx _ _ _ _ => true
  | .pfcRx _ _ _ _ times => times.length == 8
  | .pauseExpiry _ _ _ _ => true
  | .pauseWatchdog _ _ _ _ => true
  | .pauseWatchdogHoldEnd _ _ _ _ => true
  | .pfcRepeatTimer _ _ _ _ => true
  | .portFrameStart _ _ _ _ => true
  | .shpSluiceWrite _ _ _ _ _ _ => true
  | .macCtReset _ _ _ => true
  | .doorbell _ _ => true
  | .indexWordReadDone _ _ _ => true
  | .descriptorFetchDone _ _ l => l.all descOk
  | .completionRingRoom _ _ _ => true
  | .interruptModerationTimer _ _ _ => true
  | .hostReadTimeout _ => true
  | .ringCreate _ _ => true
  | .ringDestroy _ _ => true
  | .nop _ => true
  | .objQuery _ _ _ _ => true
  | .feedPost _ p => feedOk p
  | .ckptPost _ p => feedOk p
  | .configTableWrite _ t => tableOk t
  | .configTableRead _ t => tableOk t
  | .attach _ => true
  | .detach _ => true
  | .hostRevWrite _ _ => true
  | .hostClkWrite _ _ => true
  | .hostPortReset _ => true
  | .functionLevelReset _ => true
  | .powerStateChange _ => true
  | .asidCreate _ _ => true
  | .xltMap _ _ => true
  | .xltWithdraw _ _ => true
  | .asidInvalidate _ _ _ => true
  | .xltInvalidateDrained _ => true
  | .xltFaultExpiry _ _ _ _ => true
  | .functionEnable _ g => grantOk g
  | .functionDisable _ _ => true
  | .tenFreeze _ _ _ => true
  | .tenFreezeDrainExpiry _ _ _ => true
  | .tenSave _ _ => true
  | .tenRestore _ p => restoreOk p
  | .tenUnfreeze _ _ => true
  | .resetTiles _ _ _ => true
  | .resetReach _ _ => true
  | .bistRun _ _ _ _ runs => runs.toList.all runOk
  | .bistWindowTimeout _ _ => true
  | .roleOpen _ b => roleOk b
  | .roleClose _ b => roleOk b
  | .roleSessionExpiry _ _ _ => true
  | .enrol _ b => roleOk b
  | .revoke _ b => roleOk b
  | .imageStage _ b image => roleOk b && imageOk image
  | .svnCommit _ b => roleOk b
  | .fabricKey _ b => roleOk b
  | .fabricKeyRetire _ _ _ => true
  | .fabricKeyAgeAlert _ _ _ => true
  | .kekSet _ b => roleOk b
  | .hostKey _ b => roleOk b
  | .logRead _ b => roleOk b
  | .logTrim _ b => roleOk b
  | .cipher _ b d => roleOk b && cipherOk d
  | .identity _ b => roleOk b
  | .spdmGetVersion _ _ => true
  | .spdmGetCapabilities _ _ => true
  | .spdmNegotiateAlgorithms _ _ _ => true
  | .spdmGetDigests _ _ => true
  | .spdmGetCertificate _ _ _ _ _ => true
  | .spdmChallenge _ _ _ _ => true
  | .spdmGetMeasurements _ _ _ _ => true
  | .pqCosign _ => true
  | .pqChain _ _ _ => true
  | .mctpRegRead _ offset => decide (offset < 2 ^ 28)
  | .mctpRegWrite _ offset _ => decide (offset < 2 ^ 28)
  | .mctpConfigTable _ _ t => tableOk t
  | .keeperWatchdogExpiry _ _ _ => true
  | .tileServiceTest _ _ _ _ => true
  | .serviceTestOverdue _ _ _ => true
  | .gaugeSnap _ _ => true
  | .trcCtrlArm _ _ => true
  | .trcTrigFire _ _ => true
  | .traceTriggerNotice _ _ _ => true
  | .traceTriggerTime _ _ => true
  | .traceCaptureFull _ _ => true
  | .traceSyncTimer _ _ => true
  | .traceStall _ _ => true
  | .traceRoomReturn _ _ => true
  | .traceFrameSend => true
  | .traceAlignmentBlock => true
  | .trcDumpGo _ _ => true
  | .traceDumpDone _ => true
  | .pwrEnRise _ _ => true
  | .pwrEnFall => true
  | .inputCutOff _ _ => true
  | .railFault _ _ _ => true
  | .droopTrip _ _ _ => true
  | .droopClear _ _ => true
  | .powerPeakTrip _ => true
  | .powerCapTick _ => true
  | .thermalTick _ _ sensors => sensorsOk sensors
  | .thermTrip _ _ => true
  | .powerLimitUnmet _ => true
  | .pwrCapWrite _ _ => true
  | .moduleReset => true
  | .mrstNLow => true
  | .strapChange _ _ _ => true
  | .moduleReady runs _ => runs.toList.all runOk
  | .gateShutGo _ _ => true
  | .shutdownDrainEnd _ _ runs => runs.toList.all runOk
  | .shutdownDone => true
  | .registerWrite _ w => regWriteOk w
  | .perstNRelease => true
  | .mrstNRelease _ => true
  | .reachResetComplete _ _ => true
  | .ppsOutEdge _ _ => true
  | .uncorrectableCodeword _ _ _ => true

end Sys2Proof
end

