-- ==== Sys2Proof/Tests/Slice0.lean ====
section
/-!
SUPPORT. The block's own tests: for each check of WellFormed.lean a term that it refuses, the worked figures of the spec and of the standards that
it names, and for each statement of Certificates/Slice0/Obligations.lean states and operands that meet its hypotheses. Every state is a
module with one reach in service and the little that the statement needs; each theorem looks at one step at most.
-/

namespace Sys2Proof.Tests

open Sys2Proof Sys2Proof.Machine

-- one theorem after another: each kernel evaluation takes a thread of its own otherwise, with a large stack
set_option Elab.async false

/-! ### States -/

/-- A module whose host port is open and whose reach 0 is in service, at fabric time 0. -/
def up : Chip :=
  let c := Chip.reset
  Chip.onReach { c with gate := { c.gate with perstN := true }, host := { c.host with inReset := false, trained := true } } 0
    (fun x => { x with service := .inService })

def box (c : Chip) : State := { chip := c, pending := [] }

def ref0 : CmdRef := { fn := 0, ring := 3, handle := 0x100 }
def ref1 : CmdRef := { fn := 1, ring := 3, handle := 0x200 }

/-! ### Well-formed commands -/

def pkt0 : FrtPacket :=
  { fmt := 1, type := 0, tc := 2, epoch := false, ecn := 0, pkey := 1, dst := 0, src := 9, first := true, last := true, ackReq := true,
    retx := false, timeOk := false, ciph := false, dstQpn := 5, hops := 8, srcQpn := 7, psn := 0, txTime := 0, hopBase := 0, win := 0xFFFF,
    via := 0xFFFF, ext := .op { op := 0, ret := false, msn := 0, rkey := 0, roff := 0, length := 4, boff := 0, skey := 0, soff := 0, add := 0 },
    payload := [1, 2, 3, 4], tag := [], crc := 0, routed := none }

def lsa0 : Lsa := { origin := 9, seq := 1, eui := 7, cand := true, prio := 128, links := [(2, 0)] }
def survey0 : Survey := { mac := 0xA0, eui := 7, node := 9, rport := 2, rateGbps := 800, cand := true, prio := 128, usable := 0, heard := 0 }
def arm0 : ArmFrame := { node := 9, planId := 1, lockCycle := 0, cycleBase := 0, roundCycles := 1, log2L := 0, armTime := 0 }
def frame0 : EthFrame :=
  { dst := 0, src := 0, vid := none, len := 64, fcs := .good, ipOk := true, corrected := 0, body := .other 0x0800 none }
def keeper0 : KeeperFrame :=
  { fmt := 1, epoch := false, pkey := 1, dst := 0, src := 9, hops := 1, body := .lsa { lsa0 with links := List.replicate 8 (2, 0) }, crcOk := true }
def role0 : RoleReq :=
  { magic := 0, fmt := 1, role := 0, subop := 1, eui := 0, seq := 0, keyId := 0, body := [], edSig := [], mlSig := [] }
def grant0 : Grant :=
  { fmt := 1, function := 1, tileGroups := 1, hbmSets := 1, lpGib := Quad.pure 0, asidBase := 1, asidCount := 1, qpQuota := 1, moorQuota := 1,
    pkeyIdx := [], winShare := 0, gateQuota := 0 }
def load0 : PlanLoad := { addr := 0, length := 0, device := false, bytes := [] }
def table0 : ConfigTable := { table := 1, reaches := 1, port := 0, first := 0, count := 0, entries := [], iova := 0 }
def feed0 : FeedPost := { plan := 0, feed := 0, rkey := 0, roff := 0, length := 1, seq := 0, keySlot := 0xFFFF, bytes := [0] }

theorem test_refuses_packet : Instr.wellFormed (.frtDataRx 0 0 pkt0) = true ∧ Instr.wellFormed (.frtDataRx 0 0 { pkt0 with type := 2 }) = false
    ∧ Instr.wellFormed (.frtDataRx 0 0 { pkt0 with payload := List.replicate 4097 0 }) = false
    ∧ Instr.wellFormed (.frtDataRx 0 0 { pkt0 with ciph := true }) = false := by decide +kernel

theorem test_refuses_frames : Instr.wellFormed (.surveyRx 0 0 0 { survey0 with rateGbps := 65536 }) = false
    ∧ Instr.wellFormed (.lsaRx 0 0 0 { lsa0 with links := List.replicate 8 (2, 0) }) = false
    ∧ Instr.wellFormed (.cmapRx 0 0 { fmt := 1, reach := 0, node := 9, epochNum := 0, seq := 0, start := 0, ports := [] }) = false
    ∧ Instr.wellFormed (.cmapTxTimer 0 0 []) = false ∧ Instr.wellFormed (.planArmRx 0 0 { arm0 with log2L := 256 }) = false
    ∧ Instr.wellFormed (.tableWriteRx 0 0 9 0 [(4096, 0)] []) = false ∧ Instr.wellFormed (.macFrameRx 0 0 0 { frame0 with len := 65536 }) = false
    ∧ Instr.wellFormed (.macFrameRx 0 0 0 { frame0 with body := .keeper keeper0 }) = false
    ∧ Instr.wellFormed (.pfcRx 0 0 0 1 [0]) = false := by decide +kernel

theorem test_refuses_host : Instr.wellFormed (.descriptorFetchDone 0 0 [{ owner := true, first := true, last := true, kind := true, nomod := false, body := [] }]) = false
    ∧ Instr.wellFormed (.feedPost ref0 { feed0 with bytes := [0, 0] }) = false ∧ Instr.wellFormed (.ckptPost ref0 { feed0 with bytes := [0, 0] }) = false
    ∧ Instr.wellFormed (.planLoad ref0 { load0 with length := 1 }) = false
    ∧ Instr.wellFormed (.configTableWrite ref0 { table0 with first := 2 ^ 32 }) = false
    ∧ Instr.wellFormed (.configTableRead ref0 { table0 with count := 2 ^ 32 }) = false
    ∧ Instr.wellFormed (.mctpConfigTable 8 true { table0 with count := 2 ^ 32 }) = false
    ∧ Instr.wellFormed (.collStart ref0 { section_ := [], index := 65536, member := 0 }) = false
    ∧ Instr.wellFormed (.functionEnable ref0 { grant0 with pkeyIdx := List.replicate 9 0 }) = false
    ∧ Instr.wellFormed (.tenRestore ref0 { fn := 1, kek := 0, length := 1, blob := [], remap := [], loads := [] }) = false
    ∧ Instr.wellFormed (.registerWrite .pf (.bar0 0 0 0)) = false ∧ Instr.wellFormed (.mctpRegRead 8 (2 ^ 28)) = false
    ∧ Instr.wellFormed (.mctpRegWrite 8 (2 ^ 28) 0) = false := by decide +kernel

theorem test_refuses_security : Instr.wellFormed (.roleOpen (.mctp 8) role0) = true ∧ Instr.wellFormed (.roleOpen (.mctp 8) { role0 with role := 2 }) = false
    ∧ Instr.wellFormed (.enrol (.mctp 8) { role0 with body := List.replicate 8193 0 }) = false
    ∧ Instr.wellFormed (.imageStage (.mctp 8) role0 { header := [], payload := [] }) = false
    ∧ Instr.wellFormed (.cipher (.mctp 8) role0 { src := [], aad := [], tag := List.replicate 17 0 }) = false := by decide +kernel

def done0 (hbm lp : Nat) : TestRun :=
  .ran { lost := false, cover := 0, found := [], hbm := hbm, lp := lp, rows := [], ended := 0 }

theorem test_refuses_faults : Instr.wellFormed (.dredgeRead 0 0 false (.corrected 512)) = false ∧ Instr.wellFormed (.dredgeRead 0 0 false (.parityRetried 4)) = false
    ∧ Instr.wellFormed (.moveEnd 0 0 0 0 ⟨[(0, .corrected 512)], 0⟩) = false
    ∧ Instr.wellFormed (.thermalTick 0 0 { die := [], hbm := [], lp := [], gate := [], amps := [] }) = false
    ∧ Instr.wellFormed (.moduleReady (Quad.pure (done0 17 0)) 0) = false
    ∧ Instr.wellFormed (.shutdownDrainEnd 0 0 (Quad.pure (done0 0 65))) = false
    ∧ Instr.wellFormed (.bistRun ref0 1 0 0 (Quad.pure (done0 17 0))) = false := by
  decide +kernel

/-! ### Figures that the spec and the standards print -/

/-- SHA-384 of "abc" (FIPS 180-4). -/
theorem test_sha384 : (sha384 [0x61, 0x62, 0x63]).toNat
    = 0xcb00753f45a35e8bb5a03d699ac65007272c32ab0eded1631a8b605a43ff5bed8086072ba1e7cc2358baeca134c825a7 := by decide +kernel

/-- Steps of AES (FIPS 197: the product of section 4.2, the S-box, a column of MixColumns). -/
theorem test_aes_steps : gfMul 0x57 0x83 = 0xC1 ∧ aesSub 0x53 = 0xED ∧ aesUnsub 0xED = 0x53
    ∧ (aesMix [2, 3, 1, 1] ([0xDB, 0x13, 0x53, 0x45] ++ List.replicate 12 0)).take 4 = [0x8E, 0x4D, 0xA1, 0xBC]
    ∧ aesMix [14, 11, 13, 9] (aesMix [2, 3, 1, 1] ([0xDB, 0x13, 0x53, 0x45] ++ List.replicate 12 0)) = [0xDB, 0x13, 0x53, 0x45] ++ List.replicate 12 0 := by
  decide +kernel

/-- CRC-32C of "123456789" (its check value). -/
theorem test_crc32c : (crc32c ((List.range 9).map (fun i => BitVec.ofNat 8 (0x31 + i)))).toNat = 0xE3069283 := by decide +kernel

/-- IEEE 754: the sum of two negative zeros is negative zero, under FP32 and BF16 alike (R291). -/
theorem test_negative_zeros : addElem 1 0x80000000 0x80000000 = 0x80000000 ∧ addElem 2 0x8000 0x8000 = 0x8000 ∧ addElem 1 0x80000000 0 = 0 := by
  decide +kernel

/-- The 90 ns of a cross-reach hop (R223) are the 26 FCLK cycles of the router, 5/9 ns each (R238), and the link: 76 ns, rounded up. -/
theorem test_cross_link : (up.reach 0).linkLatency 4 = 76 := by decide +kernel

/-! ### Fabric time and plans: states for the statements of chapter 02 -/

def after (i : Instr) (c : Chip) : Chip := match exec i (box c) with
  | .next t => t.chip
  | _ => Chip.reset

def clk0 : PtpClock := { prio1 := 0, clockClass := 6, accuracy := 0x21, variance := 0, prio2 := 0, identity := 7, steps := 0 }
def clk1 : PtpClock := { clk0 with prio1 := 1 }

/-- Port 2 hears a clock and has a path-delay exchange open; the reach is no grandmaster and follows PTP. -/
def ptp0 : Chip := up.onTime 0 (fun t => { t with source := .ptpFreq, ctrl := t.ctrl &&& ~~~8 }.onPort 2 (fun x =>
  { x with pdelayTx := some (5, 0), pdelayRx := some (10, 40), foreign := some clk0 }))
/-- Port 2 is the slave port, with a Sync waiting for its Follow_Up. -/
def ptp1 : Chip := ptp0.onTime 0 (fun t => { t with masterPort := 2, sourced := true }.onPort 2 (fun x => { x with sync := some (5, 100) }))

theorem witness_EveryStepKeepsMemoriesCanonical :
    State.memOk (box (up.onReach 0 (fun x => x.writePhys 5 [0, 7, 0, 9]))) := by
  unfold State.memOk Chip.memOk Reach.memOk Tile.memOk; decide +kernel

def dead : State := { chip := { up with gate := { up.gate with pwrgd := false } }, pending := [.traceFrameSend, .moduleReset] }
theorem witness_ADeadModuleStaysAsItIs : dead.chip.alive = false ∧ (∀ i ∈ dead.pending, i.atPin = false)
    ∧ step dead = .next { dead with pending := [.moduleReset] } := ⟨by decide +kernel, by decide +kernel, rfl⟩

theorem witness_PtpMessages : ptp0.alive = true ∧ ptp0.ptpHears 0 0 = true ∧ ptp0.ptpHears 0 1 = false ∧ ptp0.ptpOn 0 = true
    ∧ ((ptp0.reach 0).time.port 2).pdelayTx = some (5, 0) ∧ ((ptp0.reach 0).time.port 2).pdelayRx = some (10, 40) ∧ (ptp0.reach 0).time.source = .ptpFreq
    ∧ (after (.announceRx 0 0 2 ⟨0, clk1⟩) ptp0).bestMaster 0 = 2 ∧ (ptp0.reach 0).time.masterPort.toNat = 15
    ∧ (ptp1.reach 0).time.masterPort.toNat = 2 ∧ ((ptp1.at 0 0).reach 0).time.heard 2 = some clk0 := by
  decide +kernel

/-- The offsets on either side of -1 ms and of STEP_THRESH, and an offset of the slave port and of the edge. -/
theorem witness_OffsetsAreMeasuredAndFollowed : nsUnits (-1000000) - 1 < nsUnits (-1000000) ∧ nsUnits (-1000000) ≤ nsUnits (up.reach 0).time.stepThresh
    ∧ nsUnits (up.reach 0).time.stepThresh = 65536000 ∧ ((up.servoOffset 0 (nsUnits (-1000000) - 1) 3).reach 0).time.servo = .aheadOfMaster
    ∧ ((up.servoOffset 0 65536000 3).now 0) = 0 ∧ ((up.servoOffset 0 65536001 3).now 0) = 65536001
    ∧ ptp1.alive = true ∧ ptp1.ptpHears 0 0 = true ∧ ((ptp1.reach 0).time.port 2).sync = some (5, 100) ∧ (ptp1.reach 0).time.sourced = true
    ∧ (ptp1.reach 0).time.masterPort.toNat = 2 ∧ (ptp1.reach 0).time.source = .ptpFreq := by decide +kernel

def pps0 : Chip := up.onTime 0 (fun t => { t with ppsLast := some 0 })
def pps1 : Chip := pps0.onTime 0 (fun t => { t with source := .external, sourced := true, refGood := true, ppsRun := 8 })
def edge0 (t : Nat) : Instr := let m : PpsMark := ⟨nsTime t, true⟩; .ppsInEdge m m m m
theorem witness_pps : (pps0.reach 0).time.source ≠ .external ∧ (pps0.reach 0).time.ppsLast = some 0
    ∧ nsUnits 999999000 ≤ timeDiff 0 (nsTime 1000001000) ∧ timeDiff 0 (nsTime 1000001000) ≤ nsUnits 1000001000
    ∧ ((after (edge0 1000001000) pps0).reach 0).time.ppsRun = 1
    ∧ ((after (edge0 1000001001) pps0).reach 0).time.ppsRun = 0
    ∧ ((after (edge0 1000001000) pps0).reach 3).time.ppsLast = some (nsTime 1000001000)
    ∧ (pps1.reach 0).time.source = .external ∧ (pps1.reach 0).time.sourced = true := by decide +kernel

def servo (c : Chip) (s : Servo) : Chip := c.onTime 0 (fun t => { t with servo := s, lockRun := 64 })
/-- A source of a PTP master whose Syncs stay away, and a reach's own timescale within its limits since time 0. -/
def silent (s : Servo) : Chip := servo (ptp0.onTime 0 (fun t => { t with source := .ptpFreq })) s
def own0 : Chip := (servo up .acquire).onTime 0 (fun t => { t with source := .ownScale, insideSince := some 0 })
theorem witness_ServoAndFabricTime : (ptp0.at 0 0).qualified 0 .ptpOnly 2 = true ∧ (ptp0.reach 0).time.sourced = false
    ∧ ((servo up .acquire).reach 0).time.servo = .acquire ∧ (((servo up .acquire).at 0 0).reach 0).time.lockReady = true
    ∧ ((own0.at 0 (nsTime 499999999)).reach 0).time.lockReady = false ∧ ((own0.at 0 (nsTime 500000000)).reach 0).time.lockReady = true
    ∧ (((silent .locked).at 0 (nsTime 62499999)).reach 0).time.servo = .locked
    ∧ (((silent .locked).at 0 (nsTime 62500000)).reach 0).time.sourceGone = true ∧ (((silent .acquire).at 0 (nsTime 62500000)).reach 0).time.sourceGone = true
    ∧ ((servo up .holdover).reach 0).time.servo = .holdover
    ∧ nsUnits 10000000000 ≤ timeDiff ((servo up .holdover).reach 0).time.holdoverSince (((servo up .holdover).at 0 (nsTime 10000000000)).now 0)
    ∧ (up.reach 0).time.stopped = none ∧ later (up.now 0) 1 = true ∧ later (up.now 0) 0 = false ∧ up.pathOpen .pf = true
    ∧ up.inService 0 = true := by decide +kernel

theorem witness_LowReadLatchesHigh : up.alive = true ∧ up.inService 0 = true := by decide +kernel

/-! ### Plans -/

def hdr0 : PlanHeader :=
  { magic := 0x4C505850, fmt := 1, hdrLen := 8, detOnly := false, planId := 1, totalLen := 336, log2L := 0, phases := 1, sections := 4, peers := 1,
    lockCycle := nsTime 1000, cycleBase := 0, start := 0, roundCycles := 1, pkey := 1, asid := 1, function := 0, floorMhz := 2700, stopThresh := 0,
    collTimeout := 0, roundSeed := 0, digest := 0 }
def con0 : Container :=
  { hdr := hdr0, dir := [], phases := [{ fmt := 1, phase := 0, rounds := 1, schedFirst := 0, schedCount := 1, winFirst := 0, winCount := 0, xpos := 0xFFFFFFFF }],
    sched := [{ fmt := 1, tile := 0, step := 0, startOff := 0, freeboard := 20, budget := 0, winRef := 3 }],
    windows := [{ fmt := 1, rport := 2, reach := 0, win := 3, openOff := 0, length := nsTime 500, tcMask := 0x40 }], resv := [], peers := [0],
    progFmt := 1, progWords := 0, progs := [], routeFmt := 1, routes := [], collFmt := 1, colls := [], members := [], edges := [], placeFmt := 1,
    places := [], runs := [], xpos := [], maps := [] }
def plan0 : PlanInst :=
  { con := con0, st := .running, cmd := none, resuming := false, armTime := 0, arms := [], start := 0, phase := 0, round := 0, roundStart := 0,
    begun := true, phaseOver := false, cause := none, runs := [], asidGen := 0, handle := 0x500 }
def withPlan (p : PlanInst) : Chip := up.onPlan 0 (fun x => { x with plans := [p] })

/-- A container without a step: header, directory of four sections, one phase, node 0 as the only peer, no program. -/
def bytes0 (digest : Nat) : List Byte :=
  leBytes 4 0x4C505850 ++ leBytes 4 0x801 ++ leBytes 8 1 ++ leBytes 8 336 ++ leBytes 8 (2 ^ 8 + 4 * 2 ^ 16 + 2 ^ 32) ++ leBytes 8 65536000
    ++ leBytes 16 0 ++ leBytes 8 (1 + 2 ^ 16 + 2 ^ 32) ++ leBytes 16 2700 ++ beBytes 48 digest
    ++ leBytes 16 (1 + 2 ^ 16 + 32 * 2 ^ 32 + 192 * 2 ^ 64) ++ leBytes 16 (2 + 2 ^ 16 + 256 * 2 ^ 64)
    ++ leBytes 16 (5 + 2 ^ 16 + 4 * 2 ^ 32 + 256 * 2 ^ 64) ++ leBytes 16 (6 + 2 ^ 16 + 16 * 2 ^ 32 + 320 * 2 ^ 64)
    ++ leBytes 64 (1 + 2 ^ 32 + 0xFFFFFFFF * 2 ^ 160) ++ leBytes 64 0 ++ leBytes 16 1

def digest0 : Nat := 22020201256945492795890277852478713402707585037783049234564980347730728584163968811011779543997503996794848639412904
def locked : Chip := servo up .locked

/-- Every check of the table passes on the reach that the container names. -/
theorem witness_PlansLoadAndUnload : locked.taking ref0 = true ∧ locked.namedReaches (containerOf (bytes0 digest0)) = [0]
    ∧ planRefused { c := locked, r := 0, fn := 0, k := containerOf (bytes0 digest0), bytes := bytes0 digest0 } = none
    ∧ (withPlan plan0).ownPlan ref0 0x500 = true ∧ (withPlan plan0).planAll 0x500 (fun p => p.st != .arming) = true
    ∧ ((withPlan plan0).reach 0).planBy 0x500 = some plan0 := by decide +kernel

def arming : PlanInst := { plan0 with st := .arming, begun := false }
def stopped : PlanInst := { plan0 with st := .stopped }
def agreed : PlanInst := { plan0 with st := .agreed, begun := false }
def lockedPlan (p : PlanInst) : Chip := servo (withPlan p) .locked
theorem witness_RoundsStartAndEnd : ((lockedPlan arming).reach 0).planBy 0x500 = some arming ∧ arming.arms.find? arming.mismatch = none
    ∧ arming.con.peers = [0] ∧ (lockedPlan arming).nodeId 0 = 0 ∧ con0.roundTime.toNat = 65536000 ∧ ((lockedPlan arming).reach 0).time.servo = .locked
    ∧ (∀ t ∈ arming.con.tilesOn 0, (lockedPlan arming).tileResets 0 (t % 64) = false)
    ∧ -2 ^ 61 < timeDiff con0.hdr.cycleBase (BitVec.ofInt 64 (1 - 2 ^ 61)) ∧ timeDiff con0.hdr.cycleBase (BitVec.ofInt 64 (1 - 2 ^ 61)) < 0
    ∧ timeDiff con0.hdr.cycleBase (BitVec.ofNat 64 (2 ^ 61 - 1)) < 2 ^ 61 := by decide +kernel

/-- An arm frame of a peer, of another node, and of a plan that is not being armed. -/
def armed (p : PlanInst) (a : ArmFrame) : Option PlanInst := ((((withPlan p).at 0 0).takeKeeper 0 (isKeeper (.planArm a))).reach 0).plan.plans.find?
  (fun p => p.con.hdr.planId == a.planId && p.st == .arming)
theorem witness_PlansArmStartAndResume : armed arming { arm0 with node := 0 } = some arming ∧ (0 : Word16) ∈ arming.con.peers
    ∧ armed arming arm0 = some arming ∧ arm0.node ∉ arming.con.peers ∧ armed plan0 arm0 = none := by decide +kernel

theorem witness_plan_times : nsUnits 1000000000 ≤ timeDiff arming.armTime (((withPlan arming).at 0 (nsTime 1000000000)).now 0)
    ∧ ((lockedPlan agreed).reach 0).planBy 0x500 = some agreed ∧ (lockedPlan agreed).inService 0 = true
    ∧ notBefore agreed.start (((lockedPlan agreed).at 0 0).now 0) = true ∧ (((lockedPlan agreed).at 0 0).reach 0).time.servo = .locked
    ∧ (((withPlan agreed).at 0 0).reach 0).time.servo ≠ .locked ∧ agreed.begun = false ∧ { agreed with begun := true }.begun = true
    ∧ (lockedPlan stopped).ownPlan ref0 0x500 = true ∧ (lockedPlan stopped).planAll 0x500 (fun p => p.st == .stopped) = true
    ∧ (∀ r ∈ (lockedPlan stopped).planReaches 0x500, ((lockedPlan stopped).reach r).time.servo = .locked)
    ∧ ((withPlan stopped).planReaches 0x500).find? (fun r => ((withPlan stopped).reach r).time.servo != .locked) = some 0
    ∧ (lockedPlan stopped).ownPlan ref1 0x500 = false := by decide +kernel

/-! ### Steps -/

/-- A step's words by class and operation, and a tile that stands at them. -/
def word (cls op : Nat) (ops : List Word64) : StepWords := { hdr := BitVec.ofNat 64 (cls + 16 * op), ops := ops }
def tile0 (w : StepWords) : Tile :=
  { Tile.reset with plan := some 1, progs := [{ tile := 0, phase := 0, firstStep := 0, nwords := 1, iqBase := 0, steps := [w] }] }
def run0 (w : StepWords) : Chip := (withPlan plan0).onTile 0 0 (fun _ => tile0 w)

theorem ready (c : Chip) (p : PlanInst) (w : StepWords) (h : c.tilePlan 0 0 = some p ∧ ((c.reach 0).tile 0).nextStep = some (0, w)
    ∧ c.mayStart 0 0 p 0 w = true ∧ c.lateness 0 0 p 0 w = none) : c.stepReady 0 0 p 0 w :=
  ⟨h.1, h.2.1, h.2.2.1, fun d e g => by rw [h.2.2.2] at g; cases g⟩

/-- One step of every class and operation. -/
def everyStep : List StepWords :=
  [word 0 0 [], word 0 1 []] ++ (List.range 15).map (fun o => word 1 o []) ++ (List.range 7).map (fun o => word 2 o []) ++ [word 3 0 []]
    ++ (List.range 5).map (fun k => word 4 0 [BitVec.ofNat 64 (1 + 16 * k)]) ++ [word 5 0 [], word 6 0 [], word 7 0 [0, 1]]
    ++ (List.range 4).map (fun o => word 8 o []) ++ [word 9 0 [], word 9 1 []] ++ (List.range 3).map (fun o => word 10 o [0, 1])

theorem everyStep_conditions : ∀ w ∈ everyStep, ((run0 w).at 0 0).tilePlan 0 0 = some plan0
    ∧ ((((run0 w).at 0 0).reach 0).tile 0).nextStep = some (0, w) ∧ ((run0 w).at 0 0).mayStart 0 0 plan0 0 w = true
    ∧ ((run0 w).at 0 0).lateness 0 0 plan0 0 w = none := by decide +kernel

/-- Of every class and operation a step is ready: the hypothesis of the statements of chapters 03 and 04. -/
theorem witness_ComputeStepsStart : ∀ w ∈ everyStep, ((run0 w).at 0 0).stepReady 0 0 plan0 0 w :=
  fun w h => ready _ _ w (everyStep_conditions w h)

/-- A PHASE_END step that has waited, with nothing of its tile running and with a move that goes on; its word good and bad. -/
def ending (o : Nat) (f : Tile → Tile) : Tile := (((((run0 (word 10 o [0, 1])).onTile 0 0 (fun y =>
  f { y with wait := some { step := 0, since := 0, deadline := 0 } })).at 0 0).reach 0).tile 0)
def job0 : MoveJob :=
  { step := 0, desc := [], rows := [], readMask := 0, writeMask := 0, recReads := [], recWrites := [], started := 0, ended := false, failed := false }
theorem witness_phase_ends : ∀ o, o < 3 → (ending o id).waiting = some ({ step := 0, since := 0, deadline := 0 }, word 10 o [0, 1])
    ∧ ((run0 (word 10 o [0, 1])).at 0 0).tilePlan 0 0 = some plan0 ∧ (ending o id).quiet = true ∧ (ending o (fun y => { y with moves := [job0] })).quiet = false
    ∧ (ending o id).spadErr [(0, 8)] = none ∧ (ending o (fun y => { y with spadUe := [0] })).spadErr [(0, 8)] = some 0 := by decide +kernel

theorem witness_step_kinds : (∀ o, o < 2 → isStep 0 o (word 0 o []) = true) ∧ (∀ o, o < 15 → isStep 1 o (word 1 o []) = true)
    ∧ (∀ o, o < 7 → isStep 2 o (word 2 o []) = true) ∧ isStep 3 0 (word 3 0 []) = true
    ∧ (∀ k, k < 5 → (moveOf (word 4 0 [BitVec.ofNat 64 (1 + 16 * k)]).ops).kind = k) ∧ isStep 5 0 (word 5 0 []) = true
    ∧ isStep 6 0 (word 6 0 []) = true ∧ isStep 7 0 (word 7 0 [0, 1]) = true ∧ isStep 8 3 (word 8 3 []) = true
    ∧ isStep 9 0 (word 9 0 []) = true ∧ isStep 9 1 (word 9 1 []) = true ∧ (∀ o, o < 3 → isStep 10 o (word 10 o [0, 1]) = true) := by
  decide +kernel

theorem witness_ComputeWritesAndValues : ((run0 (word 1 0 [])).reach 0).tile 0 = tile0 (word 1 0 [])
    ∧ (tile0 (word 1 0 [])).spadErr (stepUse (tile0 (word 1 0 [])).spad (tile0 (word 1 0 [])).iqAddr (word 1 0 [])).reads = none
    ∧ (acwOf 0x10).out = 0 ∧ (acwOf 0x10).sr = false ∧ bf16Lanes 0 0 = false ∧ (0 : Nat) < fld 1 0 32 := by decide +kernel

def running0 : Running :=
  { step := 0, hdr := 0, unit := .matrix, readMask := 0, writeMask := 0, recReads := [], recWrites := [], ceils := [(0, 4)], fail := none, blocks := 1,
    blocksFinal := 1, coll := none, chunkBytes := 0, chunks := 0, base := 0, handed := [], rows := 1, cols := 1, rowBytes := 0, trans := false, folds := [],
    started := 0 }
def onTile0 (f : Tile → Tile) : Chip := (run0 (word 7 0 [0, 1])).onTile 0 0 f
def unit0 : Chip := onTile0 (fun y => { y with running := [running0, { running0 with unit := .vector, fail := some 0x20 }] })
def unit1 : Chip := onTile0 (fun y => { y with running := [{ running0 with blocks := 2 }] })
/-- A streaming step: no chunk of it is whole, and one that no collective takes is. -/
def streamed (chunks : Nat) : Running := { running0 with blocks := 2, coll := some 0, chunkBytes := 4, chunks := chunks, rowBytes := 4 }
def unit2 (chunks : Nat) : Chip := (onTile0 (fun y => { y with running := [streamed chunks] })).at 0 0
def handed0 (chunks : Nat) : Bool := (Chip.handChunks 0 0 plan0 0 (streamed chunks).base ((List.range chunks).filter (fun k =>
  !(streamed chunks).handed.contains k && (streamed chunks).chunkFinal 2 k)) (unit2 chunks)).2.2
theorem witness_streaming : (∀ n, n < 2 → (((unit2 n).reach 0).tile 0).running.find? (fun z => z.unit == .matrix) = some (streamed n)
    ∧ (streamed n).fail = none ∧ (unit2 n).tilePlan 0 0 = some plan0) ∧ handed0 0 = true ∧ handed0 1 = false := by decide +kernel
theorem witness_UnitStepsEndAndFailuresStop : (((unit0.at 0 0).reach 0).tile 0).running.find? (fun z => z.unit == .matrix) = some running0
    ∧ (((unit0.at 0 0).reach 0).tile 0).running.find? (fun z => z.unit == .vector) = some { running0 with unit := .vector, fail := some 0x20 }
    ∧ running0.fail = none ∧ running0.blocksFinal = running0.blocks ∧ running0.handed.length = running0.chunks
    ∧ (((unit1.at 0 0).reach 0).tile 0).running.find? (fun z => z.unit == .matrix) = some { running0 with blocks := 2 }
    ∧ unit0.tilePlan 0 0 = some plan0 ∧ plan0.st = .running ∧ ((unit0.reach 0).tile 0).redo.contains 0 = false
    ∧ (((unit0.stepFail 0 0 0 0x20).reach 0).tile 0).failCode = 0x20 := by decide +kernel

/-- Two moves that add to the signal word at 64, the first one ended. -/
def move0 : MoveJob :=
  { step := 0, desc := [1, 0, 0, BitVec.ofNat 64 (2 ^ 40 + 64 * 2 ^ 41)], rows := [], readMask := 0, writeMask := 0, recReads := [], recWrites := [],
    started := 0, ended := false, failed := false }
def moves0 : Chip := onTile0 (fun y => { y with moves := [move0, move0] })
def moves1 : Tile := { Tile.reset with moves := [{ move0 with ended := true }, move0] }
theorem witness_MovesQueueAndEndInOrder : (((moves0.at 0 0).reach 0).tile 0).moves[0]? = some move0
    ∧ ((moves0.at 0 0).moveFinds 0 0 (moveOf move0.desc) move0.rows []).2 = none
    ∧ ((moves0.at 0 0).moveFinds 0 0 (moveOf move0.desc) move0.rows []).1.moveErr 0 0 (moveOf move0.desc) move0.rows = none ∧ (moveOf move0.desc).sigEn = true ∧ (moveOf move0.desc).sigAddr = 64
    ∧ (((moves0.at 0 0).reach 0).tile 0).spadErr [(64, 8)] = none ∧ moves1.settleMoves.moves = [move0]
    ∧ moves1.settleMoves.signal 64 = 1 := by decide +kernel

def copy0 : IqCopy := { step := 0, first := 0, count := 2, next := 0, win := some 3, run := 0, started := 0 }
def copying : Chip := onTile0 (fun y => { y with copy := some copy0, iqCount := 63 })
def sched0 : StepWords := { word 5 0 [] with hdr := 0x805 }
theorem witness_IssueQueueTakesEntries : ((copying.reach 0).tile 0).copy = some copy0 ∧ ((copying.reach 0).tile 0).iqCount < 64
    ∧ ((copying.reach 0).tile 0).remoteOk.contains (copy0.step, copy0.next) = false
    ∧ (plan0.sched 0 0 0 0 sched0).map (fun e => e.winRef) = some 3
    ∧ (run0 sched0).lateness 0 0 plan0 0 sched0 = (con0.sched[0]?).map (fun e => (0, e)) ∧ (run0 sched0).mayStart 0 0 plan0 0 sched0 = true := by
  decide +kernel

/-- A step that waits: for time 10 ns, and for the word at 0, not there and there. -/
def waits (w : StepWords) (spad : Mem) : Chip :=
  (run0 w).onTile 0 0 (fun y => { y with spad := spad, wait := some { step := 0, since := 0, deadline := nsTime 10 } })
def at10 (c : Chip) : Chip := c.at 0 (nsTime 10)
theorem witness_WaitsHoldTheSequencer : notBefore (0 + (word 6 0 [5]).op 0) 4 = false ∧ notBefore (0 + (word 6 0 [5]).op 0) 5 = true
    ∧ (((at10 (waits (word 6 0 []) [])).reach 0).tile 0).waiting = some ({ step := 0, since := 0, deadline := nsTime 10 }, word 6 0 [])
    ∧ (((at10 (waits (word 7 0 [0, 1]) [])).reach 0).tile 0).waiting = some ({ step := 0, since := 0, deadline := nsTime 10 }, word 7 0 [0, 1])
    ∧ notBefore (nsTime 10) ((at10 (waits (word 7 0 [0, 1]) [])).now 0) = true
    ∧ (((waits (word 7 0 [0, 1]) []).reach 0).tile 0).spadErr [(0, 8)] = none
    ∧ ((((waits (word 7 0 [0, 1]) []).onTile 0 0 (fun y => { y with spadUe := [0] })).reach 0).tile 0).spadErr [(0, 8)] = some 0
    ∧ (((waits (word 7 0 [0, 1]) []).reach 0).tile 0).signal 0 < ((word 7 0 [0, 1]).op 1).toNat
    ∧ ((word 7 0 [0, 1]).op 1).toNat ≤ (((waits (word 7 0 [0, 1]) [(0, 1)]).reach 0).tile 0).signal 0 := by decide +kernel

def slot0 : DigestSlot := { layer := 0, count := 0, sumA := 0, sumB := 0, xorC := 0, nan := 0, inf := 0 }
def slotted : Tile := { tile0 (word 9 1 []) with digests := [slot0] }
theorem witness_MarkersAndDigests : stepClass (word 8 2 []).hdr = 8 ∧ stepOp (word 8 2 []).hdr ≤ 2
    ∧ slotted.digests.find? (fun x => x.layer == stepLayer (word 9 1 []).hdr) = some slot0 ∧ slotted.folding (stepLayer (word 9 1 []).hdr) = false
    ∧ { slotted with running := [{ running0 with hdr := 0x2000 }] }.folding (stepLayer (word 9 1 []).hdr) = true
    ∧ (((waits (word 9 1 []) []).reach 0).tile 0).waiting = some ({ step := 0, since := 0, deadline := nsTime 10 }, word 9 1 [])
    ∧ (((waits (word 9 1 []) []).reach 0).tile 0).folding (stepLayer (word 9 1 []).hdr) = false
    ∧ { tile0 (word 10 0 []) with running := [running0] }.quiet = false ∧ (tile0 (word 10 0 [])).quiet = true := by decide +kernel

/-- A scheduled step that stands 2 µs behind its start, with FREEBOARD 20 ns and a threshold of one round of 1 µs. -/
def late0 : Chip := (run0 sched0).at 0 (nsTime 2000)
theorem witness_StoppagesFreezePlans : (withPlan plan0).ownPlan ref0 0x500 = true ∧ late0.tilePlan 0 0 = some plan0
    ∧ late0.lateness 0 0 plan0 0 sched0 = (con0.sched[0]?).map (fun e => (nsUnits 2000, e))
    ∧ (con0.sched[0]?).map (fun e => plan0.lateLimit e) = some (nsUnits 1020) ∧ ((late0.reach 0).tile 0).seqState = 0 ∧ ((late0.reach 0).tile 0).done = false
    ∧ ((late0.reach 0).tile 0).nextStep = some (0, sched0) := by decide +kernel

/-- A lock cycle of 1 µs that has run for 2 µs, and a TC6 run that closes at 500 ns over a frame of the plan. -/
def clock0 : LockClock := { cycle := nsTime 1000, base := 0, roundCycles := 1, boundary := 0, count := 0 }
def gated : Chip := ((withPlan plan0).onPlan 0 (fun x => { x with clock := some clock0 })).onMac 0 2 (fun m =>
  { m with up := true, gateEn := true, bank0 := [{ gates := 0x40, win := 3, interval := 500 }, { gates := 0xBF, win := 0xFFFF, interval := 500 }],
           queues := [{ tc := 6, sub := 3, frames := [{ body := .other 0 none, len := 64, ingress := 7, tenancy := 0, inQueue := 6, vid := none }] }] })
def switching : Mac := { Mac.reset with switchAt := some (nsTime 2) }
theorem witness_LockCyclesFollowWithoutGap : (gated.at 0 (nsTime 2000)).boundariesDue 0 = 2
    ∧ (((withPlan stopped).onPlan 0 (fun x => { x with clock := some clock0 })).reach 0).plan.clock = some clock0
    ∧ (∀ p ∈ ((withPlan stopped).reach 0).plan.plans, p.st ≠ .running)
    ∧ notBefore (nsTime 2) (nsTime 2) = true ∧ notBefore (nsTime 2) (nsTime 1) = false
    ∧ ((gated.at 0 (nsTime 500)).reach 0).runClosing 2 = some 3 ∧ (gated.reach 0).windowPlan 0 2 3 = some plan0 ∧ plan0.inStoppage = false := by decide +kernel

/-! ### Memory -/

theorem witness_MemoryWritesStayCanonical : Reach.memOk (up.reach 0) ∧ Tile.memOk Tile.reset ∧ (spadWindow - 1 < spadWindow) ∧ 0 < spadWindow := by
  unfold Reach.memOk Tile.memOk; decide +kernel

/-- The last line of a pass of HBM3E; the last data line of LPDDR5X and its last check line. -/
def patrol (lp : Nat) : Chip := up.onReach 0 (fun x => { x with mem := { x.mem with hbmPos := hbmLines - 1, lpPos := lp } })
theorem witness_PatrolReadsAndTransposition : (∀ k ∈ [lpData - 1, lpData, lpLines - 1], (patrol k).inService 0 = true
    ∧ flag ((patrol k).reach 0).mem.dredge 0 = true ∧ flag ((patrol k).reach 0).mem.dredge 1 = true
    ∧ ((patrol k).reach 0).hasUe (lpBase + 64 * k) 64 = false) ∧ ((patrol 0).reach 0).hasUe (64 * (hbmLines - 1)) 64 = false
    ∧ hbmLines - 1 < hbmLines ∧ lpData - 1 < lpData ∧ lpData ≤ lpLines - 1 ∧ lpLines - 1 < lpLines
    ∧ 64 * (hbmLines - 1) < spadWindow ∧ hbmLines ≤ ((patrol 0).reach 0).mem.hbmPos + 1
    ∧ (((patrol 0).onReach 0 (fun x => { x with mem := { x.mem with ue := [hbmLines - 1] } })).reach 0).hasUe (64 * (hbmLines - 1)) 64 = true := by decide +kernel

/-- A plan that moves one block of 2 by 2 cells, to its own node and to another. -/
def xdesc : XposDesc :=
  { fmt := 1, cellBytes := 4, tid := 0, rows := 2, cols := 2, srcGr := 1, srcGc := 1, dstGr := 1, dstGc := 1, srcMap := 0, dstMap := 1, win := 0xFFFF, tc := 0 }
def bmap (peer : Nat) : BlockMap := { peer := peer, sigTile := 0, sigAddr := 0, vaddr := 0, rowStride := 8, moorIdx := 2, thresh := 1 }
def xplan (dst : Nat) : PlanInst := { plan0 with con := { con0 with peers := [0, 9], xpos := [xdesc], maps := [bmap 0, bmap dst] } }
def flight0 : XposFlight := { plan := 0x500, desc := 0, src := 0, dst := 0, next := 0, left := 0 }
def crossing (dst : Nat) : Chip := withPlan (xplan dst)
theorem witness_transposition : (((crossing 0).reach 0).xposJob flight0).map (fun j => (j.rect.rows, j.rect.cols, j.plan.st, j.src.thresh)) = some (2, 2, .running, 1)
    ∧ (((crossing 0).reach 0).xposJob flight0).map (fun j => j.plan.con.peers.getD j.dst.peer 0xFFFF) = some ((crossing 0).nodeId 0)
    ∧ (((crossing 1).reach 0).xposJob flight0).map (fun j => j.plan.con.peers.getD j.dst.peer 0xFFFF) = some 9
    ∧ ((crossing 0).reach 0).mem.xposDone = [] ∧ (((crossing 0).reach 0).tile 0).signal 0 = 0
    ∧ ((((crossing 0).onTile 0 0 (fun y => { y with spad := [(0, 1)] })).reach 0).tile 0).signal 0 = 1 := by decide +kernel

/-! ### Remote memory -/

def qparams : QpParams :=
  { fmt := 1, owner := 2, encap := false, ciphEn := false, pkey := 1, qpn := 5, peerNode := 9, peerQpn := 7, asid := 1, cqRing := 3, maxRd := 15,
    rnrRetry := 2, rnrTimer := 1, rqDepth := 4 }
def qp0 : Qp := { newQp qparams 0 0 false 0 with state := .ready, rate := 1000 }
def withQp (q : Qp) : Chip := up.onReach 0 (fun x => { x with rme := { x.rme with qps := [(5, q)] } })

def work (op : BitVec 4) : WorkEntry :=
  { fmt := 1, op := op, tc := 2, lsigEn := false, ret := false, lspace := 2, scope := false, win := 0xFFFF, qpn := 5, laddr := 64, length := 8, rkey := 0,
    roff := 0, skey := 0, soff := 0, add := 0, lsigAddr := 0 }

theorem entry_ready (c : Chip) (e : WorkEntry) (q : Qp) (h : c.inService 0 = true ∧ c.rmeStalled 0 (.keeper e) = false
    ∧ Submitter.keeper.holdKey.any (c.reach 0).trace.holding = false ∧ e.fmt = 1 ∧ c.nextEntry 0 (.keeper e) = some (e, .keeper, 0)
    ∧ q.ownedBy .keeper 0 = true ∧ (c.reach 0).qp e.qpn = some q ∧ q.owner = 2 ∧ c.roomFor 0 q e = true ∧ q.state = .ready) :
    c.entryReady 0 (.keeper e) e .keeper q := by
  obtain ⟨h1, h2, h3, h4, h5, h6, h7, h8, h9, h10⟩ := h
  exact ⟨h1, h2, h3, h4, ⟨0, h5, h6⟩, h7, fun g => absurd (h8.symm.trans g) (by decide), fun g => absurd h8 g, h9, .inl h10⟩

/-- An entry of each operation may be looked at, is good, and has its local range; no other submitter claims the issue path. -/
theorem witness_WorkEntriesAreTaken : ∀ op : BitVec 4, op.toNat < 8 → ((withQp qp0).at 0 0).entryReady 0 (.keeper (work op)) (work op) .keeper qp0 := by
  have h : ∀ op : BitVec 4, op.toNat < 8 → ((withQp qp0).at 0 0).inService 0 = true ∧ ((withQp qp0).at 0 0).rmeStalled 0 (.keeper (work op)) = false
    ∧ Submitter.keeper.holdKey.any (((withQp qp0).at 0 0).reach 0).trace.holding = false ∧ (work op).fmt = 1
    ∧ ((withQp qp0).at 0 0).nextEntry 0 (.keeper (work op)) = some (work op, .keeper, 0) ∧ qp0.ownedBy .keeper 0 = true
    ∧ (((withQp qp0).at 0 0).reach 0).qp (work op).qpn = some qp0 ∧ qp0.owner = 2 ∧ ((withQp qp0).at 0 0).roomFor 0 qp0 (work op) = true
    ∧ qp0.state = .ready := by decide +kernel
  exact fun op g => entry_ready _ _ _ (h op g)
/-- A tile's entry, seen by the RME at time 5, beside one that a keeper brings at time 10: the tile's tag is older. -/
def claiming (seen : Time) : Chip := ((withQp { qp0 with owner := 1 }).onTile 0 0 (fun y =>
  { y with spad := (leBytes 8 0x201).zipIdx.filterMap (fun e => if e.1 = 0 then none else some (e.2, e.1)), iqCount := 1, iqSeen := [seen] })).at 0 10
theorem witness_issue_claims : ((withQp qp0).at 0 0).rmeClaims 0 (.keeper (work 0)) = [] ∧ ((withQp qp0).at 0 0).rmeAnswer 0 (.keeper (work 0)) ≠ none
    ∧ (claiming 5).rmeClaims 0 (.keeper (work 0)) = [(5, 0)] ∧ (claiming 5).issueTag 0 (.keeper (work 0)) = 10 ∧ issuer (.keeper (work 0)) = 16448
    ∧ (claiming 10).rmeClaims 0 (.keeper (work 0)) = [(10, 0)] := by decide +kernel

theorem witness_work_is_good : ∀ op : BitVec 4, op.toNat < 8 → (withQp qp0).badEntry 0 qp0 (work op) .keeper = false
    ∧ (match (withQp qp0).localRange 0 qp0 (work op) .keeper with | .ok l => decide (l.length ≤ 1) | _ => false) = true
    ∧ ((withQp qp0).reach 0).rme.runsHeld = 0 ∧ ((withQp qp0).reach 0).peerKnown qp0 = true ∧ qp0.standing.length < qp0.rqDepth.toNat := by
  decide +kernel

def op0 : RmeOp := mkOp qp0 (work 0) .keeper [{ host := true, pa := 64, len := 8 }] [] 8192 0
def recv0 : PostedRecv := mkRecv qp0 (work 4) .keeper [{ host := true, pa := 64, len := 8 }] 0
def qpDone : Qp := { qp0 with ops := [{ op0 with remoteDone := true }], recvs := [{ recv0 with status := some 0 }] }
theorem witness_OperationsCompleteInOrder : ((withQp qpDone).reach 0).qp 5 = some qpDone
    ∧ ((withQp qpDone).reach 0).headStatus { op0 with remoteDone := true } = some 0
    ∧ (withQp qpDone).lsigUe 0 { op0 with remoteDone := true } 0 = none ∧ ((withQp qp0).reach 0).headStatus op0 = none
    ∧ qpDone.recvs = [{ recv0 with status := some 0 }] := by decide +kernel

/-- Waiting reads up to FLUSH_BATCH, one on its way, and an operation whose resend is due, below its limit and at it. -/
def item0 : FlushItem := { qpn := 5, target := false, id := 0 }
def flushing : Chip := (withQp qp0).onReach 0 (fun x => { x with rme := { x.rme with flushQ := List.replicate 64 item0, flushOut := [[item0]] } })
def rnr (n : Nat) : Qp := { qp0 with ops := [{ op0 with rnrDue := some 0, rnrCount := n, sent := 1, msn := some 0 }],
                                     out := [{ psn := 0, op := 0, boff := 0, isResp := false, sacked := false, sentFast := false, resend := false, carried := none }] }
theorem witness_FlushReadsAndRetries : flushing.host.inReset = false ∧ max 1 (fld (flushing.reach 0).rme.ctrl 16 8) = (flushing.reach 0).rme.flushQ.length
    ∧ (flushing.reach 0).rme.flushOut = [[item0]] ∧ notBefore 0 ((withQp (rnr 1)).now 0) = true
    ∧ (rnr 1).rnrOver { op0 with rnrDue := some 0, rnrCount := 1, sent := 1, msn := some 0 } 0 = false
    ∧ (rnr 2).rnrOver { op0 with rnrDue := some 0, rnrCount := 2, sent := 1, msn := some 0 } 0 = true := by decide +kernel

def modify0 (state : BitVec 3) : QpModify :=
  { ctx := { qparams with owner := 0 }, state := state, sndPsn := 0, rcvPsn := 0, sndMsn := 0, rcvMsn := 0 }
def qpHost (s : QpState) : Qp := { newQp { qparams with owner := 0 } 0 0 false 0 with state := s }
theorem witness_QueuePairLifeCycle : up.taking ref0 = true ∧ up.inService (qpReach 5) = true ∧ up.qpCreateCheck 0 0 { qparams with owner := 0 } = none
    ∧ up.qpCreateCheck 0 0 { qparams with owner := 3 } = some 0x92 ∧ (withQp (qpHost .init)).qpCreateCheck 0 0 qparams = some 0x94
    ∧ (qpHost .init).isRetarget (modify0 2) = false ∧ (qpHost .ready).isRetarget (modify0 3) = false ∧ (withQp (qpHost .init)).badAsid 0 1 = false
    ∧ ((withQp (qpHost .init)).reach 0).rme.rqPool 5 + 4 ≤ 65536 ∧ ((withQp { qpHost .drain with drainTo := .frozen }).reach 0).qp 5
      = some { qpHost .drain with drainTo := .frozen } ∧ (up.ten 0).state ≠ .freezing ∧ (up.at 0 0).collsInFlight 0 0 = false
    ∧ (modify0 2).ctx.owner ≠ 3 ∧ (modify0 2).ctx.rqDepth.toNat ≤ 4096
    ∧ (qpHost .reset).idle = true ∧ (qpHost .reset).plan = false ∧ { qpHost .reset with plan := true }.plan = true := by decide +kernel

def moor0 : MooringParams := { fmt := 1, space := 2, rights := 15, pkey := 1, bindEn := false, base := 0x1000, length := 64, asid := 1, bindQpn := 0 }
def mooring0 (refs : Nat) : Mooring :=
  { valid := true, space := 2, plan := false, rights := 15, pkey := 1, tag := 1, bindEn := false, function := 0, base := 0x1000, length := 64, asid := 1,
    bindQpn := 0, fnGen := 0, runs := [], refs := refs, withdraw := none, inUse := true }
def moored (m : Mooring) : Chip := up.onReach 0 (fun x => { x with rme := { x.rme with moorings := [(2, m)] } })
def leaving : Mooring := { mooring0 0 with valid := false, withdraw := some ref0 }
theorem witness_MooringsComeAndGo : up.moorRange 0 0 moor0 = some [{ host := true, pa := hostKey 0 0x1000, len := 64 }] ∧ up.holdsKey 0 0 1 = true
    ∧ up.moorQuotaFull 0 0 = false ∧ (up.reach 0).rme.freeMoor = some 2
    ∧ Tab.find? ((moored (mooring0 1)).reach 0).rme.moorings (natBits (0x20002 : Word32).toNat 0 15) = some (mooring0 1)
    ∧ (mooring0 1).tag.toNat = natBits (0x20002 : Word32).toNat 17 15 ∧ (0x20002 : Word32).toNat / 2 ^ 15 % 4 = 0
    ∧ Tab.find? ((moored leaving).reach 0).rme.moorings 2 = some leaving := by decide +kernel

/-! ### Packets -/

/-- A WRITE of eight bytes of host memory that has been taken, and an acknowledgement that is due. -/
def sending : Chip := withQp { qp0 with ops := [op0], ackDue := some 0 }
theorem witness_PacketsLeaveForTheRouter : { qp0 with ops := [op0] }.next (sending.reach 0).rme = some (.fresh op0)
    ∧ (sending.outgoing 0 { qp0 with ops := [op0] } (.fresh op0) [1, 2, 3, 4, 5, 6, 7, 8]).map (fun g => (g.say.tc, g.say.payload, g.retx))
      = some (2, [1, 2, 3, 4, 5, 6, 7, 8], false)
    ∧ sending.sourceUe 0 op0.runs 0 8 = none
    ∧ (sending.outgoing 0 { qp0 with ops := [op0] } (.fresh op0) [1, 2, 3, 4, 5, 6, 7, 8]).map (fun g =>
        (decide (0 ≤ (g.after.paced (sending.reach 0).rme 0).credit), (sending.sendFrt 0 qp0.peer g.say).2.isSome)) = some (true, true)
    ∧ ((sending.reach 0).qp 5).map (fun q => q.ackDue) = some (some 0) := by decide +kernel

/-- A packet that a READY context of its sender takes, one of each type. -/
def incoming (ty : BitVec 4) (psn : BitVec 24) (e : FrtExt) : FrtPacket := frtSeal { pkt0 with type := ty, psn := psn, ext := e, payload := [] }
def ext0 (op : BitVec 4) : OpExt := { op := op, ret := false, msn := 0, rkey := 0, roff := 0, length := 0, boff := 0, skey := 0, soff := 0, add := 0 }
def takes (q : Qp) (p : FrtPacket) : Option FrtExt := (((withQp q).at 0 0).receive 0 p p.type).2.map (fun e => e.2.ext)

/-- A packet with an operation extension; its trailer is given, and checked in two halves. -/
def opPacket (ty op : BitVec 4) (crc : Word32) : FrtPacket := { pkt0 with type := ty, ext := .op (ext0 op), payload := [], crc := crc }
theorem crc_in_halves (bs : List Byte) (n : Nat) (x y : Word32) (h1 : (bs.take n).foldl crcByte 0xFFFFFFFF = x)
    (h2 : (bs.drop n).foldl crcByte x ^^^ 0xFFFFFFFF = y) : crc32c bs = y := by
  rw [← h2, ← h1, ← List.foldl_append, List.take_append_drop, crc32c]
def opBytesOf (ty op : BitVec 4) : List Byte := frtFixedHeader (opPacket ty op 0) ++ [] ++ []
theorem crc_of_data_head : ((opBytesOf 0 0).take 48).foldl crcByte 0xFFFFFFFF = 0xc49630b1 := by decide +kernel
theorem crc_of_data_tail : ((opBytesOf 0 0).drop 48).foldl crcByte 0xc49630b1 ^^^ 0xFFFFFFFF = 0x2224b305 := by decide +kernel
theorem crc_of_data : frtCrcOk (opPacket 0 0 0x2224b305) = true := by
  have h : frtCrc (opPacket 0 0 0x2224b305) = 0x2224b305 := crc_in_halves (opBytesOf 0 0) 48 _ _ crc_of_data_head crc_of_data_tail
  unfold frtCrcOk; rw [h]; exact beq_self_eq_true _
theorem crc_of_read_head : ((opBytesOf 1 2).take 48).foldl crcByte 0xFFFFFFFF = 0xd5bf482c := by decide +kernel
theorem crc_of_read_tail : ((opBytesOf 1 2).drop 48).foldl crcByte 0xd5bf482c ^^^ 0xFFFFFFFF = 0xae2646c5 := by decide +kernel
theorem crc_of_read : frtCrcOk (opPacket 1 2 0xae2646c5) = true := by
  have h : frtCrc (opPacket 1 2 0xae2646c5) = 0xae2646c5 := crc_in_halves (opBytesOf 1 2) 48 _ _ crc_of_read_head crc_of_read_tail
  unfold frtCrcOk; rw [h]; exact beq_self_eq_true _

theorem receive_passing (c : Chip) (r : ReachId) (p : FrtPacket) (type : BitVec 4) (q : Qp) (h : frtCrcOk p = true)
    (h0 : (!(c.onRme r (fun m => { m with inbox := m.inbox.erase p })).routedBad r p && p.fmt == 1 && p.type == type) = true)
    (h1 : ((c.onRme r (fun m => { m with inbox := m.inbox.erase p })).reach r).qp p.dstQpn = some q)
    (h2 : (q.state == .ready && q.peerNode == p.src && q.peerQpn == p.srcQpn && p.pkey == q.pkey
      && !(c.onRme r (fun m => { m with inbox := m.inbox.erase p })).sendWaits q p
      && !(c.onRme r (fun m => { m with inbox := m.inbox.erase p })).targetResets r p) = true) :
    c.receive r p type = (let (c, o) := (c.onRme r (fun m => { m with inbox := m.inbox.erase p })).openFrt r q p
      let c := c.onQp r q.qpn (fun q => { q with lastPkt := c.now r })
      (c, o.bind (fun p => ((c.reach r).qp p.dstQpn).map (fun q => (q, p))))) := by
  simp only [Bool.and_eq_true, beq_iff_eq, Bool.not_eq_true'] at h0 h2
  unfold Chip.receive
  generalize c.onRme r (fun m => { m with inbox := m.inbox.erase p }) = d at h0 h1 h2 ⊢
  simp only [h1]
  simp [h, h0, h2]
theorem witness_data_arrives : takes qp0 (opPacket 0 0 0x2224b305) = some (.op (ext0 0)) := by
  unfold takes; rw [receive_passing _ _ _ _ qp0 crc_of_data (by decide +kernel) (by decide +kernel) (by decide +kernel)]; decide +kernel
theorem witness_read_arrives : takes qp0 (opPacket 1 2 0xae2646c5) = some (.op (ext0 2)) := by
  unfold takes; rw [receive_passing _ _ _ _ qp0 crc_of_read (by decide +kernel) (by decide +kernel) (by decide +kernel)]; decide +kernel
theorem witness_PacketsArriveOrAreRefused : takes qp0 (incoming 2 0 (.resp { msn := 0, boff := 0 })) = some (.resp { msn := 0, boff := 0 })
    ∧ qp0.classOf 0 = .inOrder ∧ qp0.classOf 1 = .ahead ∧ qp0.classOf 127 = .ahead ∧ qp0.classOf 128 = .outside
    ∧ takes qp0 { incoming 2 0 (.resp { msn := 0, boff := 0 }) with crc := 0 } = none := by decide +kernel

theorem witness_ReceiveClassesPartition : qp0.classOf (BitVec.ofNat 24 (2 ^ 23 - 1)) = .outside ∧ qp0.classOf (BitVec.ofNat 24 (2 ^ 23)) = .duplicate
    ∧ { qp0 with ahead := [127] }.classOf 127 = .duplicate := by decide +kernel

def ack0 : AckExt := { vis := false, cumPsn := 1, visMsn := 0, qdelay := 0, pkts := 1, ecnCnt := 0, sack := 0 }
def nak0 (code : BitVec 8) : NakExt := { code := code, status := 0x63, msn := 0, cumPsn := 0 }
def qpSent : Qp := { rnr 0 with ops := [{ op0 with sent := 1, msn := some 0 }], sndNxt := 1, timer := some 0 }
theorem witness_AnswersReachTheirOperations : takes qpSent (incoming 3 0 (.ack ack0)) = some (.ack ack0)
    ∧ (∀ code : BitVec 8, code = 1 ∨ code = 2 ∨ code = 3 ∨ code = 4 → takes qpSent (incoming 4 0 (.nak (nak0 code))) = some (.nak (nak0 code)))
    ∧ qpSent.ops.find? (fun o => o.msn == some 0 && o.status.isNone) = some { op0 with sent := 1, msn := some 0 }
    ∧ dist24 qpSent.sndUna 1 = 1 ∧ dist24 qpSent.sndUna 128 = 128 := by decide +kernel

theorem witness_RetransmissionAfterExpiry : ((withQp qpSent).reach 0).qp 5 = some qpSent ∧ qpSent.timer = some 0 ∧ notBefore 0 (((withQp qpSent).at 0 0).now 0) = true
    ∧ qpSent.state ≠ .error ∧ qpSent.leadClass.1 = 2 ∧ qpSent.retries ≠ 7 ∧ { qpSent with retries := 7 }.leadClass.1 = 2
    ∧ (((withQp qpSent).expire 0 qpSent).retries = 1) := by decide +kernel
/-- A packet of the lock class that stands in its window's queue: its timer waits. -/
def locking : Qp := { qpSent with ops := [{ op0 with entry := { work 0 with tc := 6 }, sent := 1, msn := some 0 }] }
def lockQueued : Chip := (withQp locking).onMac 0 2 (fun m => { m with queues := [{ tc := 6, sub := 3, frames :=
  [{ body := .frt { pkt0 with src := 0, srcQpn := 5, psn := 0 }, len := 64, ingress := 7, tenancy := 0, inQueue := 6, vid := none }] }] })
theorem witness_lock_expiry : locking.leadClass.1 = 6 ∧ locking.lead = some (0, none) ∧ lockQueued.uncarried 0 locking 0 = true
    ∧ (withQp locking).uncarried 0 locking 0 = false := by decide +kernel

/-! ### The router, survey and the fabric manager -/

def onRtr0 (f : Router → Router) : Chip := up.onReach 0 (fun x => { x with rtr := f x.rtr })
def rframe0 : RtrFrame := { ingress := 2, body := .other 0 none, len := 64, arrived := 0, queue := 0 }
/-- Ports 2 and 3 are USABLE; the active bank's entry 9 names 2 as primary and 3 as backup. -/
def usable2 : Chip := onRtr0 (fun y =>
  { y with ports := [(2, { RtrPort.reset with state := .usable, peer := some 9 }), (3, { RtrPort.reset with state := .usable })], inbox := [rframe0],
           bank0 := { y.bank0 with entries := [(9, 0x132)] } })
def backup3 : Chip := usable2.onReach 0 (fun x => { x with rtr := { x.rtr with ports := [(3, { RtrPort.reset with state := .usable })] } })
def rkey0 : RouteKey := { isFrt := true, dst := 9, src := 0, tc := 2, win := 0xFFFF, pkey := 1, epoch := 0, via := 0xFFFF, srcQpn := 5, psn := 0 }
theorem witness_FramesFollowTheTables : (usable2.reach 0).rtr.inbox = [rframe0] ∧ rkey0.dst ≠ (usable2.nodeId 0).toNat ∧ ((usable2.reach 0).rtr.bank (BitVec.ofNat 1 rkey0.epoch)).state = .active
    ∧ (usable2.route 0 rkey0 4).dest = .port 2 2 false ∧ (usable2.route 0 rkey0 2).dest = .port 3 2 true
    ∧ (backup3.route 0 rkey0 4).dest = .port 3 2 true ∧ (backup3.route 0 rkey0 3).dest = .noRoute := by decide +kernel
/-- A frame of the format version 2, one of a partition that no entry names, and one that is admitted. -/
theorem witness_forward : bodyUnsupported (.frt { pkt0 with fmt := 2 }) = true ∧ bodyUnsupported (.frt pkt0) = false
    ∧ (usable2.reach 0).portAdmits { rframe0 with body := .frt pkt0 } = true ∧ (usable2.reach 0).rtr.parts = [(0, partEntry0)]
    ∧ partAdmits partEntry0 true 1 2 = true ∧ partAdmits partEntry0 true 2 2 = false ∧ (routeKey (.frt pkt0)).isSome = true := by decide +kernel

def port2 (q : RtrPort) : Chip := onRtr0 (fun y => { y with ports := [(2, q)] })
def port2At (q : RtrPort) (ns : Nat) : Chip := ((port2 q).at 0 (nsTime ns))
theorem witness_PortsComeUpByOrder : ((port2 RtrPort.reset).reach 0).port 2 = RtrPort.reset ∧ flag (((port2 RtrPort.reset).reach 0).mac 2).port 0 = true
    ∧ (((port2 RtrPort.reset).reach 0).mac 2).trainRate 1 = some 0 ∧ up.sec.bootFail.contains 3 = false
    ∧ crossPeer 0 2 = none ∧ crossPeer 0 4 = some 1 ∧ crossPeer 3 6 = some 2 ∧ (up.onReach 1 (fun x => { x with service := .inService })).inService 1 = true
    ∧ survey0.heard = up.nodeId 0 ∧ { RtrPort.reset with state := .training, heardRun := 2 }.state = .training
    ∧ up.gate.parity = true ∧ (up.reach 0).rtr.dupNode = false
    ∧ nsUnits 100000000 ≤ timeDiff 0 ((port2At { RtrPort.reset with state := .held } 100000000).now 0)
    ∧ timeDiff (nsTime 99000000) ((port2At { RtrPort.reset with state := .held, lastSurvey := nsTime 99000000 } 100000000).now 0) < nsUnits 2000000
    ∧ nsUnits 3000000 ≤ timeDiff 0 ((port2At { RtrPort.reset with state := .usable } 3000000).now 0) := by decide +kernel

def lsa1 : Lsa := { lsa0 with seq := 2 }
def manager : Chip := onRtr0 (fun y => { y with self := true, elected := 0, lsdb := [lsa0, { lsa0 with origin := 3 }] })
theorem witness_LinkStateIsNewest : lsa0.origin ≠ manager.nodeId 0 ∧ lsaOf (manager.reach 0).rtr.lsdb 9 = some lsa0 ∧ newerLsa lsa1 lsa0 = true
    ∧ newerLsa lsa0 lsa0 = false ∧ lsa1.eui = lsa0.eui ∧ { lsa0 with eui := 6 }.eui.toNat < lsa0.eui.toNat
    ∧ lsaOf (up.reach 0).rtr.lsdb 9 = none ∧ (manager.reach 0).rtr.self = true
    ∧ (manager.reach 0).rtr.elected ≠ 0xFFFF := by decide +kernel

/-- Bank 0 is ACTIVE; bank 1 is staged with epoch 1 and due, or is draining and due. -/
def staged1 : Chip := onRtr0 (fun y => { y with bank1 := { y.bank1 with state := .staged, epochNum := 1 }, tFlip := some 0 })
def draining1 : Chip := onRtr0 (fun y => { y with bank1 := { y.bank1 with state := .draining }, drainEnd := some 0 })
theorem witness_NodesChangeEpoch : ((up.reach 0).rtr.bank 0).state = .active ∧ ((up.reach 0).rtr.bank 1).state = .closed
    ∧ ((staged1.reach 0).rtr.bank ((1 : BitVec 24).setWidth 1)).state = .staged ∧ ((staged1.reach 0).rtr.bank ((1 : BitVec 24).setWidth 1)).epochNum = 1
    ∧ ((staged1.reach 0).rtr.bank ((staged1.reach 0).rtr.active ^^^ 1)).state = .staged ∧ notBefore 0 ((staged1.at 0 0).now 0) = true
    ∧ ((draining1.reach 0).rtr.bank ((draining1.reach 0).rtr.active ^^^ 1)).state = .draining ∧ (draining1.reach 0).rtr.rebuild = false := by
  decide +kernel

def standing : Chip := onRtr0 (fun y => { y with standby := 0 })
def fmBusy : FmState := { FmState.reset with written := [3, 9], acked := [3], epochNum := 1, busy := true }
def fmFlip : FmState := { fmBusy with flip := some 7, flipWait := [9] }
theorem witness_TheManagerRunsTheChange : fmBusy.flip = none ∧ fmBusy.written.contains 9 = true ∧ fmBusy.written = [3, 9] ∧ fmBusy.acked = [3] ∧ (∀ n ∈ fmBusy.written, fmBusy.written.count n ≤ ((9 : Word16) :: fmBusy.acked).count n)
    ∧ (∃ n ∈ fmBusy.written, ((3 : Word16) :: fmBusy.acked).count n < fmBusy.written.count n) ∧ (up.reach 0).rtr.standby ≠ up.nodeId 0
        ∧ nsUnits 1000000 ≤ timeDiff 0 ((up.at 0 (nsTime 1000000)).now 0) ∧ fmFlip.flip = some 7 ∧ fmFlip.busy = true
    ∧ standing.nodeId 0 = 0 ∧ (standing.reach 0).rtr.standby = 0
    ∧ (standing.reach 0).rtr.self = false := by
  refine ⟨by decide +kernel, by decide +kernel, by decide +kernel, by decide +kernel, by simp [fmBusy], ⟨9, by simp [fmBusy]⟩, ?_⟩
  decide +kernel

def idleCtx : Chip := up.onReach 0 (fun x => { x with rme := { x.rme with qps := [(0x3FC3, qp0)] } })
theorem witness_MaintenanceServes : up.inService 0 = true ∧ (up.reach 0).ctrlOnly = false ∧ (up.reach 0).maint = []
    ∧ Tab.find? (idleCtx.reach 0).rme.qps 0x3FC3 = some qp0
    ∧ nsUnits (10 * secondNs) ≤ timeDiff qp0.lastPkt ((idleCtx.at 0 (nsTime 10000000000)).now 0) := by decide +kernel
theorem witness_lowest_free : Tab.lowestFree (up.reach 0).maint 0x3FC0 64 = some 0x3FC0 ∧ 0x3FC0 + (3 : Fin 64).val = 0x3FC3 :=
  ⟨by rw [show (up.reach 0).maint = [] from rfl]; rfl, rfl⟩

/-! ### Collectives -/

/-- A PERMUTE of 4 KiB between tiles 0 and 1 of the node, its section, and the moorings of the two members. -/
def cdesc : CollDesc :=
  { fmt := 1, op := 5, wire := 0, alg := 2, coll := 0, log2G := 1, root := 0, memFirst := 0, edgeFirst := 0, edgeCount := 2, chunkKib := 4, win := 0xFFFF,
    bytes := 4096, tc := 2, slots := 1, phase := 0, freeboard := 0, threshStep := 0 }
def cmember (tile moor : Nat) : CollMember :=
  { fmt := 1, peer := 0, tile := tile, slotFirst := 0, inAddr := 0, wAddr := 0x2000, tailAddr := 0x4000, stageMoor := moor, stageDepth := 1, stageAddr := 0x6000,
    creditAddr := 0x8000, creditMoor := moor + 1, readyAddr := 0x9000, doneAddr := 0x9008, readyBase := 0 }
def cmembers : List CollMember := [cmember 0 2, cmember 1 4]
def cedges : List CollEdge := [{ from_ := 0, dest := 1, qpn := 0xFFFFFF }, { from_ := 1, dest := 0, qpn := 0xFFFFFF }]
def cmemberBytes (tile moor : Nat) : List Byte :=
  leBytes 4 1 ++ leBytes 4 tile ++ leBytes 8 (0x2000 * 2 ^ 23) ++ leBytes 8 (0x4000 + moor * 2 ^ 23 + 2 ^ 40)
    ++ leBytes 8 (0x6000 + 0x8000 * 2 ^ 23 + (moor + 1) * 2 ^ 46) ++ leBytes 8 (0x9000 + 0x9008 * 2 ^ 23) ++ leBytes 24 0
def csection : List Byte :=
  leBytes 4 1 ++ leBytes 4 1 ++ leBytes 4 2 ++ leBytes 4 2 ++ leBytes 48 0
    ++ leBytes 4 (1 + 5 * 2 ^ 4 + 2 * 2 ^ 10) ++ leBytes 4 1 ++ leBytes 8 0 ++ leBytes 4 2 ++ leBytes 2 4 ++ leBytes 2 0xFFFF ++ leBytes 4 4096
    ++ leBytes 4 (2 + 1 * 2 ^ 8) ++ leBytes 32 0
    ++ cmemberBytes 0 2 ++ cmemberBytes 1 4 ++ leBytes 8 (2 ^ 16 + 0xFFFFFF * 2 ^ 32) ++ leBytes 8 (1 + 0xFFFFFF * 2 ^ 32)
def cmoor (tile base len : Nat) : Mooring :=
  { mooring0 0 with space := 1, base := BitVec.ofNat 64 (base + tile * 2 ^ 23), length := BitVec.ofNat 48 len }
def coll0 : Chip := up.onReach 0 (fun x => { x with rme := { x.rme with
  moorings := [(2, cmoor 0 0x6000 4160), (3, cmoor 0 0x8000 24), (4, cmoor 1 0x6000 4160), (5, cmoor 1 0x8000 24)] } })

/-- A reduce-scatter of chunks of 1 KiB in hand on tile 0, ready, with a chunk of member 1 in its entry and a credit of member 1. -/
def adesc : CollDesc := { cdesc with op := 1, alg := 0, chunkKib := 1, bytes := 2048 }
def inv0 : CollInv :=
  { newInv none 7 adesc cmembers [0, 0] cedges 0 0 0 (some ref0) [] 0 0 with ready := true, landed := [(0, none)] }
def invP : CollInv := { inv0 with desc := { cdesc with chunkKib := 1, bytes := 1024 } }
def adding (i : CollInv) (from_ : Nat) : Chip := (up.onReach 0 (fun x => { x with coll := { x.coll with invs := [i] } })).onTile 0 0 (fun y =>
  { y with spad := [(0x6000 + 1024, 1), (0x6000 + 1024 + 0xC, BitVec.ofNat 8 from_), (0x8008, 1)] })
def woken (i : CollInv) (c : Chip) (now : Time) : Chip := ((c.at 0 now).collWake 0 i).nextRound 0 i
def bursting : Chip := up.onReach 0 (fun x => { x with bist := { x.bist with burstsWharf := 499, svc := 1 } })
/-- The invocation as a command finds it after it has looked at its words. -/
def found (i : CollInv) (now : Time) : Option CollInv := ((woken i (adding i 1) now).reach 0).inv 7 0 0
theorem witness_CollectivesStartAndTimeOut : coll0.taking ref0 = true ∧ collSection csection = (1, [cdesc], cmembers, cedges)
    ∧ cdesc.membersOf cmembers = cmembers ∧ coll0.inService 0 = true ∧ coll0.collStartCheck 0 0 1 cdesc cmembers cedges (cmember 0 2) = none
    ∧ (cmember 0 2).peer = (coll0.nodeId 0).toNat ∧ ((adding inv0 1).reach 0).inv 7 0 0 = some inv0
    ∧ (found inv0 (nsTime 2000000)).map (fun i => (i.finished, i.code, i.ready, decide (i.done.length < i.recvs.length),
        decide ((woken inv0 (adding inv0 1) (nsTime 2000000)).collPatience 0 i ≤ timeDiff i.lastProgress ((woken inv0 (adding inv0 1) (nsTime 2000000)).now 0))))
      = some (false, none, true, true, true)
    ∧ flag (bursting.reach 0).bist.svc 0 = true ∧ burstOn (bursting.reach 0).bist.burstWharf ((bursting.at 0 0).now 0) = false
    ∧ 499 ≤ (bursting.reach 0).bist.burstsWharf := by decide +kernel

/-- What comes of item 0: whether the invocation goes on, whether the chunk adds, in a slot, whether it may be looked at, whether its bytes can
be read, and the sum's bytes in number, or the code times 65,536. -/
def result (i : CollInv) (from_ : Nat) : Option (List Bool × Option Nat × Option Nat) :=
  let c := woken i (adding i from_) 0
  ((c.reach 0).inv 7 0 0).bind (fun i => (i.recvs[0]?).map (fun e =>
    let c' := if e.2.adds = true then c.claimSlot 0 i (c.now 0) (c.nodeId 0) else c
    let j := c'.invNow 0 i
    let b := c'.stagedChunk 0 j 0
    let d := if e.2.adds = true then c'.loadOperand 0 j 0 (c'.localOperand 0 j e.2).bytes else c'
    let burst := if j.slot.isSome = true then (c.reach 0).bist.burstWharf else (c.reach 0).bist.burstEnd
    ([j.finished || j.code.isSome || burstOn burst (c'.now 0), e.2.adds, j.slot.isSome, j.operandReady e.2, j.wReady e.2.chunk false e.2.level],
      c'.operandUe 0 j 0 e.2,
      match d.chunkResult 0 j e.1 e.2 b.1 b.2 with
      | .ok (w, _) => some w.length
      | .error n => some (n * 65536))))
theorem witness_chunk_goes : (found inv0 0).map (fun i => (i.finished, i.code.isNone, i.inTurn 1, Tab.getD i.used 0 0, Tab.getD i.sent 1 0)) = some (false, true, true, 0, 0)
    ∧ (found inv0 0).map (fun i => ((i.sends.filter (fun x => x.dest == 1))[0]?.map (fun x => (x.src, i.sourceReady x, i.desc.slotOf x 1)), i.host 1))
      = some (some (1, true, 0), 0)
    ∧ (found inv0 0).map (fun i => ((((recvList i.desc i.edges 1).zipIdx.filter (fun e => e.1.1 == i.member))[0]?).isSome,
        (woken inv0 (adding inv0 1) 0).memberWord 0 i.mine (i.mine.creditAddr + 8))) = some (true, 1) :=
  ⟨by decide +kernel, by decide +kernel, by decide +kernel⟩
theorem witness_ChunksAreSentAddedAndChecked : (found inv0 0).map (fun i => i.landed.find? (fun e => e.1 == 0)) = some (some (0, none))
    ∧ result inv0 1 = some ([false, true, true, true, false], none, some 1024)
    ∧ result inv0 0 = some ([false, true, true, true, false], none, some (0x81 * 65536))
    ∧ result invP 1 = some ([false, false, false, true, true], none, some 1024) :=
  ⟨by decide +kernel, by decide +kernel, by decide +kernel, by decide +kernel⟩

/-! ### Ports -/

def onMac0 (f : Mac → Mac) : Chip := up.onMac 0 2 (fun m => f { m with up := true })
def wire0 (b : FrameBody) : EthFrame := { frame0 with dst := portAddress 0 2, body := b }
/-- The filters of reset, and one that drops EtherType 0x9000. -/
def filtered : Chip := onMac0 (fun m => { m with filters := (0, { FilterEntry.blank with valid := true, mEtype := true, etype := 0x9000, action := 0 }) :: m.filters })
theorem witness_FramesWithBadFcsAreDropped : filtered.alive = true ∧ ((filtered.reach 0).mac 2).up = true ∧ { frame0 with fcs := .stomped }.fcs = .stomped
    ∧ { frame0 with fcs := .bad }.fcs = .bad := by decide +kernel
theorem witness_FramesAreFilteredInOrder : ((filtered.reach 0).mac 2).filterOf (wire0 (.other 0x0800 none)) = none ∧ (wire0 (.other 0x0800 none)).dst = portAddress 0 2
    ∧ (((filtered.reach 0).mac 2).filterOf (wire0 (.other 0x9000 none))).map (fun e => (e.1, e.2.action)) = some (0, 0)
    ∧ (((filtered.reach 0).mac 2).filterOf (wire0 (.frt pkt0))).map (fun e => (e.1, e.2.action, e.2.queueOf (wire0 (.frt pkt0)))) = some (60, 1, 2)
    ∧ ((filtered.reach 0).mac 2).ingressRoom 2 64 = true ∧ frameEtype (wire0 (.frt pkt0)) ≠ 0x8808 := ⟨rfl, rfl, rfl, rfl, rfl, by decide⟩

/-- TC6 stopped since 0 and until 5, TC0 stopped by this port since 0 with its queue at XON. -/
def paused : Chip := onMac0 (fun m => { m with
  pauseReg := m.pauseReg ||| 0x1000000, pause := [(6, { until_ := some 5, since := some 0, hold := none }), (7, { PauseClass.reset with hold := some 9 })], pfcSent := [(0, 0)], ingress := [(0, 1024 * 768)] })
theorem witness_PauseStopsClassesForATime : (((paused.reach 0).mac 2).pauseOf 6).ignored 0 = false ∧ (((paused.reach 0).mac 2).pauseOf 6).until_ = some 5
    ∧ notBefore 5 ((paused.at 0 5).now 0) = true ∧ notBefore 5 ((paused.at 0 4).now 0) = false ∧ (((paused.reach 0).mac 2).pauseOf 6).since = some 0
    ∧ nsUnits ((paused.reach 0).mac 2).wdNs ≤ timeDiff 0 ((paused.at 0 (nsTime 10000000)).now 0)
    ∧ (((paused.reach 0).mac 2).pauseOf 7).ignored ((paused.at 0 9).now 0) = false ∧ (((paused.reach 0).mac 2).pauseOf 7).ignored 8 = true
    ∧ Tab.find? ((paused.reach 0).mac 2).pfcSent 0 = some 0 ∧ (fld ((paused.reach 0).mac 2).pauseReg 24 6).testBit 0 = true ∧ 1024 * ((paused.reach 0).mac 2).xon ≤ ((paused.reach 0).mac 2).ingressBytes 0
    ∧ (pauseTime 32768 (((paused.at 0 (nsTime 10000000)).reach 0).gbps 2)).toInt ≤ timeDiff 0 ((paused.at 0 (nsTime 10000000)).now 0) := by decide +kernel

/-- A session of the operator on the PF's path. -/
def operator : Chip := { up with sec := { up.sec with pfSession := some { role := 2, eid := 0, expiry := nsTime 1000000000 } } }
def sendReady : Chip := (usable2.onMac 0 2 (fun m => { m with
  up := true, queues := [{ tc := 0, sub := 0, frames := [{ body := .other 0 none, len := 64, ingress := 7, tenancy := 0, inQueue := 0, vid := none }] }] })).at 0 0
theorem witness_PortsSendAndMeter : sendReady.inService 0 = true ∧ ((sendReady.reach 0).mac 2).up = true ∧ ((sendReady.reach 0).port 2).state = .usable
    ∧ later (sendReady.now 0) ((sendReady.reach 0).mac 2).busyUntil = false
    ∧ (((sendReady.reach 0).select 0 2 (sendReady.now 0)).map (fun e => (e.1.tc, e.1.frame.len))) = some (0, 64)
    ∧ linkLocal (.other 0 none) = false ∧ ((((sendReady.onReach 0 (fun x => { x with rtr := { x.rtr with ports := [] } })).reach 0).port 2).state ≠ .usable)
    ∧ operator.pathOpen .pf = true ∧ (operator.at 0 0).allows .pf 2 = true ∧ operator.allows .pf 2 = true ∧ operator.sec.logRefusal = none
    ∧ ((List.replicate 64 (0 : Time)).filter (fun x => decide (timeDiff x 0 < nsUnits 1000000))).length = 64 := by decide +kernel

/-! ### The host port -/

/-- Function 0 attached, with one submission ring 3 and one completion ring 4 as given. -/
def attached (sub comp : HostRing) : Chip :=
  { up with host := { up.host with fns := [(0, { HostFn.reset 0 with attached := true, rings := [(3, sub), (4, comp)] })] } }
def sring : HostRing := newRing .submission 6 0 0 4 0 0 false 0 0
def cring : HostRing := newRing .completion 6 0 0 0 0 0 true 0 4
def ringUp : Chip := attached { sring with reading := true, fetching := true } { cring with reading := true, posted := 64, sinceMsg := 1 }
def nopDesc (last : Bool) : Desc := { owner := true, first := true, last := last, kind := true, nomod := false, body := [1, 1] }
def chain0 : TakenChain :=
  { handle := 0x100, ring := 3, cq := 4, isCommand := true, entries := [], seen := 0, size := 1, left := 1, status := 0, pos := 0, nomod := false }
def taken0 : Chip := (attached sring cring).onFn 0 (fun x => { x with out := [chain0] })
theorem witness_RingsAreReadAndTaken : up.portOpen = true ∧ up.ring? 0 3 = none ∧ (attached sring cring).ring? 0 3 = some sring
    ∧ sring.destroying = none ∧ sring.reading = false ∧ ringUp.ring? 0 3 = some { sring with reading := true, fetching := true }
    ∧ 2 ^ sring.log2 < (65 - sring.taken).toNat ∧ (64 - sring.taken).toNat ≤ 2 ^ sring.log2 ∧ sring.error = false
    ∧ ringUp.ring? 0 4 = some { cring with reading := true, posted := 64, sinceMsg := 1 } ∧ { cring with posted := 64 }.room = false
    ∧ cring.modUsec ≠ 0 ∧ 1000 * cring.modUsec.toNat ≤ 3000 + 1000 ∧ cring.vecEn = true
    ∧ taken0.chain? ref0 = some chain0 ∧ taken0.host.feeds = [] ∧ headOf 6 0 0 [nopDesc true] = .chain 1 ∧ chainBad [nopDesc true] = false := by decide +kernel

def create0 (completion : Bool) (ring cq : BitVec 8) : RingCreate :=
  { ring := ring, completion := completion, log2 := 6, cq := cq, serialBase := 0, base := 0, index := 0, vector := 0, vecEn := false, modCount := 0, modUsec := 0 }
def serving : Chip := (attached sring cring).onReach 0 (fun x =>
  { x with plan := { x.plan with plans := [plan0] }, rme := { x.rme with qps := [(5, qp0)], moorings := [(2, mooring0 0)] } })
def buffer0 : FeedPost := { feed0 with plan := 0x500, rkey := 0x20002 }
theorem witness_HostCommandsComplete : serving.taking ref0 = true ∧ serving.ringCreateCheck 0 (create0 false 5 4) = 0 ∧ serving.ringCreateCheck 0 (create0 true 5 4) = 0
    ∧ serving.ringCreateCheck 0 (create0 false 5 9) ≠ 0 ∧ serving.ring? 0 3 = some sring ∧ serving.hostGone 0 = false ∧ serving.host.d3hot = false
    ∧ serving.inService (qpReach 5) = true ∧ (serving.reach (qpReach 5)).qp 5 = some qp0 ∧ qp0.function = 0 ∧ (mooring0 0).function = 0
    ∧ Tab.find? (serving.reach 0).rme.moorings (natBits (2 : Word32).toNat 0 15) = some (mooring0 0) ∧ (2 : Word32).toNat / 2 ^ 15 % 4 = 0
    ∧ serving.feedCheck ref0 buffer0 = 0 ∧ buffer0.seq = serving.feedNext buffer0.plan buffer0.feed ∧ serving.feedOk { cmd := ref0, post := buffer0 } = true
    ∧ serving.bounce 0 buffer0 = some (mooring0 0) ∧ (operator.configRead .pf { table0 with count := 1 }).1 = 0 := by decide +kernel
theorem witness_ring_goes : { (attached sring cring) with host := { up.host with fns := [(0, { HostFn.reset 0 with rings := [(4, cring)] })] } }.cqNamed 0 4 = false
    ∧ cring.waiting = [] ∧ cring.kind ≠ .submission := by decide +kernel

/-- Function 0 may attach: it has chosen a revision, and the module is ready. -/
def offering : Chip :=
  { up with gate := { up.gate with ready := true }, host := { up.host with fns := [(0, { HostFn.reset 0 with sel := 1 })] } }
def reset0 : Chip := { up with host := { up.host with inReset := true } }
theorem witness_FunctionsComeAndGo : up.portOpen = true ∧ (up.fn 0).attached = false ∧ (up.ten 0).attaching = false ∧ up.attachErr 0 ≠ 0
    ∧ offering.attachErr 0 = 0 ∧ (offering.onFn 0 (fun x => { x with attachErr := 0 })).gate.ready = true ∧ (offering.fn 0).shutdown = false
    ∧ offering.holdsObjects 0 = false ∧ ((attached sring cring).fn 0).attached = true ∧ operator.allows .pf 2 = true ∧ up.host.inReset = false
    ∧ up.sec.recovery = false ∧ up.host.d3hot = false ∧ reset0.host.inReset = true ∧ { up with host := { up.host with d3hot := true } }.host.d3hot = true := by
  decide +kernel

/-! ### Translation and tenancies -/

def asid1 : Asid := { function := 0, gen := 1, pages := [], wins := [] }
def inv1 : InvCmd := { cmd := ref0, asid := 1, free := true, range := none, started := true, released := [] }
def spaces (inv : List InvCmd) : Chip := { up with xlt := { up.xlt with asids := [(1, asid1)], inv := inv } }
def map0 (window : Bool) : XltMap :=
  { asid := 1, window := window, page := 2, tier := 0, reach := 0, pcset := 0, rd := true, wr := true, va := 0x40000000, length := 0x40000000, iova := 0 }
def page1 : Page := { va := 0x40000000, size := 2, tier := 0, reach := 0, set := 0, pa := 0, rd := true, wr := true }
/-- Work of the previous generation: an operation that reads the address space. -/
def working : Chip := (spaces [inv1]).onReach 0 (fun x =>
  { x with rme := { x.rme with qps := [(5, { qp0 with ops := [{ op0 with entry := { work 0 with lspace := 1 }, asidGen := 0 }] })] } })
theorem witness_AddressSpacesChange : (spaces []).xltWaits = false ∧ (spaces []).holdsAsid 0 2 = true ∧ Tab.find? (spaces []).xlt.asids 2 = none
    ∧ (spaces []).freeAsid 0 = some 2 ∧ (spaces []).xltMapCheck 0 { map0 true with asid := 2 } ≠ 0 ∧ (spaces []).xltMapCheck 0 (map0 true) = 0
    ∧ (spaces []).xltMapCheck 0 (map0 false) = 0 ∧ (spaces []).choosePages 0 (map0 false) 1 = some [0] ∧ (spaces []).ownAsid 0 1 = some asid1
    ∧ (spaces []).invCheck { asid1 with pages := [page1] } { inv1 with range := some (0x60000000, 0x10000) } ≠ 0
    ∧ (spaces [inv1]).xlt.inv.find? (fun i => i.asid == 1 && i.started) = some inv1 ∧ (spaces [inv1]).oldWork 1 asid1.gen = false
    ∧ working.oldWork 1 asid1.gen = true := by decide +kernel

def grant1 : Grant := { grant0 with pkeyIdx := List.replicate 8 0xFF }
/-- Function 1 enabled, with its grant and its tenancy in a state; migration KEK 0 stands. -/
def tenant (st : TenState) : Chip :=
  { (attached sring cring).onFn 1 (fun x => { x with enabled := true }) with
    xlt := { up.xlt with tens := [(1, { Tenancy.reset with grant := some grant1, state := st })] },
    sec := { up.sec with gate := { up.sec.gate with slots :=
      [(0, { kind := 3, key := List.replicate 32 0, pkey := 0, tAct := 0, function := 0, index := 0, cnt := 0, aged := 0 })] } } }
theorem witness_TenanciesEnableAndFreeze : up.taking ref0 = true ∧ up.taking ref1 = true ∧ up.sec.logRefusal = none ∧ grantBad grant1 = false
    ∧ (up.fn (grantFn grant1)).shutdown = false ∧ up.grantConflict grant1 = false ∧ (tenant .running).grantConflict grant1 = true
    ∧ ((tenant .running).fn 1).enabled = true ∧ ((tenant .running).ten 1).grant = some grant1 ∧ ((tenant .running).ten 1).state = .running
    ∧ ((tenant .frozen).ten 1).state = .frozen ∧ (((tenant .frozen).reach 0).qpsOf 1) = [] ∧ ((tenant .freezing).ten 1).state = .freezing
    ∧ notBefore ((tenant .freezing).ten 1).freezeEnd ((tenant .freezing).at 0 0).gateTime = true := by decide +kernel
def blob1 (kek : BitVec 8) : TenRestore := { fn := 1, kek := kek, length := 1, blob := [], remap := [], loads := [] }
theorem witness_tenancies_move : (tenant .frozen).hostGone 0 = false ∧ (tenant .frozen).migrationKek 0 = some (List.replicate 32 0)
    ∧ (tenant .running).holdsObjects 1 = false
    ∧ (match ((tenant .running).log 0xA ((tenant .running).whoOf .pf) 0 []).openBlob (blob1 9) with | .error n => n == 0xB6 | .ok _ => false) = true := by
  decide +kernel

/-! ### Security -/

/-- A block of role 0, which carries no signature; each passes on the path that R425 gives it. -/
def query0 (subop : BitVec 8) (body : List Byte) : RoleReq := { role0 with magic := 0x51525850, subop := subop, body := body }
def ring0 : ReqPath := .ring ref0 0 0
theorem witness_RoleSessionsAndLogbook : up.taking ref0 = true ∧ up.roleCheck ring0 (query0 0xD []) = none ∧ up.roleCheck (.mctp 8) (query0 0xD []) = none
    ∧ (up.roleCheck ring0 (query0 0xE [])).isSome = true ∧ (up.roleCheck ring0 (query0 0xA [])).map (fun e => e.1) = some 2
    ∧ (operator.at 0 0).sec.pfSession = some { role := 2, eid := 0, expiry := nsTime 1000000000 }
    ∧ notBefore 0 (operator.at 0 0).gateTime = true := by decide +kernel
theorem witness_RoleRequestsChangeKeys : (query0 3 []).subop = 3 ∧ (query0 9 []).subop = 9 ∧ up.reqTaken (.mctp 8) ∧ up.sec.flashOk = true ∧ up.sec.installer = none
    ∧ up.roleCheck ring0 (query0 9 (List.replicate 40 0)) = none ∧ pathFn ring0 = some 0 ∧ pathFn (.mctp 8) = none ∧ up.freeKeySlot = some 0 :=
  ⟨rfl, rfl, trivial, rfl, rfl, by decide +kernel, rfl, rfl, by decide +kernel⟩

def key0 (kind : BitVec 4) (tAct : Time) : KeySlot :=
  { kind := kind, key := List.replicate 32 0, pkey := 1, tAct := tAct, function := 0, index := 0, cnt := 0, aged := 0 }
def keyed (now : Time) (l : Tab KeySlot) : Chip := (servo { up with sec := { up.sec with master := l } } .locked).at 0 now
def cipherBody : List Byte := leBytes 4 0xE1 ++ leBytes 20 0 ++ leBytes 4 16 ++ leBytes 36 0
def ciphering : Chip := up.onReach 0 (fun x => { x with cipher := { x.cipher with slots := [(0, key0 2 0)] } })
theorem witness_KeysAgeAndCipherSeals : (keyed (nsTime 20000000) [(0, key0 1 0), (1, key0 1 1)]).steadyReach ≠ none ∧ later 0 1 = true
    ∧ notBefore (1 + nsTime (1000000 * fld (keyed (nsTime 20000000) []).sec.ciphCtrl 0 16)) (keyed (nsTime 20000000) []).gateTime = true
    ∧ nsPow 45 ≤ timeDiff 0 (keyed (nsTime (2 ^ 45)) [(0, key0 1 0)]).gateTime ∧ up.roleCheck ring0 (query0 0xC cipherBody) = none
    ∧ (cipherReqOf cipherBody).first = true ∧ (cipherReqOf cipherBody).last = true ∧ (cipherReqOf cipherBody).dir = false ∧ (cipherReqOf cipherBody).host = true
    ∧ (cipherReqOf cipherBody).length ≠ 0 ∧ ciphering.cipherRefusal (some 0) (cipherReqOf cipherBody) = 0
    ∧ (ciphering.engine (cipherReqOf cipherBody).engine).hostKey? 0 (cipherReqOf cipherBody).keySlot = some (key0 2 0) := by decide +kernel

def spdm0 (x : SpdmConn) : Chip := up.setSpdm 8 x
theorem witness_ManagementRequestsAnswered : (spdm0 { SpdmConn.reset with version := true }).spdmOf 8 = { SpdmConn.reset with version := true }
    ∧ (up.spdmOf 8).algs = false ∧ ((spdm0 { SpdmConn.reset with caps := true, lastSigned := some 0 }).spdmOf 8).lastSigned = some 0
    ∧ (pathReg (.mctp 8) 0).isSome = true ∧ (4 : Nat) % 8 ≠ 0 ∧ pathReg (.mctp 8) 0xFFFFFF8 = none := by decide +kernel

/-! ### Faults, gauges and trace -/

/-- A tile-array reset of group 0 that goes on. -/
def resetting : Chip := { up with gate := { up.gate with tileResets := [{ cmd := ref0, reach := 0, mask := 1 }] } }
def inReset0 : Chip := up.onReach 0 (fun x => { x with service := .inReset })
theorem witness_ResetsOfTilesAndReaches : up.taking ref0 = true ∧ (∀ t ∈ groupTiles 1, up.holdsTile 0 (64 * 0 + t) = true) ∧ up.inService 0 = true
    ∧ (tenant .running).holdsTile 0 (64 * 0 + 0) = false ∧ 0 ∈ groupTiles 1 ∧ up.sec.logRefusal = none ∧ (up.reach 0).service = .inService
    ∧ up.gate.tileResets.any (fun t => t.cmd == ref0) = false ∧ (resetting.gate.tileResets.find? (fun t => t.cmd == ref0)).isSome = true
    ∧ (inReset0.reach 0).service = .inReset ∧ inReset0.sec.recovery = false ∧ inReset0.gate.shutState.toNat < 2 ∧ inReset0.sec.bootFail.contains 2 = false
    ∧ inReset0.xlt.lost = false := by decide +kernel

def waiting0 (kind : BitVec 2) : Chip := up.onReach 0 (fun x => { x with service := .testing, bist := { x.bist with waitSince := some 0, kind := kind } })
theorem witness_SelfTestsAndWatchdogs : allReaches.filter (fun r => (1 : BitVec 8).toNat.testBit r.val) = [0] ∧ up.sec.bootFail.contains 4 = false
    ∧ (up.reach 0).plan.plans = [] ∧ ((waiting0 2).at 0 (nsTime 5000000000)).windowLate 0 = true ∧ ((waiting0 2).reach 0).bist.kind = 2
    ∧ Tab.find? (up.reach 0).bist.expiry 0 = none ∧ timeDiff 0 ((up.at 0 0).now 0) < watchSpan
    ∧ (up.reach 0).mem.ue = [] ∧ lpBase ≤ 64 * (lpBase / 64) ∧ 64 * (lpBase / 64) < lpAvail ∧ up.gate.expiry = [] ∧ (up.at 0 0).testGap 0 0 = true
    ∧ (up.reach 0).bist.overdue.contains 0 = false
    ∧ (2 * (up.reach 0).bist.periodS : Int) * 1000000000 * 65536
      < timeDiff (Tab.getD (up.reach 0).bist.lastPass 0 (up.reach 0).bist.inSince) ((up.at 0 (nsTime 121000000000)).now 0) := by decide +kernel

def tracing (ctrl : Word64) : Chip := { operator with gate := { operator.gate with trcCtrl := ctrl } }
def record0 : TraceRec := { kind := 0, reach := 0, src := 0, function := 0, seq := 0, time := 0, p0 := 0, p1 := 0 }
def streaming0 : Chip := (tracing 2).onReach 0 (fun x => { x with trace := { x.trace with store := [record0], stallSince := some 0, postLeft := some 0 } })
def triggered : Chip := { tracing 9 with gate := { (tracing 9).gate with trcTrig := 5, trigNotices := [(0, 1)] } }
def dumping (ctrl : Word64) : Chip :=
  { tracing ctrl with gate := { (tracing ctrl).gate with dumpBusy := true }, host := (attached sring cring).host }
theorem witness_GaugesAndTrace : (up.gaugeRow 0 (gaugeSel 3)).map (fun e => e.1) = some (some 0) ∧ up.mayGauge .pf (some 0) = true ∧ up.mayGauge .pf (some 1) = false
    ∧ (up.gaugeRow 1 (gaugeSel 3)).map (fun e => e.1) = some (some 1) ∧ flag 8 3 = true ∧ operator.allows .pf 3 = true ∧ flag 0x10 4 = true
    ∧ allReaches.find? up.inService = some 0 ∧ operator.gate.dumpBusy = false ∧ triggered.gate.trigNotices.contains (0, 1) = true
    ∧ triggered.gate.trigTimeDone.contains 0 = false ∧ flag triggered.gate.trcCtrl 3 = true ∧ fld triggered.gate.trcTrig 0 4 = 5
    ∧ notBefore ((triggered.gate.trcTrigTime >>> 16) <<< 16) ((triggered.at 0 0).now 0) = true ∧ triggered.streaming = false
    ∧ streaming0.streaming = true ∧ streaming0.traceTurn = some 0 ∧ (streaming0.reach 0).trace.waiting = [] ∧ (streaming0.reach 0).trace.stallSince = some 0 := by
  decide +kernel
theorem witness_dump : (dumping 0).gate.dumpBusy = true ∧ (dumping 0).hostGone 0 = false ∧ (dumping 0).dumpOk = true ∧ (dumping 1).dumpOk = false
    ∧ (dumping 0).gate.dumpAddr.toNat + dumpRegion * (dumping 0).dumpReaches.length ≤ 2 ^ 64 := by decide +kernel

/-! ### Power, start and shut-down, registers -/

def gated0 (f : Gate → Gate) : Chip := { up with gate := f up.gate }
def cool : Sensors := { die := List.replicate 16 90, hbm := [80, 80], lp := List.replicate 6 70, gate := [60, 60], amps := [] }
def clocked0 : Chip := up.onReach 0 (fun x => { x with pwr := { x.pwr with rails := 7 } })
def atFloor : Chip := { up with reaches := Quad.pure { Reach.reset with pwr := { Power.reset with capTarget := 2700 } } }
theorem witness_PowerAndTemperature : (gated0 (fun g => { g with pwrEn := false })).gate.pwrEn = false ∧ up.gate.mrstN = true ∧ up.gate.pwrgd = true
    ∧ up.gate.cutOff = false ∧ up.gate.thermTrip = false
    ∧ (up.reach 0).service ≠ .inReset ∧ clampNat 20 80 (fld up.gate.cap 24 8) < 41 ∧ (clocked0.reach 0).clocked = true
    ∧ hottest cool.die ≤ 97 ∧ hottest cool.hbm ≤ 92 ∧ hottest cool.lp ≤ 92 ∧ 105 < hottest [106, 90] ∧ ((servo up .locked).at 0 0).steadyReach = some 0
    ∧ (((servo up .locked).at 0 0).reach 0).time.wholeSecond = true ∧ atFloor.allAtFloor = true ∧ up.gate.overTicks < 1000
    ∧ (operator.allows .pf 2 = true ∧ clampNat 2700 3600 (fld (2700 <<< 12) 12 12) = clampNat 2700 3600 (fld up.gate.cap 12 12)) := by decide +kernel

def failed1 : TestRecord :=
  { valid := true, kind := 0, outcome := 1, cause := 0, lsvn := 0, timeStart := 0, timeEnd := 0, cover := 0, hbmFirst := 0, hbmCount := 0, lpFirst := 0,
    lpCount := 0, fails := 0, repaired := 0, retired := 0, entries := [] }
/-- A module that starts with four reaches whose last test failed. -/
def starting0 : Chip := { up with reaches := Quad.pure { Reach.reset with bist := { Bist.reset with record := some failed1 } } }
def heldAll : Chip := { up with reaches := Quad.pure { Reach.reset with service := .held } }
theorem witness_ModuleStartsAndShutsDown : (starting0.reach 0).service = .starting ∧ starting0.sec.bootFail = [] ∧ (starting0.reach 0).bist.stored 1 = true
    ∧ (∀ r : ReachId, ((forEach allReaches starting0 (fun c r => c.startReach r .waits)).reach r).service = .held) ∧ (∀ r : ReachId, (heldAll.reach r).service = .held)
    ∧ up.sec.recovery = false ∧ up.gate.ready = false ∧ up.gate.shutState = 0 ∧ up.gate.shutWaits = false ∧ up.gate.bists = [] ∧ flag 1 0 = true
    ∧ operator.allows .pf 3 = true ∧ operator.sec.log.length + 1 ≤ 65535
    ∧ (gated0 (fun g => { g with mrstN := false })).gate.mrstN = false ∧ (gated0 (fun g => { g with shutState := 2 })).gate.shutLeft = [] := by decide +kernel
theorem witness_drain_ends : notBefore (0 + nsTime (1000000 * clampNat 1 10000 (gated0 (fun g => { g with shutState := 1 })).gate.drainMs.toNat))
      ((servo (gated0 (fun g => { g with shutState := 1 })) .locked).at 0 (nsTime 100000000)).gateTime = true
    ∧ (accessOf 0 8 5).map (fun e => (e.1, e.2.2)) = some (0, 5) ∧ (pathReg .pf 0).isSome = true ∧ regPathFn .pf = some 0 := by decide +kernel

theorem witness_PfWritesOnlyItsOwnBlock : pathReg .pf (fnBase + 0x10000 + 8) = some (.fn 1 .hostRev) ∧ up.portOpen = true
    ∧ up.gaugeOwner (.fn 1 .hostRev) = none := by decide +kernel

theorem witness_EveryCommandCompletes : step { chip := up, pending := [.doorbell 0 9] } = exec (.doorbell 0 9) (box up) := rfl

end Sys2Proof.Tests
end

section
/-!
SUPPORT. What several proofs about the router share: a loop keeps what each of its steps keeps, a table mapped over its values, and what the
sending of keeper frames leaves.
-/

namespace Sys2Proof

theorem Tab.find?_mapVals {α : Type} (t : Tab α) (f : α → α) (k : Nat) : Tab.find? (Tab.mapVals t f) k = (Tab.find? t k).map f := by
  induction t with
  | nil => rfl
  | cons e t ih =>
    obtain ⟨k', v⟩ := e
    simp only [Tab.mapVals] at ih
    by_cases hk : k = k' <;> simp [Tab.mapVals, Tab.find?, hk, ih]

/-- An unlisted key holds the default, which the function keeps or changes like any listed value. -/
theorem Tab.getD_mapVals {α : Type} (t : Tab α) (f : α → α) (k : Nat) {d : α} (hd : f d = d) :
    Tab.getD (Tab.mapVals t f) k d = f (Tab.getD t k d) := by
  simp only [Tab.getD, Tab.find?_mapVals]
  cases Tab.find? t k with
  | none => exact hd.symm
  | some v => rfl

end Sys2Proof

namespace Sys2Proof.Machine

/-- A loop keeps what each of its steps keeps. -/
theorem forEach_keeps {α σ β : Type} (g : σ → β) {f : σ → α → σ} (h : ∀ s a, g (f s a) = g s) (l : List α) (s : σ) :
    g (forEach l s f) = g s := by
  induction l generalizing s with
  | nil => rfl
  | cons a l ih => exact (ih (f s a)).trans (h s a)

/-- The arrival of a timed command moves the reach's counter alone. -/
theorem Chip.reach_at (c : Chip) (r : ReachId) (now : Time) :
    (c.at r now).reach r = { c.reach r with time := (c.reach r).time.advance now } :=
  c.reach_onReach r _

@[simp] theorem Chip.sendKeeper_reach (c : Chip) (r : ReachId) (dst : Word16) (b : KeeperBody) :
    (c.sendKeeper r dst b).reach r = { c.reach r with rtr := { (c.reach r).rtr with inbox := (c.reach r).rtr.inbox ++
      [{ ingress := 8, body := .keeper (mkKeeper (c.nodeId r) dst b), len := keeperFrameLen b, arrived := c.now r, queue := 7 }] } } := by
  simp [Chip.sendKeeper]

@[simp] theorem Chip.sendKeeper_gate (c : Chip) (r : ReachId) (dst : Word16) (b : KeeperBody) : (c.sendKeeper r dst b).gate = c.gate := rfl

@[simp] theorem Chip.sendLocal_rtr (c : Chip) (r : ReachId) (p : PortId) (b : KeeperBody) :
    ((c.sendLocal r p b).reach r).rtr = (c.reach r).rtr := by
  simp [Chip.sendLocal, Chip.sendLink]

@[simp] theorem Chip.sendLocal_gate (c : Chip) (r : ReachId) (p : PortId) (b : KeeperBody) : (c.sendLocal r p b).gate = c.gate := rfl

@[simp] theorem Chip.takeKeeper_reach (c : Chip) (r : ReachId) (p : RtrFrame → Bool) :
    (c.takeKeeper r p).reach r = { c.reach r with rtr := { (c.reach r).rtr with keeperIn := (c.reach r).rtr.keeperIn.eraseP p } } := by
  simp [Chip.takeKeeper]

@[simp] theorem Chip.takeKeeper_gate (c : Chip) (r : ReachId) (p : RtrFrame → Bool) : (c.takeKeeper r p).gate = c.gate := rfl

end Sys2Proof.Machine
end

section
/-!
The link-state database: what each operation of R262, R263, R266 and R272 leaves of a node's identity, its last sequence number and its
database, and the statement about them.
-/

namespace Sys2Proof.Machine

/-! ### What a database says of an origin -/

/-- The LSA that was put stands. -/
theorem lsaOf_putLsa_self (db : List Lsa) (l : Lsa) : lsaOf (putLsa db l) l.origin.toNat = some l := by
  induction db with
  | nil => simp [putLsa, lsaOf]
  | cons x db ih =>
    by_cases hx : x.origin = l.origin
    · simp [putLsa, lsaOf, hx]
    · have hn : x.origin.toNat ≠ l.origin.toNat := fun e => hx (BitVec.eq_of_toNat_eq e)
      rw [← ih]
      by_cases hany : db.any (fun x => x.origin == l.origin) = true <;> simp [putLsa, lsaOf, hx, hn, hany]

/-- Those of the other origins stay. -/
theorem lsaOf_putLsa_ne (db : List Lsa) (l : Lsa) {n : Nat} (h : n ≠ l.origin.toNat) : lsaOf (putLsa db l) n = lsaOf db n := by
  have replaced : lsaOf (db.map (fun x => if x.origin == l.origin then l else x)) n = lsaOf db n := by
    unfold lsaOf
    induction db with
    | nil => rfl
    | cons x db ih =>
      by_cases hx : x.origin = l.origin
      · have hl : (l.origin.toNat == n) = false := by simpa using Ne.symm h
        simpa [hx, hl] using ih
      · simp only [List.map_cons, List.find?_cons, ih]; simp [hx]
  unfold putLsa
  split
  · exact replaced
  · simp [lsaOf, Ne.symm h]

/-! ### What the operations of a node leave of it -/

/-- Of a node: its identifier, the sequence number of its last LSA, its database. -/
def Chip.linkState (c : Chip) (r : ReachId) : Word16 × Word32 × List Lsa :=
  (c.nodeId r, (c.reach r).rtr.lsaSeq, (c.reach r).rtr.lsdb)

theorem Chip.linkState_eq_iff {c d : Chip} {r : ReachId} :
    c.linkState r = d.linkState r ↔ c.nodeId r = d.nodeId r ∧ (c.reach r).rtr.lsaSeq = (d.reach r).rtr.lsaSeq
      ∧ (c.reach r).rtr.lsdb = (d.reach r).rtr.lsdb := by
  simp [Chip.linkState]

/-- A change of the router that leaves both sequence number and database. -/
theorem Chip.linkState_onRtr {c : Chip} {r : ReachId} {f : Router → Router}
    (h : (f (c.reach r).rtr).lsaSeq = (c.reach r).rtr.lsaSeq ∧ (f (c.reach r).rtr).lsdb = (c.reach r).rtr.lsdb) :
    (c.onRtr r f).linkState r = c.linkState r := by
  simp [Chip.linkState, Chip.nodeId, h]

@[simp] theorem Chip.linkState_at (c : Chip) (r : ReachId) (now : Time) : (c.at r now).linkState r = c.linkState r := by
  simp [Chip.linkState]

@[simp] theorem Chip.linkState_takeKeeper (c : Chip) (r : ReachId) (p : RtrFrame → Bool) : (c.takeKeeper r p).linkState r = c.linkState r :=
  Chip.linkState_onRtr ⟨rfl, rfl⟩

@[simp] theorem Chip.linkState_sendKeeper (c : Chip) (r : ReachId) (dst : Word16) (b : KeeperBody) :
    (c.sendKeeper r dst b).linkState r = c.linkState r :=
  Chip.linkState_onRtr (f := fun y => { y with inbox := _ }) ⟨rfl, rfl⟩

@[simp] theorem Chip.linkState_passLsa (c : Chip) (r : ReachId) (l : Lsa) (except : Option PortId) :
    (c.passLsa r l except).linkState r = c.linkState r :=
  forEach_keeps (fun c => c.linkState r) (fun c p => by simp [Chip.linkState, Chip.nodeId]) _ c

@[simp] theorem Router.elect_lsaSeq (x : Router) (node : Word16) : (x.elect node).lsaSeq = x.lsaSeq := rfl

@[simp] theorem Router.elect_lsdb (x : Router) (node : Word16) : (x.elect node).lsdb = x.lsdb := rfl

@[simp] theorem Router.onBank_lsaSeq (x : Router) (b : BitVec 1) (f : Bank → Bank) : (x.onBank b f).lsaSeq = x.lsaSeq := by
  unfold Router.onBank; split <;> rfl

@[simp] theorem Router.onBank_lsdb (x : Router) (b : BitVec 1) (f : Bank → Bank) : (x.onBank b f).lsdb = x.lsdb := by
  unfold Router.onBank; split <;> rfl

@[simp] theorem Router.flip_lsaSeq (x : Router) (now : Time) : (x.flip now).lsaSeq = x.lsaSeq := by
  unfold Router.flip; dsimp only; split <;> simp

@[simp] theorem Router.flip_lsdb (x : Router) (now : Time) : (x.flip now).lsdb = x.lsdb := by
  unfold Router.flip; dsimp only; split <;> simp

@[simp] theorem Router.rebuildOwn_lsaSeq (x : Router) (node : Nat) (now : Time) : (x.rebuildOwn node now).lsaSeq = x.lsaSeq := by
  unfold Router.rebuildOwn; dsimp only; split <;> simp

@[simp] theorem Router.rebuildOwn_lsdb (x : Router) (node : Nat) (now : Time) : (x.rebuildOwn node now).lsdb = x.lsdb := by
  unfold Router.rebuildOwn; dsimp only; split <;> simp

@[simp] theorem Chip.linkState_startEpoch (c : Chip) (r : ReachId) : (c.startEpoch r).linkState r = c.linkState r := by
  unfold Chip.startEpoch; dsimp only
  split
  · rfl
  split
  · exact Chip.linkState_onRtr ⟨rfl, rfl⟩
  · exact (forEach_keeps (fun c : Chip => c.linkState r) (fun c _ => c.linkState_sendKeeper r _ _) _ _).trans (Chip.linkState_onRtr ⟨rfl, rfl⟩)

/-- Election, own tables and a change of epoch leave the database that they are made from (R266, R276). -/
@[simp] theorem Chip.linkState_dbChanged (c : Chip) (r : ReachId) : (c.dbChanged r).linkState r = c.linkState r := by
  have elected : (c.onRtr r (fun x => x.elect (c.nodeId r))).linkState r = c.linkState r := Chip.linkState_onRtr ⟨rfl, rfl⟩
  unfold Chip.dbChanged; dsimp only
  rw [apply_ite (fun c : Chip => c.linkState r)]
  simp only [Chip.linkState_startEpoch, ite_self]
  split
  · exact elected
  · exact (Chip.linkState_onRtr ⟨Router.rebuildOwn_lsaSeq .., Router.rebuildOwn_lsdb ..⟩).trans elected

/-- The LSA that a node floods next. -/
def Chip.nextLsa (c : Chip) (r : ReachId) : Lsa := (c.onRtr r (fun x => { x with lsaSeq := x.lsaSeq + 1 })).ownLsa r

@[simp] theorem Chip.nextLsa_origin (c : Chip) (r : ReachId) : (c.nextLsa r).origin = c.nodeId r := rfl

@[simp] theorem Chip.nextLsa_seq (c : Chip) (r : ReachId) : (c.nextLsa r).seq = (c.reach r).rtr.lsaSeq + 1 := by
  simp [Chip.nextLsa, Chip.ownLsa]

/-- A link for each USABLE port whose peer is not left out (R262, R263). -/
theorem Chip.nextLsa_links (c : Chip) (r : ReachId) : (c.nextLsa r).links = (c.reach r).usablePorts.filterMap (fun p =>
    ((c.reach r).port p).peer.bind (fun n => if (c.reach r).peerLeftOut p n = true then none else some (p, n))) := by
  simp only [Chip.nextLsa, Chip.ownLsa, Chip.reach_onRtr]
  rfl

/-- A flood takes the next sequence number and puts the node's new LSA into its own database (R262). -/
theorem Chip.linkState_floodOwn (c : Chip) (r : ReachId) :
    (c.floodOwn r).linkState r = (c.nodeId r, (c.reach r).rtr.lsaSeq + 1, putLsa (c.reach r).rtr.lsdb (c.nextLsa r)) := by
  unfold Chip.floodOwn; dsimp only
  rw [apply_ite (fun c : Chip => c.linkState r)]
  simp only [Chip.linkState_dbChanged, Chip.linkState_passLsa, ite_self]
  simp [Chip.linkState, Chip.nodeId, Chip.nextLsa]

theorem Chip.floodOwn_lsdb (c : Chip) (r : ReachId) :
    ((c.floodOwn r).reach r).rtr.lsdb = putLsa (c.reach r).rtr.lsdb (c.nextLsa r) :=
  congrArg (fun k => k.2.2) (c.linkState_floodOwn r)

theorem Chip.floodOwn_lsaSeq (c : Chip) (r : ReachId) : ((c.floodOwn r).reach r).rtr.lsaSeq = (c.reach r).rtr.lsaSeq + 1 :=
  congrArg (fun k => k.2.1) (c.linkState_floodOwn r)

/-! ### The commands -/

/-- Of two LSAs of one origin the first stands: of one holder the newer, of two holders the one of the lower EUI-64 (R262, R263). -/
def lsaStands (l o : Lsa) : Prop := if o.eui = l.eui then newerLsa l o = true else l.eui.toNat < o.eui.toNat

theorem lsaStands_iff (l o : Lsa) :
    lsaStands l o ↔ (if o.eui == l.eui then newerLsa l o else decide (l.eui.toNat < o.eui.toNat)) = true := by
  unfold lsaStands
  by_cases h : o.eui = l.eui <;> simp [h]

/-- An LSA of another origin that does not stand changes nothing. -/
theorem lsaRx_drops_older {r : ReachId} {c : Chip} (now : Time) (p : PortId) {l o : Lsa}
    (hl : l.origin ≠ c.nodeId r) (ho : lsaOf (c.reach r).rtr.lsdb l.origin.toNat = some o) (hold : ¬ lsaStands l o) :
    lsaRx r now p l c = (c.at r now).takeKeeper r (isKeeper (.lsa l)) := by
  have hd : ((c.at r now).takeKeeper r (isKeeper (.lsa l))).linkState r = c.linkState r := by simp
  unfold lsaRx; dsimp only
  generalize (c.at r now).takeKeeper r (isKeeper (.lsa l)) = d at hd ⊢
  obtain ⟨hid, -, hdb⟩ := Chip.linkState_eq_iff.1 hd
  split
  · rfl
  · rw [if_neg (by simpa [hid] using hl), hdb, ho, if_pos]
    rwa [Bool.not_eq_true', ← Bool.not_eq_true, ← lsaStands_iff]

/-- A change of the database, where there was one, has left the database itself. -/
theorem Chip.linkState_dbChanged_if (b : Prop) [Decidable b] (c : Chip) (r : ReachId) :
    (if b then c.dbChanged r else c).linkState r = c.linkState r := by
  split
  · exact c.linkState_dbChanged r
  · rfl

/-- A flood, where there was one, has left what the database says of the other origins. -/
theorem Chip.lsaOf_floodOwn_if (b : Prop) [Decidable b] (c : Chip) (r : ReachId) {n : Nat} (h : n ≠ (c.nodeId r).toNat) :
    lsaOf ((if b then c.floodOwn r else c).reach r).rtr.lsdb n = lsaOf (c.reach r).rtr.lsdb n := by
  split
  · rw [c.floodOwn_lsdb, lsaOf_putLsa_ne _ _ h]
  · rfl

/-- One that stands over what the database holds is in it afterwards, whatever the node does about the change. -/
theorem lsaRx_keeps_newest {r : ReachId} {c : Chip} (now : Time) (p : PortId) {l : Lsa} (hs : c.inService r = true)
    (hl : l.origin ≠ c.nodeId r) (hnew : ∀ o, lsaOf (c.reach r).rtr.lsdb l.origin.toNat = some o → lsaStands l o) :
    lsaOf ((lsaRx r now p l c).reach r).rtr.lsdb l.origin.toNat = some l := by
  have hd : ((c.at r now).takeKeeper r (isKeeper (.lsa l))).linkState r = c.linkState r := by simp
  have hserv : (((c.at r now).takeKeeper r (isKeeper (.lsa l))).reach r).service = .inService := by simpa [Chip.inService] using hs
  unfold lsaRx; dsimp only
  generalize (c.at r now).takeKeeper r (isKeeper (.lsa l)) = d at hd hserv ⊢
  obtain ⟨hid, -, hdb⟩ := Chip.linkState_eq_iff.1 hd
  rw [if_neg (by simp [hserv]), if_neg (by simpa [hid] using hl), if_neg]
  · -- The database that the LSA was put into is the one before a flood of the node's own.
    have kept := fun b : Bool => (Chip.linkState_dbChanged_if (b = true) _ r).trans
      (Chip.linkState_passLsa (d.onRtr r (fun y => { y with lsdb := putLsa y.lsdb l })) r l (some p))
    rw [Chip.lsaOf_floodOwn_if, (Chip.linkState_eq_iff.1 (kept _)).2.2, Chip.reach_onRtr, lsaOf_putLsa_self]
    rw [(Chip.linkState_eq_iff.1 (kept _)).1]
    exact fun e => hl ((BitVec.eq_of_toNat_eq e).trans hid)
  · rw [hdb]
    cases ho : lsaOf (c.reach r).rtr.lsdb l.origin.toNat with
    | none => simp
    | some o =>
      rw [Bool.not_eq_true', Bool.not_eq_false, ← lsaStands_iff]
      exact hnew o ho

/-- LINK_NOTICE_RX: the manager's database without the link (R272, R279); the change of epoch that follows leaves it. -/
theorem linkNoticeRx_lsdb {r : ReachId} {c : Chip} (now : Time) (node : Word16) (port : PortId) (hs : c.inService r = true)
    (hself : (c.reach r).rtr.self = true) : ((linkNoticeRx r now node port c).reach r).rtr.lsdb = (c.reach r).rtr.lsdb.map (fun l =>
      if l.origin == node then { l with links := l.links.filter (fun e => e.1 != port) } else l) := by
  have hs' : ((c.at r now).takeKeeper r (isKeeper (.linkNotice node port))).inService r = true := by
    simpa [Chip.inService] using hs
  unfold linkNoticeRx; dsimp only
  rw [if_pos (by simp [hs', hself]), (Chip.linkState_eq_iff.1 (Chip.linkState_startEpoch ..)).2.2]
  simp

/-- A new interval of the congestion map clears what the last one counted at a port, and leaves its state (R277). -/
def RtrPort.newInterval (q : RtrPort) : RtrPort := { q with hist := [], marks := 0, drops := 0, txUnpl := 0, txTc6 := 0, backup := 0 }

/-- CMAP_TX_TIMER towards an elected manager (R277). -/
theorem cmapTxTimer_interval {r : ReachId} {c : Chip} (now : Time) (hist : List (List Word16)) (hs : c.inService r = true)
    (hfm : (c.reach r).rtr.elected ≠ 0xFFFF) :
    ((cmapTxTimer r now hist c).reach r).rtr.cmapSeq = (c.reach r).rtr.cmapSeq + 1
      ∧ ((cmapTxTimer r now hist c).reach r).rtr.cmapStart = (cmapTxTimer r now hist c).now r
      ∧ ∀ p, ((cmapTxTimer r now hist c).reach r).port p = ((c.reach r).port p).newInterval := by
  unfold cmapTxTimer; dsimp only
  rw [if_neg (by simpa [hs] using hfm)]
  refine ⟨by simp, by simp [Chip.now], fun p => ?_⟩
  simp only [Reach.port, Chip.reach_onRtr, Chip.sendKeeper_reach, Chip.reach_at_rtr]
  exact Tab.getD_mapVals _ RtrPort.newInterval p.val rfl

/-- CMAP_RX at the manager: a map of a format version that it does not support is dropped and counted (R15). -/
theorem cmapRx_unsupported {r : ReachId} {c : Chip} (now : Time) {m : Cmap} (hs : c.inService r = true)
    (hself : (c.reach r).rtr.self = true) (hf : m.fmt ≠ 1) : cmapRx r now m c =
      ((c.at r now).takeKeeper r (isKeeper (.cmap m))).onRtr r (fun y => { y with unsupported := sat48 (y.unsupported + 1) }) := by
  have hs' : ((c.at r now).takeKeeper r (isKeeper (.cmap m))).inService r = true := by simpa [Chip.inService] using hs
  unfold cmapRx; dsimp only
  rw [if_neg (by simp [hs', hself]), if_pos (by simpa using hf)]

/-- A supported one takes the place of its node's last (R277). -/
theorem cmapRx_kept {r : ReachId} {c : Chip} (now : Time) {m : Cmap} (hs : c.inService r = true)
    (hself : (c.reach r).rtr.self = true) (hf : m.fmt = 1) : cmapRx r now m c =
      ((c.at r now).takeKeeper r (isKeeper (.cmap m))).onRtr r (fun y => { y with fmWork := { y.fmWork with
        maps := (y.fmWork.maps.filter (fun k => k.node != m.node)) ++ [m] } }) := by
  have hs' : ((c.at r now).takeKeeper r (isKeeper (.cmap m))).inService r = true := by simpa [Chip.inService] using hs
  unfold cmapRx; dsimp only
  rw [if_neg (by simp [hs', hself]), if_neg (by simp [hf])]

/-- Settles O36. The LSAs are settled by `lsaRx_keeps_newest`, `lsaRx_drops_older` and what `Chip.linkState` is after a flood, the notice by the
manager's database after it, the maps by a lemma for each command. -/
theorem linkStateIsNewest : Obligations.LinkStateIsNewest := by
  unfold Obligations.LinkStateIsNewest
  intro s r now halive hserv
  refine ⟨fun p l hl hnew => ⟨_, State.run_live _ halive, lsaRx_keeps_newest now p hserv hl hnew⟩,
    fun p l o hl ho hold => (State.run_live _ halive).trans (by rw [lsaRx_drops_older now p hl ho hold]),
    ⟨_, (s.chip.at r now).nextLsa r, State.run_live _ halive, ?flood⟩,
    fun node port hself => ⟨_, State.run_live _ halive, ?notice⟩,
    fun hist hfm => ⟨_, State.run_live _ halive, ?map⟩,
    fun m hself hf => (State.run_live _ halive).trans (by rw [cmapRx_unsupported now hserv hself hf]),
    fun m hself hf => (State.run_live _ halive).trans (by rw [cmapRx_kept now hserv hself hf])⟩
  case flood =>
    have hflood : lsaFloodTimer r now s.chip = (s.chip.at r now).floodOwn r := by simp [lsaFloodTimer, hserv]
    rw [State.put_chip, hflood, Chip.floodOwn_lsaSeq, Chip.floodOwn_lsdb, Chip.nextLsa_links]
    refine ⟨by simp, lsaOf_putLsa_self _ _, by simp, ?_⟩
    rw [Chip.reach_at]
    rfl
  case notice =>
    rw [State.put_chip, linkNoticeRx_lsdb now node port hserv hself]
    constructor
    · intro l hl hnode e he
      obtain ⟨o, -, rfl⟩ := List.mem_map.1 hl
      by_cases ho : o.origin = node
      · simp only [ho, beq_self_eq_true, if_true, List.mem_filter] at he
        simpa using he.2
      · simp [ho] at hnode
    · exact fun l hl hnode => List.mem_map.2 ⟨l, hl, by simp [hnode]⟩
  case map =>
    obtain ⟨hseq, hstart, hport⟩ := cmapTxTimer_interval now hist hserv hfm
    exact ⟨hseq, hstart, fun p => by rw [State.put_chip, hport p]; exact ⟨rfl, rfl, rfl, rfl⟩⟩

end Sys2Proof.Machine
end

section
/-!
Forwarding by the routing tables (R15, R265, R275): what the router does with one frame, which port an unplanned frame leaves by, and the
statement about them.
-/

namespace Sys2Proof.Machine

/-! ### One frame at the router -/

/-- The only frame of the router has no rival: it is taken and goes on. -/
theorem frameForward_single {r : ReachId} {c : Chip} (now : Time) {f : RtrFrame} (h : (c.reach r).rtr.inbox = [f]) :
    frameForward r now c = ((c.at r now).onRtr r (fun y => { y with inbox := [] })).forward r f := by
  simp [frameForward, h]

theorem Chip.forward_unsupported (c : Chip) (r : ReachId) {f : RtrFrame} (h : bodyUnsupported f.body = true) :
    c.forward r f = (c.dropFrame r f).onRtr r (fun y => { y with unsupported := sat48 (y.unsupported + 1) }) := by
  unfold Chip.forward; dsimp only
  rw [if_pos h]

/-- An FRT frame that its port admits goes by the partition table's ingress check (R275). -/
theorem Chip.forward_frt {c : Chip} {r : ReachId} {f : RtrFrame} {q : FrtPacket} (hs : bodyUnsupported f.body = false)
    (ha : (c.reach r).portAdmits f = true) (hb : f.body = .frt q) {k : RouteKey} (hk : routeKey f.body = some k) :
    c.forward r f = if (c.reach r).rtr.partIn true q.pkey.toNat f.ingress = true then c.forwardRouted r f k
      else (c.dropFrame r f).portDrop r f.ingress (fun y => { y with dropIn := y.dropIn + 1 }) := by
  unfold Chip.forward; dsimp only
  rw [if_neg (by simp [hs]), if_neg (by simp [ha])]
  rw [hb] at hk ⊢
  cases hp : (c.reach r).rtr.partIn true q.pkey.toNat f.ingress <;> simp [hk, hp]

theorem Router.partIn_eq_true_iff (x : Router) (isFrt : Bool) (key ingress : Nat) :
    x.partIn isFrt key ingress = true ↔ ∃ e ∈ x.parts, partAdmits e.2 isFrt key ingress = true := by
  simp [Router.partIn]

/-! ### The port of an unplanned frame -/

theorem Reach.lt_of_usable {x : Reach} {p : Nat} (h : x.usable p = true) : p < 7 := by
  unfold Reach.usable at h
  split at h
  next hp => exact hp
  next => cases h

/-- The decision of R265 over an entry: its primary port, else its backup, neither if it is not USABLE or the frame came by it. -/
def Reach.tablePort (x : Reach) (e : Word32) (i : Nat) : RouteTo :=
  let prim := natBits e.toNat 0 4
  let back := natBits e.toNat 4 4
  if !e.getLsbD 8 then .noRoute
  else if x.usable prim && prim != i then
    if h : prim < 7 then .port ⟨prim, h⟩ prim false else .noRoute
  else if back != 15 && x.usable back && back != i then
    if h : back < 7 then .port ⟨back, h⟩ prim true else .noRoute
  else .noRoute

/-- A frame for this node goes to the RME or the keepers. -/
theorem Chip.route_self {c : Chip} {r : ReachId} {k : RouteKey} (i : Nat) (h : k.dst = (c.nodeId r).toNat) :
    (c.route r k i).dest = if k.isFrt = true then .rme else .keepers := by
  unfold Chip.route; dsimp only
  rw [if_pos (by simpa using h)]

/-- An unplanned frame from a port goes by the entry of its destination in the bank of its own epoch, while that bank stands. -/
theorem Chip.route_unplanned {c : Chip} {r : ReachId} {k : RouteKey} {i : Nat} (hdst : k.dst ≠ (c.nodeId r).toNat)
    (hplan : k.isFrt = false ∨ k.tc < 6) (hi : i < 7) (hvia : k.via = 0xFFFF)
    (hst : ((c.reach r).rtr.bank (BitVec.ofNat 1 k.epoch)).state = .active ∨ ((c.reach r).rtr.bank (BitVec.ofNat 1 k.epoch)).state = .draining) :
    (c.route r k i).dest = (c.reach r).tablePort ((c.reach r).rtr.entry (BitVec.ofNat 1 k.epoch) k.dst) i := by
  have hself : (k.dst == (c.nodeId r).toNat) = false := by simpa using hdst
  have hunpl : (k.isFrt && k.tc == 6) = false := by
    rcases hplan with h | h
    · simp [h]
    · simp [Nat.ne_of_lt h]
  have hfirst : (i == 7 || i == 8) = false := by simp; omega
  have hlate : (((c.reach r).rtr.bank (BitVec.ofNat 1 k.epoch)).state == .closed
      || ((c.reach r).rtr.bank (BitVec.ofNat 1 k.epoch)).state == .staged) = false := by
    rcases hst with h | h <;> simp [h]
  unfold Chip.route Reach.tablePort; dsimp only
  simp only [hself, hunpl, hfirst, hlate, hvia, Bool.false_and, Bool.false_eq_true, if_false, ite_self, bne_self_eq_false,
    apply_ite RouteOut.dest, apply_dite RouteOut.dest]

section
variable {x : Reach} {e : Word32} {i : Nat}

theorem Reach.tablePort_primary (hv : e.getLsbD 8 = true) (hu : x.usable (natBits e.toNat 0 4) = true) (hi : natBits e.toNat 0 4 ≠ i) :
    ∃ p : PortId, p.val = natBits e.toNat 0 4 ∧ x.tablePort e i = .port p (natBits e.toNat 0 4) false :=
  ⟨⟨_, Reach.lt_of_usable hu⟩, rfl, by simp [Reach.tablePort, hv, hu, hi, Reach.lt_of_usable hu]⟩

theorem Reach.tablePort_backup (hv : e.getLsbD 8 = true) (hp : x.usable (natBits e.toNat 0 4) = false ∨ natBits e.toNat 0 4 = i)
    (hu : x.usable (natBits e.toNat 4 4) = true) (hi : natBits e.toNat 4 4 ≠ i) :
    ∃ p : PortId, p.val = natBits e.toNat 4 4 ∧ x.tablePort e i = .port p (natBits e.toNat 0 4) true := by
  have hlt := Reach.lt_of_usable hu
  have hprim : (x.usable (natBits e.toNat 0 4) && natBits e.toNat 0 4 != i) = false := by
    rcases hp with hp | hp <;> simp [hp]
  refine ⟨⟨_, hlt⟩, rfl, ?_⟩
  have h15 : natBits e.toNat 4 4 ≠ 15 := by omega
  simp [Reach.tablePort, hv, hprim, hu, hi, hlt, h15]

theorem Reach.tablePort_none (hp : x.usable (natBits e.toNat 0 4) = false ∨ natBits e.toNat 0 4 = i)
    (hb : x.usable (natBits e.toNat 4 4) = false ∨ natBits e.toNat 4 4 = i) : x.tablePort e i = .noRoute := by
  have hprim : (x.usable (natBits e.toNat 0 4) && natBits e.toNat 0 4 != i) = false := by
    rcases hp with hp | hp <;> simp [hp]
  have hback : (natBits e.toNat 4 4 != 15 && x.usable (natBits e.toNat 4 4) && natBits e.toNat 4 4 != i) = false := by
    rcases hb with hb | hb <;> simp [hb]
  simp [Reach.tablePort, hprim, hback]

end

/-- Settles O34: the frame's way through the checks, then the port by `Reach.tablePort`. -/
theorem framesFollowTheTables : Obligations.FramesFollowTheTables := by
  unfold Obligations.FramesFollowTheTables
  refine ⟨fun s r now f halive hin => (State.run_live _ halive).trans (by rw [frameForward_single now hin]), fun c r f =>
    ⟨c.forward_unsupported r, fun hs ha q hb => ⟨fun hno => ?barred, fun e he hyes k hk => ?admitted⟩⟩, fun c r k i =>
    ⟨Chip.route_self i, fun hdst hplan hi hvia => ?port⟩⟩
  case barred =>
    have hin : ¬ (c.reach r).rtr.partIn true q.pkey.toNat f.ingress = true := by
      rw [Router.partIn_eq_true_iff]
      rintro ⟨e, he, hyes⟩
      simp [hno e he] at hyes
    obtain ⟨k, hk⟩ : ∃ k, routeKey f.body = some k := ⟨_, by rw [hb]; rfl⟩
    rw [Chip.forward_frt hs ha hb hk, if_neg hin]
  case admitted =>
    rw [Chip.forward_frt hs ha hb hk, if_pos ((Router.partIn_eq_true_iff ..).2 ⟨e, he, hyes⟩)]
  case port =>
    intro b prim back hst
    rw [Chip.route_unplanned hdst hplan hi hvia hst]
    exact ⟨Reach.tablePort_primary, Reach.tablePort_backup, Reach.tablePort_none⟩

end Sys2Proof.Machine
end

section
/-!
Patrol reads and the transposition's poll (R159, R162, R163, R169): what each report, repair request and count leaves of a reach's memory, what a
patrol read comes to, and the statement about them.
-/

namespace Sys2Proof.Machine

/-! ### Uncorrectable lines -/

/-- Outside the scratchpads whether a range reads as uncorrectable hangs on the list of lines alone. -/
theorem Reach.hasUe_congr {x y : Reach} {pa : Nat} (n : Nat) (hpa : pa < spadWindow) (h : x.mem.ue = y.mem.ue) : x.hasUe pa n = y.hasUe pa n := by
  simp [Reach.hasUe, Nat.not_le.2 hpa, h]

/-- A listed line reads as uncorrectable. -/
theorem Reach.hasUe_line {x : Reach} {i : Nat} (hi : 64 * i < spadWindow) (h : i ∈ x.mem.ue) : x.hasUe (64 * i) 64 = true := by
  rw [Reach.hasUe, if_neg (by decide), if_neg (Nat.not_le.2 hi), List.any_eq_true]
  exact ⟨i, h, by simp; omega⟩

@[simp] theorem Chip.addUe_reach (c : Chip) (r : ReachId) (l : List Nat) : (c.addUe r l).reach r =
    { c.reach r with mem := { (c.reach r).mem with ue := (c.reach r).mem.ue ++ l.filter (fun i => !(c.reach r).mem.ue.contains i) } } := by
  simp [Chip.addUe]

theorem Chip.mem_addUe (c : Chip) (r : ReachId) {l : List Nat} {i : Nat} (hi : i ∈ l) : i ∈ ((c.addUe r l).reach r).mem.ue := by
  by_cases h : i ∈ (c.reach r).mem.ue <;> simp [h, hi]

/-! ### What a report leaves of the memory -/

@[simp] theorem Chip.event_mem (c : Chip) (r q : ReachId) (owner : FnId) (alsoPf : Bool) (code : Nat) (body : List Byte) (handle : Word64) :
    ((c.event r owner alsoPf code body handle).reach q).mem = (c.reach q).mem :=
  Chip.apart_mem (c.event_apart r owner alsoPf code body handle) q

@[simp] theorem Chip.log_reach (c : Chip) (q : ReachId) (kind : Nat) (w : Who) (result : Nat) (detail : List Byte) :
    (c.log kind w result detail).reach q = c.reach q := by
  unfold Chip.log; dsimp only
  split
  · rfl
  · rw [apply_ite (fun d : Chip => d.reach q)]
    exact ite_self (c.reach q)

/-- A memory error record takes the next number; the rest of the memory is as it was (R161). -/
@[simp] theorem Chip.memRecord_mem (c : Chip) (r : ReachId) (cls pa bit : Nat) (handle : Word64) :
    ((c.memRecord r cls pa bit handle).reach r).mem = { (c.reach r).mem with errSeq := (c.reach r).mem.errSeq + 1 } := by
  simp [Chip.memRecord]

/-- A repair request changes the table of requests alone (R164). -/
theorem Chip.repairRecord_mem (c : Chip) (r : ReachId) (row : MemRow) (cause : Nat) :
    ∃ l, ((c.repairRecord r row cause).reach r).mem = { (c.reach r).mem with repair := l } := by
  unfold Chip.repairRecord; dsimp only
  split
  · exact ⟨(c.reach r).mem.repair, rfl⟩
  · exact ⟨_, by rw [Chip.reach_onReach, Chip.log_reach]⟩

/-- An uncorrectable error takes one record and at most one repair request; the line stays as it is (R159). -/
theorem Chip.memUe_mem (c : Chip) (r : ReachId) (cls pa : Nat) (handle : Word64) :
    ∃ l, ((c.memUe r cls pa handle).reach r).mem = { (c.reach r).mem with errSeq := (c.reach r).mem.errSeq + 1, repair := l } := by
  unfold Chip.memUe; dsimp only
  split
  · exact ⟨(c.reach r).mem.repair, Chip.memRecord_mem ..⟩
  split
  · exact ⟨(c.reach r).mem.repair, by simp⟩
  · obtain ⟨l, hl⟩ := ((c.memRecord r cls pa 0xFFFF handle).onReach r (fun y => y.gaugeAdd 9 (memPlace pa).gauge 3 1)).repairRecord_mem r
      (if cls = 3 then checkPlace (checkLine pa) else memPlace pa).row 1
    exact ⟨l, by simpa using hl⟩

/-- Lines found bad are known bad from then on with one record; no byte has changed. -/
theorem Chip.addUe_memUe_mem (c : Chip) (r : ReachId) (l : List Nat) (cls pa : Nat) (handle : Word64) :
    let e := (c.addUe r l).memUe r cls pa handle
    (e.reach r).mem.bytes = (c.reach r).mem.bytes ∧ (e.reach r).mem.errSeq = (c.reach r).mem.errSeq + 1
      ∧ ∀ i ∈ l, 64 * i < spadWindow → (e.reach r).hasUe (64 * i) 64 = true := by
  obtain ⟨k, hk⟩ := (c.addUe r l).memUe_mem r cls pa handle
  refine ⟨by simp [hk], by simp [hk], fun i hi hpa => Reach.hasUe_line hpa ?_⟩
  rw [hk]
  exact c.mem_addUe r hi

theorem Chip.memParity_mem (c : Chip) (r : ReachId) (pa : Nat) (handle : Word64) :
    ((c.memParity r pa handle).reach r).mem.bytes = (c.reach r).mem.bytes
      ∧ ((c.memParity r pa handle).reach r).mem.errSeq = (c.reach r).mem.errSeq + 1 := by
  obtain ⟨k, hk⟩ := c.memUe_mem r 4 pa handle
  simp [Chip.memParity, hk]

/-! ### The pass of a tier -/

theorem MemState.latePass_if (m : MemState) (b : Bool) (n : Nat) :
    (if b = true then { m with latePass := n } else m) = { m with latePass := if b = true then n else m.latePass } := by
  cases b <;> rfl

/-- The pass of HBM3E moves on by one line, the last followed by the first (R162). -/
theorem Reach.patrolNext_hbm_mem (x : Reach) : ∃ start late, (x.patrolNext false).mem = { x.mem with
    hbmPos := if hbmLines ≤ x.mem.hbmPos + 1 then 0 else x.mem.hbmPos + 1, hbmStart := start, latePass := late } := by
  refine ⟨(x.patrolNext false).mem.hbmStart, (x.patrolNext false).mem.latePass, ?_⟩
  simp only [Reach.patrolNext, MemState.latePass_if, Bool.false_eq_true, if_false, decide_eq_true_eq]

/-- So does that of LPDDR5X with its check lines. -/
theorem Reach.patrolNext_lp_mem (x : Reach) : ∃ start late, (x.patrolNext true).mem = { x.mem with
    lpPos := if lpLines ≤ x.mem.lpPos + 1 then 0 else x.mem.lpPos + 1, lpStart := start, latePass := late } := by
  refine ⟨(x.patrolNext true).mem.lpStart, (x.patrolNext true).mem.latePass, ?_⟩
  simp only [Reach.patrolNext, MemState.latePass_if, if_true, decide_eq_true_eq]

/-- Counting accesses changes no more of the memory than the check lines that controllers hold (R158). -/
theorem Reach.countLines_mem (x : Reach) (pa n : Nat) (write : Bool) : ∃ l, (x.countLines pa n write).mem = { x.mem with checks := l } := by
  have touch : ∀ (m : MemState) (k : Nat), ∃ l, m.touchCheck k = { m with checks := l } := by
    intro m k
    unfold MemState.touchCheck; dsimp only
    split
    · exact ⟨m.checks, rfl⟩
    split <;> exact ⟨_, rfl⟩
  unfold Reach.countLines
  split
  · exact ⟨x.mem.checks, rfl⟩
  refine List.foldlRecOn (motive := fun y : Reach => ∃ l, y.mem = { x.mem with checks := l }) _ _ ⟨x.mem.checks, rfl⟩ ?_
  rintro y ⟨l, hy⟩ i -
  dsimp only
  split
  · exact (touch _ _).imp fun k hk => hk.trans (by simp only [Reach.gaugeAdd_mem, hy])
  · exact ⟨l, by simpa using hy⟩

/-- The reach as the pass leaves it: bytes, known bad lines and record number stay. -/
theorem Reach.patrolNext_keeps (x : Reach) (lp : Bool) : (x.patrolNext lp).mem.bytes = x.mem.bytes ∧ (x.patrolNext lp).mem.ue = x.mem.ue
    ∧ (x.patrolNext lp).mem.errSeq = x.mem.errSeq := by
  cases lp with
  | false =>
    obtain ⟨start, late, h⟩ := x.patrolNext_hbm_mem
    simp [h]
  | true =>
    obtain ⟨start, late, h⟩ := x.patrolNext_lp_mem
    simp [h]

/-! ### What a read finds -/

theorem Chip.readFinds_bad (c : Chip) (r : ReachId) {pa : Nat} (h : pa < spadWindow) :
    c.readFinds r true pa .bad = ((c.addUe r [pa / 64]).memUe r 2 pa 0, true) := by
  simp [Chip.readFinds, Nat.not_le.2 h]

theorem Chip.readFinds_badCheckLine (c : Chip) (r : ReachId) {pa : Nat} (patrol : Bool) (h : inLp pa = true) :
    c.readFinds r patrol pa .badCheckLine = ((c.addUe r (coveredLines (checkLine pa))).memUe r 3 pa 0, true) := by
  simp [Chip.readFinds, h]

theorem Chip.readFinds_parity (c : Chip) (r : ReachId) {pa : Nat} (patrol : Bool) (h : pa < hbmEnd) :
    c.readFinds r patrol pa .parity = (c.memParity r pa 0, true) := by
  simp [Chip.readFinds, h]

/-- The address of the next line of a tier's pass, where it is a line of data. -/
def MemState.patrolAddr (m : MemState) (lp : Bool) : Nat := if lp = true then lpBase + 64 * m.lpPos else 64 * m.hbmPos

theorem MemState.patrolAddr_hbm {m : MemState} (h : m.hbmPos < hbmLines) : m.patrolAddr false < hbmEnd := by
  simp only [MemState.patrolAddr, hbmLines, hbmEnd, Bool.false_eq_true, if_false] at h ⊢
  omega

theorem MemState.patrolAddr_lp {m : MemState} (h : m.lpPos < lpData) : inLp (m.patrolAddr true) = true := by
  simp only [MemState.patrolAddr, inLp, if_true, Bool.and_eq_true, decide_eq_true_eq]
  simp only [lpData, lpEnd, lpBase] at h ⊢
  omega

theorem lt_spadWindow_of_inLp {pa : Nat} (h : inLp pa = true) : pa < spadWindow := by
  simp only [inLp, Bool.and_eq_true, decide_eq_true_eq] at h
  exact Nat.lt_trans h.2 (by decide)

theorem MemState.patrolAddr_lt {m : MemState} {lp : Bool} (h : if lp = true then m.lpPos < lpData else m.hbmPos < hbmLines) :
    m.patrolAddr lp < spadWindow := by
  cases lp with
  | false => exact Nat.lt_trans (MemState.patrolAddr_hbm (by simpa using h)) (by decide)
  | true => exact lt_spadWindow_of_inLp (MemState.patrolAddr_lp (by simpa using h))

/-- The `k`-th check line of the pass covers the `k`-th 2 KiB of LPDDR5X. -/
theorem inLp_checked {k : Nat} (h : lpData + k < lpLines) : inLp (lpBase + 2048 * k) = true ∧ checkLine (lpBase + 2048 * k) = k := by
  simp only [inLp, checkLine, Bool.and_eq_true, decide_eq_true_eq]
  simp only [lpLines, lpData, lpEnd, lpBase] at h ⊢
  omega

/-! ### A patrol read -/

/-- The module as the pass leaves it for what the read of a data line finds. -/
def Chip.patrolled (c : Chip) (r : ReachId) (lp : Bool) (pa : Nat) : Chip :=
  c.onReach r (fun x => (x.patrolNext lp).countLines pa 64 false)

/-- The pass and its count leave every byte, every known bad line and the number of records. -/
theorem Chip.patrolled_keeps (c : Chip) (r : ReachId) (lp : Bool) (pa : Nat) :
    ((c.patrolled r lp pa).reach r).mem.bytes = (c.reach r).mem.bytes ∧ ((c.patrolled r lp pa).reach r).mem.ue = (c.reach r).mem.ue
      ∧ ((c.patrolled r lp pa).reach r).mem.errSeq = (c.reach r).mem.errSeq := by
  obtain ⟨l, hl⟩ := ((c.reach r).patrolNext lp).countLines_mem pa 64 false
  simp [Chip.patrolled, hl, (c.reach r).patrolNext_keeps lp]

theorem Chip.patrolled_hbm_pos (c : Chip) (r : ReachId) (pa : Nat) : ((c.patrolled r false pa).reach r).mem.hbmPos =
      (if hbmLines ≤ (c.reach r).mem.hbmPos + 1 then 0 else (c.reach r).mem.hbmPos + 1)
    ∧ ((c.patrolled r false pa).reach r).mem.lpPos = (c.reach r).mem.lpPos := by
  obtain ⟨l, hl⟩ := ((c.reach r).patrolNext false).countLines_mem pa 64 false
  obtain ⟨start, late, h⟩ := (c.reach r).patrolNext_hbm_mem
  simp [Chip.patrolled, hl, h]

theorem Chip.patrolled_lp_pos (c : Chip) (r : ReachId) (pa : Nat) : ((c.patrolled r true pa).reach r).mem.lpPos =
      (if lpLines ≤ (c.reach r).mem.lpPos + 1 then 0 else (c.reach r).mem.lpPos + 1)
    ∧ ((c.patrolled r true pa).reach r).mem.hbmPos = (c.reach r).mem.hbmPos := by
  obtain ⟨l, hl⟩ := ((c.reach r).patrolNext true).countLines_mem pa 64 false
  obtain ⟨start, late, h⟩ := (c.reach r).patrolNext_lp_mem
  simp [Chip.patrolled, hl, h]

section
variable {r : ReachId} {c : Chip} (now : Time) {lp : Bool} (hs : c.inService r = true)
  (hf : flag (c.reach r).mem.dredge (if lp = true then 1 else 0) = true)
include hs hf

/-- A patrol read of a data line: a known bad line is found so again, of another what the read finds is handled. -/
theorem dredgeRead_data (f : DredgeFind) (hpos : if lp = true then (c.reach r).mem.lpPos < lpData else (c.reach r).mem.hbmPos < hbmLines) :
    dredgeRead r now lp f c =
      if (c.reach r).hasUe ((c.reach r).mem.patrolAddr lp) 64 = true then
        ((c.at r now).patrolled r lp ((c.reach r).mem.patrolAddr lp)).memUe r 2 ((c.reach r).mem.patrolAddr lp) 0
      else (((c.at r now).patrolled r lp ((c.reach r).mem.patrolAddr lp)).readFinds r true ((c.reach r).mem.patrolAddr lp) f).1 := by
  have hdata : (lp && decide (lpData ≤ (c.reach r).mem.lpPos)) = false := by
    cases lp with
    | false => rfl
    | true => simpa using hpos
  have hue : (((c.at r now).patrolled r lp ((c.reach r).mem.patrolAddr lp)).reach r).hasUe ((c.reach r).mem.patrolAddr lp) 64
      = (c.reach r).hasUe ((c.reach r).mem.patrolAddr lp) 64 :=
    Reach.hasUe_congr 64 (MemState.patrolAddr_lt hpos) (by simp [(Chip.patrolled_keeps (c.at r now) r lp _).2.1])
  rw [← hue]
  unfold dredgeRead; dsimp only
  rw [if_neg (by simp [hs, hf]), if_neg (by simp [hdata])]
  simp only [Chip.reach_at_mem]
  rfl

/-- A patrol read of a check line: only a bad one is handled. -/
theorem dredgeRead_check (f : DredgeFind) (hlp : lp = true) (hpos : lpData ≤ (c.reach r).mem.lpPos) :
    dredgeRead r now lp f c = if f = .badCheckLine ∨ f = .bad then
        (((c.at r now).onReach r (fun x => x.patrolNext lp)).readFinds r true (lpBase + 2048 * ((c.reach r).mem.lpPos - lpData)) .badCheckLine).1
      else (c.at r now).onReach r (fun x => x.patrolNext lp) := by
  unfold dredgeRead; dsimp only
  rw [if_neg (by simp [hs, hf]), if_pos (by simp [hlp, hpos])]
  simp only [Chip.reach_at_mem]

end

/-! ### The transposition's poll -/

section
variable {c : Chip} {r : ReachId} {f : XposFlight} {j : XposJob} (hj : (c.reach r).xposJob f = some j) (hrows : j.rect.rows ≠ 0)
  (hcols : j.rect.cols ≠ 0) (hdone : (c.reach r).mem.xposDone.any (fun g => g.same f) = false) (hrun : j.plan.st = .running)
include hj hrows hcols hdone hrun

/-- An intersection of a running plan that has cells and has not been started: its source's signal word, then the place of its destination and
the flights in hand say whether it starts (R169). -/
theorem Chip.xposStart_pending : c.xposStart r f =
    if ((c.reach r).tile (j.src.sigTile % 64)).signal j.src.sigAddr < j.src.thresh then (c, false)
    else
      let done := c.onReach r (fun x => { x with mem := { x.mem with xposDone := x.mem.xposDone ++ [f] } })
      if j.plan.con.peers.getD j.dst.peer 0xFFFF = c.nodeId r then (done.xposLocal r f j, true)
      else if 8 ≤ (c.reach r).mem.xposFlight.length then (c, false)
      else (Chip.xposPump r 8192 (done.onReach r (fun x => { x with mem := { x.mem with xposFlight := x.mem.xposFlight ++ [f] } })) f, true) := by
  unfold Chip.xposStart
  rw [hj]; dsimp only
  rw [if_neg (by simp [hrows, hcols, hdone]), if_neg (by simp [hrun])]
  simp only [beq_iff_eq]

end

/-- Settles O23. The reads by `dredgeRead_data` and `dredgeRead_check`, what they leave by `Chip.patrolled_keeps` and `Chip.addUe_memUe_mem`, the
poll by `Chip.xposStart_pending`. -/
theorem patrolReadsAndTransposition : Obligations.PatrolReadsAndTransposition := by
  unfold Obligations.PatrolReadsAndTransposition
  refine ⟨fun s r now lp halive hserv hdredge => ?patrol, fun s r now halive hserv => ?poll, fun c r f j hj hrows hcols hdone hrun => ?start⟩
  case patrol =>
    intro m pa c d bad
    have run : ∀ f, exec (.dredgeRead r now lp f) s = .next (s.put ((dredgeRead r now lp f s.chip).parityReset r)) :=
      fun f => State.run_live (fun c => (dredgeRead r now lp f c).parityReset r) halive
    have known : ∀ (e : Chip) (l : List Nat) cls a, (e.reach r).mem.bytes = m.bytes → (e.reach r).mem.errSeq = m.errSeq →
        bad ((e.addUe r l).memUe r cls a 0) l := by
      intro e l cls a hbytes hseq
      obtain ⟨hb, hn, hu⟩ := e.addUe_memUe_mem r l cls a 0
      exact ⟨hb.trans hbytes, hn.trans (by rw [hseq]), hu⟩
    obtain ⟨hbytes, hue, hseq⟩ : (d.reach r).mem.bytes = m.bytes ∧ (d.reach r).mem.ue = m.ue ∧ (d.reach r).mem.errSeq = m.errSeq := by
      have keeps := (s.chip.at r now).patrolled_keeps r lp pa
      rwa [Chip.reach_at_mem] at keeps
    refine ⟨?hbm, ?lp, fun hpos => ?data, fun hlp hcheck hpos => ?check⟩
    case hbm =>
      intro hlp
      subst hlp
      have moves := (s.chip.at r now).patrolled_hbm_pos r pa
      rwa [Chip.reach_at_mem] at moves
    case lp =>
      intro hlp
      subst hlp
      have moves := (s.chip.at r now).patrolled_lp_pos r pa
      rwa [Chip.reach_at_mem] at moves
    case data =>
      have hpa : pa < spadWindow := MemState.patrolAddr_lt hpos
      have found : ∀ f, exec (.dredgeRead r now lp f) s = .next (s.put ((if (s.chip.reach r).hasUe pa 64 = true then d.memUe r 2 pa 0
          else (d.readFinds r true pa f).1).parityReset r)) := fun f => (run f).trans (by rw [dredgeRead_data now hserv hdredge f hpos]; rfl)
      refine ⟨fun hbad f => by rw [found, if_pos hbad], fun hgood => ?_⟩
      have finds : ∀ f e b, d.readFinds r true pa f = (e, b) → exec (.dredgeRead r now lp f) s = .next (s.put (e.parityReset r)) :=
        fun f e b h => by rw [found, if_neg (by simp [hgood]), h]
      refine ⟨finds _ d false rfl, hbytes, hue, fun bit => finds _ _ false rfl,
        ⟨finds _ _ _ (d.readFinds_bad r hpa), known d _ 2 pa hbytes hseq⟩, fun hlp => ?checkLine, fun hlp => ?parity⟩
      case checkLine =>
        have hin : inLp pa = true := by
          subst hlp
          exact MemState.patrolAddr_lp hpos
        exact ⟨finds _ _ _ (d.readFinds_badCheckLine r true hin), known d _ 3 pa hbytes hseq⟩
      case parity =>
        have hhbm : pa < hbmEnd := by
          subst hlp
          exact MemState.patrolAddr_hbm hpos
        obtain ⟨hb, hn⟩ := d.memParity_mem r pa 0
        exact ⟨finds _ _ _ (d.readFinds_parity r true hhbm), hb.trans hbytes, hn.trans (by rw [hseq]), by simp⟩
    case check =>
      intro k e
      obtain ⟨hin, hk⟩ := inLp_checked (k := k) (by omega)
      have hkeeps : (e.reach r).mem.bytes = m.bytes ∧ (e.reach r).mem.errSeq = m.errSeq := by
        obtain ⟨hb, -, hn⟩ := ((s.chip.at r now).reach r).patrolNext_keeps lp
        rw [Chip.reach_at_mem] at hb hn
        rw [show e.reach r = ((s.chip.at r now).reach r).patrolNext lp from Chip.reach_onReach ..]
        exact ⟨hb, hn⟩
      have found : ∀ f, exec (.dredgeRead r now lp f) s = .next (s.put ((if f = .badCheckLine ∨ f = .bad then
          (e.readFinds r true (lpBase + 2048 * k) .badCheckLine).1 else e).parityReset r)) :=
        fun f => (run f).trans (by rw [dredgeRead_check now hserv hdredge f hlp hcheck])
      refine ⟨by rw [found, if_neg (by decide)], ?_, known e _ 3 _ hkeeps.1 hkeeps.2⟩
      rw [found, if_pos (.inl rfl), e.readFinds_badCheckLine r true hin, hk]
  case poll =>
    exact (State.runSettle_live (xposSignalPoll r now) halive).trans
      (congrArg (fun d : Chip => Host.Outcome.next (s.put d.settle)) (if_neg (by simp [hserv])))
  case start =>
    rw [Chip.xposStart_pending hj hrows hcols hdone hrun]
    refine ⟨fun hwait => if_pos hwait, fun hready hlocal => ?_, fun hready hfar hfull => ?_⟩
    · rw [if_neg (Nat.not_lt.2 hready)]
      exact if_pos hlocal
    · rw [if_neg (Nat.not_lt.2 hready)]
      exact (if_neg hfar).trans (if_pos hfull)

end Sys2Proof.Machine
end

section
/-!
SUPPORT. How a sequencer's step starts, and what its reports, a stoppage and a failure leave of the tiles of its reach.
-/

namespace Sys2Proof.Machine

/-! ### What a report leaves of the tiles -/

theorem Chip.apart_tile {c d : Chip} (h : c.apart = d.apart) (r : ReachId) (t : Nat) : (c.reach r).tile t = (d.reach r).tile t :=
  congrArg (fun l => Tab.getD l t Tile.reset) (Chip.apart_tiles h r)

@[simp] theorem Chip.stepTrace_apart (c : Chip) (r : ReachId) (t i cls : Nat) (ends : Bool) (v : Nat) :
    (c.stepTrace r t i cls ends v).apart = c.apart := by
  unfold Chip.stepTrace; dsimp only; split <;> simp

@[simp] theorem Chip.stopTdc_apart (c : Chip) (r : ReachId) (cause : StopCause) (i : StopInfo) (p : PlanInst) :
    (c.stopTdc r cause i p).apart = c.apart := by
  cases cause <;> simp [Chip.stopTdc]

/-! ### The start of a step (R125) -/

/-- The gauges of a step's start (R71, R466). -/
def Reach.startGauges (x : Reach) (t late hold : Nat) : Reach :=
  let x := (x.gaugeAdd 1 t 0 1).gaugeAdd 1 t 3 hold
  if late = 0 then x else x.lateStart t late

/-- They leave time, memory and tiles. -/
theorem Reach.startGauges_keeps (x : Reach) (t late hold : Nat) : (x.startGauges t late hold).time = x.time
    ∧ (x.startGauges t late hold).mem = x.mem ∧ (x.startGauges t late hold).tiles = x.tiles := by
  unfold Reach.startGauges; dsimp only
  split <;> simp [Reach.lateStart]

section

variable {c : Chip} {r : ReachId} {t : Nat} {p : PlanInst} {i : Nat} {w : StepWords}

/-- A ready step that the command picks starts: what follows is its effect on the module that the start leaves. -/
theorem Chip.startStep_ready (h : c.stepReady r t p i w) (hold : Word32) {pick : StepWords → Bool} (hpick : pick w = true)
    (k : PlanInst → Nat → StepWords → Chip → Chip) : c.startStep r t hold.toNat pick k = k p i w (c.started r t p i w hold) := by
  obtain ⟨hplan, hnext, hmay, hlate⟩ := h
  unfold Chip.startStep Chip.started
  rw [hplan, hnext]; dsimp only
  rw [if_neg (by simp [hpick, hmay])]
  cases hl : c.lateness r t p i w with
  | none => rfl
  | some e => exact if_neg (Int.not_lt.2 (hlate e.1 e.2 hl))

/-- The sequencer of a tile whose step is ready does not wait. -/
theorem Chip.waiting_of_stepReady (h : c.stepReady r t p i w) : ((c.reach r).tile t).waiting = none := by
  obtain ⟨-, -, hmay, -⟩ := h
  have hwait : ((c.reach r).tile t).wait = none := by
    simp only [Chip.mayStart, Bool.and_eq_true, Option.isNone_iff_eq_none] at hmay
    obtain ⟨⟨⟨⟨⟨⟨-, hwait⟩, -⟩, -⟩, -⟩, -⟩, -⟩ := hmay
    exact hwait
  simp [Tile.waiting, hwait]

/-- All that a start changes, but for reports, are gauges and that the tile is RUNNING. -/
theorem Chip.started_apart (hold : Word32) : ∃ late, (c.started r t p i w hold).apart =
    (c.onReach r (fun x => (x.startGauges t late hold.toNat).onTile t (fun y => { y with seqState := 3 }))).apart :=
  ⟨_, Chip.stepTrace_apart ..⟩

@[simp] theorem Chip.started_now (hold : Word32) : (c.started r t p i w hold).now r = c.now r := by
  obtain ⟨late, h⟩ := Chip.started_apart (c := c) (r := r) (t := t) (p := p) (i := i) (w := w) hold
  obtain ⟨htime, -, -⟩ := (c.reach r).startGauges_keeps t late hold.toNat
  rw [Chip.now, Chip.apart_time h r, Chip.reach_onReach, Reach.onTile_time, htime, Chip.now]

@[simp] theorem Chip.started_mem (hold : Word32) : ((c.started r t p i w hold).reach r).mem = (c.reach r).mem := by
  obtain ⟨late, h⟩ := Chip.started_apart (c := c) (r := r) (t := t) (p := p) (i := i) (w := w) hold
  obtain ⟨-, hmem, -⟩ := (c.reach r).startGauges_keeps t late hold.toNat
  rw [Chip.apart_mem h r, Chip.reach_onReach, Reach.onTile_mem, hmem]

/-- The tile whose step starts is RUNNING, and nothing else of it changes. -/
@[simp] theorem Chip.started_tile (hold : Word32) :
    ((c.started r t p i w hold).reach r).tile t = { (c.reach r).tile t with seqState := 3 } := by
  obtain ⟨late, h⟩ := Chip.started_apart (c := c) (r := r) (t := t) (p := p) (i := i) (w := w) hold
  obtain ⟨-, -, htiles⟩ := (c.reach r).startGauges_keeps t late hold.toNat
  rw [Chip.apart_tile h r t, Chip.reach_onReach, Reach.tile_onTile, Reach.tile, htiles, Reach.tile]

theorem Chip.started_tile_ne (hold : Word32) {q : Nat} (hq : q ≠ t) :
    ((c.started r t p i w hold).reach r).tile q = (c.reach r).tile q := by
  obtain ⟨late, h⟩ := Chip.started_apart (c := c) (r := r) (t := t) (p := p) (i := i) (w := w) hold
  obtain ⟨-, -, htiles⟩ := (c.reach r).startGauges_keeps t late hold.toNat
  rw [Chip.apart_tile h r q, Chip.reach_onReach, Reach.tile_onTile_ne _ _ hq, Reach.tile, htiles, Reach.tile]

end

/-! ### Stoppages and failures (R72, R127) -/

/-- A stoppage of a plan freezes the plan's tiles and leaves the others. -/
theorem Chip.declareStop_tile (c : Chip) (r : ReachId) (cause : StopCause) (i : StopInfo) (tell : Bool) (p : PlanInst) (t : Nat) :
    ((c.declareStop r cause i tell p).reach r).tile t =
      if ((c.reach r).tile t).plan == some p.con.hdr.planId then ((c.reach r).tile t).freeze else (c.reach r).tile t := by
  have hsent : ∀ (l : List Word16) (b : KeeperBody) (d : Chip),
      ((forEach l d (fun e n => e.sendKeeper r n b)).reach r).tile t = (d.reach r).tile t :=
    fun l b d => forEach_keeps (fun e : Chip => (e.reach r).tile t) (fun e n => by simp [Reach.tile]) l d
  have hfrozen : ∀ x : Reach, (x.onPlanTiles p.con.hdr.planId Tile.freeze).tile t =
      if (x.tile t).plan == some p.con.hdr.planId then (x.tile t).freeze else x.tile t :=
    fun x => Tab.getD_mapVals x.tiles (fun y => if y.plan == some p.con.hdr.planId then y.freeze else y) t rfl
  have hplans : ∀ (x : Reach) sel f, (x.mapPlans sel f).tile t = x.tile t := fun _ _ _ => rfl
  unfold Chip.declareStop; dsimp only
  rw [Chip.apart_tile (Chip.fire_apart ..) r t, Chip.apart_tile (Chip.event_apart ..) r t]
  cases tell with
  | false => simp [hfrozen, hplans]
  | true => simp [hsent, Chip.apart_tile (Chip.stopTdc_apart ..) r t, hfrozen, hplans]

/-- A tile that has FAILED is beyond a stoppage's reach. -/
@[simp] theorem Tile.freeze_failed (t : Tile) (i code : Nat) (started : Bool) : (t.failed i code started).freeze = t.failed i code started :=
  if_pos rfl

/-- A failing step leaves its tile FAILED, whether its plan runs and so enters a stoppage or not. -/
theorem Chip.tileFail_tile (c : Chip) (r : ReachId) (t i code : Nat) (cause : StopCause) (coll : Nat) (started : Bool) :
    ((c.tileFail r t i code cause coll started).reach r).tile t = ((c.reach r).tile t).failed i code started := by
  have hfailed : ((c.onTile r t (fun y => y.failed i code started)).reach r).tile t = ((c.reach r).tile t).failed i code started := by
    simp [Chip.onTile]
  unfold Chip.tileFail; dsimp only
  split
  · split
    · rw [Chip.declareStop_tile, hfailed, Tile.freeze_failed, ite_self]
    · exact hfailed
  · exact hfailed

end Sys2Proof.Machine
end

section
/-!
PROOF. Waits of the sequencer (R127 to R129): each branch of the wait commands, and O20.
-/

namespace Sys2Proof.Machine

/-! ### The comparison of a WAIT_SIGNAL step -/

section

variable {c : Chip} {r : ReachId} {t : Nat} (i : Nat) {w : StepWords} (cycles : Nat)

/-- A word without an uncorrectable error decides by THRESH. -/
theorem Chip.compareSignal_good (h : ((c.reach r).tile t).spadErr [(fld (w.op 0) 0 23, 8)] = none) : c.compareSignal r t i w cycles =
    if (w.op 1).toNat ≤ ((c.reach r).tile t).signal (fld (w.op 0) 0 23) then some (c.doneStep r t i 7 cycles) else none := by
  simp only [Chip.compareSignal, h]

/-- A word with an uncorrectable error fails the step with SEQ_SPAD_UE. -/
theorem Chip.compareSignal_bad {l : Nat} (h : ((c.reach r).tile t).spadErr [(fld (w.op 0) 0 23, 8)] = some l) :
    c.compareSignal r t i w cycles = some ((c.memUe r 5 (spadWindow + t * 0x800000 + 64 * l) 0).waitFail r t i 0x50) := by
  simp only [Chip.compareSignal, h]

end

/-! ### The commands of waits -/

section

variable {c : Chip} {r : ReachId} {now : Time} {t : TileId} {p : PlanInst} {i : Nat} {w : StepWords} {k : SeqWait}

/-- The module after the lateness gauges of a WAIT_TIME step that completes at once. -/
def Chip.waitLate (c : Chip) (r : ReachId) (t late : Nat) : Chip :=
  c.onReach r (fun x => if late = 0 then x else (x.gaugeAdd 1 t 6 late).gaugeMax 1 t 7 late)

/-- Counting lateness leaves time, memory and tiles. -/
theorem Chip.waitLate_keeps (c : Chip) (r : ReachId) (t late : Nat) : (c.waitLate r t late).now r = c.now r
    ∧ ((c.waitLate r t late).reach r).mem = (c.reach r).mem ∧ ∀ q, ((c.waitLate r t late).reach r).tile q = (c.reach r).tile q := by
  simp only [Chip.waitLate, Chip.now, Chip.reach_onReach]
  split <;> exact ⟨rfl, rfl, fun q => rfl⟩

theorem waitTimeStep_due (h : (c.at r now).stepReady r t.val p i w) (hw : isStep 6 0 w = true) (hold cycles : Word32)
    (hdue : notBefore ((((c.at r now).reach r).tile t.val).roundStart + w.op 0) ((c.at r now).now r) = true) :
    ∃ late, waitTimeStep r now t hold cycles c =
      (((c.at r now).started r t.val p i w hold).waitLate r t.val late).doneStep r t.val i 6 cycles.toNat := by
  unfold waitTimeStep
  rw [Chip.startStep_ready h hold hw]; dsimp only
  rw [Chip.started_tile, Chip.started_now, if_pos hdue]
  exact ⟨_, rfl⟩

theorem waitTimeStep_waits (h : (c.at r now).stepReady r t.val p i w) (hw : isStep 6 0 w = true) (hold cycles : Word32)
    (hdue : notBefore ((((c.at r now).reach r).tile t.val).roundStart + w.op 0) ((c.at r now).now r) = false) :
    waitTimeStep r now t hold cycles c = ((c.at r now).started r t.val p i w hold).waitFor r t.val i
      ((((c.at r now).reach r).tile t.val).roundStart + w.op 0) 1 := by
  unfold waitTimeStep
  rw [Chip.startStep_ready h hold hw]; dsimp only
  rw [Chip.started_tile, Chip.started_now, if_neg (by simp [hdue])]

theorem waitTimeExpiry_due (h : (((c.at r now).reach r).tile t.val).waiting = some (k, w)) (hw : isStep 6 0 w = true) (cycles : Word32)
    (hdue : notBefore k.deadline ((c.at r now).now r) = true) :
    waitTimeExpiry r now t cycles c = (c.at r now).doneStep r t.val k.step 6 cycles.toNat := by
  unfold waitTimeExpiry; dsimp only
  rw [h]
  exact if_pos (by simp [hw, hdue])

theorem waitSignalStep_starts (h : (c.at r now).stepReady r t.val p i w) (hw : isStep 7 0 w = true) (hold cycles : Word32) :
    waitSignalStep r now t hold cycles c =
      (((c.at r now).started r t.val p i w hold).compareSignal r t.val i w cycles.toNat).getD
        (((c.at r now).started r t.val p i w hold).waitFor r t.val i (signalDeadline p w ((c.at r now).now r)) 2) := by
  unfold waitSignalStep; dsimp only
  rw [Chip.waiting_of_stepReady h]; dsimp only
  rw [Chip.startStep_ready h hold hw, Chip.started_now]

theorem waitSignalStep_again (h : (((c.at r now).reach r).tile t.val).waiting = some (k, w)) (hw : isStep 7 0 w = true)
    (hold cycles : Word32) : waitSignalStep r now t hold cycles c =
      ((c.at r now).compareSignal r t.val k.step w cycles.toNat).getD (c.at r now) := by
  unfold waitSignalStep; dsimp only
  rw [h]
  exact if_pos hw

theorem seqWaitTimeout_due (h : (((c.at r now).reach r).tile t.val).waiting = some (k, w)) (hw : isStep 7 0 w = true)
    (hdue : notBefore k.deadline ((c.at r now).now r) = true)
    (hlow : (((c.at r now).reach r).tile t.val).signal (fld (w.op 0) 0 23) < (w.op 1).toNat) :
    seqWaitTimeout r now t c = (c.at r now).waitFail r t.val k.step 0x52 := by
  unfold seqWaitTimeout; dsimp only
  rw [h]
  exact if_pos (by simp [hw, hdue, hlow])

end

/-- A wait that fails leaves the sequencer at its step: it runs no step again and has not moved on (R127). -/
theorem Chip.waitFail_stays (c : Chip) (r : ReachId) (t i code : Nat) :
    let z := ((c.waitFail r t i code).reach r).tile t
    z.redo = ((c.reach r).tile t).redo ∧ z.step = ((c.reach r).tile t).step ∧ z.seqState = 7 ∧ z.wait = none := by
  rw [Chip.waitFail, Chip.tileFail_tile]
  exact ⟨rfl, rfl, rfl, rfl⟩

/-- Settles O20: each command by the lemma of its branch, and the failing wait by `Chip.waitFail_stays`. -/
theorem waitsHoldTheSequencer : Obligations.WaitsHoldTheSequencer := by
  unfold Obligations.WaitsHoldTheSequencer
  intro s r now t halive c y
  have run : ∀ (f : Chip → Chip) (d : Chip), f s.chip = d → s.run f = .next (s.put d) :=
    fun f d h => h ▸ State.run_live f halive
  refine ⟨fun hold cycles p i w hready hw hdue => ?timePast, fun hold cycles p i w hready hw hdue => ?timeAhead,
    fun cycles k w hwait hw hdue => ?timeReached, fun hold cycles p i w hready hw hgood => ?signalStarts,
    fun hold cycles k w hwait hw hgood => ?signalAgain, fun hold cycles k w l hwait hw hbad => ?signalBad,
    fun d i code => d.waitFail_stays r t.val i code, fun k w hwait hw hdue hlow => ?signalLate⟩
  case timePast =>
    obtain ⟨late, hdone⟩ := waitTimeStep_due hready hw hold cycles hdue
    obtain ⟨hnow, hmem, htile⟩ := (c.started r t.val p i w hold).waitLate_keeps r t.val late
    exact ⟨_, run _ _ hdone, hnow.trans (Chip.started_now hold), hmem.trans (Chip.started_mem hold),
      fun q hq => (htile q).trans (Chip.started_tile_ne hold hq)⟩
  case timeAhead => exact run _ _ (waitTimeStep_waits hready hw hold cycles hdue)
  case timeReached => exact run _ _ (waitTimeExpiry_due hwait hw cycles hdue)
  case signalStarts =>
    have hword : (((c.started r t.val p i w hold).reach r).tile t.val).spadErr [(fld (w.op 0) 0 23, 8)] = none := by
      rw [Chip.started_tile]; exact hgood
    refine run _ _ ((waitSignalStep_starts hready hw hold cycles).trans ?_)
    rw [Chip.compareSignal_good i _ hword, Chip.started_tile]
    exact apply_ite (fun o : Option Chip => o.getD _) _ _ _
  case signalAgain =>
    refine run _ _ ((waitSignalStep_again hwait hw hold cycles).trans ?_)
    rw [Chip.compareSignal_good k.step _ hgood]
    exact apply_ite (fun o : Option Chip => o.getD _) _ _ _
  case signalBad =>
    refine run _ _ ((waitSignalStep_again hwait hw hold cycles).trans ?_)
    rw [Chip.compareSignal_bad k.step _ hbad]; rfl
  case signalLate => exact run _ _ (seqWaitTimeout_due hwait hw hdue hlow)

end Sys2Proof.Machine
end

section
/-!
PROOF. Scratchpads outside the canonical form, and O19 and O21. Both statements speak of every tile and every state, and so of a scratchpad
whose list names a byte behind a later address, which a write of zero to that byte does not reach (assumption 5 has no such memory). The
clauses that fail read written bytes back, which `Mem.readBytes_writeBytes` says of a canonical memory alone.
-/

namespace Sys2Proof

/-! ### Reading back in canonical form -/

@[simp] theorem Mem.length_readBytes (m : Mem) (a n : Nat) : (Mem.readBytes m a n).length = n := by
  induction n generalizing a with
  | zero => rfl
  | succ n ih => simp [Mem.readBytes, ih]

/-- Bytes written to a canonical memory are read back. -/
theorem Mem.readBytes_writeBytes {m : Mem} (a : Nat) (bs : List Byte) (h : Mem.wf m = true) :
    Mem.readBytes (Mem.writeBytes m a bs) a bs.length = bs := by
  induction bs generalizing m a with
  | nil => rfl
  | cons b bs ih =>
    have hw : Mem.wf (Mem.write m a b) = true := Mem.wf_write a b h
    rw [List.length_cons, Mem.readBytes, Mem.writeBytes, ih (a + 1) hw, Mem.read_writeBytes_out hw (.inl (Nat.lt_succ_self a)),
      Mem.read_write_self a b h]

end Sys2Proof

namespace Sys2Proof.Machine

/-- An entry without a window stands at the queue's tail as it was prepared, in a canonical scratchpad (R136, R137). -/
theorem Tile.copyEntry_place {y : Tile} {k : IqCopy} (h : y.memOk) (hdone : y.remoteOk.contains (k.step, k.next) = false)
    (hwin : k.win = none) : Mem.readBytes (y.copyEntry k).spad (y.iqAddr + 64 * y.iqTail.toNat) 64 =
      Mem.readBytes y.spad (k.first + 64 * k.next) 64 := by
  have hcopy := Mem.readBytes_writeBytes (y.iqAddr + 64 * y.iqTail.toNat) (Mem.readBytes y.spad (k.first + 64 * k.next) 64) h
  rw [Mem.length_readBytes] at hcopy
  simpa only [Tile.copyEntry, hdone, hwin, windowed, Bool.false_eq_true, if_false] using hcopy

theorem length_digestBytes (d : DigestSlot) : (digestBytes d).length = 64 := rfl

/-- A closed slot's value stands at its operand's address, in a canonical scratchpad (R188). -/
theorem Tile.closeDigest_value {y : Tile} {w : StepWords} {x : DigestSlot} (h : y.memOk)
    (hx : y.digests.find? (fun x => x.layer == stepLayer w.hdr) = some x) :
    Mem.readBytes (y.closeDigest w).spad (fld (w.op 0) 0 23) 64 = digestBytes x := by
  have hclose := Mem.readBytes_writeBytes (fld (w.op 0) 0 23) (digestBytes x) h
  rw [length_digestBytes] at hclose
  simpa only [Tile.closeDigest, hx] using hclose

/-! ### A scratchpad that is not canonical -/

/-- Address 0 stands behind address 1: a write of zero to 0 stops at 1. -/
def unorderedMem : Mem := [(1, 1), (0, 1)]

theorem unorderedMem_not_wf : Mem.wf unorderedMem = false := by decide

/-- A tile with an empty issue queue at address 0, over the unordered bytes. -/
def unorderedTile : Tile := { Tile.reset with spad := unorderedMem }

/-- A REMOTE step about to copy the all-zero entry at address 64. -/
def zeroEntry : IqCopy := { step := 0, first := 64, count := 1, next := 0, win := none, run := 0, started := 0 }

/-- Refutes O19: the all-zero entry is copied over the unordered bytes, and the queue's first byte still reads 1. The clause that fails is
that of an entry without a window, which `Tile.copyEntry_place` proves of every canonical scratchpad. -/
theorem not_issueQueueTakesEntries : ¬ Obligations.IssueQueueTakesEntries := by
  unfold Obligations.IssueQueueTakesEntries
  rintro ⟨-, -, -, hentry, -⟩
  obtain ⟨-, -, -, -, hplace, -⟩ := hentry { unorderedTile with copy := some zeroEntry } zeroEntry rfl rfl
  exact absurd (hplace rfl) (by decide)

/-! ### A stamp over it -/

/-- A MARKER stamp to address 0. -/
def stampWords : StepWords := { hdr := 0x38, ops := [0, 0] }

/-- A running plan of one node, with nothing in its container that a stamp needs. -/
def stampPlan : PlanInst :=
  { con :=
      { hdr :=
          { magic := 0, fmt := 1, hdrLen := 8, detOnly := false, planId := 1, totalLen := 0, log2L := 0, phases := 0, sections := 0, peers := 0,
            lockCycle := 0, cycleBase := 0, start := 0, roundCycles := 1, pkey := 0, asid := 0, function := 0, floorMhz := 0, stopThresh := 0,
            collTimeout := 0, roundSeed := 0, digest := 0 },
        dir := [], phases := [], sched := [], windows := [], resv := [], peers := [], progFmt := 1, progWords := 0, progs := [], routeFmt := 1,
        routes := [], collFmt := 1, colls := [], members := [], edges := [], placeFmt := 1, places := [], runs := [], xpos := [], maps := [] },
    st := .running, cmd := none, resuming := false, armTime := 0, arms := [], start := 0, phase := 0, round := 0, roundStart := 0,
    begun := true, phaseOver := false, cause := none, runs := [], asidGen := 0, handle := 0 }

/-- The module after reset with reach 0 in service, where the plan runs and tile 0 stands at the stamp, its scratchpad unordered. -/
def stampChip : Chip :=
  Chip.reset.onReach 0 (fun x =>
    { x with
      service := .inService
      plan := { x.plan with plans := [stampPlan] }
      tiles := [(0, { unorderedTile with
        plan := some stampPlan.con.hdr.planId
        progs := [{ tile := 0, phase := 0, firstStep := 0, nwords := 2, iqBase := 0, steps := [stampWords] }] })] })

theorem stampChip_stepReady : (stampChip.at 0 0).stepReady 0 0 stampPlan 0 stampWords := by
  have hlate : (stampChip.at 0 0).lateness 0 0 stampPlan 0 stampWords = none := rfl
  refine ⟨rfl, rfl, rfl, fun d e h => ?_⟩
  rw [hlate] at h
  cases h

/-- Refutes O21: a stamp at fabric time 0 writes eight zero bytes over the unordered bytes, and its word reads 1. The closed slot's clause has
the same gap; `Tile.closeDigest_value` proves it of every canonical scratchpad. -/
theorem not_markersAndDigests : ¬ Obligations.MarkersAndDigests := by
  unfold Obligations.MarkersAndDigests
  intro h
  have halive : stampChip.alive = true := rfl
  obtain ⟨-, hstamp, -⟩ := h ⟨stampChip, []⟩ 0 0 0 0 stampPlan 0 stampWords halive stampChip_stepReady
  obtain ⟨u, hu, hread, -⟩ := hstamp rfl
  obtain rfl : State.put ⟨stampChip, []⟩ (markerStamp 0 0 0 0 stampChip) = u :=
    Host.Outcome.next.inj ((State.run_live (markerStamp 0 0 0 0) halive).symm.trans hu)
  exact absurd hread (by decide +kernel)

end Sys2Proof.Machine
end

section
/-!
PROOF. Writes keep the canonical form (R148, assumption 5): every memory of a reach and of the module under a write, a cleared range, a signal's sum and
the writes that controllers serve, and O22. The facts about one memory are those of `Laws/Data` and `Mem.readBytes_writeBytes`.
-/

namespace Sys2Proof

/-! ### Little-endian numbers -/

theorem length_leBytes (n x : Nat) : (leBytes n x).length = n := by
  induction n generalizing x with
  | zero => rfl
  | succ n ih => rw [leBytes, List.length_cons, ih]

/-- The bytes of a number spell what fits in them. -/
theorem leNat_leBytes (n x : Nat) : leNat (leBytes n x) = x % 256 ^ n := by
  induction n generalizing x with
  | zero => exact (Nat.mod_one x).symm
  | succ n ih =>
    have hpow : 256 ^ (n + 1) = 256 * 256 ^ n := Nat.pow_succ'
    rw [leBytes, leNat, ih, BitVec.toNat_ofNat, hpow]
    exact Nat.mod_mul.symm

/-- A number stored in a canonical memory reads back, less what its bytes do not hold. -/
theorem Mem.readLe_writeLe {m : Mem} (a n x : Nat) (h : Mem.wf m = true) : Mem.readLe (Mem.writeLe m a n x) a n = x % 256 ^ n := by
  have hback := Mem.readBytes_writeBytes a (leBytes n x) h
  rw [length_leBytes] at hback
  rw [Mem.readLe, Mem.writeLe, hback, leNat_leBytes]

/-! ### The entries of a table -/

theorem Tab.eq_or_mem_of_mem_set {α : Type} {t : Tab α} {k : Nat} {v : α} {e : Nat × α} (h : e ∈ Tab.set t k v) :
    e = (k, v) ∨ e ∈ t := by
  induction t with
  | nil => exact .inl (List.mem_singleton.1 h)
  | cons e' t ih =>
    obtain ⟨k', v'⟩ := e'
    unfold Tab.set at h
    split at h
    · exact List.mem_cons.1 h
    · split at h
      · exact (List.mem_cons.1 h).imp_right (List.mem_cons_of_mem _)
      · rcases List.mem_cons.1 h with rfl | h
        · exact .inr List.mem_cons_self
        · exact (ih h).imp_right (List.mem_cons_of_mem _)

theorem Tab.mem_of_find? {α : Type} {t : Tab α} {k : Nat} {v : α} (h : Tab.find? t k = some v) : (k, v) ∈ t := by
  induction t with
  | nil => cases h
  | cons e t ih =>
    obtain ⟨k', v'⟩ := e
    unfold Tab.find? at h
    split at h
    · rename_i hk
      cases h
      exact hk ▸ List.mem_cons_self
    · exact List.mem_cons_of_mem _ (ih h)

/-- What holds of the default and of every listed value holds of the value at every key. -/
theorem Tab.getD_of_forall {α : Type} {t : Tab α} {d : α} {P : α → Prop} (hd : P d) (h : ∀ e ∈ t, P e.2) (k : Nat) :
    P (Tab.getD t k d) := by
  unfold Tab.getD
  cases hf : Tab.find? t k with
  | none => exact hd
  | some v => exact h _ (Tab.mem_of_find? hf)

end Sys2Proof

namespace Sys2Proof.Machine

/-- A loop keeps a property that each of its steps keeps. -/
theorem forEach_preserves {α σ : Type} {P : σ → Prop} {f : σ → α → σ} {s : σ} (l : List α) (h0 : P s) (h : ∀ s a, P s → P (f s a)) :
    P (forEach l s f) :=
  List.foldlRecOn l f h0 (fun s hs a _ => h s a hs)

/-! ### A tile -/

theorem Tile.memOk_reset : Tile.reset.memOk := Mem.wf_nil

theorem Tile.memOk_signalAdd {t : Tile} (a n : Nat) (h : t.memOk) : (t.signalAdd a n).memOk := Mem.wf_writeLe a 8 _ h

theorem Tile.signal_signalAdd {t : Tile} (a n : Nat) (h : t.memOk) : (t.signalAdd a n).signal a = (t.signal a + n) % 2 ^ 64 :=
  Mem.readLe_writeLe a 8 (t.signal a + n) h

/-! ### A reach -/

theorem Reach.memOk_bytes {x : Reach} (h : x.memOk) : Mem.wf x.mem.bytes = true := h.1

theorem Reach.memOk_tile {x : Reach} (t : Nat) (h : x.memOk) : (x.tile t).memOk := by
  obtain ⟨-, -, htiles⟩ := h
  exact Tab.getD_of_forall Tile.memOk_reset htiles t

/-- The form hangs on device memory, the collective buffers and the scratchpads alone. -/
theorem Reach.memOk_congr {x y : Reach} (hbytes : y.mem.bytes = x.mem.bytes) (hcoll : y.coll = x.coll) (htiles : y.tiles = x.tiles)
    (h : x.memOk) : y.memOk := by
  unfold Reach.memOk
  rw [hbytes, hcoll, htiles]
  exact h

theorem Reach.memOk_mem {x : Reach} {m : MemState} (hm : Mem.wf m.bytes = true) (h : x.memOk) : ({ x with mem := m } : Reach).memOk := by
  obtain ⟨-, hwharf, htiles⟩ := h
  exact ⟨hm, hwharf, htiles⟩

theorem Reach.memOk_onTile {x : Reach} {t : Nat} {f : Tile → Tile} (hf : (f (x.tile t)).memOk) (h : x.memOk) : (x.onTile t f).memOk := by
  obtain ⟨hbytes, hwharf, htiles⟩ := h
  refine ⟨hbytes, hwharf, fun e he => ?_⟩
  rcases Tab.eq_or_mem_of_mem_set he with rfl | he
  · exact hf
  · exact htiles e he

/-- Below the scratchpad windows a write goes to device memory. -/
theorem Reach.writePhys_bytes {x : Reach} {pa : Nat} (bs : List Byte) (hpa : pa < spadWindow) :
    (x.writePhys pa bs).mem.bytes = Mem.writeBytes x.mem.bytes pa bs := by
  simp only [Reach.writePhys, if_neg (Nat.not_le.2 hpa)]

theorem Reach.writePhys_tiles {x : Reach} {pa : Nat} (bs : List Byte) (hpa : pa < spadWindow) : (x.writePhys pa bs).tiles = x.tiles := by
  simp only [Reach.writePhys, if_neg (Nat.not_le.2 hpa)]

/-- A write to a scratchpad window leaves device memory as it is. -/
theorem Reach.writePhys_spad_mem {x : Reach} {pa : Nat} (bs : List Byte) (hpa : spadWindow ≤ pa) : (x.writePhys pa bs).mem = x.mem := by
  simp only [Reach.writePhys, if_pos hpa]
  rfl

theorem Reach.memOk_writePhys {x : Reach} (pa : Nat) (bs : List Byte) (h : x.memOk) : (x.writePhys pa bs).memOk := by
  unfold Reach.writePhys
  split
  · exact Reach.memOk_onTile (Mem.wf_writeBytes _ bs (Reach.memOk_tile _ h)) h
  · exact Reach.memOk_mem (Mem.wf_writeBytes pa bs (Reach.memOk_bytes h)) h

/-- What is written below the scratchpad windows reads back. -/
theorem Reach.readPhys_writePhys {x : Reach} {pa : Nat} (bs : List Byte) (hpa : pa < spadWindow) (h : x.memOk) :
    (x.writePhys pa bs).readPhys pa bs.length = bs := by
  rw [Reach.readPhys, if_neg (Nat.not_le.2 hpa), Reach.writePhys_bytes bs hpa, Mem.readBytes_writeBytes pa bs (Reach.memOk_bytes h)]

/-- A write changes no byte of device memory outside its range. -/
theorem Reach.read_writePhys_out {x : Reach} {pa a : Nat} {bs : List Byte} (hpa : pa < spadWindow) (ha : a < pa ∨ pa + bs.length ≤ a)
    (h : x.memOk) : Mem.read (x.writePhys pa bs).mem.bytes a = Mem.read x.mem.bytes a := by
  rw [Reach.writePhys_bytes bs hpa, Mem.read_writeBytes_out (Reach.memOk_bytes h) ha]

theorem Reach.memOk_zeroPhys {x : Reach} (pa n : Nat) (h : x.memOk) : (x.zeroPhys pa n).memOk :=
  Reach.memOk_mem (Mem.wf_zeroRange pa (pa + n) (Reach.memOk_bytes h)) h

/-- Counting accesses touches neither collective buffers nor tiles. -/
theorem Reach.countLines_coll_tiles (x : Reach) (pa n : Nat) (write : Bool) :
    (x.countLines pa n write).coll = x.coll ∧ (x.countLines pa n write).tiles = x.tiles := by
  unfold Reach.countLines
  split
  · exact ⟨rfl, rfl⟩
  · refine List.foldlRecOn (motive := fun y : Reach => y.coll = x.coll ∧ y.tiles = x.tiles) _ _ ⟨rfl, rfl⟩ (fun y hy i _ => ?_)
    dsimp only
    split <;> exact hy

theorem Reach.memOk_countLines {x : Reach} (pa n : Nat) (write : Bool) (h : x.memOk) : (x.countLines pa n write).memOk := by
  obtain ⟨l, hmem⟩ := x.countLines_mem pa n write
  obtain ⟨hcoll, htiles⟩ := x.countLines_coll_tiles pa n write
  exact Reach.memOk_congr (by rw [hmem]) hcoll htiles h

/-! ### The module -/

theorem Chip.memOk_reach {c : Chip} (r : ReachId) (h : c.memOk) : (c.reach r).memOk := h.2 r

theorem Chip.memOk_onReach {c : Chip} {r : ReachId} {f : Reach → Reach} (hf : (f (c.reach r)).memOk) (h : c.memOk) : (c.onReach r f).memOk := by
  obtain ⟨hhost, hreach⟩ := h
  refine ⟨hhost, fun q => ?_⟩
  by_cases hq : q = r
  · subst hq
    rw [Chip.reach_onReach]
    exact hf
  · rw [Chip.reach_onReach_ne c f hq]
    exact hreach q

theorem Chip.memOk_writePhys {c : Chip} (r : ReachId) (pa : Nat) (bs : List Byte) (h : c.memOk) :
    (c.onReach r (fun y => y.writePhys pa bs)).memOk :=
  Chip.memOk_onReach (Reach.memOk_writePhys pa bs (Chip.memOk_reach r h)) h

/-- Host memory takes bytes at any address of its own. -/
theorem Chip.memOk_writeHost {c : Chip} (a : Nat) (bs : List Byte) (h : c.memOk) :
    ({ c with host := { c.host with mem := Mem.writeBytes c.host.mem a bs } } : Chip).memOk := by
  obtain ⟨hhost, hreach⟩ := h
  exact ⟨Mem.wf_writeBytes a bs hhost, hreach⟩

theorem Chip.apart_coll {c d : Chip} (h : c.apart = d.apart) (r : ReachId) : (c.reach r).coll = (d.reach r).coll := by
  have := congrArg Reach.coll (Chip.apart_reach h r)
  exact this

/-- A report that leaves host memory alone keeps the form. -/
theorem Chip.memOk_of_apart {c d : Chip} (hapart : d.apart = c.apart) (hhost : d.host = c.host) (h : c.memOk) : d.memOk := by
  obtain ⟨hwf, hreach⟩ := h
  refine ⟨hhost ▸ hwf, fun r => Reach.memOk_congr ?_ ?_ (Chip.apart_tiles hapart r) (hreach r)⟩
  · rw [Chip.apart_mem hapart r]
  · exact Chip.apart_coll hapart r

@[simp] theorem Chip.trace_host (c : Chip) (r : ReachId) (kind src fn : Nat) (p0 p1 : Word64) : (c.trace r kind src fn p0 p1).host = c.host := by
  unfold Chip.trace Chip.traceFrom; dsimp only
  split
  · rfl
  · split <;> rfl

@[simp] theorem Chip.triggerRecord_host (c : Chip) (r q : ReachId) : (c.triggerRecord r q).host = c.host := by
  unfold Chip.triggerRecord; dsimp only
  split <;> simp

@[simp] theorem Chip.fire_host (c : Chip) (r : ReachId) (kind : Nat) : (c.fire r kind).host = c.host := by
  unfold Chip.fire; dsimp only
  split
  · exact Chip.triggerRecord_host c r r
  · rfl

@[simp] theorem Chip.tdc_host (c : Chip) (r : ReachId) (cause : Nat) (fn : Option FnId) (src : Nat) (a : Word32) (b : Word64) :
    (c.tdc r cause fn src a b).host = c.host := by
  unfold Chip.tdc; dsimp only
  rw [apply_ite Chip.host]
  simp only [Chip.fire_host, ite_self, Chip.trace_host, Chip.onReach_host]

theorem Chip.memOk_tdc {c : Chip} (r : ReachId) (cause : Nat) (fn : Option FnId) (src : Nat) (a : Word32) (b : Word64) (h : c.memOk) :
    (c.tdc r cause fn src a b).memOk :=
  Chip.memOk_of_apart (c.tdc_apart r cause fn src a b) (c.tdc_host r cause fn src a b) h

/-- A write of lines: the bytes, the data of later numbers once more, and a record for each tie (R160). -/
theorem Chip.memOk_serveWrite {c : Chip} (r : ReachId) (by_ pa : Nat) (bs : List Byte) (h : c.memOk) : (c.serveWrite r by_ pa bs).memOk := by
  unfold Chip.serveWrite
  refine forEach_preserves _ ?writes (fun d e hd => forEach_preserves _ hd (fun d i hd => Chip.memOk_tdc _ _ _ _ _ _ hd))
  have hown : (c.onReach r (fun y => (y.writePhys pa bs).countLines pa bs.length true)).memOk :=
    Chip.memOk_onReach (Reach.memOk_countLines pa bs.length true (Reach.memOk_writePhys pa bs (Chip.memOk_reach r h))) h
  refine Chip.memOk_onReach (List.foldlRecOn (motive := Reach.memOk) _ _ ?_ (fun y hy e _ => Reach.memOk_writePhys e.1 e.2 hy)) hown
  exact Reach.memOk_mem (Reach.memOk_bytes (Chip.memOk_reach r hown)) (Chip.memOk_reach r hown)

theorem Chip.memOk_writeRuns {c : Chip} (r : ReachId) (runs : List Run) (off : Nat) (bs : List Byte) (h : c.memOk) :
    (c.writeRuns r runs off bs).memOk := by
  unfold Chip.writeRuns
  refine List.foldlRecOn (motive := fun s : Chip × Nat => s.1.memOk) _ _ h (fun s hs x _ => ?_)
  dsimp only
  split
  · exact Chip.memOk_writeHost _ _ hs
  · exact Chip.memOk_writePhys r _ _ hs

theorem Chip.memOk_storeRuns {c : Chip} (r : ReachId) (by_ : Nat) (runs : List Run) (off : Nat) (bs : List Byte) (h : c.memOk) :
    (c.storeRuns r by_ runs off bs).memOk := by
  unfold Chip.storeRuns
  refine List.foldlRecOn (motive := fun s : Chip × Nat => s.1.memOk) _ _ h (fun s hs x _ => ?_)
  dsimp only
  split
  · exact Chip.memOk_writeHost _ _ hs
  · split
    · exact Chip.memOk_writePhys r _ _ hs
    · exact Chip.memOk_serveWrite r by_ _ _ hs

theorem Chip.memOk_hostWrite {c : Chip} (f : FnId) (iova : Nat) (bs : List Byte) (h : c.memOk) : (c.hostWrite f iova bs).memOk :=
  Chip.memOk_writeHost (hostKey f iova) bs h

/-- Settles O22: each write is one of `Mem.writeBytes` and `Mem.zeroRange` on one memory, or a loop of such writes. -/
theorem memoryWritesStayCanonical : Obligations.MemoryWritesStayCanonical := by
  unfold Obligations.MemoryWritesStayCanonical
  refine ⟨fun x pa bs h => ⟨Reach.memOk_writePhys pa bs h, fun hpa => Reach.readPhys_writePhys bs hpa h,
      fun a hpa ha => Reach.read_writePhys_out hpa ha h, Reach.writePhys_tiles bs, Reach.writePhys_spad_mem bs⟩,
    fun c r runs off bs => Chip.memOk_writeRuns r runs off bs,
    fun c r n runs off bs => Chip.memOk_storeRuns r n runs off bs,
    fun x pa n h => ⟨Reach.memOk_zeroPhys pa n h, Mem.read_zeroRange pa (pa + n)⟩,
    fun t a n h => ⟨Tile.memOk_signalAdd a n h, Tile.signal_signalAdd a n h⟩,
    fun c f a bs => Chip.memOk_hostWrite f a bs⟩

end Sys2Proof.Machine
end

section
/-!
Work entries (R182, R193 to R198): which submitter's entry the RME takes, what it answers to an entry that may be looked at, what the
taking of an entry leaves of its context, and the statement about them.
-/

namespace Sys2Proof

theorem Tab.find?_update_self {α : Type} (t : Tab α) (k : Nat) (f : α → α) : Tab.find? (Tab.update t k f) k = (Tab.find? t k).map f := by
  unfold Tab.update
  cases h : Tab.find? t k with
  | none => exact h
  | some v => exact Tab.find?_set_self t k (f v)

end Sys2Proof

namespace Sys2Proof.Machine

/-! ### The issue path (R182) -/

/-- A work entry's operation and the instruction that takes it. -/
def workInstrs (r : ReachId) (now : Time) (src : RmeSource) : List (BitVec 4 × Instr) :=
  [(0, .rmeWrite r now src), (1, .rmeWriteSignal r now src), (2, .rmeRead r now src), (3, .rmeSend r now src),
    (4, .rmeRecv r now src), (5, .rmeFetchAdd r now src), (6, .rmeFence r now src), (7, .rmeFlush r now src)]

theorem exec_workInstrs {r : ReachId} {now : Time} {src : RmeSource} (s : State) :
    ∀ x ∈ workInstrs r now src, exec x.2 s = s.runSettle (rmeTake x.1 r now src) := by
  simp only [workInstrs, List.forall_mem_cons]
  exact ⟨rfl, rfl, rfl, rfl, rfl, rfl, rfl, rfl, fun _ h => nomatch h⟩

@[simp] theorem Chip.issueTie_nil (c : Chip) (r : ReachId) (src : RmeSource) : c.issueTie r src [] = c := rfl

section
variable {op : BitVec 4} {r : ReachId} {now : Time} {src : RmeSource} {c : Chip}
  (hop : ∀ h, (c.at r now).nextEntry r src = some h → h.1.fmt = 1 → h.1.op.toNat ≤ 7 → h.1.op = op)
include hop

/-- The instruction looks at an entry of its own operation: the claims on the issue path decide. -/
theorem rmeTake_own : rmeTake op r now src c =
    if ∃ k ∈ (c.at r now).rmeClaims r src, k.1 < (c.at r now).issueTag r src ∨ (k.1 = (c.at r now).issueTag r src ∧ k.2 < issuer src) then
      c.at r now
    else (((c.at r now).issueTie r src ((c.at r now).rmeClaims r src)).rmeAnswer r src).getD (c.at r now) := by
  have hown : ¬ ((c.at r now).nextEntry r src).any (fun h => h.1.fmt == 1 && h.1.op != op && decide (h.1.op.toNat ≤ 7)) = true := by
    simp only [Option.any_eq_true, Bool.and_eq_true, beq_iff_eq, bne_iff_ne, decide_eq_true_eq]
    rintro ⟨h, hnext, ⟨hfmt, hne⟩, hle⟩
    exact hne (hop h hnext hfmt hle)
  unfold rmeTake; dsimp only
  rw [if_neg hown]
  simp only [List.any_eq_true, Bool.or_eq_true, Bool.and_eq_true, beq_iff_eq, decide_eq_true_eq]

end

/-! ### The answer to an entry (R193, R195, R198, R360) -/

/-- An entry that may be looked at gets past every check of its submitter and its context. -/
theorem Chip.rmeAnswer_of_entryReady {c : Chip} {r : ReachId} {src : RmeSource} {e : WorkEntry} {by_ : Submitter} {q : Qp}
    (h : c.entryReady r src e by_ q) : c.rmeAnswer r src = c.takeReady r src q e by_ := by
  obtain ⟨hserv, hstall, hhold, hfmt, ⟨f, hnext, howned⟩, hqp, hcq, hruns, hroom, hstate⟩ := h
  have hcq : ¬ (q.owner == 0 && !c.cqOpen q.function (BitVec.ofNat 8 q.cqRing.toNat)) = true := by
    simp only [Bool.and_eq_true, beq_iff_eq, Bool.not_eq_true']
    exact fun ⟨ho, hclosed⟩ => Bool.false_ne_true (hclosed.symm.trans (hcq ho))
  have hruns : ¬ (((c.ten q.function).state != .running || (c.fn q.function).shutdown) && q.owner != 2) = true := by
    simp only [Bool.and_eq_true, Bool.or_eq_true, bne_iff_ne]
    rintro ⟨hstop, ho⟩
    obtain ⟨hten, hshut⟩ := hruns ho
    simp [hten, hshut] at hstop
  unfold Chip.rmeAnswer
  rw [if_neg (by simp [hserv, hstall]), hnext]; dsimp only
  rw [if_neg (by simp [hhold]), if_neg (by simp [hfmt]), hqp]; dsimp only
  rw [if_neg (by simp [howned]), if_neg hcq, if_neg hruns]
  obtain hready | ⟨hrecv, hinit⟩ := hstate
  · simp [hready, hroom]
  · simp [hinit, hrecv, hroom]

/-! ### What the taking of an entry leaves -/

theorem Reach.qp_eq_some_iff {x : Reach} {qpn : BitVec 24} {q : Qp} :
    x.qp qpn = some q ↔ Tab.find? x.rme.qps (qpIndex qpn) = some q ∧ q.qpn = qpn := by
  unfold Reach.qp
  cases h : Tab.find? x.rme.qps (qpIndex qpn) with
  | none => simp
  | some p =>
    simp only [Option.ite_none_right_eq_some, beq_iff_eq, Option.some.injEq]
    exact ⟨fun ⟨hp, e⟩ => ⟨e, e ▸ hp⟩, fun ⟨e, hp⟩ => ⟨e ▸ hp, e⟩⟩

theorem Reach.qp_congr {x y : Reach} (h : x.rme = y.rme) (qpn : BitVec 24) : x.qp qpn = y.qp qpn := by
  unfold Reach.qp; rw [h]

/-- A changed context is found under its number. -/
theorem Chip.qp_onQp {c : Chip} {r : ReachId} {qpn : BitVec 24} {q : Qp} {f : Qp → Qp} (hq : (c.reach r).qp qpn = some q)
    (hf : (f q).qpn = q.qpn) : ((c.onQp r qpn f).reach r).qp qpn = some (f q) := by
  obtain ⟨hfind, hqpn⟩ := Reach.qp_eq_some_iff.1 hq
  refine Reach.qp_eq_some_iff.2 ⟨?_, hf.trans hqpn⟩
  simp [Chip.onQp, Tab.find?_update_self, hfind, hqpn]

@[simp] theorem Chip.onQp_mem (c : Chip) (r : ReachId) (qpn : BitVec 24) (f : Qp → Qp) :
    ((c.onQp r qpn f).reach r).mem = (c.reach r).mem := by simp [Chip.onQp]

@[simp] theorem Chip.onQp_time (c : Chip) (r : ReachId) (qpn : BitVec 24) (f : Qp → Qp) :
    ((c.onQp r qpn f).reach r).time = (c.reach r).time := by simp [Chip.onQp]

/-- An entry leaves its tile's queue or its chain; contexts, memory and time stay. -/
theorem Chip.consume_keeps (c : Chip) (r : ReachId) (src : RmeSource) : ((c.consume r src).reach r).rme = (c.reach r).rme
    ∧ ((c.consume r src).reach r).mem = (c.reach r).mem ∧ ((c.consume r src).reach r).time = (c.reach r).time := by
  cases src with
  | tile t => simp [Chip.consume, Chip.onTile]
  | ring ref w => exact ⟨rfl, rfl, rfl⟩
  | keeper w => exact ⟨rfl, rfl, rfl⟩

@[simp] theorem Chip.rmeTrace_apart (c : Chip) (r : ReachId) (q : Qp) (by_ : Submitter) (e : WorkEntry) (complete : Bool) (status : Nat)
    (msn : BitVec 24) : (c.rmeTrace r q by_ e complete status msn).apart = c.apart := by
  unfold Chip.rmeTrace; dsimp only
  rw [apply_ite Chip.apart, Chip.traceFrom_apart]
  exact ite_self c.apart

/-- The module once an entry has left its submitter, its context has changed by `f` and the taking is traced. -/
def Chip.takenInto (c : Chip) (r : ReachId) (src : RmeSource) (q : Qp) (e : WorkEntry) (by_ : Submitter) (f : Qp → Qp) : Chip :=
  ((c.consume r src).onQp r q.qpn f).rmeTrace r q by_ e false 0 0

theorem Chip.takenInto_keeps {c : Chip} {r : ReachId} {q : Qp} {e : WorkEntry} {f : Qp → Qp} (src : RmeSource) (by_ : Submitter)
    (hq : (c.reach r).qp e.qpn = some q) (hf : (f q).qpn = q.qpn) : ((c.takenInto r src q e by_ f).reach r).qp e.qpn = some (f q)
    ∧ ((c.takenInto r src q e by_ f).reach r).mem = (c.reach r).mem ∧ ((c.takenInto r src q e by_ f).reach r).time = (c.reach r).time := by
  obtain ⟨hrme, hmem, htime⟩ := c.consume_keeps r src
  have hapart : (c.takenInto r src q e by_ f).apart = ((c.consume r src).onQp r q.qpn f).apart := Chip.rmeTrace_apart ..
  refine ⟨?_, ?_, ?_⟩
  · rw [Reach.qp_congr (Chip.apart_rme hapart r), (Reach.qp_eq_some_iff.1 hq).2]
    exact Chip.qp_onQp ((Reach.qp_congr hrme e.qpn).trans hq) hf
  · rw [Chip.apart_mem hapart r, Chip.onQp_mem, hmem]
  · rw [Chip.apart_time hapart r, Chip.onQp_time, htime]

/-- A context, as a module takes an operation into it: the operation stands last in its list. A FLUSH of every queue pair of its submitter
waits for all that stand on those (R213). -/
def Chip.joinOp (c : Chip) (r : ReachId) (q : Qp) (e : WorkEntry) (by_ : Submitter) (runs : List Run) (x : Qp) : Qp :=
  x.addOp { mkOp x e by_ runs [] ((c.reach r).rme.bargeOf q) (c.asidGen q.asid.toNat) with
    flushOf := if e.op == 7 && e.scope then (c.reach r).rme.opsOf by_ q.function else [] }

/-- A context, as a module takes a RECV into it: it stands last in the receive list. -/
def Chip.joinRecv (c : Chip) (q : Qp) (e : WorkEntry) (by_ : Submitter) (runs : List Run) (x : Qp) : Qp :=
  x.addRecv (mkRecv x e by_ runs (c.asidGen q.asid.toNat))

section
variable {c : Chip} {r : ReachId} (src : RmeSource) {e : WorkEntry} {by_ : Submitter} {q : Qp} {runs : List Run}
  (hgood : c.badEntry r q e by_ = false) (hlocal : c.localRange r q e by_ = .ok runs)
  (hruns : (c.reach r).rme.runsHeld + runs.length ≤ 262144)
include hgood hlocal hruns

/-- A good entry with its local range and a known peer joins its context's list of operations. -/
theorem Chip.takeReady_op (hop : e.op ≠ 4) (hpeer : (c.reach r).peerKnown q = true) : c.takeReady r src q e by_ =
    some (c.takenInto r src q e by_ (c.joinOp r q e by_ runs)) := by
  unfold Chip.takeReady
  rw [if_neg (by simp [hgood]), hlocal]; dsimp only
  rw [if_neg (Nat.not_lt.2 hruns), if_neg (by simpa using hop), if_neg (by simp [hpeer])]
  rfl

/-- A good RECV with its local range joins its context's receive list while that has room (R211). -/
theorem Chip.takeReady_recv (hop : e.op = 4) (hroom : q.standing.length < q.rqDepth.toNat) : c.takeReady r src q e by_ =
    some (c.takenInto r src q e by_ (c.joinRecv q e by_ runs)) := by
  unfold Chip.takeReady
  rw [if_neg (by simp [hgood]), hlocal]; dsimp only
  rw [if_neg (Nat.not_lt.2 hruns), if_pos (by simp [hop]), if_neg (Nat.not_le.2 hroom)]
  rfl

end

/-- Settles O24: the instruction looks at an entry of its own operation, so the claims decide, and one that is taken joins its context's list. -/
theorem workEntriesAreTaken : Obligations.WorkEntriesAreTaken := by
  unfold Obligations.WorkEntriesAreTaken
  refine ⟨fun s r now src halive => ?issue, fun c r src e by_ q runs hgood hlocal hq hruns => ⟨fun hop hpeer => ?op, fun hop hroom => ?recv⟩⟩
  case issue =>
    intro c claims x hx hop
    have hexec : exec x.2 s = .next (s.put (rmeTake x.1 r now src s.chip).settle) :=
      (exec_workInstrs s x hx).trans (State.runSettle_live _ halive)
    rw [hexec, rmeTake_own hop]
    refine ⟨fun hbefore => by rw [if_pos hbefore], fun hfirst => ?_, fun e by_ q hnone hready => ?_⟩
    · rw [if_neg (fun ⟨k, hk, hor⟩ => hor.elim (hfirst k hk).1 (hfirst k hk).2)]
    · have hnone : (s.chip.at r now).rmeClaims r src = [] := hnone
      rw [hnone, if_neg (by simp), Chip.issueTie_nil, Chip.rmeAnswer_of_entryReady hready]
  case op =>
    obtain ⟨hqp, hmem, htime⟩ := Chip.takenInto_keeps src by_ hq (f := c.joinOp r q e by_ runs) rfl
    exact ⟨_, _, _, Chip.takeReady_op src hgood hlocal hruns hop hpeer, hqp, rfl, rfl, rfl, rfl, rfl, rfl, rfl, rfl, hmem, htime⟩
  case recv =>
    obtain ⟨hqp, hmem, -⟩ := Chip.takenInto_keeps src by_ hq (f := c.joinRecv q e by_ runs) rfl
    exact ⟨_, _, _, Chip.takeReady_recv src hgood hlocal hruns hop hroom, hqp, rfl, rfl, rfl, rfl, rfl, rfl, rfl, hmem⟩

end Sys2Proof.Machine
end

section
/-!
Completions in order (R214, R217), flush reads of host memory (R219) and the resend after WAIT or no-receive (R211): what a queue pair's
oldest operation and receive do, what the engine's timers do, and the statements about them.
-/

namespace Sys2Proof.Machine

/-! ### RME_COMPLETION (R214, R217) -/

@[simp] theorem Chip.reach_at_qp (c : Chip) (r q : ReachId) (now : Time) (qpn : BitVec 24) : ((c.at r now).reach q).qp qpn = (c.reach q).qp qpn :=
  Reach.qp_congr (Chip.reach_at_rme c r q now) qpn

/-- The status of the oldest operation depends on the contexts alone, not on the time of the look. -/
theorem Reach.headStatus_at (c : Chip) (r : ReachId) (now : Time) (o : RmeOp) :
    ((c.at r now).reach r).headStatus o = (c.reach r).headStatus o := by
  rw [Chip.reach_at]; rfl

theorem Chip.lsigUe_at (c : Chip) (r : ReachId) (now : Time) (o : RmeOp) (st : BitVec 8) : (c.at r now).lsigUe r o st = c.lsigUe r o st := by
  unfold Chip.lsigUe; rw [Chip.reach_at]; rfl

section
variable {c : Chip} {r : ReachId} {qpn : BitVec 24} {q : Qp} (hq : (c.reach r).qp qpn = some q)
include hq

/-- The oldest operation retires once it can (R213, R214). -/
theorem Chip.requestDone_retires {o : RmeOp} {rest : List RmeOp} {st : BitVec 8} (hops : q.ops = o :: rest)
    (hst : (c.reach r).headStatus o = some st) (hue : c.lsigUe r o st = none) : c.requestDone r qpn =
      ((c.onQp r qpn (fun q => { q with ops := rest, again := q.again.filter (fun n => n != o.seq) })).tellOp r q o st.toNat).retired r qpn := by
  simp only [Chip.requestDone, hq, hops, hst, hue]

/-- It fails where the signal word that it would add to is bad (R217). -/
theorem Chip.requestDone_fails {o : RmeOp} {rest : List RmeOp} {st : BitVec 8} {pa : Nat} (hops : q.ops = o :: rest)
    (hst : (c.reach r).headStatus o = some st) (hue : c.lsigUe r o st = some pa) :
    c.requestDone r qpn = (c.memUe r 5 pa 0).failOp r qpn o.seq 0x6C := by
  simp only [Chip.requestDone, hq, hops, hst, hue]

/-- One that cannot complete yet holds back all behind it. -/
theorem Chip.requestDone_waits {o : RmeOp} {rest : List RmeOp} (hops : q.ops = o :: rest) (hst : (c.reach r).headStatus o = none) :
    c.requestDone r qpn = c := by
  simp only [Chip.requestDone, hq, hops, hst]

/-- The oldest receive retires once it has a status (R214). -/
theorem Chip.receiveDone_retires {x : PostedRecv} {rest : List PostedRecv} {st : BitVec 8} (hrecvs : q.recvs = x :: rest)
    (hst : x.status = some st) : c.receiveDone r qpn =
      (((((c.onQp r qpn (fun q => { q with recvs := rest })).rmeTrace r q x.by_ x.entry true st.toNat 0).opGauge r qpn st.toNat).reportEntry r x.by_
        (BitVec.ofNat 8 q.cqRing.toNat) x.entry true st.toNat x.rxLen).retired r qpn) := by
  simp only [Chip.receiveDone, hq, hrecvs, hst]

end

/-- RME_COMPLETION, by what is to complete, on a reach in service. -/
theorem rmeCompletion_of_inService {c : Chip} {r : ReachId} (now : Time) (qpn : BitVec 24) (hserv : c.inService r = true) :
    rmeCompletion r now qpn .request c = (c.at r now).requestDone r qpn ∧ rmeCompletion r now qpn .receive c = (c.at r now).receiveDone r qpn
      ∧ rmeCompletion r now qpn .target c = (c.at r now).targetVisible r qpn := by
  unfold rmeCompletion
  simp [hserv]

/-- Settles O25: each clause is the lemma of its branch, at the module as the command's time leaves it. -/
theorem operationsCompleteInOrder : Obligations.OperationsCompleteInOrder := by
  unfold Obligations.OperationsCompleteInOrder
  intro s r now qpn q halive hserv hq c
  have hexec : ∀ which, exec (.rmeCompletion r now qpn which) s = .next (s.put (rmeCompletion r now qpn which s.chip).settle) :=
    fun which => State.runSettle_live _ halive
  obtain ⟨hrequest, hreceive, htarget⟩ := rmeCompletion_of_inService now qpn hserv
  have hq : (c.reach r).qp qpn = some q := (Chip.reach_at_qp ..).trans hq
  refine ⟨fun o rest st hops hst hue => ?_, fun o rest st pa hops hst hue => ?_, fun o rest hops hst => ?_, fun x rest st hrecvs hst => ?_, ?_⟩
  · rw [hexec, hrequest, Chip.requestDone_retires hq hops ((Reach.headStatus_at ..).trans hst) ((Chip.lsigUe_at ..).trans hue)]
  · rw [hexec, hrequest, Chip.requestDone_fails hq hops ((Reach.headStatus_at ..).trans hst) ((Chip.lsigUe_at ..).trans hue)]
  · rw [hexec, hrequest, Chip.requestDone_waits hq hops ((Reach.headStatus_at ..).trans hst)]
  · rw [hexec, hreceive, Chip.receiveDone_retires hq hrecvs hst]
  · rw [hexec, htarget]

/-! ### Flush reads (R219) -/

/-- A flush read is due: FLUSH_BATCH operations wait, or FLUSH_WAIT has passed since the first of them came. -/
def Rme.flushDue (m : Rme) (now : Time) : Prop :=
  max 1 (fld m.ctrl 16 8) ≤ m.flushQ.length ∨ ∃ t, m.flushSince = some t ∧ notBefore (t + nsTime (fld m.ctrl 0 12)) now = true

/-- A read that is due goes out for all operations that wait. -/
theorem hostFlushRead_due {c : Chip} {r : ReachId} (now : Time) (hserv : c.inService r = true) (hhost : c.host.inReset = false)
    (hwait : (c.reach r).rme.flushQ ≠ []) (hdue : (c.reach r).rme.flushDue ((c.at r now).now r)) : hostFlushRead r now c =
      ((c.at r now).onRme r (fun m => { m with flushOut := m.flushOut ++ [m.flushQ], flushQ := [], flushSince := none })).emit (.flushRead r) := by
  unfold hostFlushRead; dsimp only
  rw [if_neg]
  obtain hbatch | ⟨t, hsince, hpast⟩ := hdue
  · simp [hserv, hhost, hwait, hbatch]
  · simp [hserv, hhost, hwait, hsince, hpast]

/-- The oldest read returns for the operations that it went out for. -/
theorem hostFlushDone_returns {c : Chip} {r : ReachId} (now : Time) {l : List FlushItem} {rest : List (List FlushItem)}
    (hout : (c.reach r).rme.flushOut = l :: rest) : hostFlushDone r now c =
      forEach l ((c.at r now).onRme r (fun m => { m with flushOut := rest })) (fun c x => c.flushed r x) := by
  have hout : ((c.at r now).reach r).rme.flushOut = l :: rest := by simpa using hout
  simp only [hostFlushDone, hout]

/-! ### RNR_RETRY (R211) -/

/-- The resend of an operation is due. -/
def RmeOp.resendDue (o : RmeOp) (now : Time) : Bool :=
  o.status.isNone && (match o.rnrDue with | some t => notBefore t now | none => false)

/-- A context once operation `o` is sent again, from its first packet that is outstanding. -/
def Qp.resent (q : Qp) (o : RmeOp) (x : Qp) : Qp :=
  { x with out := x.out.map (fun p => if some p.psn == (q.out.find? (fun p => !p.isResp && p.op == o.seq)).map (fun p => p.psn)
             then { p with resend := true } else p),
           ops := x.ops.map (fun z => if z.seq == o.seq then
             { z with rnrDue := none, rnrCount := if z.waitSince.isNone then z.rnrCount + 1 else z.rnrCount } else z) }

/-- The first operation whose resend is due fails at its limit, and else is sent again. -/
theorem rnrRetry_due {c : Chip} {r : ReachId} {now : Time} {qpn : BitVec 24} {q : Qp} {o : RmeOp} (hserv : c.inService r = true)
    (hq : (c.reach r).qp qpn = some q) (hdue : q.ops.find? (fun o => o.resendDue ((c.at r now).now r)) = some o) : rnrRetry r now qpn c =
      if q.rnrOver o ((c.at r now).now r) = true then (c.at r now).failOp r qpn o.seq 0x69 else (c.at r now).onQp r qpn (q.resent o) := by
  simp only [rnrRetry, Chip.reach_at_qp, hq]
  split
  case h_1 hnone => exact nomatch hnone.symm.trans hdue
  case h_2 x hsome =>
    obtain rfl : x = o := Option.some.inj (hsome.symm.trans hdue)
    rw [if_neg (by simp [hserv])]
    rfl

/-- The resend of an operation sent again is no longer due. -/
theorem Qp.rnrDue_resent {q x : Qp} {o z : RmeOp} (hz : z ∈ (q.resent o x).ops) (hseq : z.seq = o.seq) : z.rnrDue = none := by
  obtain ⟨y, -, rfl⟩ := List.mem_map.1 hz
  by_cases hy : y.seq = o.seq
  · simp [hy]
  · simp [hy] at hseq

/-- The first barge of an operation sent again goes out again. -/
theorem Qp.resend_resent {q : Qp} {o : RmeOp} {p : OutPkt} (hp : q.out.find? (fun p => !p.isResp && p.op == o.seq) = some p) :
    { p with resend := true } ∈ (q.resent o q).out :=
  List.mem_map.2 ⟨p, List.mem_of_find?_eq_some hp, by simp [hp]⟩

/-- Settles O26: a read that is due by `hostFlushRead_due`, its return by `hostFlushDone_returns`, the resend by `rnrRetry_due`. -/
theorem flushReadsAndRetries : Obligations.FlushReadsAndRetries := by
  unfold Obligations.FlushReadsAndRetries
  intro s r now halive hserv c m
  refine ⟨fun hhost hwait hdue => ?read, fun l rest hout => ?returns, fun qpn q o due hq hfind _ => ?retry⟩
  case read =>
    have hexec : exec (.hostFlushRead r now) s = .next (s.put (hostFlushRead r now s.chip)) := State.run_live _ halive
    rw [hexec, hostFlushRead_due now hserv hhost hwait hdue]
  case returns =>
    have hexec : exec (.hostFlushDone r now) s = .next (s.put (hostFlushDone r now s.chip).settle) := State.runSettle_live _ halive
    rw [hexec, hostFlushDone_returns now hout]
  case retry =>
    have hexec : exec (.rnrRetry r now qpn) s = .next (s.put (rnrRetry r now qpn s.chip).settle) := State.runSettle_live _ halive
    rw [hexec, rnrRetry_due hserv hq hfind]
    refine ⟨fun hover => by rw [if_pos hover], fun hover => ?_⟩
    rw [if_neg (by rw [hover]; exact Bool.false_ne_true)]
    have hq' : (c.reach r).qp qpn = some q := (Chip.reach_at_qp ..).trans hq
    exact ⟨_, rfl, _, Chip.qp_onQp hq' rfl, rfl, rfl, fun z hz hseq => Qp.rnrDue_resent hz hseq,
      fun p hp => ⟨_, Qp.resend_resent hp, rfl, rfl⟩⟩

end Sys2Proof.Machine
end

section
/-!
The life cycle of a queue pair (R198, R200, R410, R542): what its commands do to a context, by its state and the state asked for, what a
completion leaves of a context, and the statement about them.
-/

namespace Sys2Proof

theorem Tab.find?_erase_self {α : Type} (t : Tab α) (k : Nat) : Tab.find? (Tab.erase t k) k = none := by
  induction t with
  | nil => rfl
  | cons e t ih =>
    obtain ⟨j, v⟩ := e
    by_cases hj : j = k
    · simpa [Tab.erase, hj] using ih
    · simpa [Tab.erase, hj, Tab.find?, Ne.symm hj] using ih

end Sys2Proof

namespace Sys2Proof.Machine

/-! ### What completions and other updates leave of a context -/

@[simp] theorem Chip.complete_rme (c : Chip) (r : ReachId) (ref : CmdRef) (source status : Nat) (result : Word64) :
    ((c.complete ref source status result).reach r).rme = (c.reach r).rme :=
  Chip.apart_rme (c.complete_apart ..) r

@[simp] theorem Chip.qp_complete (c : Chip) (r : ReachId) (qpn : BitVec 24) (ref : CmdRef) (source status : Nat) (result : Word64) :
    ((c.complete ref source status result).reach r).qp qpn = (c.reach r).qp qpn :=
  Reach.qp_congr (c.complete_rme ..) qpn

@[simp] theorem Chip.qp_completeOpt (c : Chip) (r : ReachId) (qpn : BitVec 24) (ref : Option CmdRef) (source status : Nat) (result : Word64) :
    ((c.completeOpt ref source status result).reach r).qp qpn = (c.reach r).qp qpn :=
  Reach.qp_congr (Chip.apart_rme (c.completeOpt_apart ..) r) qpn

@[simp] theorem Chip.qp_dropRefs (c : Chip) (r : ReachId) (qpn : BitVec 24) (l : List Nat) :
    ((c.onReach r (fun x => x.dropRefs l)).reach r).qp qpn = (c.reach r).qp qpn := by
  rw [Chip.reach_onReach]; rfl

@[simp] theorem Chip.complete_mem (c : Chip) (r : ReachId) (ref : CmdRef) (source status : Nat) (result : Word64) :
    ((c.complete ref source status result).reach r).mem = (c.reach r).mem :=
  Chip.apart_mem (c.complete_apart ..) r

@[simp] theorem Chip.completeOpt_mem (c : Chip) (r : ReachId) (ref : Option CmdRef) (source status : Nat) (result : Word64) :
    ((c.completeOpt ref source status result).reach r).mem = (c.reach r).mem :=
  Chip.apart_mem (c.completeOpt_apart ..) r

/-! ### QP_CREATE (R542) -/

/-- The context that QP_CREATE makes. -/
def Chip.createdQp (c : Chip) (r : ReachId) (f : FnId) (p : QpParams) : Qp :=
  newQp p f (c.fn f).gen ((c.reach r).planReserves r 2 (qpIndex p.qpn)) ((c.reach r).ciphIndex p.pkey)

theorem qpCreate_refused {c : Chip} {ref : CmdRef} {p : QpParams} {n : Nat} (hserv : c.inService (qpReach p.qpn) = true)
    (hcheck : c.qpCreateCheck (qpReach p.qpn) ref.fn p = some n) : qpCreate ref p c = c.complete ref (qpReach p.qpn).val n 0 := by
  simp [qpCreate, hserv, hcheck]

theorem qpCreate_made {c : Chip} {ref : CmdRef} {p : QpParams} (hserv : c.inService (qpReach p.qpn) = true)
    (hcheck : c.qpCreateCheck (qpReach p.qpn) ref.fn p = none) :
    ((qpCreate ref p c).reach (qpReach p.qpn)).qp p.qpn = some (c.createdQp (qpReach p.qpn) ref.fn p) := by
  simp only [qpCreate, hserv, hcheck, Bool.not_true, Bool.false_eq_true, if_false, Chip.qp_complete]
  exact Reach.qp_eq_some_iff.2 ⟨by simp [Chip.createdQp], rfl⟩

/-! ### QP_MODIFY (R198) -/

/-- No state but ERROR has a number beyond that of FROZEN. -/
theorem QpState.ofCode_beyond {n : Nat} (h : 4 < n) : QpState.ofCode n = .error := by
  rw [show n = n - 5 + 5 by omega]; rfl

/-- The answer of a command on a context that ends well. -/
def Chip.qpDone (c : Chip) (ref : CmdRef) (qpn : BitVec 24) : Chip := c.complete ref (qpReach qpn).val 0 (BitVec.ofNat 64 qpn.toNat)

/-- The fields that a QP_MODIFY gives are good, their address space is the function's and the receive lists of the reach have room (R197). -/
def Chip.qpFits (c : Chip) (f : FnId) (p : QpParams) : Prop :=
  p.fmt = 1 ∧ p.owner ≠ 3 ∧ p.rqDepth.toNat ≤ 4096 ∧ c.badAsid f p.asid = false
    ∧ (c.reach (qpReach p.qpn)).rme.rqPool (qpIndex p.qpn) + p.rqDepth.toNat ≤ 65536

/-- The three tests that QP_MODIFY makes of such fields. -/
theorem Chip.qpFits.checks {c : Chip} {f : FnId} {p : QpParams} (h : c.qpFits f p) :
    ¬ (!(p.fmt == 1 && p.owner != 3 && decide (p.rqDepth.toNat ≤ 4096))) = true ∧ ¬ c.badAsid f p.asid = true
      ∧ ¬ 65536 < (c.reach (qpReach p.qpn)).rme.rqPool (qpIndex p.qpn) + p.rqDepth.toNat := by
  obtain ⟨hfmt, howner, hdepth, hasid, hpool⟩ := h
  exact ⟨by simpa [hfmt, hdepth] using howner, by simp [hasid], Nat.not_lt.2 hpool⟩

section
variable {c : Chip} {ref : CmdRef} {m : QpModify} {q : Qp}
  (hserv : c.inService (qpReach m.ctx.qpn) = true) (hq : (c.reach (qpReach m.ctx.qpn)).qp m.ctx.qpn = some q)
  (hfn : q.function = ref.fn) (hlive : q.destroying = none)
include hserv hq hfn hlive

/-- A plan's context is changed by a retarget alone, in a stoppage of the plan (R410). -/
theorem qpModify_planned (hplan : q.plan = true)
    (hno : q.isRetarget m = false ∨ (c.reach (qpReach m.ctx.qpn)).planStopped (qpReach m.ctx.qpn) (qpIndex m.ctx.qpn) = false) :
    qpModify ref m c = c.complete ref (qpReach m.ctx.qpn).val 0x70 0 := by
  unfold qpModify; dsimp only
  rw [if_neg (by simp [hserv]), hq]; dsimp only
  rw [if_neg (by simp [hfn, hlive]), if_pos]
  obtain h | h := hno <;> simp [hplan, h]

variable (hplan : q.plan = false) (hret : q.isRetarget m = false)
include hplan hret

/-- The moves of a driver's context. -/
theorem qpModify_moves :
    (q.state = .reset → m.state.toNat = 1 → c.qpFits ref.fn m.ctx →
      qpModify ref m c = (c.onQp (qpReach m.ctx.qpn) m.ctx.qpn (fun q =>
        { q.give m.ctx ((c.reach (qpReach m.ctx.qpn)).ciphIndex m.ctx.pkey) with state := .init })).qpDone ref m.ctx.qpn)
    ∧ (q.state = .init → m.state.toNat = 2 → c.qpFits ref.fn m.ctx →
      qpModify ref m c = (c.onQp (qpReach m.ctx.qpn) m.ctx.qpn (fun q =>
        (q.give m.ctx ((c.reach (qpReach m.ctx.qpn)).ciphIndex m.ctx.pkey)).open (c.reach (qpReach m.ctx.qpn)).rme (c.now (qpReach m.ctx.qpn))
          m.sndPsn m.rcvPsn m.sndMsn m.rcvMsn)).qpDone ref m.ctx.qpn)
    ∧ (q.state = .ready → (m.state.toNat = 3 ∨ m.state.toNat = 4) → qpModify ref m c =
        c.onQp (qpReach m.ctx.qpn) m.ctx.qpn (fun q => { q with state := .drain, drainTo := .frozen, drainCmd := some ref }))
    ∧ (q.state = .ready → m.state.toNat = 0 → qpModify ref m c =
        c.onQp (qpReach m.ctx.qpn) m.ctx.qpn (fun q => { q with state := .drain, drainTo := .reset, drainCmd := some ref }))
    ∧ (q.state = .frozen → m.state.toNat = 0 → qpModify ref m c = (c.toReset (qpReach m.ctx.qpn) m.ctx.qpn).qpDone ref m.ctx.qpn)
    ∧ (q.state = .ready → (m.state.toNat = 1 ∨ 4 < m.state.toNat) → qpModify ref m c = c.complete ref (qpReach m.ctx.qpn).val 0x92 0) := by
  unfold qpModify; dsimp only
  rw [if_neg (by simp [hserv]), hq]; dsimp only
  rw [if_neg (by simp [hfn, hlive]), if_neg (by simp [hplan]), if_neg (by simp [hret])]
  refine ⟨fun hst hm hfits => ?_, fun hst hm hfits => ?_, fun hst hm => ?_, fun hst hm => ?_, fun hst hm => ?_, fun hst hm => ?_⟩
  · obtain ⟨hfmt, hasid, hpool⟩ := hfits.checks
    rw [hst, hm]
    simp only [QpState.ofCode]
    rw [if_neg hfmt, if_neg hasid, if_neg hpool]; rfl
  · obtain ⟨hfmt, hasid, hpool⟩ := hfits.checks
    rw [hst, hm]
    simp only [QpState.ofCode]
    rw [if_neg hfmt, if_neg hasid, if_neg hpool]; rfl
  · obtain hm | hm := hm <;> rw [hst, hm] <;> rfl
  · rw [hst, hm]; rfl
  · rw [hst, hm]; rfl
  · obtain hm | hm := hm
    · rw [hst, hm]; rfl
    · rw [hst, QpState.ofCode_beyond hm]

end

/-! ### QP_DRAIN_DONE (R198, R407) -/

section
variable {c : Chip} {r : ReachId} {now : Time} {qpn : BitVec 24} {q : Qp} (hq : (c.reach r).qp qpn = some q) (hst : q.state = .drain)
  (hops : q.ops = []) (hresps : q.resps = [])
  (hfree : (c.ten q.function).state ≠ .freezing ∨ (c.at r now).collsInFlight q.function r = false)
include hq hst hops hresps hfree

/-- A context in DRAIN leaves it once nothing holds it there. -/
theorem qpDrainDone_leaves : qpDrainDone r now qpn c =
    (if q.drainTo = .reset then (c.at r now).toReset r qpn
      else (c.at r now).onQp r qpn (fun q => { q with state := .frozen, timer := none, drainCmd := none })).completeOpt
        q.drainCmd r.val 0 (BitVec.ofNat 64 qpn.toNat) := by
  have hten : (c.at r now).ten q.function = c.ten q.function := rfl
  unfold qpDrainDone; dsimp only
  rw [Chip.reach_at_qp, hq]; dsimp only
  rw [if_neg]
  · simp only [beq_iff_eq]
  · obtain h | h := hfree
    · simp [hst, hops, hresps, hten, h]
    · simp [hst, hops, hresps, h]

end

/-! ### QP_DESTROY (R200) -/

/-- A context without operations and receives that is to be destroyed is freed at once. -/
theorem Chip.retired_frees {c : Chip} {r : ReachId} {qpn : BitVec 24} {q : Qp} {d : CmdRef} (hq : (c.reach r).qp qpn = some q)
    (hidle : q.idle = true) (hd : q.destroying = some d) :
    ((c.retired r qpn).reach r).qp qpn = none ∧ ((c.retired r qpn).reach r).mem = (c.reach r).mem := by
  unfold Chip.retired
  rw [hq]; dsimp only
  rw [if_neg (by simp [hidle]), hd]; dsimp only
  refine ⟨?_, by simp [Reach.dropRefs]⟩
  rw [Chip.qp_complete]
  simp [Reach.qp, Reach.dropRefs, Tab.find?_erase_self]

theorem Chip.qpKill_frees {c : Chip} {r : ReachId} {q : Qp} (d : CmdRef) (hq : (c.reach r).qp q.qpn = some q) (hidle : q.idle = true) :
    ((c.qpKill r q (some d)).reach r).qp q.qpn = none ∧ ((c.qpKill r q (some d)).reach r).mem = (c.reach r).mem := by
  unfold Chip.qpKill
  refine (Chip.retired_frees ((Chip.qp_completeOpt ..).trans (Chip.qp_onQp ((Chip.qp_dropRefs ..).trans hq) rfl)) ?idle rfl).imp_right
    (fun hmem => hmem.trans ?mem)
  case idle => simpa [Qp.idle] using hidle
  case mem => simp [Reach.dropRefs]

/-- A plan's context is not a driver's to destroy; the others go to ERROR to be freed. -/
theorem qpDestroy_live {c : Chip} {ref : CmdRef} {qpn : BitVec 24} {q : Qp} (hserv : c.inService (qpReach qpn) = true)
    (hq : (c.reach (qpReach qpn)).qp qpn = some q) (hfn : q.function = ref.fn) (hlive : q.destroying = none) :
    qpDestroy ref qpn c = if q.plan = true then c.complete ref (qpReach qpn).val 0x70 0 else c.qpKill (qpReach qpn) q (some ref) := by
  unfold qpDestroy; dsimp only
  rw [if_neg (by simp [hserv]), hq]; dsimp only
  rw [if_neg (by simp [hfn, hlive])]

/-- Settles O27: each command by the lemma of its name, at the context and the fields that the clause gives. -/
theorem queuePairLifeCycle : Obligations.QueuePairLifeCycle := by
  unfold Obligations.QueuePairLifeCycle
  intro s halive
  refine ⟨fun ref p htake hserv => ?create, fun ref m q => ?modify, fun r now qpn q hq hst hops hresps hfree => ?drain,
    fun ref qpn q htake hserv hq hfn hlive => ?destroy⟩
  case create =>
    have hexec : exec (.qpCreate ref p) s = .next (s.put (qpCreate ref p s.chip)) := State.runCmd_live (fun ref => qpCreate ref p) halive htake
    refine ⟨fun n hcheck => by rw [hexec, qpCreate_refused hserv hcheck], fun hcheck => ?_⟩
    exact ⟨_, _, hexec, qpCreate_made hserv hcheck, rfl, rfl, rfl, rfl, rfl, rfl⟩
  case modify =>
    intro r htake hserv hq hfn hlive
    have hexec : exec (.qpModify ref m) s = .next (s.put (qpModify ref m s.chip).settle) :=
      State.runCmdSettle_live (fun ref => qpModify ref m) halive htake
    rw [hexec]
    refine ⟨fun hplan hno => by rw [qpModify_planned hserv hq hfn hlive hplan hno], fun hplan hret => ?_⟩
    obtain ⟨hinit, hready, hdrain, hreset, hfrozen, hbad⟩ := qpModify_moves hserv hq hfn hlive hplan hret
    refine ⟨fun hst hm hfmt howner hdepth hasid hpool => ?_, fun hst hm hfmt howner hdepth hasid hpool => ?_, fun hst hm => ?_, fun hst hm => ?_,
      fun hst hm => ?_, fun hst hm => ?_⟩
    · rw [hinit hst hm ⟨hfmt, howner, hdepth, hasid, hpool⟩]; rfl
    · rw [hready hst hm ⟨hfmt, howner, hdepth, hasid, hpool⟩]; rfl
    · rw [hdrain hst hm]
    · rw [hreset hst hm]
    · rw [hfrozen hst hm]; rfl
    · rw [hbad hst hm]
  case drain =>
    have hexec : exec (.qpDrainDone r now qpn) s = .next (s.put (qpDrainDone r now qpn s.chip).settle) := State.runSettle_live _ halive
    rw [hexec, qpDrainDone_leaves hq hst hops hresps hfree]
    exact ⟨fun hto => by rw [if_neg hto], fun hto => by rw [if_pos hto]⟩
  case destroy =>
    have hexec : exec (.qpDestroy ref qpn) s = .next (s.put (qpDestroy ref qpn s.chip).settle) :=
      State.runCmdSettle_live (fun ref => qpDestroy ref qpn) halive htake
    have hqpn : q.qpn = qpn := (Reach.qp_eq_some_iff.1 hq).2
    rw [hexec, qpDestroy_live hserv hq hfn hlive]
    refine ⟨fun hplan => by rw [if_pos hplan], fun hplan hidle => ⟨_, rfl, ?_⟩⟩
    rw [if_neg (by simp [hplan])]
    subst hqpn
    exact Chip.qpKill_frees ref hq hidle

end Sys2Proof.Machine
end

section
/-!
Moorings (R204, R205): what their registration, their withdrawal and their release leave of the mooring table, and the statement about them.
-/

namespace Sys2Proof.Machine

/-! ### MOORING_REGISTER (R204) -/

/-- The entry that MOORING_REGISTER makes. -/
def Chip.newMooring (c : Chip) (r : ReachId) (f : FnId) (p : MooringParams) (runs : List Run) (i : Nat) : Mooring :=
  { valid := true, space := p.space, plan := (c.reach r).planReserves r 5 i, rights := p.rights, pkey := p.pkey,
    tag := (c.reach r).rme.nextTag i, bindEn := p.bindEn, function := f, base := p.base, length := p.length, asid := p.asid,
    bindQpn := p.bindQpn, fnGen := (c.fn f).gen, runs := runs, refs := 0, withdraw := none, inUse := true }

/-- The module with an entry at an index of a reach. -/
def Chip.setMoor (c : Chip) (r : ReachId) (i : Nat) (m : Mooring) : Chip :=
  c.onRme r (fun x => { x with moorings := Tab.set x.moorings i m })

@[simp] theorem Chip.setMoor_moorings (c : Chip) (r : ReachId) (i : Nat) (m : Mooring) :
    ((c.setMoor r i m).reach r).rme.moorings = Tab.set (c.reach r).rme.moorings i m := by simp [Chip.setMoor]

@[simp] theorem Chip.setMoor_mem (c : Chip) (r : ReachId) (i : Nat) (m : Mooring) : ((c.setMoor r i m).reach r).mem = (c.reach r).mem := by
  simp [Chip.setMoor]

/-- A good range of a function with the key and the quota for it takes the lowest free index. -/
theorem mooringRegister_places {c : Chip} {ref : CmdRef} {r : ReachId} {p : MooringParams} {runs : List Run} {i : Nat}
    (hserv : c.inService r = true) (hfmt : p.fmt = 1) (hspace : p.space ≠ 3) (hasid : p.space = 0 → c.badAsid ref.fn p.asid = false)
    (hrange : c.moorRange r ref.fn p = some runs) (hkey : c.holdsKey ref.fn r p.pkey.toNat = true) (hquota : c.moorQuotaFull r ref.fn = false)
    (hfree : (c.reach r).rme.freeMoor = some i) : mooringRegister ref r p c =
      (c.setMoor r i (c.newMooring r ref.fn p runs i)).complete ref r.val 0
        (BitVec.ofNat 64 (i + r.val * 2 ^ 15 + ((c.reach r).rme.nextTag i).toNat * 2 ^ 17)) := by
  unfold mooringRegister; dsimp only
  rw [if_neg (by simp [hserv]), if_neg (by simpa [hfmt] using hspace), if_neg (by simpa using hasid), hrange]; dsimp only
  rw [if_neg (by simp [hkey]), if_neg (by simp [hquota]), hfree]
  rfl

/-! ### MOORING_WITHDRAW and MOORING_RELEASE (R205) -/

/-- An entry of its function that the key names takes no new access, and goes once no reference is left. -/
theorem mooringWithdraw_withdraws {c : Chip} {ref : CmdRef} {key : Word32} {r : ReachId} {m : Mooring} (hr : r.val = key.toNat / 2 ^ 15 % 4)
    (hserv : c.inService r = true) (hfind : Tab.find? (c.reach r).rme.moorings (natBits key.toNat 0 15) = some m) (hvalid : m.valid = true)
    (htag : m.tag.toNat = natBits key.toNat 17 15) (hfn : m.function = ref.fn) (hplan : m.plan = false) : mooringWithdraw ref key c =
      (c.setMoor r (natBits key.toNat 0 15) { m with valid := false, withdraw := some ref }).releaseMoor r (natBits key.toNat 0 15) := by
  obtain rfl : r = ⟨key.toNat / 2 ^ 15 % 4, Nat.mod_lt _ (by decide)⟩ := Fin.ext hr
  unfold mooringWithdraw; dsimp only
  rw [if_neg (by rw [hserv]; decide), hfind]; dsimp only
  rw [if_neg (by simp [hvalid, htag, hfn]), if_neg (by simp [hplan])]
  rfl

section
variable {c : Chip} {r : ReachId} {i : Nat} {m : Mooring} {ref : CmdRef} (hfind : Tab.find? (c.reach r).rme.moorings i = some m)
  (hgone : m.withdraw = some ref)
include hfind hgone

theorem Chip.releaseMoor_held (hrefs : m.refs ≠ 0) : c.releaseMoor r i = c := by
  simp [Chip.releaseMoor, hfind, hgone, hrefs]

theorem Chip.releaseMoor_free (hrefs : m.refs = 0) : Tab.find? ((c.releaseMoor r i).reach r).rme.moorings i =
    some { m with valid := false, runs := [], withdraw := none, inUse := false } := by
  simp [Chip.releaseMoor, hfind, hgone, hrefs]

end

/-- Settles O28: the entry that a registration makes by `mooringRegister_places`, the release by `Chip.releaseMoor_held` and
`Chip.releaseMoor_free`. -/
theorem mooringsComeAndGo : Obligations.MooringsComeAndGo := by
  unfold Obligations.MooringsComeAndGo
  intro s halive
  refine ⟨fun ref r p runs i htake hserv hfmt hspace hasid hrange hkey hquota hfree => ?register,
    fun ref key r m hr htake hserv hfind hvalid htag hfn hplan => ?withdraw, fun r now idx => State.runSettle_live _ halive,
    fun c r i m ref hfind hgone => ⟨Chip.releaseMoor_held hfind hgone,
      fun hrefs => ⟨_, Chip.releaseMoor_free hfind hgone hrefs, rfl, rfl, rfl, rfl⟩⟩⟩
  case register =>
    have hexec : exec (.mooringRegister ref r p) s = .next (s.put (mooringRegister ref r p s.chip)) :=
      State.runCmd_live (fun ref => mooringRegister ref r p) halive htake
    rw [mooringRegister_places hserv hfmt hspace hasid hrange hkey hquota hfree] at hexec
    exact ⟨_, s.chip.newMooring r ref.fn p runs i, hexec, by simp, rfl, rfl, rfl, rfl, rfl, rfl, rfl, rfl, rfl,
      fun j hj => by simp [Tab.find?_set_ne _ _ hj], by simp⟩
  case withdraw =>
    have hexec : exec (.mooringWithdraw ref key) s = .next (s.put (mooringWithdraw ref key s.chip).settle) :=
      State.runCmdSettle_live (fun ref => mooringWithdraw ref key) halive htake
    rw [hexec, mooringWithdraw_withdraws hr hserv hfind hvalid htag hfn hplan]
    rfl

end Sys2Proof.Machine
end

section
/-!
Packets at the RME (R206, R226, R232, R236, R241): what a reach's contexts have in hand and what its memories hold, what the checks of a
packet, its answers and its drops leave of both, and the statement about them.
-/

namespace Sys2Proof

theorem Tab.find?_update_ne {α : Type} (t : Tab α) {k j : Nat} (f : α → α) (h : j ≠ k) : Tab.find? (Tab.update t k f) j = Tab.find? t j := by
  unfold Tab.update
  split
  · exact Tab.find?_set_ne t _ h
  · rfl

end Sys2Proof

namespace Sys2Proof.Machine

/-! ### The work of a context and the data of a reach -/

/-- What a context has in hand: its operations and receives, what arrives at it, the packet that it expects, its state. -/
structure QpWork where
  ops : List RmeOp
  recvs : List PostedRecv
  inOps : List InOp
  rcvNxt : BitVec 24
  state : QpState

/-- The work of one context. -/
def Qp.work (q : Qp) : QpWork := { ops := q.ops, recvs := q.recvs, inOps := q.inOps, rcvNxt := q.rcvNxt, state := q.state }

/-- The work of each context of a reach. -/
def Chip.works (c : Chip) (r : ReachId) (qpn : BitVec 24) : Option QpWork := ((c.reach r).qp qpn).map Qp.work

/-- The memories that a packet's bytes may go to: device memory, the tiles' scratchpads, host memory. -/
def Chip.data (c : Chip) (r : ReachId) : MemState × Tab Tile × HostPort := ((c.reach r).mem, (c.reach r).tiles, c.host)

/-- All that a refused packet leaves: the work of every context and the memories. -/
def Chip.standing (c : Chip) (r : ReachId) : (BitVec 24 → Option QpWork) × (MemState × Tab Tile × HostPort) := (c.works r, c.data r)

theorem Chip.works_eq_of_qps {c d : Chip} {r : ReachId} (h : (d.reach r).rme.qps = (c.reach r).rme.qps) : d.works r = c.works r := by
  funext qpn
  simp only [Chip.works, Reach.qp, h]

/-- A change of the RME that leaves its contexts. -/
theorem Chip.standing_onRme {c : Chip} {r : ReachId} {f : Rme → Rme} (h : (f (c.reach r).rme).qps = (c.reach r).rme.qps) :
    (c.onRme r f).standing r = c.standing r := by
  have hqps : ((c.onRme r f).reach r).rme.qps = (c.reach r).rme.qps := by simpa using h
  simp [Chip.standing, Chip.works_eq_of_qps hqps, Chip.data]

@[simp] theorem Chip.standing_onRtr (c : Chip) (r : ReachId) (f : Router → Router) : (c.onRtr r f).standing r = c.standing r := by
  simp [Chip.standing, Chip.works_eq_of_qps (c := c) (d := c.onRtr r f), Chip.data]

/-- A change of a context that leaves its number and its work. -/
theorem Chip.standing_onQp {c : Chip} {r : ReachId} {k : BitVec 24} {f : Qp → Qp} (hf : ∀ q, (f q).qpn = q.qpn ∧ (f q).work = q.work) :
    (c.onQp r k f).standing r = c.standing r := by
  refine Prod.ext (funext fun qpn => ?_) (by simp [Chip.standing, Chip.data, Chip.onQp])
  by_cases hidx : qpIndex qpn = qpIndex k
  · simp only [Chip.standing, Chip.works, Reach.qp, Chip.onQp, Chip.reach_onRme, hidx, Tab.find?_update_self]
    cases Tab.find? (c.reach r).rme.qps (qpIndex k) with
    | none => rfl
    | some q =>
      obtain ⟨hqpn, hwork⟩ := hf q
      by_cases hk : q.qpn = k <;> by_cases hq : q.qpn = qpn <;> simp_all
  · simp [Chip.standing, Chip.works, Reach.qp, Chip.onQp, Tab.find?_update_ne _ _ hidx]

/-! ### Answers -/

@[simp] theorem Chip.standing_sendFrt (c : Chip) (r : ReachId) (dest : FrtTo) (y : FrtSay) :
    (c.sendFrt r dest y).1.standing r = c.standing r := by
  have hstamp : ∀ t, (c.onRme r (fun m => { m with lastTxStamp := t })).standing r = c.standing r := fun t => Chip.standing_onRme rfl
  unfold Chip.sendFrt Chip.stamp; dsimp only
  split
  · exact hstamp _
  · exact (Chip.standing_onRtr ..).trans (hstamp _)

@[simp] theorem Chip.standing_sendNak (c : Chip) (r : ReachId) (dest : FrtTo) (code status : Nat) (msn cum : BitVec 24) :
    (c.sendNak r dest code status msn cum).standing r = c.standing r := by simp [Chip.sendNak]

@[simp] theorem Chip.standing_sendAck (c : Chip) (r : ReachId) (qpn : BitVec 24) : (c.sendAck r qpn).standing r = c.standing r := by
  unfold Chip.sendAck
  split
  · rfl
  · dsimp only
    rw [Chip.standing_onQp, Chip.standing_sendFrt]
    exact fun _ => ⟨rfl, rfl⟩

/-- What the next ACK says of a packet is no work of the context. -/
theorem Qp.account_keeps (q : Qp) (p : FrtPacket) (steady : Bool) (now : Time) :
    (q.account p steady now).qpn = q.qpn ∧ (q.account p steady now).work = q.work := by
  unfold Qp.account; split <;> exact ⟨rfl, rfl⟩

/-- A duplicate draws an answer and nothing else. -/
theorem Chip.standing_dupPacket (c : Chip) (r : ReachId) (q : Qp) (p : FrtPacket) : (c.dupPacket r q p).standing r = c.standing r := by
  have hacc : ∀ steady now, (c.onQp r q.qpn (fun q => q.account p steady now)).standing r = c.standing r :=
    fun steady now => Chip.standing_onQp fun q => q.account_keeps p steady now
  unfold Chip.dupPacket; dsimp only
  split
  · split <;> simp [hacc]
  · simp [hacc]

/-! ### Writes through runs leave the contexts -/

theorem Reach.writePhys_rme (x : Reach) (pa : Nat) (bs : List Byte) : (x.writePhys pa bs).rme = x.rme := by
  unfold Reach.writePhys; dsimp only; split <;> rfl

theorem Reach.countLines_rme (x : Reach) (pa n : Nat) (write : Bool) : (x.countLines pa n write).rme = x.rme := by
  unfold Reach.countLines; dsimp only
  split
  · rfl
  · refine List.foldlRecOn (motive := fun y : Reach => y.rme = x.rme) _ _ rfl (fun y hy i _ => ?_)
    split <;> exact hy

theorem Chip.serveWrite_rme (c : Chip) (r : ReachId) (by_ pa : Nat) (bs : List Byte) :
    ((c.serveWrite r by_ pa bs).reach r).rme = (c.reach r).rme := by
  have htdc : ∀ (d : Chip) cause fn src a b, ((d.tdc r cause fn src a b).reach r).rme = (d.reach r).rme :=
    fun d cause fn src a b => Chip.apart_rme (d.tdc_apart r cause fn src a b) r
  unfold Chip.serveWrite; dsimp only
  rw [forEach_keeps (fun d : Chip => (d.reach r).rme) (fun d e => forEach_keeps (fun d : Chip => (d.reach r).rme) (fun d i => htdc ..) _ d)]
  rw [Chip.reach_onReach]
  refine List.foldlRecOn (motive := fun y : Reach => y.rme = (c.reach r).rme) _ _ ?_ (fun y hy e _ => (Reach.writePhys_rme ..).trans hy)
  rw [Chip.reach_onReach]
  exact (Reach.countLines_rme ..).trans (Reach.writePhys_rme ..)

theorem Chip.storeRuns_rme (c : Chip) (r : ReachId) (by_ : Nat) (runs : List Run) (off : Nat) (bs : List Byte) :
    ((c.storeRuns r by_ runs off bs).reach r).rme = (c.reach r).rme := by
  unfold Chip.storeRuns
  refine List.foldlRecOn (motive := fun s : Chip × Nat => (s.1.reach r).rme = (c.reach r).rme) _ _ rfl (fun s hs x _ => ?_)
  dsimp only
  split
  · exact hs
  · split
    · rw [Chip.reach_onReach, Reach.writePhys_rme, hs]
    · rw [Chip.serveWrite_rme, hs]

/-- The bytes of a barge whose tag fails stand; the contexts do not see them (R236). -/
theorem Chip.untrusted_rme (c : Chip) (r : ReachId) (q : Qp) (p : FrtPacket) (bs : List Byte) :
    ((c.untrusted r q p bs).reach r).rme = (c.reach r).rme := by
  unfold Chip.untrusted
  split
  · exact Chip.storeRuns_rme ..
  · rfl

/-! ### The checks of a packet (R206, R236) -/

/-- A module before and after the checks of a packet: the work of every context is as it was, and so are the memories but where the tag of an
encrypted packet fails, which is counted. -/
def Chip.checked (c : Chip) (r : ReachId) (p : FrtPacket) (d : Chip) : Prop :=
  d.works r = c.works r ∧ (d.data r = c.data r ∨ (p.ciph = true ∧ (d.reach r).rme.dropTag = (c.reach r).rme.dropTag + 1))

theorem Chip.checked_of_standing {c d : Chip} {r : ReachId} (p : FrtPacket) (h : d.standing r = c.standing r) : c.checked r p d :=
  ⟨congrArg Prod.fst h, .inl (congrArg Prod.snd h)⟩

theorem Chip.checked_onQp {c d : Chip} {r : ReachId} {p : FrtPacket} {k : BitVec 24} {f : Qp → Qp} (h : c.checked r p d)
    (hf : ∀ q, (f q).qpn = q.qpn ∧ (f q).work = q.work) : c.checked r p (d.onQp r k f) := by
  have hstands : (d.onQp r k f).standing r = d.standing r := Chip.standing_onQp hf
  have htag : ((d.onQp r k f).reach r).rme.dropTag = (d.reach r).rme.dropTag := by simp [Chip.onQp]
  obtain ⟨hworks, hdata⟩ := h
  refine ⟨(congrArg Prod.fst hstands).trans hworks, hdata.imp (congrArg Prod.snd hstands).trans (And.imp_right htag.trans)⟩

theorem Chip.openFrt_checked (c : Chip) (r : ReachId) (q : Qp) (p : FrtPacket) : c.checked r p (c.openFrt r q p).1 := by
  unfold Chip.openFrt
  split
  · split
    · exact Chip.checked_of_standing p (Chip.standing_onRme rfl)
    · exact Chip.checked_of_standing p rfl
  next hciph =>
    split
    · refine ⟨Chip.works_eq_of_qps (by simp), .inl (by simp [Chip.data])⟩
    · dsimp only
      split
      · exact Chip.checked_of_standing p rfl
      · exact ⟨Chip.works_eq_of_qps (by simp [Chip.untrusted_rme]), .inr ⟨by simpa using hciph, by simp [Chip.untrusted_rme]⟩⟩

theorem Chip.receive_checked (c : Chip) (r : ReachId) (p : FrtPacket) (ty : BitVec 4) : c.checked r p (c.receive r p ty).1 := by
  have htaken : (c.onRme r (fun m => { m with inbox := m.inbox.erase p })).standing r = c.standing r := Chip.standing_onRme rfl
  have htag : ((c.onRme r (fun m => { m with inbox := m.inbox.erase p })).reach r).rme.dropTag = (c.reach r).rme.dropTag := by simp
  unfold Chip.receive; dsimp only
  generalize c.onRme r (fun m => { m with inbox := m.inbox.erase p }) = d at htaken htag ⊢
  have hdrop : ∀ f : Rme → Rme, (f (d.reach r).rme).qps = (d.reach r).rme.qps → c.checked r p (d.dropFrt r f) :=
    fun f hf => Chip.checked_of_standing p ((Chip.standing_onRme hf).trans htaken)
  -- The checks in the order of `Chip.receive`: the packet's own first, then, by the context that it names, those of the context.
  split
  · exact hdrop _ rfl
  split
  · exact hdrop _ rfl
  split
  · exact hdrop _ rfl
  split
  case h_1 => exact Chip.checked_of_standing p (by dsimp only; split <;> simp [htaken])
  case h_2 q _ =>
    split
    · exact Chip.checked_of_standing p (by dsimp only; split <;> simp [htaken])
    split
    · refine Chip.checked_of_standing p ((Chip.standing_onQp fun q => ?_).trans (by split <;> simp [htaken]))
      split
      · split <;> exact ⟨rfl, rfl⟩
      · exact ⟨rfl, rfl⟩
    split
    · exact hdrop _ rfl
    split
    · exact Chip.checked_of_standing p (by dsimp only; split <;> simp [htaken])
    · obtain ⟨hworks, hdata⟩ := d.openFrt_checked r q p
      have hopen : c.checked r p (d.openFrt r q p).1 :=
        ⟨hworks.trans (congrArg Prod.fst htaken), hdata.imp (fun h => h.trans (congrArg Prod.snd htaken)) (fun ⟨hc, h⟩ => ⟨hc, htag ▸ h⟩)⟩
      exact Chip.checked_onQp hopen fun q => ⟨rfl, rfl⟩

/-! ### What `standing` says -/

theorem Chip.data_eq_iff {c d : Chip} {r : ReachId} :
    d.data r = c.data r ↔ (d.reach r).mem = (c.reach r).mem ∧ (d.reach r).tiles = (c.reach r).tiles ∧ d.host = c.host := by
  simp [Chip.data]

theorem Chip.qp_of_works {c d : Chip} {r : ReachId} (h : d.works r = c.works r) {qpn : BitVec 24} {q : Qp} (hq : (c.reach r).qp qpn = some q) :
    ∃ q', (d.reach r).qp qpn = some q' ∧ q'.ops = q.ops ∧ q'.recvs = q.recvs ∧ q'.inOps = q.inOps ∧ q'.rcvNxt = q.rcvNxt
      ∧ q'.state = q.state := by
  have hwork : ((d.reach r).qp qpn).map Qp.work = some q.work := (congrFun h qpn).trans (by simp [Chip.works, hq])
  obtain ⟨q', hq', he⟩ := Option.map_eq_some_iff.1 hwork
  exact ⟨q', hq', congrArg QpWork.ops he, congrArg QpWork.recvs he, congrArg QpWork.inOps he, congrArg QpWork.rcvNxt he,
    congrArg QpWork.state he⟩

/-- A packet of operations outside the window, or a duplicate, arrives at no operation (R241). -/
theorem Chip.standing_opArrives {c : Chip} {r : ReachId} {q : Qp} {p : FrtPacket} (e : OpExt)
    (h : q.classOf p.psn = .duplicate ∨ q.classOf p.psn = .outside) : (c.opArrives r q p e).standing r = c.standing r := by
  unfold Chip.opArrives
  obtain h | h := h
  · rw [h]; exact Chip.standing_dupPacket ..
  · rw [h]; exact Chip.standing_onRme rfl

/-! ### The packets of each type -/

section
variable {c d : Chip} {r : ReachId} {now : Time} {p p' : FrtPacket} {q : Qp} (hserv : c.inService r = true)
include hserv

/-- A packet that was dropped or answered does nothing more. -/
theorem frtRx_refused :
    ((c.at r now).receive r p frtData = (d, none) → frtDataRx r now p c = d)
    ∧ ((c.at r now).receive r p frtReadReq = (d, none) → frtReadReqRx r now p c = d)
    ∧ ((c.at r now).receive r p frtReadResp = (d, none) → frtReadRespRx r now p c = d) := by
  have hserv : ¬ (!(c.at r now).inService r) = true := by simp [hserv]
  refine ⟨fun h => ?_, fun h => ?_, fun h => ?_⟩
  · unfold frtDataRx; dsimp only; rw [if_neg hserv, h]
  · unfold frtReadReqRx; dsimp only; rw [if_neg hserv, h]
  · unfold frtReadRespRx; dsimp only; rw [if_neg hserv, h]

theorem frtDataRx_arrives {e : OpExt} (h : (c.at r now).receive r p frtData = (d, some (q, p'))) (hext : p'.ext = .op e)
    (hop : e.op = 0 ∨ e.op = 1 ∨ e.op = 3 ∨ e.op = 5) : frtDataRx r now p c = d.opArrives r q p' e := by
  unfold frtDataRx; dsimp only
  rw [if_neg (by simp [hserv]), h]; dsimp only
  rw [hext]; dsimp only
  rw [if_pos (by simpa [or_assoc] using hop)]

theorem frtReadReqRx_arrives {e : OpExt} (h : (c.at r now).receive r p frtReadReq = (d, some (q, p'))) (hext : p'.ext = .op e)
    (hop : e.op = 2) : frtReadReqRx r now p c = d.opArrives r q p' e := by
  unfold frtReadReqRx; dsimp only
  rw [if_neg (by simp [hserv]), h]; dsimp only
  rw [hext]; dsimp only
  rw [if_pos (by simp [hop])]

/-- A response by the class of its PSN (R241). -/
theorem frtReadRespRx_class {e : RespExt} (h : (c.at r now).receive r p frtReadResp = (d, some (q, p'))) (hext : p'.ext = .resp e) :
    (q.classOf p'.psn = .inOrder → frtReadRespRx r now p c =
      ((d.accept r q p' .inOrder).landResp r q.qpn p' e).afterPacket r q.qpn p' .inOrder)
    ∧ (q.classOf p'.psn = .ahead → (q.roSlot ≠ 0x1FFF ∨ (d.reach r).rme.freeSlot ≠ none) → frtReadRespRx r now p c =
      ((d.accept r q p' .ahead).landResp r q.qpn p' e).afterPacket r q.qpn p' .ahead)
    ∧ (q.classOf p'.psn = .duplicate → frtReadRespRx r now p c = d.dupPacket r q p')
    ∧ (q.classOf p'.psn = .outside → frtReadRespRx r now p c = d.onRme r (fun m => { m with dropWindow := m.dropWindow + 1 })) := by
  unfold frtReadRespRx; dsimp only
  rw [if_neg (by simp [hserv]), h]; dsimp only
  rw [hext]; dsimp only
  refine ⟨fun hc => ?_, fun hc hslot => ?_, fun hc => ?_, fun hc => ?_⟩
  · rw [hc]; rfl
  · rw [hc]; dsimp only
    rw [if_neg]
    obtain hslot | hslot := hslot
    · simpa using fun h => absurd h hslot
    · simpa using fun _ => hslot
  · rw [hc]
  · rw [hc]; rfl

end

/-- Settles O30: the packets of each type by the lemma of their type; what a refused one leaves by `Chip.receive_checked` and
`Chip.standing_opArrives`. -/
theorem packetsArriveOrAreRefused : Obligations.PacketsArriveOrAreRefused := by
  unfold Obligations.PacketsArriveOrAreRefused
  refine ⟨fun s r now p p' q d halive hserv => ?arrive, fun c d r p ty hrecv => ?refused, fun c r q p e hq hcls => ?unclassed⟩
  case arrive =>
    have hdata : exec (.frtDataRx r now p) s = .next (s.put (frtDataRx r now p s.chip).settle) := State.runSettle_live _ halive
    have hreq : exec (.frtReadReqRx r now p) s = .next (s.put (frtReadReqRx r now p s.chip).settle) := State.runSettle_live _ halive
    have hresp : exec (.frtReadRespRx r now p) s = .next (s.put (frtReadRespRx r now p s.chip).settle) := State.runSettle_live _ halive
    obtain ⟨hnoData, hnoReq, hnoResp⟩ := frtRx_refused (d := d) (now := now) (p := p) hserv
    refine ⟨fun h => by rw [hdata, hnoData h], fun h => by rw [hreq, hnoReq h], fun h => by rw [hresp, hnoResp h],
      fun e h hext hop => by rw [hdata, frtDataRx_arrives hserv h hext hop],
      fun e h hext hop => by rw [hreq, frtReadReqRx_arrives hserv h hext hop], fun e h hext => ?_⟩
    obtain ⟨hin, hahead, hdup, hout⟩ := frtReadRespRx_class hserv h hext
    rw [hresp]
    exact ⟨fun hc => by rw [hin hc], fun hc hslot => by rw [hahead hc hslot], fun hc => by rw [hdup hc], fun hc => by rw [hout hc]⟩
  case refused =>
    have hchecked := c.receive_checked r p ty
    rw [hrecv] at hchecked
    obtain ⟨hworks, hdata⟩ := hchecked
    refine ⟨fun hclear => Chip.data_eq_iff.1 ?_, fun qpn q hq => Chip.qp_of_works hworks hq⟩
    obtain hdata | ⟨hciph, htag⟩ := hdata
    · exact hdata
    · obtain hplain | hsame := hclear
      · exact absurd (hplain.symm.trans hciph) Bool.false_ne_true
      · exact absurd (hsame.symm.trans htag) (by simp)
  case unclassed =>
    have hstands := Chip.standing_opArrives (c := c) (r := r) e hcls
    obtain ⟨hmem, htiles, hhost⟩ := Chip.data_eq_iff.1 (congrArg Prod.snd hstands)
    obtain ⟨q', hq', hops, hrecvs, hinOps, hnxt, -⟩ := Chip.qp_of_works (congrArg Prod.fst hstands) hq
    exact ⟨hmem, htiles, hhost, q', hq', hops, hrecvs, hinOps, hnxt⟩

end Sys2Proof.Machine
end

section
/-!
The transport at its two ends (R231, R232, R240 to R245, R248, R249): what handing a packet to the router leaves, the sequence classes, answers
and timer expiries at the source, and the statements about them.
-/

namespace Sys2Proof

/-- Fields of a packet that its source settles before it encrypts the payload and computes the trailers: PSN, transmit time, destination, RETX,
extension. -/
def FrtPacket.told (p : FrtPacket) : BitVec 24 × Time × Word16 × BitVec 24 × Bool × FrtExt := (p.psn, p.txTime, p.dst, p.dstQpn, p.retx, p.ext)

end Sys2Proof

namespace Sys2Proof.Machine

/-! ### Sequence classes (R240, R241) -/

theorem dist24_add (a : BitVec 24) {k : Nat} (hk : k < 2 ^ 24) : dist24 a (a + BitVec.ofNat 24 k) = k := by
  unfold dist24
  rw [BitVec.add_comm, BitVec.add_sub_cancel, BitVec.toNat_ofNat, Nat.mod_eq_of_lt hk]

/-- Settles O31: by the distance from RCV_NXT, in the ranges of table "Receive classes". -/
theorem receiveClassesPartition : Obligations.ReceiveClassesPartition := by
  unfold Obligations.ReceiveClassesPartition
  intro q k hk psn
  have hdist : dist24 q.rcvNxt psn = k := dist24_add q.rcvNxt hk
  unfold Qp.classOf
  rw [hdist]; dsimp only
  by_cases hzero : k = 0
  · rw [if_pos hzero]; simp [hzero]
  rw [if_neg hzero]
  have hpos : 1 ≤ k := Nat.one_le_iff_ne_zero.2 hzero
  by_cases hnear : k < 128
  · have hlow : ¬ 128 ≤ k := Nat.not_le.2 hnear
    have hfirst : k < 8388608 := by omega
    rw [if_pos hnear]
    cases q.ahead.contains psn <;> simp [hzero, hpos, hnear, hlow, hfirst]
  rw [if_neg hnear]
  by_cases hback : 2 ^ 23 ≤ k
  · rw [if_pos hback]; simp only [reduceCtorEq, false_iff, true_iff]; omega
  · rw [if_neg hback]; simp only [reduceCtorEq, false_iff, true_iff]; omega

/-! ### Answers at the source (R231, R232, R243) -/

/-- The module once a NAK's CUM_PSN has counted as an acknowledgement (R232). -/
def Chip.nakCounted (d : Chip) (r : ReachId) (q : Qp) (cum : BitVec 24) : Chip :=
  (d.onQp r q.qpn (fun _ => d.cumAck r q cum)).endResps r q.qpn

section
variable {c d : Chip} {r : ReachId} {now : Time} {p p' : FrtPacket} {q : Qp} (hserv : c.inService r = true)
include hserv

/-- An answer that was dropped does nothing more. -/
theorem frtAnswer_refused :
    ((c.at r now).receive r p frtAck = (d, none) → frtAckRx r now p c = d)
    ∧ ((c.at r now).receive r p frtNak = (d, none) → frtNakRx r now p c = d) := by
  have hserv : ¬ (!(c.at r now).inService r) = true := by simp [hserv]
  refine ⟨fun h => ?_, fun h => ?_⟩
  · unfold frtAckRx; dsimp only; rw [if_neg hserv, h]
  · unfold frtNakRx; dsimp only; rw [if_neg hserv, h]

theorem frtAckRx_acks {e : AckExt} (h : (c.at r now).receive r p frtAck = (d, some (q, p'))) (hext : p'.ext = .ack e) :
    frtAckRx r now p c = (d.onQp r q.qpn (fun _ => d.ackQp r q e)).endResps r q.qpn := by
  unfold frtAckRx; dsimp only
  rw [if_neg (by simp [hserv]), h]; dsimp only
  rw [hext]

/-- A NAK by its code, for the operation that it names. -/
theorem frtNakRx_answers {e : NakExt} {o : RmeOp} (h : (c.at r now).receive r p frtNak = (d, some (q, p'))) (hext : p'.ext = .nak e)
    (hop : q.ops.find? (fun o => o.msn == some e.msn && o.status.isNone) = some o) :
    frtNakRx r now p c =
      let c := d.nakCounted r q e.cumPsn
      if e.code.toNat = nakGone then c.failOp r q.qpn o.seq 0x6B
      else if e.code.toNat = nakStatus then c.failOp r q.qpn o.seq e.status.toNat
      else if (e.code.toNat = nakWait ∨ e.code.toNat = nakNoRecv) ∧ q.state ≠ .error then
        (c.onQp r q.qpn (fun q => q.rnr o (e.code.toNat == nakWait) (c.now r))).onReach r (fun x => x.gaugeAdd 2 (qpIndex q.qpn) 5 1)
      else c := by
  unfold frtNakRx; dsimp only
  rw [if_neg (by simp [hserv]), h]; dsimp only
  rw [hext]; dsimp only
  rw [hop]
  rfl

end

/-- An acknowledgement within the send window moves SND_UNA and drops the packets before it. -/
theorem Chip.cumAck_progress {c : Chip} {r : ReachId} {q : Qp} {cum : BitVec 24} (hlo : 1 ≤ dist24 q.sndUna cum)
    (hhi : dist24 q.sndUna cum ≤ 128) : (c.cumAck r q cum).sndUna = cum
      ∧ (c.cumAck r q cum).out = q.out.filter (fun p => !before24 p.psn cum) ∧ (c.cumAck r q cum).retries = 0
      ∧ (c.cumAck r q cum).ops = q.ops := by
  unfold Chip.cumAck; dsimp only
  rw [if_neg (by omega)]
  unfold Chip.restartTimer
  split <;> exact ⟨rfl, rfl, rfl, rfl⟩

/-- Settles O32: answers by the lemma of their type, a NAK by its code; SND_UNA by `Chip.cumAck_progress`. -/
theorem answersReachTheirOperations : Obligations.AnswersReachTheirOperations := by
  unfold Obligations.AnswersReachTheirOperations
  refine ⟨fun s r now p p' q d halive hserv => ?answers, fun c r q cum hlo hhi => Chip.cumAck_progress hlo hhi⟩
  have hack : exec (.frtAckRx r now p) s = .next (s.put (frtAckRx r now p s.chip).settle) := State.runSettle_live _ halive
  have hnak : exec (.frtNakRx r now p) s = .next (s.put (frtNakRx r now p s.chip).settle) := State.runSettle_live _ halive
  obtain ⟨hnoAck, hnoNak⟩ := frtAnswer_refused (d := d) (now := now) (p := p) hserv
  refine ⟨fun h => by rw [hack, hnoAck h], fun h => by rw [hnak, hnoNak h], fun e h hext => by rw [hack, frtAckRx_acks hserv h hext],
    fun e o h hext hop => ?_⟩
  rw [hnak, frtNakRx_answers hserv h hext hop]
  refine ⟨fun hcode => ?gone, fun hcode => ?status, fun hcode hstate => ?wait⟩
  case gone => rw [hcode]; rfl
  case status => rw [hcode]; rfl
  case wait =>
    obtain hcode | hcode := hcode
    · rw [hcode]; dsimp only
      rw [if_neg (by decide), if_neg (by decide), if_pos ⟨.inl rfl, hstate⟩]; rfl
    · rw [hcode]; dsimp only
      rw [if_neg (by decide), if_neg (by decide), if_pos ⟨.inr rfl, hstate⟩]; rfl

/-! ### The retransmission timer (R243, R248, R249) -/

/-- The timer of a context stands by a packet of the lock class that its window is still to carry (R249). -/
def Chip.timerHeld (c : Chip) (r : ReachId) (q : Qp) : Prop :=
  q.leadClass.1 = 6 ∧ ∃ l, q.lead = some l ∧ c.uncarried r q l.1 = true

theorem Chip.timerHeld_iff {c : Chip} {r : ReachId} {q : Qp} :
    (q.leadClass.1 == 6 && q.lead.any (fun l => c.uncarried r q l.1)) = true ↔ c.timerHeld r q := by
  simp only [Bool.and_eq_true, beq_iff_eq, Option.any_eq_true]
  rfl

/-- What an expiry comes to, by the state of the context and its count of retries. -/
theorem retransmitTimer_expired {c : Chip} {r : ReachId} {now : Time} {qpn : BitVec 24} {q : Qp} {due : Time} (hserv : c.inService r = true)
    (hq : (c.reach r).qp qpn = some q) (htimer : q.timer = some due) (hdue : notBefore due ((c.at r now).now r) = true) :
    retransmitTimer r now qpn c =
      if q.state == .error then (c.at r now).onQp r qpn Qp.abandon
      else if q.leadClass.1 == 6 && q.lead.any (fun l => (c.at r now).uncarried r q l.1) then c.at r now
      else if q.retries == 7 then (c.at r now).retryExceeded r q
      else (c.at r now).onQp r qpn (fun _ => (c.at r now).expire r q) := by
  unfold retransmitTimer; dsimp only
  rw [Chip.reach_at_qp, hq]; dsimp only
  rw [htimer]; dsimp only
  rw [if_neg (by simp [hserv, hdue])]

/-- A packet that no acknowledgement has named goes again, but one of an operation whose resend is not due (R211, R243). -/
theorem Chip.resend_expire (c : Chip) (r : ReachId) {q : Qp} {p : OutPkt} (hp : p ∈ q.out) (hsack : p.sacked = false)
    (hsend : p.isResp = true ∨ ∃ o, q.op? p.op = some o ∧ o.rnrDue = none) :
    { p with resend := true, carried := none } ∈ (c.expire r q).out := by
  refine List.mem_map.2 ⟨p, hp, ?_⟩
  obtain hresp | ⟨o, ho, hdue⟩ := hsend
  · simp [hsack, hresp]
  · simp [hsack, ho, hdue]

/-- The context that an eighth expiry leaves: every operation and receive has its status. -/
theorem Qp.abandon_done (q : Qp) : q.abandon.timer = none ∧ (∀ o ∈ q.abandon.ops, o.status.isSome = true)
    ∧ (∀ x ∈ q.abandon.recvs, x.status.isSome = true) ∧ q.abandon.ops.map (fun o => o.entry) = q.ops.map (fun o => o.entry) := by
  refine ⟨rfl, fun o ho => ?_, fun x hx => ?_, ?_⟩
  · obtain ⟨o, -, rfl⟩ := List.mem_map.1 ho
    cases o.status <;> rfl
  · obtain ⟨x, -, rfl⟩ := List.mem_map.1 hx
    cases x.status <;> rfl
  · exact List.map_map

/-- The eighth expiry puts the context in ERROR and abandons its work (R243). -/
theorem Chip.retryExceeded_ends {c : Chip} {r : ReachId} {qpn : BitVec 24} {q : Qp} (hq : (c.reach r).qp qpn = some q) :
    ∃ q' : Qp, q'.state = .error ∧ q'.ops = q.ops ∧ q'.recvs = q.recvs ∧ ((c.retryExceeded r q).reach r).qp qpn = some q'.abandon := by
  obtain ⟨-, rfl⟩ := Reach.qp_eq_some_iff.1 hq
  refine ⟨_, ?_, ?_, ?_, (Chip.qp_completeOpt ..).trans (Chip.qp_onQp ((Chip.qp_dropRefs ..).trans hq) rfl)⟩ <;> rfl

/-- Settles O33: the expiry by `retransmitTimer_expired`, what goes again by `Chip.resend_expire`, the eighth expiry by
`Chip.retryExceeded_ends`. -/
theorem retransmissionAfterExpiry : Obligations.RetransmissionAfterExpiry := by
  unfold Obligations.RetransmissionAfterExpiry
  refine ⟨fun s r now qpn q due halive hserv hq htimer => ?expires, fun c r q => ?again, fun c r qpn q hq => ?eighth⟩
  case expires =>
    intro c hdue held
    have hexec : exec (.retransmitTimer r now qpn) s = .next (s.put (retransmitTimer r now qpn s.chip).settle) :=
      State.runSettle_live _ halive
    rw [hexec, retransmitTimer_expired hserv hq htimer hdue]
    have hheld : ¬ held → ¬ (q.leadClass.1 == 6 && q.lead.any (fun l => c.uncarried r q l.1)) = true := mt Chip.timerHeld_iff.1
    refine ⟨fun hst => ?_, fun hst h => ?_, fun hst h hret => ?_, fun hst h hret => ?_⟩
    · rw [if_pos (by simpa using hst)]
    · rw [if_neg (by simpa using hst), if_pos (Chip.timerHeld_iff.2 h)]
    · rw [if_neg (by simpa using hst), if_neg (hheld h), if_neg (by simpa using hret)]
    · rw [if_neg (by simpa using hst), if_neg (hheld h), if_pos (by simpa using hret)]
  case again =>
    refine ⟨rfl, rfl, List.length_map .., ?_, fun p hp hsack hsend => c.resend_expire r hp hsack hsend⟩
    by_cases h : q.leadClass.1 = 6 <;> simp [Chip.expire, h]
  case eighth =>
    obtain ⟨q', hst, hops, hrecvs, hq'⟩ := Chip.retryExceeded_ends hq
    obtain ⟨htimer, hdone, hrecv, hentries⟩ := q'.abandon_done
    exact ⟨_, hq', hst, htimer, hdone, hrecv, hops ▸ hentries⟩

/-! ### Handing a packet to the router (R236, R237) -/

@[simp] theorem told_ipSeal (p : FrtPacket) : (ipSeal p).told = p.told := by
  unfold ipSeal; split <;> rfl

/-- The frame in which router port 7 takes a packet from the RME. -/
def Chip.frtFrame (c : Chip) (r : ReachId) (tc : BitVec 3) (p : FrtPacket) : RtrFrame :=
  { ingress := 7, body := .frt p, len := frtFrameLen p, arrived := c.now r, queue := tc.toNat }

/-- The module that has handed a packet to router port 7, under a transmit time of its own. -/
def Chip.handed (c : Chip) (r : ReachId) (tc : BitVec 3) (p : FrtPacket) : Chip :=
  (c.stamp r).2.onRtr r (fun q => { q with inbox := q.inbox ++ [c.frtFrame r tc p] })

theorem Chip.reach_stamp (c : Chip) (r : ReachId) :
    ((c.stamp r).2.reach r) = { c.reach r with rme := { (c.reach r).rme with lastTxStamp := (c.stamp r).1 } } := by
  simp [Chip.stamp]

/-- All that sending can come to: an encrypted packet that finds no key stays, any other is handed over as it was asked for. -/
theorem Chip.sendFrt_cases (c : Chip) (r : ReachId) (dest : FrtTo) (y : FrtSay) :
    (dest.ciph = true ∧ (c.reach r).cipher.fabricKey dest.pkey (c.stamp r).1 = none ∧ c.sendFrt r dest y = ((c.stamp r).2, none))
    ∨ ∃ p, c.sendFrt r dest y = (c.handed r y.tc p, some p)
      ∧ p.told = (y.psn, (c.stamp r).1, dest.dst, dest.dstQpn, y.retx, y.ext) := by
  have hnow : (c.stamp r).2.now r = c.now r := by simp [Chip.now, Chip.reach_stamp]
  have hcipher : ((c.stamp r).2.reach r).cipher = (c.reach r).cipher := by rw [Chip.reach_stamp]
  unfold Chip.sendFrt; dsimp only
  split
  case h_1 hkey =>
    split at hkey
    · exact nomatch hkey
    next hciph => exact .inl ⟨by simpa using hciph, hcipher ▸ Option.map_eq_none_iff.1 hkey, rfl⟩
  case h_2 p0 hsealed =>
    refine .inr ⟨_, by rw [Chip.handed, Chip.frtFrame, hnow], ?_⟩
    have htold : p0.told = (y.psn, (c.stamp r).1, dest.dst, dest.dstQpn, y.retx, y.ext) := by
      split at hsealed
      · cases hsealed; rfl
      · obtain ⟨k, -, rfl⟩ := Option.map_eq_some_iff.1 hsealed; rfl
    rw [told_ipSeal, ← htold]
    split
    · exact (apply_ite FrtPacket.told ..).trans (ite_self _)
    · rfl

/-- A packet sent names its PSN, its own transmit time and the peer of its context (R228, R236). -/
theorem Chip.sendFrt_some {c d : Chip} {r : ReachId} {dest : FrtTo} {y : FrtSay} {p : FrtPacket} (h : c.sendFrt r dest y = (d, some p)) :
    d = c.handed r y.tc p ∧ p.told = (y.psn, (c.stamp r).1, dest.dst, dest.dstQpn, y.retx, y.ext) := by
  obtain ⟨-, -, hnone⟩ | ⟨p', hsent, htold⟩ := c.sendFrt_cases r dest y
  · exact nomatch hnone.symm.trans h
  · obtain ⟨rfl, hp⟩ := Prod.mk.inj (hsent.symm.trans h)
    obtain rfl := Option.some.inj hp
    exact ⟨rfl, htold⟩

/-- What a packet handed over leaves: it stands last at the router; contexts, bytes of memory and time stay. -/
theorem Chip.handed_keeps (c : Chip) (r : ReachId) (tc : BitVec 3) (p : FrtPacket) :
    ((c.handed r tc p).reach r).rtr.inbox = (c.reach r).rtr.inbox ++ [c.frtFrame r tc p]
    ∧ (∀ qpn, ((c.handed r tc p).reach r).qp qpn = (c.reach r).qp qpn) ∧ ((c.handed r tc p).reach r).mem = (c.reach r).mem
    ∧ (c.handed r tc p).now r = c.now r := by
  have h : (c.handed r tc p).reach r = { c.reach r with
      rme := { (c.reach r).rme with lastTxStamp := (c.stamp r).1 },
      rtr := { (c.reach r).rtr with inbox := (c.reach r).rtr.inbox ++ [c.frtFrame r tc p] } } := by
    simp [Chip.handed, Chip.reach_stamp]
  rw [Chip.now, h]
  exact ⟨rfl, fun _ => rfl, rfl, rfl⟩

theorem Chip.qp_sendFrt (c : Chip) (r : ReachId) (dest : FrtTo) (y : FrtSay) (qpn : BitVec 24) :
    ((c.sendFrt r dest y).1.reach r).qp qpn = (c.reach r).qp qpn := by
  obtain ⟨-, -, h⟩ | ⟨p, h, -⟩ := c.sendFrt_cases r dest y
  · rw [h, Chip.reach_stamp]; rfl
  · obtain ⟨-, hqp, -⟩ := c.handed_keeps r y.tc p
    rw [h, hqp]

@[simp] theorem Chip.onQp_rtr (c : Chip) (r : ReachId) (qpn : BitVec 24) (f : Qp → Qp) :
    ((c.onQp r qpn f).reach r).rtr = (c.reach r).rtr := by simp [Chip.onQp]

/-! ### Acknowledgements that fall due (R242) -/

/-- What the ACK of a context says (R231). -/
def Qp.ackExt (q : Qp) : AckExt :=
  { vis := q.visSeen, cumPsn := q.rcvNxt, visMsn := q.visMsn, qdelay := q.rxQdelay, pkts := q.rxPkts, ecnCnt := q.rxEcn, sack := q.sack }

/-- An ACK as the RME hands it over. -/
def Qp.ackSay (q : Qp) : FrtSay :=
  { type := frtAck, tc := 7, psn := 0, win := 0xFFFF, first := false, last := false, ackReq := false, retx := false, ext := .ack q.ackExt,
    payload := [] }

/-- A context that has sent its ACK. -/
def Qp.acked (q : Qp) : Qp := { q with ackPend := 0, ackDue := none, rxQdelay := 0, rxPkts := 0, rxEcn := 0 }

theorem Chip.sendAck_eq {c : Chip} {r : ReachId} {qpn : BitVec 24} {q : Qp} (hq : (c.reach r).qp qpn = some q) :
    c.sendAck r qpn = (c.sendFrt r q.peer q.ackSay).1.onQp r qpn Qp.acked := by
  unfold Chip.sendAck
  rw [hq]; rfl

theorem Chip.qp_sendAck {c : Chip} {r : ReachId} {qpn : BitVec 24} {q : Qp} (hq : (c.reach r).qp qpn = some q) :
    ((c.sendAck r qpn).reach r).qp qpn = some q.acked := by
  rw [Chip.sendAck_eq hq]
  exact Chip.qp_onQp ((Chip.qp_sendFrt ..).trans hq) rfl

/-- The ACK goes out where the context sends in the clear or a key is there. -/
theorem Chip.inbox_sendAck {c : Chip} {r : ReachId} {qpn : BitVec 24} {q : Qp} (hq : (c.reach r).qp qpn = some q)
    (hkey : q.ciphEn = true → ((c.reach r).cipher.fabricKey q.pkey (c.stamp r).1).isSome = true) :
    ∃ p, ((c.sendAck r qpn).reach r).rtr.inbox = (c.reach r).rtr.inbox ++ [c.frtFrame r 7 p] ∧ p.ext = .ack q.ackExt := by
  rw [Chip.sendAck_eq hq, Chip.onQp_rtr]
  obtain ⟨hciph, hnone, -⟩ | ⟨p, hsent, htold⟩ := c.sendFrt_cases r q.peer q.ackSay
  · have hsome := hkey hciph
    rw [show (c.reach r).cipher.fabricKey q.pkey (c.stamp r).1 = none from hnone] at hsome
    exact nomatch hsome
  · obtain ⟨hinbox, -⟩ := c.handed_keeps r 7 p
    rw [hsent]
    simp only [FrtPacket.told, Prod.mk.injEq] at htold
    obtain ⟨-, -, -, -, -, hext⟩ := htold
    exact ⟨p, hinbox, hext⟩

theorem ackDelayTimer_due {c : Chip} {r : ReachId} {now : Time} {qpn : BitVec 24} {q : Qp} {due : Time} (hserv : c.inService r = true)
    (hq : (c.reach r).qp qpn = some q) (hstate : q.state = .ready ∨ q.state = .drain) (hack : q.ackDue = some due)
    (hdue : notBefore due ((c.at r now).now r) = true) : ackDelayTimer r now qpn c = (c.at r now).sendAck r qpn := by
  unfold ackDelayTimer; dsimp only
  rw [Chip.reach_at_qp, hq]; dsimp only
  rw [hack]; dsimp only
  rw [if_pos (by simp [hserv, hdue, hstate])]

/-! ### The next packet (R240, R245) -/

/-- A choice of packet leaves the context its number. -/
theorem Chip.outgoing_qpn {c : Chip} {r : ReachId} {q : Qp} {n : NextPkt} {host : List Byte} {g : Outgoing}
    (h : c.outgoing r q n host = some g) : g.after.qpn = q.qpn := by
  cases n with
  | again p =>
    simp only [Chip.outgoing] at h
    split at h
    · obtain ⟨x, -, rfl⟩ := Option.map_eq_some_iff.1 h; rfl
    · obtain ⟨o, -, rfl⟩ := Option.map_eq_some_iff.1 h; rfl
  | lastOf o => cases h; rfl
  | resp x => cases h; rfl
  | fresh o => cases h; rfl

/-- Growth of the credit leaves the rest of a context. -/
theorem Qp.paced_keeps (q : Qp) (m : Rme) (now : Time) : (q.paced m now).qpn = q.qpn ∧ (q.paced m now).out = q.out
    ∧ (q.paced m now).sndNxt = q.sndNxt ∧ (q.paced m now).ops = q.ops := by
  unfold Qp.paced; dsimp only
  split <;> exact ⟨rfl, rfl, rfl, rfl⟩

/-- The context that a packet leaves from: the credit of an unplanned one has grown (R245). -/
def Outgoing.paced (g : Outgoing) (m : Rme) (now : Time) : Qp := if g.say.tc != 6 then g.after.paced m now else g.after

/-- Context `q` once a packet of `len` bytes has left at time `now`: an unplanned one is paid for from the credit (R245). -/
def Outgoing.paid (g : Outgoing) (q : Qp) (len : Nat) (now : Time) : Qp :=
  if g.say.tc != 6 then { q with credit := q.credit - len, lastTx := now, started := true } else q

/-- The timer of a context that has sent a packet runs, but for one that waits for a resend (R211, R243). -/
def Chip.timed (c : Chip) (r : ReachId) (q : Qp) (y : FrtSay) : Qp :=
  match q.timer with
  | some _ => q
  | none => if q.ops.any (fun o => o.rnrDue.isSome) then q else { q with timer := some (c.timerDue r q y.tc y.win) }

/-- The context that a packet handed over by module `d` leaves behind. -/
def Outgoing.left (g : Outgoing) (m : Rme) (d : Chip) (r : ReachId) (now : Time) (len : Nat) : Qp :=
  { d.timed r (g.paid (g.paced m now) len (d.now r)) g.say with lastPkt := d.now r }

/-- Its lists and its next PSN are those of the choice; only an unplanned packet costs credit. -/
theorem Outgoing.left_keeps (g : Outgoing) (m : Rme) (d : Chip) (r : ReachId) (now : Time) (len : Nat) :
    (g.left m d r now len).qpn = g.after.qpn ∧ (g.left m d r now len).out = g.after.out ∧ (g.left m d r now len).sndNxt = g.after.sndNxt
    ∧ (g.left m d r now len).ops = g.after.ops ∧ (g.say.tc ≠ 6 →
      (g.left m d r now len).credit = (g.after.paced m now).credit - len ∧ (g.left m d r now len).lastTx = d.now r) := by
  have htimed : ∀ q : Qp, (d.timed r q g.say).qpn = q.qpn ∧ (d.timed r q g.say).out = q.out ∧ (d.timed r q g.say).sndNxt = q.sndNxt
      ∧ (d.timed r q g.say).ops = q.ops ∧ (d.timed r q g.say).credit = q.credit ∧ (d.timed r q g.say).lastTx = q.lastTx := by
    intro q
    unfold Chip.timed
    split
    · exact ⟨rfl, rfl, rfl, rfl, rfl, rfl⟩
    · split <;> exact ⟨rfl, rfl, rfl, rfl, rfl, rfl⟩
  obtain ⟨hqpn, hout, hnxt, hops, hcredit, hlast⟩ := htimed (g.paid (g.paced m now) len (d.now r))
  simp only [Outgoing.left, hqpn, hout, hnxt, hops, hcredit, hlast]
  by_cases htc : g.say.tc = 6
  · have hplanned : ¬ (g.say.tc != 6) = true := by simpa using htc
    rw [Outgoing.paid, if_neg hplanned, Outgoing.paced, if_neg hplanned]
    exact ⟨rfl, rfl, rfl, rfl, fun h => absurd htc h⟩
  · have hunplanned : (g.say.tc != 6) = true := by simpa using htc
    obtain ⟨hpqpn, hpout, hpnxt, hpops⟩ := g.after.paced_keeps m now
    rw [Outgoing.paid, if_pos hunplanned, Outgoing.paced, if_pos hunplanned]
    exact ⟨hpqpn, hpout, hpnxt, hpops, fun _ => ⟨rfl, rfl⟩⟩

/-- The module with the gauges, the lateness and, for a packet sent again, the counted choice of a packet that has left. -/
def Chip.tallied (c : Chip) (r : ReachId) (qpn : BitVec 24) (q : Qp) (g : Outgoing) : Chip :=
  let c := c.onReach r (fun x =>
    let x := (x.countRuns g.runs g.off g.len).gaugeAdd 2 (qpIndex qpn) 2 g.say.payload.length
    if g.retx then x.gaugeAdd 2 (qpIndex qpn) 4 1 else x)
  let c := c.outputLate r q (g.op.bind (fun s => (q.op? s).map (fun o => o.by_))) g.say
  if g.retx then c.tdc r 5 (some q.function) 73 (BitVec.ofNat 32 qpn.toNat) (BitVec.ofNat 64 g.say.psn.toNat) else c

/-- A packet whose source can be read leaves. -/
theorem frtPacketSend_sends {c : Chip} {r : ReachId} {now : Time} {qpn : BitVec 24} {q : Qp} {host : List Byte} {n : NextPkt} {g : Outgoing}
    {d : Chip} {p : FrtPacket} (hserv : c.inService r = true) (hq : (c.reach r).qp qpn = some q) (hstate : q.state = .ready ∨ q.state = .drain)
    (hnext : q.next ((c.at r now).reach r).rme = some n) (hgo : (c.at r now).outgoing r q n host = some g) (hhost : c.host.inReset = false)
    (hue : (c.at r now).sourceUe r g.runs g.off g.len = none)
    (hcredit : g.say.tc ≠ 6 → 0 ≤ (g.after.paced ((c.at r now).reach r).rme ((c.at r now).now r)).credit)
    (hsent : (c.at r now).sendFrt r q.peer g.say = (d, some p)) : frtPacketSend r now qpn host c =
      (d.onQp r qpn (fun _ => g.left ((c.at r now).reach r).rme d r ((c.at r now).now r) (frtFrameLen p))).tallied r qpn q g := by
  have hq : ((c.at r now).reach r).qp qpn = some q := (Chip.reach_at_qp ..).trans hq
  have hserv : (c.at r now).inService r = true := (Chip.inService_at ..).trans hserv
  have hhost : (c.at r now).host.inReset = false := hhost
  unfold frtPacketSend
  extract_lets c'
  rw [show c.at r now = c' from rfl] at *
  clear_value c'
  rw [hq]; dsimp -zeta only
  rw [if_neg (by obtain h | h := hstate <;> simp [hserv, h]), hnext]; dsimp -zeta only
  rw [hgo]; dsimp -zeta only
  -- The context stays behind its name: unfolded, its record stands once for each field of the next one.
  extract_lets unplanned q1
  have hpaced : (unplanned && decide (q1.credit < 0)) = false := by
    by_cases htc : g.say.tc = 6
    · simp [unplanned, htc]
    · have hunplanned : unplanned = true := by simpa [unplanned] using htc
      have hgrown : q1 = g.after.paced (c'.reach r).rme (c'.now r) := if_pos hunplanned
      simpa [hunplanned, hgrown] using hcredit htc
  rw [if_neg (by simp [hpaced]), if_neg (by simp [hhost]), hue]; dsimp -zeta only
  rw [hsent]; dsimp -zeta only
  rfl

/-- What sending a packet concerns of a reach: its contexts, its router, the bytes of its memory. -/
def Chip.wired (c : Chip) (r : ReachId) : Rme × Router × Mem := ((c.reach r).rme, (c.reach r).rtr, (c.reach r).mem.bytes)

theorem Reach.countLines_rtr (x : Reach) (pa n : Nat) (write : Bool) : (x.countLines pa n write).rtr = x.rtr := by
  unfold Reach.countLines; dsimp only
  split
  · rfl
  · refine List.foldlRecOn (motive := fun y : Reach => y.rtr = x.rtr) _ _ rfl (fun y hy i _ => ?_)
    split <;> exact hy

theorem Reach.countRuns_keeps (x : Reach) (runs : List Run) (off n : Nat) : (x.countRuns runs off n).rme = x.rme
    ∧ (x.countRuns runs off n).rtr = x.rtr ∧ (x.countRuns runs off n).mem.bytes = x.mem.bytes := by
  refine List.foldlRecOn (motive := fun y : Reach => y.rme = x.rme ∧ y.rtr = x.rtr ∧ y.mem.bytes = x.mem.bytes) _ _ ⟨rfl, rfl, rfl⟩
    (fun y hy q _ => ?_)
  split
  · exact hy
  · obtain ⟨hrme, hrtr, hbytes⟩ := hy
    obtain ⟨l, hmem⟩ := y.countLines_mem q.pa q.len false
    exact ⟨(Reach.countLines_rme ..).trans hrme, (Reach.countLines_rtr ..).trans hrtr, (congrArg MemState.bytes hmem).trans hbytes⟩

/-- What is counted of a packet that has left touches nothing else. -/
theorem Chip.wired_tallied (c : Chip) (r : ReachId) (qpn : BitVec 24) (q : Qp) (g : Outgoing) : (c.tallied r qpn q g).wired r = c.wired r := by
  have hlate : ∀ (d : Chip) by_, (d.outputLate r q by_ g.say).wired r = d.wired r := by
    intro d by_
    unfold Chip.outputLate
    split
    · dsimp only
      split <;> split <;> simp [Chip.wired, Reach.lateStart]
    · rfl
  have htdc : ∀ (d : Chip) a b, (d.tdc r 5 (some q.function) 73 a b).wired r = d.wired r := fun d a b => by
    have h := d.tdc_apart r 5 (some q.function) 73 a b
    simp only [Chip.wired, Chip.apart_rme h r, Chip.apart_rtr h r, Chip.apart_mem h r]
  obtain ⟨hrme, hrtr, hbytes⟩ := (c.reach r).countRuns_keeps g.runs g.off g.len
  unfold Chip.tallied; dsimp only
  cases g.retx with
  | false => exact (hlate ..).trans (by simp [Chip.wired, hrme, hrtr, hbytes])
  | true => exact (htdc ..).trans ((hlate ..).trans (by simp [Chip.wired, hrme, hrtr, hbytes]))

/-- Settles O29: the next packet by `frtPacketSend_sends`, the acknowledgement by `ackDelayTimer_due`. -/
theorem packetsLeaveForTheRouter : Obligations.PacketsLeaveForTheRouter := by
  unfold Obligations.PacketsLeaveForTheRouter
  intro s r now qpn q halive hserv hq hstate c
  have hqp : (c.reach r).qp qpn = some q := (Chip.reach_at_qp ..).trans hq
  have hinbox : (c.reach r).rtr.inbox = (s.chip.reach r).rtr.inbox := by rw [Chip.reach_at_rtr]
  refine ⟨fun host n g d p hnext hgo hhost hue hcredit hsent => ?packet, fun due hack hdue => ?ack⟩
  case packet =>
    have hexec : exec (.frtPacketSend r now qpn host) s = .next (s.put (frtPacketSend r now qpn host s.chip)) := State.run_live _ halive
    rw [hexec, frtPacketSend_sends hserv hq hstate hnext hgo hhost hue hcredit hsent]
    obtain ⟨rfl, htold⟩ := Chip.sendFrt_some hsent
    simp only [FrtPacket.told, Prod.mk.injEq] at htold
    obtain ⟨hpsn, htime, hdst, hdstQpn, hretx, -⟩ := htold
    obtain ⟨hlast, hqps, hmem, hnow⟩ := c.handed_keeps r g.say.tc p
    obtain ⟨hqpn, hout, hnxt, hops, hpaid⟩ := g.left_keeps (c.reach r).rme (c.handed r g.say.tc p) r (c.now r) (frtFrameLen p)
    generalize g.left (c.reach r).rme (c.handed r g.say.tc p) r (c.now r) (frtFrameLen p) = q' at hqpn hout hnxt hops hpaid ⊢
    have hwired := Chip.wired_tallied ((c.handed r g.say.tc p).onQp r qpn (fun _ => q')) r qpn q g
    simp only [Chip.wired, Prod.mk.injEq] at hwired
    obtain ⟨hrme, hrtr, hbytes⟩ := hwired
    refine ⟨_, q', rfl, ?_, hpsn, htime, hdst, hdstQpn, hretx, ?_, hout, hnxt, hops, fun htc => hnow ▸ hpaid htc, ?_⟩
    · rw [State.put_chip, hrtr, Chip.onQp_rtr, hlast, hinbox]; rfl
    · exact (Reach.qp_congr hrme qpn).trans (Chip.qp_onQp ((hqps qpn).trans hqp) (hqpn.trans (Chip.outgoing_qpn hgo)))
    · rw [State.put_chip, hbytes, Chip.onQp_mem, hmem, Chip.reach_at_mem]
  case ack =>
    have hexec : exec (.ackDelayTimer r now qpn) s = .next (s.put (ackDelayTimer r now qpn s.chip)) := State.run_live _ halive
    rw [hexec, ackDelayTimer_due hserv hq hstate hack hdue]
    refine ⟨_, q.acked, rfl, Chip.qp_sendAck hqp, rfl, rfl, rfl, fun hkey => ?_⟩
    obtain ⟨p, hlast, hext⟩ := Chip.inbox_sendAck hqp hkey
    exact ⟨_, p, hlast.trans (by rw [hinbox]), rfl, hext⟩

end Sys2Proof.Machine
end

section
/-!
A change of epoch at a node (R271, R272, R283): what the updates of one routing bank leave of the other, what staging, flip and drain make of a
router, each command of the change by its effect, and the statement about them.
-/

namespace Sys2Proof.Machine

/-- An effect is carried out by a live module, in the words of a lemma about the effect. -/
theorem State.run_live_eq {s : State} {f : Chip → Chip} {d : Chip} (halive : s.chip.alive = true) (hf : f s.chip = d) :
    s.run f = .next (s.put d) := by
  rw [State.run_live f halive, hf]

/-! ### The parts of a module that keeper frames and router updates leave -/

@[simp] theorem Chip.now_onRtr (c : Chip) (r : ReachId) (f : Router → Router) : (c.onRtr r f).now r = c.now r := by
  simp [Chip.now]

@[simp] theorem Chip.nodeId_onRtr (c : Chip) (r q : ReachId) (f : Router → Router) : (c.onRtr r f).nodeId q = c.nodeId q := rfl

@[simp] theorem Chip.inService_onRtr (c : Chip) (r : ReachId) (f : Router → Router) : (c.onRtr r f).inService r = c.inService r := by
  simp [Chip.inService]

@[simp] theorem Chip.now_takeKeeper (c : Chip) (r : ReachId) (p : RtrFrame → Bool) : (c.takeKeeper r p).now r = c.now r :=
  Chip.now_onRtr ..

@[simp] theorem Chip.nodeId_takeKeeper (c : Chip) (r q : ReachId) (p : RtrFrame → Bool) : (c.takeKeeper r p).nodeId q = c.nodeId q := rfl

@[simp] theorem Chip.inService_takeKeeper (c : Chip) (r : ReachId) (p : RtrFrame → Bool) : (c.takeKeeper r p).inService r = c.inService r :=
  Chip.inService_onRtr ..

@[simp] theorem Chip.now_sendKeeper (c : Chip) (r : ReachId) (dst : Word16) (b : KeeperBody) : (c.sendKeeper r dst b).now r = c.now r := by
  simp [Chip.now]

/-- Two updates that make the same of the router are one. -/
theorem Chip.onRtr_congr {c : Chip} {r : ReachId} {f g : Router → Router} (h : f (c.reach r).rtr = g (c.reach r).rtr) : c.onRtr r f = c.onRtr r g := by
  have h' : f (c.reaches.get r).rtr = g (c.reaches.get r).rtr := h
  simp only [Chip.onRtr, Chip.onReach, h']

/-! ### The two banks -/

theorem Router.bank_congr {x y : Router} (h0 : y.bank0 = x.bank0) (h1 : y.bank1 = x.bank1) (b : BitVec 1) : y.bank b = x.bank b := by
  simp only [Router.bank, h0, h1]

theorem Chip.bank_takeKeeper (c : Chip) (r : ReachId) (p : RtrFrame → Bool) (b : BitVec 1) :
    ((c.takeKeeper r p).reach r).rtr.bank b = (c.reach r).rtr.bank b := by
  rw [Chip.takeKeeper_reach]
  exact Router.bank_congr rfl rfl b

@[simp] theorem Router.bank_onBank_self (x : Router) (b : BitVec 1) (f : Bank → Bank) : (x.onBank b f).bank b = f (x.bank b) := by
  unfold Router.onBank Router.bank
  split <;> rfl

theorem Router.bank_onBank_ne (x : Router) {b k : BitVec 1} (f : Bank → Bank) (h : k ≠ b) : (x.onBank b f).bank k = x.bank k := by
  have two : ∀ b : BitVec 1, b = 0 ∨ b = 1 := by decide
  obtain rfl | rfl := two b <;> obtain rfl | rfl := two k
  · exact absurd rfl h
  · rfl
  · rfl
  · exact absurd rfl h

/-- The inactive bank is another than the active one. -/
theorem otherBank_ne (b : BitVec 1) : b ^^^ 1 ≠ b := by
  revert b; decide

@[simp] theorem Router.onBank_active (x : Router) (b : BitVec 1) (f : Bank → Bank) : (x.onBank b f).active = x.active := by
  unfold Router.onBank; split <;> rfl

@[simp] theorem Router.onBank_drain (x : Router) (b : BitVec 1) (f : Bank → Bank) : (x.onBank b f).drain = x.drain := by
  unfold Router.onBank; split <;> rfl

/-! ### Staging, flip and drain of a router -/

/-- A piece of this number adds to the bank that it names: an earlier piece of the same number has staged it. -/
abbrev Router.stages (x : Router) (num : BitVec 24) : Prop := (x.bank (num.setWidth 1)).state = .staged ∧ (x.bank (num.setWidth 1)).epochNum = num

/-- The bank that a piece of a table leaves (R271): what was staged of its number, or nothing, with the piece's entries. -/
def Router.pieceBank (x : Router) (num : BitVec 24) (entries : List (Nat × Word32)) : Bank :=
  { entries := entries.foldl (fun acc e => Tab.set acc (e.1 % 4096) e.2) (if x.stages num then (x.bank (num.setWidth 1)).entries else [])
    epochNum := num, state := .staged }

section
variable (x : Router) (num : BitVec 24) (entries : List (Nat × Word32)) (valiant : List Word16)

theorem Router.stage_eq : x.stage num entries valiant = { x.onBank (num.setWidth 1) (fun _ => x.pieceBank num entries) with
    valiant := ((if x.stages num then x.valiant else []) ++ valiant).take 256 } := by
  simp [Router.stage, Router.pieceBank]

theorem Router.stage_bank : (x.stage num entries valiant).bank (num.setWidth 1) = x.pieceBank num entries := by
  rw [Router.stage_eq]
  exact x.bank_onBank_self _ _

theorem Router.stage_otherBank : (x.stage num entries valiant).bank (num.setWidth 1 ^^^ 1) = x.bank (num.setWidth 1 ^^^ 1) := by
  rw [Router.stage_eq]
  exact x.bank_onBank_ne _ (otherBank_ne _)

theorem Router.stage_active : (x.stage num entries valiant).active = x.active := by
  rw [Router.stage_eq]
  exact x.onBank_active _ _

theorem Router.stage_valiant :
    (x.stage num entries valiant).valiant = ((if x.stages num then x.valiant else []) ++ valiant).take 256 := by
  rw [Router.stage_eq]

end

/-- A piece of one entry sets that entry; every other is the staged one, or 0 where this is the number's first piece. -/
theorem Router.stage_entry (x : Router) (num : BitVec 24) {e : Nat × Word32} (valiant : List Word16) (he : e.1 < 4096) :
    (x.stage num [e] valiant).entry (num.setWidth 1) e.1 = e.2 ∧ ∀ k, k ≠ e.1 →
      (x.stage num [e] valiant).entry (num.setWidth 1) k = if x.stages num then x.entry (num.setWidth 1) k else 0 := by
  have hset : (x.pieceBank num [e]).entries = Tab.set (if x.stages num then (x.bank (num.setWidth 1)).entries else []) e.1 e.2 := by
    simp [Router.pieceBank, Nat.mod_eq_of_lt he]
  unfold Router.entry
  rw [Router.stage_bank, hset]
  refine ⟨Tab.getD_set_self .., fun k hk => ?_⟩
  rw [Tab.getD_set_ne _ _ _ hk]
  split
  · rfl
  · rfl

/-- The flip of a staged bank (R272). -/
theorem Router.flip_staged {x : Router} (now : Time) (h : (x.bank (x.active ^^^ 1)).state = .staged) :
    x.flip now = { (x.onBank x.active (fun b => { b with state := .draining })).onBank (x.active ^^^ 1) (fun b => { b with state := .active }) with
      active := x.active ^^^ 1, drainEnd := some (now + nsTime (1000 * x.drain)), tFlip := none } := by
  unfold Router.flip; dsimp only
  rw [if_pos (beq_iff_eq.2 h), Router.onBank_drain, Router.onBank_drain]

theorem Router.flip_banks {x : Router} (now : Time) (h : (x.bank (x.active ^^^ 1)).state = .staged) :
    (x.flip now).bank (x.active ^^^ 1) = { x.bank (x.active ^^^ 1) with state := .active }
      ∧ (x.flip now).bank x.active = { x.bank x.active with state := .draining } := by
  rw [Router.flip_staged now h]
  constructor
  · refine (Router.bank_onBank_self _ _ _).trans ?_
    rw [Router.bank_onBank_ne _ _ (otherBank_ne _)]
  · exact (Router.bank_onBank_ne _ _ (otherBank_ne _).symm).trans (Router.bank_onBank_self _ _ _)

/-- The inactive bank at the end of its drain, if it drained (R272, R283). -/
def Router.drained (x : Router) : Router :=
  { x.onBank (x.active ^^^ 1) (fun k => if k.state == .draining then { k with state := .closed } else k) with drainEnd := none }

theorem Router.drained_banks {x : Router} (h : (x.bank (x.active ^^^ 1)).state = .draining) :
    (x.drained.bank (x.active ^^^ 1)).state = .closed ∧ x.drained.bank x.active = x.bank x.active := by
  constructor
  · refine (congrArg Bank.state (Router.bank_onBank_self x _ _)).trans ?_
    rw [if_pos (beq_iff_eq.2 h)]
  · exact Router.bank_onBank_ne _ _ (otherBank_ne _).symm

theorem Router.drained_active (x : Router) : x.drained.active = x.active := Router.onBank_active ..

/-! ### The commands -/

section
variable {r : ReachId} {c : Chip} (now : Time) (src : Word16) {num : BitVec 24}

/-- TABLE_WRITE of a bank that is in use is refused (R271, R283). -/
theorem tableWriteRx_refused (entries : List (Nat × Word32)) (valiant : List Word16) (hserv : c.inService r = true)
    (hbank : ((c.reach r).rtr.bank (num.setWidth 1)).state = .active ∨ ((c.reach r).rtr.bank (num.setWidth 1)).state = .draining) :
    tableWriteRx r now src num entries valiant c =
      ((c.at r now).takeKeeper r (isKeeper (.tableWrite num entries valiant))).sendKeeper r src (.tableAck num true) := by
  unfold tableWriteRx; dsimp only
  rw [if_neg (by simp [hserv]), Chip.bank_takeKeeper, Chip.reach_at_rtr, if_pos (by simpa using hbank)]

/-- TABLE_WRITE of a bank that is not in use stages it (R271, R272). -/
theorem tableWriteRx_staged (entries : List (Nat × Word32)) (valiant : List Word16) (hserv : c.inService r = true)
    (hbank : ((c.reach r).rtr.bank (num.setWidth 1)).state = .closed ∨ ((c.reach r).rtr.bank (num.setWidth 1)).state = .staged) :
    tableWriteRx r now src num entries valiant c =
      (((c.at r now).takeKeeper r (isKeeper (.tableWrite num entries valiant))).onRtr r (fun y => y.stage num entries valiant)).sendKeeper
        r src (.tableAck num false) := by
  unfold tableWriteRx; dsimp only
  rw [if_neg (by simp [hserv]), Chip.bank_takeKeeper, Chip.reach_at_rtr, if_neg]
  obtain h | h := hbank <;> rw [h] <;> decide

/-- FLIP of the staged number sets T_flip and is answered (R272). -/
theorem flipRx_staged (tf : Time) (hserv : c.inService r = true) (hbank : (c.reach r).rtr.stages num) : flipRx r now src num tf c =
      (((c.at r now).takeKeeper r (isKeeper (.flip num tf))).onRtr r (fun y => { y with tFlip := some tf })).sendKeeper r src (.flipAck num) := by
  obtain ⟨hstate, hnum⟩ := hbank
  unfold flipRx; dsimp only
  rw [if_neg (by simp [hserv]), Chip.bank_takeKeeper, Chip.reach_at_rtr, if_pos (by simp [hstate, hnum])]

/-- EPOCH_FLIP at T_flip (R272). -/
theorem epochFlip_due {tf : Time} (hflip : (c.reach r).rtr.tFlip = some tf) (hdue : notBefore tf ((c.at r now).now r) = true) :
    epochFlip r now c = (c.at r now).onRtr r (fun y => { y.flip ((c.at r now).now r) with tFlip := none }) := by
  simp [epochFlip, hflip, hdue]

/-- EPOCH_DRAIN_END at the end of the drain, where no rebuild has waited for it (R272). -/
theorem epochDrainEnd_due {te : Time} (hend : (c.reach r).rtr.drainEnd = some te) (hdue : notBefore te ((c.at r now).now r) = true)
    (hrebuild : (c.reach r).rtr.rebuild = false) : epochDrainEnd r now c = (c.at r now).onRtr r Router.drained := by
  unfold epochDrainEnd; dsimp only
  rw [Chip.reach_at_rtr, hend]; dsimp only
  rw [if_pos hdue, if_neg (by simp [hrebuild])]
  exact Chip.onRtr_congr (by rw [Chip.reach_at_rtr]; rfl)

end

/-- Settles O37: each command by its effect, the banks by what staging, flip and drain make of the router. -/
theorem nodesChangeEpoch : Obligations.NodesChangeEpoch := by
  unfold Obligations.NodesChangeEpoch
  intro s r now halive hserv x
  refine ⟨fun src num entries valiant => ⟨fun hbank => ?refused, fun hbank => ⟨?written, ?stage⟩⟩,
    fun src num tf hstate hnum => ⟨_, State.run_live _ halive, ?flipSet⟩, fun tf hflip hdue hstate => ⟨_, State.run_live _ halive, ?flip⟩,
    fun te hend hdue hrebuild hstate => ⟨_, State.run_live _ halive, ?drainEnd⟩⟩
  case refused => exact State.run_live_eq halive (tableWriteRx_refused now src entries valiant hserv hbank)
  case written => exact State.run_live_eq halive (tableWriteRx_staged now src entries valiant hserv hbank)
  case stage =>
    have hbank := x.stage_bank num entries valiant
    have hvaliant := x.stage_valiant num entries valiant
    refine ⟨congrArg Bank.state hbank, congrArg Bank.epochNum hbank, x.stage_otherBank num entries valiant, x.stage_active num entries valiant,
      fun hmore => hvaliant.trans (by rw [if_pos hmore]), fun hmore => hvaliant.trans (by rw [if_neg hmore, List.nil_append]), ?_⟩
    rintro e rfl he
    exact x.stage_entry num valiant he
  case flipSet =>
    rw [State.put_chip, flipRx_staged now src tf hserv ⟨hstate, hnum⟩, Chip.sendKeeper_reach, Chip.reach_onRtr, Chip.takeKeeper_reach, Chip.reach_at_rtr]
    exact ⟨rfl, rfl, rfl⟩
  case flip =>
    obtain ⟨hnew, hold⟩ := x.flip_banks ((s.chip.at r now).now r) hstate
    have hafter := x.flip_staged ((s.chip.at r now).now r) hstate
    rw [State.put_chip, epochFlip_due now hflip hdue, Chip.now_onRtr, Chip.reach_onRtr, Chip.reach_at_rtr]
    exact ⟨congrArg Router.active hafter, hnew, hold, congrArg Router.drainEnd hafter, rfl⟩
  case drainEnd =>
    obtain ⟨hclosed, hkept⟩ := x.drained_banks hstate
    rw [State.put_chip, epochDrainEnd_due now hend hdue hrebuild, Chip.reach_onRtr, Chip.reach_at_rtr]
    exact ⟨hclosed, hkept, x.drained_active, rfl⟩

end Sys2Proof.Machine
end

section
/-!
The fabric manager's part in a change of epoch and its succession (R272, R273, R276): what a round of keeper frames and the start of a change
leave of a router, each command by its effect, and the statement about them.
-/

namespace Sys2Proof.Machine

/-! ### Keeper frames -/

/-- A held frame is a keeper frame of a kind from a node. -/
def fromKeeper (src : Word16) (b : KeeperBody) (f : RtrFrame) : Bool :=
  isKeeper b f && (match f.body with | .keeper k => k.src == src | _ => false)

theorem Chip.takeKeeper_fmWork (c : Chip) (r : ReachId) (p : RtrFrame → Bool) :
    ((c.takeKeeper r p).reach r).rtr.fmWork = (c.reach r).rtr.fmWork := by
  rw [Chip.takeKeeper_reach]

/-- The router with more frames that wait at it. -/
def Router.entered (x : Router) (sent : List RtrFrame) : Router := { x with inbox := x.inbox ++ sent }

/-- One keeper frame to each of some nodes: as many more frames at the router. -/
theorem Chip.rtr_sendKeepers (r : ReachId) (b : KeeperBody) (nodes : List Word16) (c : Chip) : ∃ sent : List RtrFrame, sent.length = nodes.length
    ∧ ((forEach nodes c (fun c n => c.sendKeeper r n b)).reach r).rtr = (c.reach r).rtr.entered sent := by
  induction nodes generalizing c with
  | nil => exact ⟨[], rfl, by simp [forEach, Router.entered]⟩
  | cons n nodes ih =>
    obtain ⟨sent, hlen, hrtr⟩ := ih (c.sendKeeper r n b)
    obtain ⟨f, hone⟩ : ∃ f, ((c.sendKeeper r n b).reach r).rtr = (c.reach r).rtr.entered [f] :=
      ⟨_, congrArg Reach.rtr (c.sendKeeper_reach r n b)⟩
    refine ⟨f :: sent, congrArg (· + 1) hlen, hrtr.trans ?_⟩
    rw [hone]
    simp [Router.entered]

/-! ### The office -/

/-- Of a node: whether it is the manager, whom it takes for the manager, and who has fallen silent. -/
def Chip.office (c : Chip) (r : ReachId) : Bool × Word16 × List Word16 :=
  ((c.reach r).rtr.self, (c.reach r).rtr.elected, (c.reach r).rtr.silent)

theorem Chip.office_eq_iff {c d : Chip} {r : ReachId} : c.office r = d.office r ↔ (c.reach r).rtr.self = (d.reach r).rtr.self
    ∧ (c.reach r).rtr.elected = (d.reach r).rtr.elected ∧ (c.reach r).rtr.silent = (d.reach r).rtr.silent := by
  simp [Chip.office]

theorem Chip.office_sendKeeper (c : Chip) (r : ReachId) (dst : Word16) (b : KeeperBody) : (c.sendKeeper r dst b).office r = c.office r := by
  simp [Chip.office]

/-- The start of a change leaves the office (R272). -/
theorem Chip.office_startEpoch (c : Chip) (r : ReachId) : (c.startEpoch r).office r = c.office r := by
  have work : ∀ (rebuild : Bool) (fmWork : Router → FmState), (c.onRtr r (fun x => { x with rebuild := rebuild, fmWork := fmWork x })).office r =
      c.office r := fun _ _ => by simp [Chip.office]
  unfold Chip.startEpoch; dsimp only
  split
  · rfl
  split
  · exact work true (fun x => x.fmWork)
  · exact (forEach_keeps (fun c : Chip => c.office r) (fun c _ => c.office_sendKeeper r _ _) _ _).trans (work false _)

/-- A node other than 0xFFFF that is lost has fallen silent (R276). -/
theorem Router.mem_lose_silent (x : Router) (node : Word16) {gone : Word16} (h : gone ≠ 0xFFFF) : gone ∈ (x.lose node gone).silent := by
  change gone ∈ (if x.silent.contains gone || gone == 0xFFFF then x.silent else gone :: x.silent)
  split
  next hc => exact (Bool.or_eq_true_iff.1 hc).elim List.contains_iff_mem.1 (fun e => absurd (beq_iff_eq.1 e) h)
  next => exact List.mem_cons_self ..

/-- The router of a standby that has taken over, before its first change of epoch (R276). -/
def Router.takenOver (x : Router) (node : Word16) (now : Time) : Router :=
  { x.lose node x.elected with self := true, elected := node, fmHeard := true, lastHello := now, fmWork := FmState.reset }

/-! ### Acknowledgements and FLIP -/

/-- The manager with one more acknowledgement of a table in hand. -/
def Chip.tableAcked (c : Chip) (r : ReachId) (now : Time) (src : Word16) : Chip :=
  ((c.at r now).takeKeeper r (fromKeeper src (.tableAck (c.reach r).rtr.fmWork.epochNum false))).onRtr r
    (fun y => { y with fmWork := { y.fmWork with acked := src :: (c.reach r).rtr.fmWork.acked } })

/-- The router with one more acknowledgement: only the fabric manager's work and the frame that came are another. -/
theorem Chip.tableAcked_rtr (c : Chip) (r : ReachId) (now : Time) (src : Word16) : ∃ held, ((c.tableAcked r now src).reach r).rtr =
    { (c.reach r).rtr with keeperIn := held, fmWork := { (c.reach r).rtr.fmWork with acked := src :: (c.reach r).rtr.fmWork.acked } } := by
  rw [Chip.tableAcked, Chip.reach_onRtr, Chip.takeKeeper_reach, Chip.reach_at_rtr]
  exact ⟨_, rfl⟩

/-- The nodes that FLIP is still to be answered by, but one. -/
def FmState.flipLeft (w : FmState) (src : Word16) : List Word16 := w.flipWait.filter (fun n => n != src)

/-- The manager with one more answer to FLIP in hand: the last one ends the change (R272). -/
def Chip.flipAcked (c : Chip) (r : ReachId) (now : Time) (src : Word16) : Chip :=
  ((c.at r now).takeKeeper r (fromKeeper src (.flipAck (c.reach r).rtr.fmWork.epochNum))).onRtr r (fun y =>
    { y with fmWork := { y.fmWork with
      flipWait := (c.reach r).rtr.fmWork.flipLeft src, busy := !((c.reach r).rtr.fmWork.flipLeft src).isEmpty } })

/-- FLIP to all nodes of a change, with its time (R272). -/
def Chip.sendFlips (c : Chip) (r : ReachId) (w : FmState) (t : Time) : Chip :=
  forEach w.written.eraseDups (c.onRtr r (fun y => { y with fmWork := { y.fmWork with flip := some t, flipWait := w.written.eraseDups } }))
    (fun c n => c.sendKeeper r n (.flip w.epochNum t))

/-- The router after FLIP to all: the time and the nodes awaited noted, one frame more for each of them. -/
theorem Chip.rtr_sendFlips (c : Chip) (r : ReachId) (w : FmState) (t : Time) : ∃ sent : List RtrFrame, sent.length = w.written.eraseDups.length
    ∧ ((c.sendFlips r w t).reach r).rtr = ({ (c.reach r).rtr with fmWork := { (c.reach r).rtr.fmWork with
      flip := some t, flipWait := w.written.eraseDups } } : Router).entered sent := by
  obtain ⟨sent, hlen, hrtr⟩ := Chip.rtr_sendKeepers r (.flip w.epochNum t) w.written.eraseDups
    (c.onRtr r (fun y => { y with fmWork := { y.fmWork with flip := some t, flipWait := w.written.eraseDups } }))
  rw [Chip.reach_onRtr] at hrtr
  exact ⟨sent, hlen, hrtr⟩

section
variable {r : ReachId} {c : Chip} (now : Time) {src : Word16}

section
variable (hself : (c.reach r).rtr.self = true) (hbusy : (c.reach r).rtr.fmWork.busy = true) (hflip : (c.reach r).rtr.fmWork.flip = none)
  (hsrc : (c.reach r).rtr.fmWork.written.contains src = true)
include hself hbusy hflip hsrc

/-- A refused write ends the change (R273). -/
theorem tableAckRx_refused : tableAckRx r now src (c.reach r).rtr.fmWork.epochNum true c =
    (((c.at r now).takeKeeper r (fromKeeper src (.tableAck (c.reach r).rtr.fmWork.epochNum true))).onRtr r
      (fun y => { y with fmWork := { y.fmWork with busy := false } })).epochOver r := by
  unfold tableAckRx; dsimp only
  rw [if_neg (by simp [hself, hbusy, hflip, -List.contains_eq_mem, hsrc]), if_pos rfl]
  rfl

/-- An acknowledgement is held; the last one that the change waits for sends FLIP to all (R272). -/
theorem tableAckRx_held : tableAckRx r now src (c.reach r).rtr.fmWork.epochNum false c =
    if ∀ n ∈ (c.reach r).rtr.fmWork.written, (c.reach r).rtr.fmWork.written.count n ≤ (src :: (c.reach r).rtr.fmWork.acked).count n then
      (c.tableAcked r now src).sendFlips r (c.reach r).rtr.fmWork ((c.at r now).now r + nsTime (1000 * (c.reach r).rtr.flipLead))
    else c.tableAcked r now src := by
  have hlead : ((c.tableAcked r now src).reach r).rtr.flipLead = (c.reach r).rtr.flipLead := by
    obtain ⟨held, hrtr⟩ := c.tableAcked_rtr r now src
    rw [hrtr]
    rfl
  have hnow : (c.tableAcked r now src).now r = (c.at r now).now r := (Chip.now_onRtr ..).trans (Chip.now_takeKeeper ..)
  unfold tableAckRx; dsimp only
  rw [if_neg (by simp [hself, hbusy, hflip, -List.contains_eq_mem, hsrc]), if_neg Bool.false_ne_true, Chip.takeKeeper_fmWork, Chip.reach_at_rtr]
  change (if _ then (c.tableAcked r now src).sendFlips r (c.reach r).rtr.fmWork ((c.tableAcked r now src).now r + nsTime (1000 *
    ((c.tableAcked r now src).reach r).rtr.flipLead)) else c.tableAcked r now src) = _
  rw [hlead, hnow]
  exact ite_congr (by simp only [List.all_eq_true, List.mem_eraseDups, decide_eq_true_eq]) (fun _ => rfl) (fun _ => rfl)

end

/-- An acknowledgement that is missing after 1 ms ends the change (R273). -/
theorem tableAckTimeout_missing (hbusy : (c.reach r).rtr.fmWork.busy = true) (hflip : (c.reach r).rtr.fmWork.flip = none)
    (hlate : nsUnits 1000000 ≤ timeDiff (c.reach r).rtr.fmWork.since ((c.at r now).now r)) : tableAckTimeout r now c =
      ((c.at r now).onRtr r (fun y => { y with fmWork := { y.fmWork with busy := false, written := [], acked := [] } })).epochOver r := by
  simp [tableAckTimeout, hbusy, hflip, hlate]

/-- FLIP_ACK: its node is no longer awaited, and the change is over when none is (R272, R273). -/
theorem flipAckRx_answered {tf : Time} (hbusy : (c.reach r).rtr.fmWork.busy = true) (hflip : (c.reach r).rtr.fmWork.flip = some tf) :
    flipAckRx r now src (c.reach r).rtr.fmWork.epochNum c =
      if (c.reach r).rtr.fmWork.flipLeft src = [] then (c.flipAcked r now src).epochOver r else c.flipAcked r now src := by
  unfold flipAckRx; dsimp only
  rw [Chip.takeKeeper_fmWork, Chip.reach_at_rtr, if_pos (by simp [hbusy, hflip])]
  exact ite_congr (propext List.isEmpty_iff) (fun _ => rfl) (fun _ => rfl)

/-- FLIP goes again to those that have not answered (R273). -/
theorem flipRepeatTimer_busy {tf : Time} (hbusy : (c.reach r).rtr.fmWork.busy = true) (hflip : (c.reach r).rtr.fmWork.flip = some tf) :
    flipRepeatTimer r now c = forEach (c.reach r).rtr.fmWork.flipWait (c.at r now)
      (fun d n => d.sendKeeper r n (.flip (c.reach r).rtr.fmWork.epochNum tf)) := by
  simp [flipRepeatTimer, hbusy, hflip]

/-! ### FM_HELLO and takeover -/

/-- FM_HELLO_TIMER at the manager (R276). -/
theorem fmHelloTimer_manager (hserv : c.inService r = true) (hself : (c.reach r).rtr.self = true) : fmHelloTimer r now c =
    forEach (((c.reach r).rtr.lsdb.map (fun l => l.origin)).filter (fun n => n != c.nodeId r))
      ((c.at r now).onRtr r (fun y => { y with fmHeard := true, lastHello := (c.at r now).now r })) (fun d n => d.sendKeeper r n .hello) := by
  unfold fmHelloTimer; dsimp only
  rw [if_pos (by simp [hserv, hself]), Chip.reach_at_rtr]
  rfl

/-- A module that has heard the manager, its router first changed as the FM_HELLO says. -/
def Chip.heardHello (c : Chip) (r : ReachId) (now : Time) (src : Word16) (f : Router → Router) : Chip :=
  ((c.at r now).takeKeeper r (fromKeeper src .hello)).onRtr r (fun y => { f y with fmHeard := true, lastHello := (c.at r now).now r })

/-- FM_HELLO of a node that fell silent, of the manager, of the standby that has taken over (R276). -/
theorem fmHelloRx_heard (hserv : c.inService r = true) : fmHelloRx r now src c =
    if src ∈ (c.reach r).rtr.silent then
      c.heardHello r now src (fun y => ({ y with silent := y.silent.erase src } : Router).elect (c.nodeId r))
    else if src = (c.reach r).rtr.elected then c.heardHello r now src id
    else if src = (c.reach r).rtr.standby then c.heardHello r now src (fun y => y.lose (c.nodeId r) (c.reach r).rtr.elected)
    else (c.at r now).takeKeeper r (fromKeeper src .hello) := by
  unfold fmHelloRx; dsimp only
  rw [if_neg (by simp [hserv]), Chip.takeKeeper_reach, Chip.reach_at_rtr, Chip.now_takeKeeper]
  simp only [List.contains_iff_mem, beq_iff_eq]
  rfl

section
variable (hself : (c.reach r).rtr.self = false) (hlate : nsUnits 1000000 ≤ timeDiff (c.reach r).rtr.lastHello ((c.at r now).now r))
include hself hlate

/-- The standby takes over from a manager that has been silent for 1 ms (R276). -/
theorem fmTakeover_standby (hstandby : (c.reach r).rtr.standby = c.nodeId r) : fmTakeover r now c =
    ((c.at r now).onRtr r (fun y => y.takenOver (c.nodeId r) ((c.at r now).now r))).startEpoch r := by
  unfold fmTakeover; dsimp only
  rw [Chip.reach_at_rtr, if_neg (by simpa [hself] using hlate), if_pos (by simp [hstandby])]
  rfl

/-- Any other node builds its own tables (R266, R276). -/
theorem fmTakeover_other (hstandby : (c.reach r).rtr.standby ≠ c.nodeId r) : fmTakeover r now c =
    ((c.at r now).onRtr r (fun y => { y with fmHeard := false })).onRtr r (fun y => y.rebuildOwn (c.nodeId r).toNat ((c.at r now).now r)) := by
  unfold fmTakeover; dsimp only
  rw [Chip.reach_at_rtr, if_neg (by simpa [hself] using hlate), if_neg (by simp [hstandby]), Chip.now_onRtr]
  rfl

end

end

/-- Settles O38: each command by its effect, the FLIP of all nodes by what a round of keeper frames leaves, the takeover by what the start of a
change does. -/
theorem theManagerRunsTheChange : Obligations.TheManagerRunsTheChange := by
  unfold Obligations.TheManagerRunsTheChange
  intro s r now halive hserv x w c
  refine ⟨fun src hself hbusy hflip hsrc => ⟨?refused, fun hall => ⟨_, State.run_live _ halive, ?flips⟩, fun n hn hlack => ?held⟩,
    fun hbusy hflip hlate => ?missing, fun src tf hbusy hflip => ?answered, fun d hrebuild => ?ended, fun tf hbusy hflip => ?again,
    fun hself => ?hello, fun src => ⟨fun hsilent => ?silent, fun hsilent hmanager => ?manager, fun hsilent hmanager hstandby => ?standby⟩,
    fun hself hstandby hlate => ⟨_, State.run_live _ halive, ?takeover⟩, fun hself hstandby hlate => ?own⟩
  case refused => exact State.run_live_eq halive (tableAckRx_refused now hself hbusy hflip hsrc)
  case flips =>
    rw [State.put_chip, tableAckRx_held now hself hbusy hflip hsrc, if_pos hall]
    obtain ⟨held, hacked⟩ := s.chip.tableAcked_rtr r now src
    obtain ⟨sent, hlen, hrtr⟩ := (s.chip.tableAcked r now src).rtr_sendFlips r w (c.now r + nsTime (1000 * x.flipLead))
    rw [hrtr, hacked, ← hlen]
    exact ⟨rfl, rfl, hbusy, List.length_append⟩
  case held =>
    refine State.run_live_eq halive ?_
    exact (tableAckRx_held now hself hbusy hflip hsrc).trans (if_neg (fun hall => absurd (hall n hn) (Nat.not_le.2 hlack)))
  case missing => exact State.run_live_eq halive (tableAckTimeout_missing now hbusy hflip hlate)
  case answered => exact State.run_live_eq halive (flipAckRx_answered now hbusy hflip)
  case ended => exact if_neg (by simp [hrebuild])
  case again => exact State.run_live_eq halive (flipRepeatTimer_busy now hbusy hflip)
  case hello => exact State.run_live_eq halive (fmHelloTimer_manager now hserv hself)
  case silent => exact State.run_live_eq halive ((fmHelloRx_heard now hserv).trans (if_pos hsilent))
  case manager =>
    refine State.run_live_eq halive ((fmHelloRx_heard now hserv).trans ?_)
    rw [if_neg hsilent, if_pos hmanager]
    rfl
  case standby =>
    refine State.run_live_eq halive ((fmHelloRx_heard now hserv).trans ?_)
    rw [if_neg hsilent, if_neg hmanager, if_pos hstandby]
    rfl
  case takeover =>
    rw [State.put_chip, fmTakeover_standby now hself hlate hstandby]
    obtain ⟨hmanager, helected, hsilent⟩ := Chip.office_eq_iff.1
      (Chip.office_startEpoch (c.onRtr r (fun y => y.takenOver (s.chip.nodeId r) (c.now r))) r)
    obtain ⟨-, -, hlsdb⟩ := Chip.linkState_eq_iff.1
      (Chip.linkState_startEpoch (c.onRtr r (fun y => y.takenOver (s.chip.nodeId r) (c.now r))) r)
    rw [Chip.reach_onRtr, Chip.reach_at_rtr] at hmanager helected hsilent hlsdb
    exact ⟨hmanager, helected, hlsdb, fun hgone => hsilent ▸ x.mem_lose_silent (s.chip.nodeId r) hgone⟩
  case own => exact State.run_live_eq halive (fmTakeover_other now hself hlate hstandby)

end Sys2Proof.Machine
end

section
/-!
Collectives as they start, wait and are tested (R296, R297, R310, R312): what every operation of an invocation leaves of its reach's invocations,
fabric time and adder flags, and the statement about them.
-/

namespace Sys2Proof.Machine

/-! ### What leaves the collectives of a reach and its time -/

/-- Of a reach: its fabric time and its collectives. -/
def Chip.collClock (c : Chip) (r : ReachId) : Time × Coll := (c.now r, (c.reach r).coll)

theorem Chip.collClock_eq_iff {c d : Chip} {r : ReachId} :
    c.collClock r = d.collClock r ↔ c.now r = d.now r ∧ (c.reach r).coll = (d.reach r).coll := by
  simp [Chip.collClock]

theorem Chip.apart_collClock {c d : Chip} (h : c.apart = d.apart) (r : ReachId) : c.collClock r = d.collClock r :=
  Chip.collClock_eq_iff.2 ⟨congrArg TimeDom.now (Chip.apart_time h r), Chip.apart_coll h r⟩

theorem Chip.collClock_onReach {c : Chip} {q : ReachId} {f : Reach → Reach} (h : ∀ x, (f x).time = x.time ∧ (f x).coll = x.coll)
    (r : ReachId) : (c.onReach q f).collClock r = c.collClock r := by
  obtain ⟨htime, hcoll⟩ := h (c.reach q)
  by_cases hr : r = q
  · subst hr; simp [Chip.collClock, Chip.now, htime, hcoll]
  · simp [Chip.collClock, Chip.now, Chip.reach_onReach_ne c f hr]

@[simp] theorem Chip.collClock_onTile (c : Chip) (q r : ReachId) (t : Nat) (f : Tile → Tile) :
    (c.onTile q t f).collClock r = c.collClock r := by
  unfold Chip.onTile
  refine Chip.collClock_onReach ?_ r
  exact fun _ => ⟨rfl, rfl⟩

@[simp] theorem Chip.collClock_onQp (c : Chip) (q r : ReachId) (qpn : BitVec 24) (f : Qp → Qp) :
    (c.onQp q qpn f).collClock r = c.collClock r := by
  unfold Chip.onQp Chip.onRme
  refine Chip.collClock_onReach ?_ r
  exact fun _ => ⟨rfl, rfl⟩

@[simp] theorem Chip.collClock_onPlanBy (c : Chip) (q r : ReachId) (handle : Word64) (f : PlanInst → PlanInst) :
    (c.onPlanBy q handle f).collClock r = c.collClock r := by
  unfold Chip.onPlanBy
  refine Chip.collClock_onReach ?_ r
  exact fun _ => ⟨rfl, rfl⟩

@[simp] theorem Chip.collClock_sendKeeper (c : Chip) (q r : ReachId) (dst : Word16) (b : KeeperBody) :
    (c.sendKeeper q dst b).collClock r = c.collClock r := by
  unfold Chip.sendKeeper; dsimp only
  refine Chip.collClock_onReach ?_ r
  exact fun _ => ⟨rfl, rfl⟩

@[simp] theorem Chip.collClock_writePhys (c : Chip) (q r : ReachId) (pa : Nat) (bs : List Byte) :
    (c.onReach q (fun x => x.writePhys pa bs)).collClock r = c.collClock r := by
  refine Chip.collClock_onReach (fun x => ?_) r
  unfold Reach.writePhys
  split <;> exact ⟨rfl, rfl⟩

@[simp] theorem Chip.collClock_completeOpt (c : Chip) (ref : Option CmdRef) (source status : Nat) (result : Word64) (r : ReachId) :
    (c.completeOpt ref source status result).collClock r = c.collClock r :=
  Chip.apart_collClock (Chip.completeOpt_apart ..) r

@[simp] theorem Chip.collClock_wakeTile (c : Chip) (q r : ReachId) (t : Nat) : (c.wakeTile q t).collClock r = c.collClock r := by
  have hdone : ∀ (d : Chip) i cls cycles, (d.doneStep q t i cls cycles).collClock r = d.collClock r := fun d i cls cycles =>
    (Chip.apart_collClock (Chip.stepTrace_apart ..) r).trans (Chip.collClock_onTile ..)
  unfold Chip.wakeTile
  split
  · split
    · exact hdone ..
    · rfl
  · rfl

@[simp] theorem Chip.collClock_memberAdd (c : Chip) (q r : ReachId) (m : CollMember) (a n : Nat) :
    (c.memberAdd q m a n).collClock r = c.collClock r := by
  simp [Chip.memberAdd]

@[simp] theorem Chip.collClock_memberWrite (c : Chip) (q r : ReachId) (m : CollMember) (a : Nat) (bs : List Byte) :
    (c.memberWrite q m a bs).collClock r = c.collClock r := by
  simp [Chip.memberWrite]

@[simp] theorem Chip.collClock_scramble (c : Chip) (q r : ReachId) (t a n : Nat) : (c.scramble q t a n).collClock r = c.collClock r := by
  unfold Chip.scramble; dsimp only
  exact Chip.collClock_onTile (c.freeBytes n).2 q r t _

@[simp] theorem Chip.collClock_declareStop (c : Chip) (q r : ReachId) (cause : StopCause) (i : StopInfo) (tell : Bool) (p : PlanInst) :
    (c.declareStop q cause i tell p).collClock r = c.collClock r := by
  have hfrozen : ∀ d : Chip, ((d.onReach q (fun x => x.mapPlans (fun k => k.con.hdr.planId == p.con.hdr.planId)
      (fun k => { k with st := .stopped, cause := some cause }))).onReach q
      (fun x => x.onPlanTiles p.con.hdr.planId Tile.freeze)).collClock r = d.collClock r := by
    intro d
    refine (Chip.collClock_onReach ?_ r).trans (Chip.collClock_onReach ?_ r) <;> exact fun _ => ⟨rfl, rfl⟩
  unfold Chip.declareStop; dsimp only
  rw [Chip.apart_collClock (Chip.fire_apart ..) r, Chip.apart_collClock (Chip.event_apart ..) r]
  cases tell with
  | false => exact hfrozen c
  | true =>
    refine (forEach_keeps (fun d : Chip => d.collClock r) (fun d n => d.collClock_sendKeeper q r n _) _ _).trans ?_
    exact (Chip.apart_collClock (Chip.stopTdc_apart ..) r).trans (hfrozen c)

@[simp] theorem Chip.collClock_planDone (c : Chip) (q r : ReachId) (handle : Word64) : (c.planDone q handle).collClock r = c.collClock r := by
  unfold Chip.planDone; dsimp only
  split
  · split
    · rfl
    split
    · exact (Chip.apart_collClock (Chip.complete_apart ..) r).trans
        (forEach_keeps (fun d : Chip => d.collClock r) (fun d k => d.collClock_onPlanBy k r handle _) _ c)
    · rfl
  · rfl

/-- An operation that the engine takes is an operation of a context. -/
theorem Chip.collClock_submit {c d : Chip} {q : ReachId} {e : WorkEntry} {b : Submitter} {runs : List Run} {tail : List Byte}
    (h : c.submit q e b runs tail = .taken d) (r : ReachId) : d.collClock r = c.collClock r := by
  unfold Chip.submit at h
  split at h
  · cases h
  · split at h
    · cases h
    · cases h
    · cases h
    · cases h
    all_goals
      split at h
      · cases h
      split at h
      · cases h
      split at h
      · cases h
      · cases h; exact Chip.collClock_onQp ..

theorem Chip.collClock_creditAdd {c d : Chip} {q : ReachId} {i : CollInv} {m w : Nat} (h : c.creditAdd q i m w = .taken d) (r : ReachId) :
    d.collClock r = c.collClock r := by
  unfold Chip.creditAdd at h
  split at h
  · cases h; exact Chip.collClock_memberAdd ..
  · split at h
    · cases h
    · exact Chip.collClock_submit h r

/-! ### What an operation makes of an invocation -/

/-- What names an invocation. -/
def CollInv.name (i : CollInv) : Option Word64 × Word64 × CollDesc × Nat := (i.plan, i.key, i.desc, i.member)

/-- An invocation apart from what may still change of one that has finished: grants, chunks in hand, readiness, partners to be told, its slot and
the time of its last progress. -/
def CollInv.lasting (i : CollInv) : CollInv :=
  { i with granted := 0, landed := [], ready := false, abortLeft := [], slot := none, lastProgress := 0 }

/-- An invocation goes on at a time: it keeps its name, its last progress stays or is that time, and a finished one is over. -/
structure CollInv.Goes (now : Time) (i j : CollInv) : Prop where
  name : j.name = i.name
  pace : j.lastProgress = i.lastProgress ∨ j.lastProgress = now
  lasting : i.finished = true → j.lasting = i.lasting

theorem CollInv.Goes.refl (now : Time) (i : CollInv) : i.Goes now i := ⟨rfl, Or.inl rfl, fun _ => rfl⟩

theorem CollInv.finished_of_lasting {i j : CollInv} (h : j.lasting = i.lasting) : j.finished = i.finished := by
  change j.lasting.finished = i.lasting.finished
  rw [h]

theorem CollInv.Goes.trans {now : Time} {i j k : CollInv} (h : i.Goes now j) (h' : j.Goes now k) : i.Goes now k where
  name := h'.name.trans h.name
  pace := h'.pace.elim (fun e => h.pace.imp e.trans e.trans) .inr
  lasting hfin := (h'.lasting ((CollInv.finished_of_lasting (h.lasting hfin)).trans hfin)).trans (h.lasting hfin)

theorem CollInv.is_of_name {i j : CollInv} (h : j.name = i.name) (key : Word64) (coll member : Nat) :
    j.is key coll member = i.is key coll member := by
  simp only [CollInv.name, Prod.mk.injEq] at h
  obtain ⟨-, hkey, hdesc, hmember⟩ := h
  simp [CollInv.is, hkey, hdesc, hmember]

theorem CollInv.is_iff {i : CollInv} {key : Word64} {coll member : Nat} :
    i.is key coll member = true ↔ i.key = key ∧ i.desc.coll = coll ∧ i.member = member := by
  simp [CollInv.is, and_assoc]

theorem Reach.is_of_inv {x : Reach} {key : Word64} {coll member : Nat} {i : CollInv} (h : x.inv key coll member = some i) :
    i.key = key ∧ i.desc.coll = coll ∧ i.member = member :=
  CollInv.is_iff.1 (List.find?_some (p := fun i : CollInv => i.is _ _ _) h)

theorem Chip.invNow_of_inv {c : Chip} {r : ReachId} {i j : CollInv} (h : (c.reach r).inv i.key i.desc.coll i.member = some j) :
    c.invNow r i = j := by
  simp [Chip.invNow, h]

/-- A found invocation is the one that the reach has now. -/
theorem Chip.invNow_self {c : Chip} {r : ReachId} {key : Word64} {coll member : Nat} {i : CollInv}
    (h : (c.reach r).inv key coll member = some i) : c.invNow r i = i := by
  obtain ⟨rfl, rfl, rfl⟩ := Reach.is_of_inv h
  exact Chip.invNow_of_inv h

/-- The state of an invocation now goes by the same key, collective and member. -/
theorem Chip.invNow_is (c : Chip) (r : ReachId) (i : CollInv) : (c.invNow r i).is i.key i.desc.coll i.member = true := by
  cases h : (c.reach r).inv i.key i.desc.coll i.member with
  | none => simp [Chip.invNow, h, CollInv.is]
  | some j => rw [Chip.invNow_of_inv h]; exact List.find?_some (p := fun i : CollInv => i.is _ _ _) h

theorem Chip.eq_invNow {c : Chip} {r : ReachId} {i j : CollInv}
    (h : (c.reach r).inv (c.invNow r i).key (c.invNow r i).desc.coll (c.invNow r i).member = some j) : j = c.invNow r i := by
  obtain ⟨hkey, hcoll, hmember⟩ := CollInv.is_iff.1 (c.invNow_is r i)
  rw [hkey, hcoll, hmember] at h
  exact (Chip.invNow_of_inv h).symm

/-! ### What an operation makes of a reach's collectives -/

/-- The collectives of a reach go on: no time passes, the adders' flags stay, and each invocation that is there afterwards has gone on. -/
structure Chip.CollsGo (r : ReachId) (c d : Chip) : Prop where
  now : d.now r = c.now r
  endpointOk : (d.reach r).coll.endpointOk = (c.reach r).coll.endpointOk
  testFail : (d.reach r).coll.testFail = (c.reach r).coll.testFail
  inv : ∀ {key coll member j}, (d.reach r).inv key coll member = some j →
    ∃ i, (c.reach r).inv key coll member = some i ∧ i.Goes (c.now r) j

theorem Chip.CollsGo.refl (r : ReachId) (c : Chip) : Chip.CollsGo r c c :=
  ⟨rfl, rfl, rfl, fun h => ⟨_, h, .refl _ _⟩⟩

theorem Chip.CollsGo.trans {r : ReachId} {c d e : Chip} (h : Chip.CollsGo r c d) (h' : Chip.CollsGo r d e) : Chip.CollsGo r c e where
  now := h'.now.trans h.now
  endpointOk := h'.endpointOk.trans h.endpointOk
  testFail := h'.testFail.trans h.testFail
  inv hk := by
    obtain ⟨j, hj, hjk⟩ := h'.inv hk
    obtain ⟨i, hi, hij⟩ := h.inv hj
    exact ⟨i, hi, hij.trans (h.now ▸ hjk)⟩

/-- An operation that leaves time and collectives alone. -/
theorem Chip.CollsGo.of_collClock {r : ReachId} {c d : Chip} (h : d.collClock r = c.collClock r) : Chip.CollsGo r c d := by
  obtain ⟨hnow, hcoll⟩ := Chip.collClock_eq_iff.1 h
  exact ⟨hnow, by rw [hcoll], by rw [hcoll], fun {_ _ _ j} hj => ⟨j, by simpa [Reach.inv, hcoll] using hj, .refl _ _⟩⟩

/-- A loop whose steps let the collectives go on. -/
theorem Chip.CollsGo.forEach {α : Type} {r : ReachId} {f : Chip → α → Chip} (h : ∀ c a, Chip.CollsGo r c (f c a)) (l : List α) (c : Chip) :
    Chip.CollsGo r c (forEach l c f) :=
  forEach_preserves l (.refl r c) (fun d a hd => hd.trans (h d a))

/-- A change of one invocation shows where that invocation is looked up. -/
theorem Chip.inv_onInv (c : Chip) (r : ReachId) (i : CollInv) {f : CollInv → CollInv} (hname : ∀ k, (f k).name = k.name) (key : Word64)
    (coll member : Nat) : ((c.onInv r i f).reach r).inv key coll member = ((c.reach r).inv key coll member).map (fun k =>
      if k.is i.key i.desc.coll i.member then f k else k) := by
  have his : ((fun k : CollInv => k.is key coll member) ∘ fun k => if k.is i.key i.desc.coll i.member then f k else k) =
      fun k => k.is key coll member := funext fun k => by
    by_cases hk : k.is i.key i.desc.coll i.member = true <;> simp [hk, CollInv.is_of_name (hname k)]
  simp only [Reach.inv, Chip.onInv, Chip.reach_onReach, List.find?_map, his]

/-- A change of one invocation that lets it go on. -/
theorem Chip.CollsGo.onInv {r : ReachId} {c : Chip} {i : CollInv} {f : CollInv → CollInv}
    (h : ∀ k, (c.reach r).inv i.key i.desc.coll i.member = some k → k.Goes (c.now r) (f k))
    (hname : ∀ k, (f k).name = k.name := by exact fun _ => rfl) : Chip.CollsGo r c (c.onInv r i f) := by
  refine ⟨by simp [Chip.now, Chip.onInv], by simp [Chip.onInv], by simp [Chip.onInv], fun {key coll member j} hj => ?_⟩
  rw [Chip.inv_onInv c r i hname] at hj
  obtain ⟨k, hk, rfl⟩ := Option.map_eq_some_iff.1 hj
  refine ⟨k, hk, ?_⟩
  split
  · rename_i his
    obtain ⟨hkey, hcoll, hmember⟩ := CollInv.is_iff.1 his
    obtain ⟨rfl, rfl, rfl⟩ := Reach.is_of_inv hk
    exact h k (by rw [← hkey, ← hcoll, ← hmember]; exact hk)
  · exact .refl _ k

/-- What a search finds behind a filter that tells no two of its matches apart, it finds without. -/
theorem find?_of_find?_filter {α : Type} {p q : α → Bool} {l : List α} {a : α} (hp : ∀ x y, q x = true → q y = true → p x = p y)
    (h : (l.filter p).find? q = some a) : l.find? q = some a := by
  have hpa := (List.mem_filter.1 (List.mem_of_find?_eq_some h)).2
  have hsame : (fun x => decide (p x = true ∧ q x = true)) = q := funext fun x => by
    cases hx : q x with
    | false => simp
    | true => simpa using (hp x a hx (List.find?_some h)).trans hpa
  rwa [List.find?_filter, hsame] at h

/-- The module without the invocations of one key, collective and member. -/
def Chip.dropInv (c : Chip) (r : ReachId) (i : CollInv) : Chip :=
  c.onReach r (fun x => { x with coll := { x.coll with invs := x.coll.invs.filter (fun j => !j.is i.key i.desc.coll i.member) } })

theorem Chip.CollsGo.dropInv (r : ReachId) (c : Chip) (i : CollInv) : Chip.CollsGo r c (c.dropInv r i) := by
  refine ⟨by simp [Chip.now, Chip.dropInv], by simp [Chip.dropInv], by simp [Chip.dropInv], fun {key coll member j} hj => ⟨j, ?_, .refl _ j⟩⟩
  rw [Chip.dropInv, Reach.inv, Chip.reach_onReach] at hj
  refine find?_of_find?_filter (fun k l hk hl => ?_) hj
  obtain ⟨hkey, hcoll, hmember⟩ := CollInv.is_iff.1 hk
  obtain ⟨rfl, rfl, rfl⟩ := CollInv.is_iff.1 hl
  simp [CollInv.is, hkey, hcoll, hmember]

/-! ### The operations of an invocation -/

section

variable (c : Chip) (r : ReachId) (i : CollInv)

/-- The slots of an invocation go, and loads that waited for them may complete (R305). -/
theorem Chip.freeSlots_goes : Chip.CollsGo r c (c.freeSlots r i) := by
  unfold Chip.freeSlots
  split
  · have hslot : Chip.CollsGo r c (c.onInv r i (fun k => { k with slot := none })) :=
      .onInv (fun _ _ => ⟨rfl, .inl rfl, fun _ => rfl⟩)
    dsimp only
    split
    · exact hslot
    · refine (hslot.trans ?_).trans (.forEach (fun d h => .of_collClock (d.collClock_planDone r r h)) _ _)
      exact ⟨by simp [Chip.now], by simp, by simp, fun {_ _ _ j} hj => ⟨j, by simpa [Reach.inv] using hj, .refl _ j⟩⟩
  · exact .refl r c

theorem Chip.tellAborts_goes : Chip.CollsGo r c (c.tellAborts r i) := by
  have htold : ∀ (d : Chip) m, Chip.CollsGo r d (d.onInv r i (fun k => { k with abortLeft := k.abortLeft.filter (fun n => n != m) })) :=
    fun d m => .onInv (fun _ _ => ⟨rfl, .inl rfl, fun _ => rfl⟩)
  refine .forEach (fun d m => ?_) _ c
  split
  · exact .refl r d
  · exact htold d m
  next e he => exact (Chip.CollsGo.of_collClock (Chip.collClock_creditAdd he r)).trans (htold e m)

theorem Chip.dropLanded_goes : Chip.CollsGo r c (c.dropLanded r i) := by
  have hseen : ∀ (d : Chip) (e : Nat × Option (BitVec 24 × BitVec 24)), Chip.CollsGo r d (match e.2 with
      | some (qpn, msn) => d.onQp r qpn (fun q =>
          { q with inOps := q.inOps.map (fun o => if o.msn == msn then { o with collWait := false } else o) })
      | none => d) := fun d e => by
    split
    · exact .of_collClock (d.collClock_onQp r r _ _)
    · exact .refl r d
  exact (Chip.CollsGo.forEach hseen i.landed c).trans (.onInv (fun _ _ => ⟨rfl, .inl rfl, fun _ => rfl⟩))

/-- No invocation of the key, collective and member of `i` that the reach finds has finished. -/
def Chip.unfinished : Prop := ∀ k, (c.reach r).inv i.key i.desc.coll i.member = some k → k.finished = false

variable {c r i}

theorem Chip.unfinished_of_invNow (h : (c.invNow r i).finished = false) : c.unfinished r (c.invNow r i) :=
  fun _ hk => (Chip.eq_invNow hk).symm ▸ h

theorem Chip.unfinished_of_collClock {d : Chip} (hd : d.collClock r = c.collClock r) (h : c.unfinished r i) : d.unfinished r i := by
  obtain ⟨-, hcoll⟩ := Chip.collClock_eq_iff.1 hd
  intro k hk
  rw [Reach.inv, hcoll] at hk
  exact h k hk

/-- A change of an invocation that has not finished. -/
theorem Chip.CollsGo.onInv_unfinished {f : CollInv → CollInv} (h : c.unfinished r i) (hname : ∀ k, (f k).name = k.name := by exact fun _ => rfl)
    (hpace : ∀ k, (f k).lastProgress = k.lastProgress := by exact fun _ => rfl) : Chip.CollsGo r c (c.onInv r i f) :=
  .onInv (fun k hk => ⟨hname k, .inl (hpace k), fun hfin => absurd hfin (by simp [h k hk])⟩) hname

theorem Chip.unfinished_onInv {f : CollInv → CollInv} (h : c.unfinished r i) (hname : ∀ k, (f k).name = k.name := by exact fun _ => rfl)
    (hfin : ∀ k, (f k).finished = k.finished := by exact fun _ => rfl) : (c.onInv r i f).unfinished r i := by
  intro k hk
  rw [Chip.inv_onInv c r i hname] at hk
  obtain ⟨j, hj, rfl⟩ := Option.map_eq_some_iff.1 hk
  split
  · exact (hfin j).trans (h j hj)
  · exact h j hj

variable (c r i)

/-- A failure's rollback (R313). -/
theorem Chip.rollBack_goes : Chip.CollsGo r c (c.rollBack r i) := by
  unfold Chip.rollBack; dsimp only
  split
  · exact .refl r c
  split
  · exact .refl r c
  rename_i hwait
  simp only [Bool.or_eq_true, not_or, Bool.not_eq_true] at hwait
  obtain ⟨⟨hfin, -⟩, -⟩ := hwait
  generalize hd : (if (c.invNow r i).doneAdded = true then c else _) = d
  have hscrambled : d.collClock r = c.collClock r := by
    rw [← hd]
    split <;> simp
  have hfreed : ∀ used aborts j, Chip.CollsGo r c ((d.onInv r (c.invNow r i) (fun k =>
      { k with used := used, abortUsed := aborts, finished := true })).freeSlots r j) := fun used aborts j =>
    ((Chip.CollsGo.of_collClock hscrambled).trans (.onInv_unfinished (Chip.unfinished_of_collClock hscrambled
      (Chip.unfinished_of_invNow hfin)))).trans (Chip.freeSlots_goes ..)
  split
  · split
    · split
      · exact (hfreed ..).trans (.of_collClock (Chip.collClock_declareStop ..))
      · exact hfreed ..
    · exact hfreed ..
  · exact ((hfreed ..).trans (.of_collClock (Chip.collClock_completeOpt ..))).trans (.dropInv r _ _)

/-- A failure (R313, R315). -/
theorem Chip.collFail_goes (code rme : Nat) : Chip.CollsGo r c (c.collFail r i code rme) := by
  unfold Chip.collFail; dsimp only
  split
  · exact .refl r c
  rename_i hwait
  simp only [Bool.or_eq_true, not_or, Bool.not_eq_true] at hwait
  obtain ⟨hfin, -⟩ := hwait
  exact ((Chip.CollsGo.trans (.onInv_unfinished (Chip.unfinished_of_invNow hfin)) (Chip.dropLanded_goes ..)).trans
    (Chip.tellAborts_goes ..)).trans (Chip.rollBack_goes ..)

/-- A member that becomes ready (R289, R297). -/
theorem Chip.makeReady_goes : Chip.CollsGo r c (c.makeReady r i) := by
  unfold Chip.makeReady; dsimp only
  split
  · exact .refl r c
  · refine (Chip.CollsGo.forEach (fun d k => .of_collClock ?_) _ c).trans (.onInv (fun _ _ => ⟨rfl, .inr rfl, fun _ => rfl⟩))
    simp

theorem Chip.lookAbort_goes : Chip.CollsGo r c (c.lookAbort r i) := by
  unfold Chip.lookAbort
  split
  · exact .refl r c
  split
  · exact Chip.collFail_goes ..
  · exact .refl r c

/-- A grant, which is progress of the member that gets it (R298). -/
theorem Chip.grantNext_goes : Chip.CollsGo r c (c.grantNext r i) := by
  have hgranted : ∀ (d : Chip) (k : CollInv) n, Chip.CollsGo r d (d.onInv r k (fun j => { j with granted := n })) :=
    fun d k n => .onInv (fun _ _ => ⟨rfl, .inl rfl, fun _ => rfl⟩)
  have hseen : ∀ (d : Chip) (k : CollInv), Chip.CollsGo r d (d.onInv r k (fun j => { j with lastProgress := d.now r })) :=
    fun d k => .onInv (fun _ _ => ⟨rfl, .inr rfl, fun _ => rfl⟩)
  unfold Chip.grantNext; dsimp only
  split
  · exact .refl r c
  split
  · exact .refl r c
  split
  · exact .refl r c
  · exact Chip.collFail_goes ..
  next d hd =>
    have htaken := (Chip.CollsGo.of_collClock (Chip.collClock_creditAdd hd r)).trans
      (hgranted d (c.invNow r i) ((c.invNow r i).granted + 1))
    split
    · exact htaken.trans (hseen _ _)
    · exact htaken

theorem Chip.grants_goes : Chip.CollsGo r c (c.grants r i) :=
  .forEach (f := fun d _ => d.grantNext r i) (fun d _ => d.grantNext_goes r i) _ c

/-- The end of an invocation (R301). -/
theorem Chip.collEnd_goes : Chip.CollsGo r c (c.collEnd r i) := by
  unfold Chip.collEnd; dsimp only
  split
  · exact .refl r c
  rename_i hwait
  simp only [Bool.or_eq_true, not_or, Bool.not_eq_true] at hwait
  obtain ⟨⟨hfin, -⟩, -⟩ := hwait
  have hopen := Chip.unfinished_of_invNow hfin
  generalize hd : (if ((c.invNow r i).resultStands && !(c.invNow r i).doneAdded) = true then _ else c) = d
  have htold : Chip.CollsGo r c d ∧ d.unfinished r (c.invNow r i) := by
    rw [← hd]
    split
    · have hadd := Chip.collClock_memberAdd c r r (c.invNow r i).mine (c.invNow r i).mine.doneAddr 1
      have hopen' := Chip.unfinished_of_collClock hadd hopen
      exact ⟨(Chip.CollsGo.of_collClock hadd).trans (.onInv_unfinished hopen'),
        Chip.unfinished_onInv hopen'⟩
    · exact ⟨.refl r c, hopen⟩
  obtain ⟨hgo, hopen'⟩ := htold
  have hended : ∀ j, Chip.CollsGo r c ((d.onInv r (c.invNow r i) (fun k => { k with finished := true })).freeSlots r j) := fun j =>
    (hgo.trans (.onInv_unfinished hopen')).trans (Chip.freeSlots_goes ..)
  split
  · split
    · exact hended _
    · exact ((hended _).trans (.of_collClock (Chip.collClock_completeOpt ..))).trans (.dropInv r _ _)
  · exact hgo

/-- A member that looks at its words and goes on with what it can do. -/
theorem Chip.collWake_goes : Chip.CollsGo r c (c.collWake r i) := by
  unfold Chip.collWake; dsimp only
  generalize hd : (if (i.desc.reducing && !(c.reach r).coll.endpointOk) = true then _ else c) = d
  have hchecked : Chip.CollsGo r c d := by
    rw [← hd]
    split
    · exact Chip.collFail_goes ..
    · exact .refl r c
  generalize hl : (d.makeReady r (d.invNow r i)).lookAbort r _ = l
  have hlooked : Chip.CollsGo r c l := hl ▸ (hchecked.trans (Chip.makeReady_goes ..)).trans (Chip.lookAbort_goes ..)
  refine (hlooked.trans ?_).trans (Chip.collEnd_goes ..)
  split
  · exact Chip.grants_goes ..
  · exact (Chip.tellAborts_goes ..).trans (Chip.rollBack_goes ..)

end

/-! ### The next round (R297) -/

/-- Whether and how the next round starts hangs on nothing that may change of a finished invocation. -/
theorem Chip.nextRound_congr (c : Chip) (r : ReachId) {i j : CollInv} (h : j.lasting = i.lasting) : c.nextRound r j = c.nextRound r i := by
  have hlasting : ∀ k : CollInv, c.nextRound r k = c.nextRound r k.lasting := fun _ => rfl
  rw [hlasting j, h, ← hlasting]

theorem Chip.nextRound_unfinished (c : Chip) (r : ReachId) {i : CollInv} (h : i.finished = false) : c.nextRound r i = c := by
  unfold Chip.nextRound
  split
  · rfl
  · split
    · simp [h]
    · rfl

/-- A next round starts for a planned invocation alone. -/
theorem Chip.nextRound_cases (c : Chip) (r : ReachId) (i : CollInv) :
    c.nextRound r i = c ∨ i.plan.isSome = true ∧ c.nextRound r i = c.replaceInv r i (i.following (c.now r)) := by
  unfold Chip.nextRound
  split
  · exact .inl rfl
  next h hplan =>
    split
    · split
      · exact .inr ⟨by simp [hplan], rfl⟩
      · exact .inl rfl
    · exact .inl rfl

/-- An invocation that has just taken the place of another of its own has made its last progress now. -/
theorem Chip.replaceInv_pace {c : Chip} {r : ReachId} {i j k : CollInv} (hj : j.is i.key i.desc.coll i.member = true)
    (hpace : j.lastProgress = c.now r) (hk : ((c.replaceInv r i j).reach r).inv i.key i.desc.coll i.member = some k) :
    k.lastProgress = (c.replaceInv r i j).now r ∧ k.plan = j.plan := by
  unfold Chip.replaceInv Chip.startInv at hk ⊢
  dsimp only at hk ⊢
  rw [Chip.onReach_onReach] at hk ⊢
  obtain ⟨hnow, -, -, hinv⟩ := Chip.collWake_goes _ r j
  obtain ⟨j', hj', hgo⟩ := hinv hk
  have hnone : ∀ l : List CollInv, (l.filter (fun k => !k.is i.key i.desc.coll i.member)).find?
      (fun k => k.is i.key i.desc.coll i.member) = none := fun l => by simp [List.find?_eq_none]
  obtain rfl : j = j' := by simpa [Reach.inv, List.find?_append, hnone, hj] using hj'
  obtain ⟨hname, hgone, -⟩ := hgo
  refine ⟨?_, congrArg Prod.fst hname⟩
  rw [hnow]
  simpa [hpace, Chip.now] using hgone

theorem Chip.CollsGo.invNow {r : ReachId} {c d : Chip} (h : Chip.CollsGo r c d) {i : CollInv}
    (hi : (c.reach r).inv i.key i.desc.coll i.member = some i) : i.Goes (c.now r) (d.invNow r i) := by
  cases hd : (d.reach r).inv i.key i.desc.coll i.member with
  | none =>
    rw [Chip.invNow, hd]
    exact .refl _ i
  | some j =>
    obtain ⟨i', hi', hgo⟩ := h.inv hd
    rw [Chip.invNow_of_inv hd]
    exact Option.some.inj (hi.symm.trans hi') ▸ hgo

/-- The next round is started by the invocation as it was before it looked at its words, unless it has finished just now: then what is found
in its place has just started. -/
theorem Chip.nextRound_woken {c : Chip} {r : ReachId} {key : Word64} {coll member : Nat} {i0 i : CollInv}
    (h : (c.reach r).inv key coll member = some i0)
    (hi : (((c.collWake r i0).nextRound r ((c.collWake r i0).invNow r i0)).reach r).inv key coll member = some i) :
    (c.collWake r i0).nextRound r ((c.collWake r i0).invNow r i0) = (c.collWake r i0).nextRound r i0
      ∨ i.plan.isSome = true
        ∧ i.lastProgress = ((c.collWake r i0).nextRound r ((c.collWake r i0).invNow r i0)).now r := by
  obtain ⟨rfl, rfl, rfl⟩ := Reach.is_of_inv h
  obtain ⟨-, -, hlasting⟩ := (c.collWake_goes r i0).invNow h
  by_cases hfin : i0.finished = true
  · exact .inl (Chip.nextRound_congr _ r (hlasting hfin))
  rw [Chip.nextRound_unfinished _ r (Bool.eq_false_iff.2 hfin) (i := i0)]
  refine (Chip.nextRound_cases _ r _).imp_right ?_
  rintro ⟨hplan, hnext⟩
  obtain ⟨hkey, hcoll, hmember⟩ := CollInv.is_iff.1 ((c.collWake r i0).invNow_is r i0)
  rw [hnext] at hi ⊢
  rw [← hkey, ← hcoll, ← hmember] at hi
  obtain ⟨hpace, hplan'⟩ := Chip.replaceInv_pace (CollInv.is_iff.2 ⟨rfl, rfl, rfl⟩) rfl hi
  exact ⟨hplan' ▸ hplan, hpace⟩

/-! ### The commands -/

/-- An effect after which operations may have retired is carried out by a live module, in the words of a lemma about the effect. -/
theorem State.runSettle_live_eq {s : State} {f : Chip → Chip} {d : Chip} (halive : s.chip.alive = true) (hf : f s.chip = d) :
    s.runSettle f = .next (s.put d.settle) := by
  rw [State.runSettle_live f halive, hf]

theorem exec_collStart (ref : CmdRef) (p : CollStart) (s : State) :
    exec (.collStart ref p) s = s.runCmdSettle ref (fun ref => collStart ref p) := rfl

theorem exec_collTimeout (r : ReachId) (now : Time) (key : Word64) (coll member : Nat) (s : State) :
    exec (.collTimeout r now key coll member) s = s.runSettle (collTimeout r now key coll member) := rfl

theorem exec_adderTestBurst (r : ReachId) (now : Time) (wharf pass : Bool) (s : State) :
    exec (.adderTestBurst r now wharf pass) s = s.runSettle (adderTestBurst r now wharf pass) := rfl
theorem collStart_starts {ref : CmdRef} {p : CollStart} {c : Chip} {fmt : Nat} {ds : List CollDesc} {ms : List CollMember} {es : List CollEdge}
    {d : CollDesc} {m : CollMember} {r : ReachId} (hsec : collSection p.section_ = (fmt, ds, ms, es)) (hd : ds[p.index]? = some d)
    (hm : (d.membersOf ms)[p.member]? = some m) (hr : r.val = m.tile / 64 % 4) (hserv : c.inService r = true)
    (hcheck : c.collStartCheck r ref.fn fmt d ms es m = none) (hpeer : m.peer = (c.nodeId r).toNat) :
    collStart ref p c = c.startInv r (newInv none ref.handle d (d.membersOf ms) ((d.membersOf ms).map (fun e => BitVec.ofNat 16 e.peer))
      (d.edgesOf es) p.member 0 (BitVec.ofNat 32 (ref.handle.toNat / 65536)) (some ref) [] 0 (c.now r)) := by
  have htile : (⟨m.tile / 64 % 4, Nat.mod_lt _ (by decide)⟩ : ReachId) = r := Fin.ext hr.symm
  simp only [collStart, hsec, hd, hm, htile]
  simp [hserv, hcheck, hpeer]

/-- A planned invocation waits for some time. -/
theorem Chip.collPatience_pos {c : Chip} {r : ReachId} {i : CollInv} (h : i.plan.isSome = true) : 0 < c.collPatience r i := by
  obtain ⟨handle, hplan⟩ := Option.isSome_iff_exists.1 h
  simp only [Chip.collPatience, hplan, nsUnits]
  split
  · split <;> omega
  · omega

/-- COLL_TIMEOUT once the member has waited too long (R312). -/
theorem collTimeout_late {c d : Chip} {r : ReachId} {now : Time} {key : Word64} {coll member : Nat} {i0 i : CollInv}
    (hserv : c.inService r = true) (hi0 : (c.reach r).inv key coll member = some i0)
    (hd : ((c.at r now).collWake r i0).nextRound r i0 = d) (hi : (d.reach r).inv key coll member = some i) (hfin : i.finished = false)
    (hcode : i.code = none) (hready : if i.streaming = true then i.streamed ≠ [] else i.ready = true)
    (hwaits : i.done.length < i.recvs.length ∨ i.sent.foldl (fun n e => n + e.2) 0 < i.sends.length)
    (hlate : d.collPatience r i ≤ timeDiff i.lastProgress (d.now r)) :
    collTimeout r now key coll member c = (d.tdc r 8 (d.collFn r i) 73 (BitVec.ofNat 32 coll)
      (match i.plan.bind (fun h => (d.reach r).planBy h) with | some p => p.con.hdr.planId | none => 0)).collFail r i 0x80 0 := by
  have hat : ((c.at r now).reach r).inv key coll member = some i0 := by simpa [Reach.inv] using hi0
  have hbegun : (if i.streaming = true then !i.streamed.isEmpty else i.ready) = true := by
    split at hready <;> simp_all
  unfold collTimeout; dsimp only
  rw [hat]; dsimp only
  rw [if_neg (by simp [hserv]), Chip.invNow_self hat, hd, hi]; dsimp only
  exact if_neg (by simp [hfin, hcode, hbegun, hlate]; omega)

/-! ### Bursts of the adder self-test (R310, R453) -/

/-- A burst's result sets the flags of its adder (R310). -/
theorem Chip.adderTested_flags (c : Chip) (r : ReachId) (pass full : Bool) :
    ((c.adderTested r false pass full).reach r).coll.endpointOk = (pass && ((c.reach r).coll.endpointOk || full))
      ∧ ((c.adderTested r false pass full).reach r).coll.testFail = ((c.reach r).coll.testFail || !pass) := by
  unfold Chip.adderTested; dsimp only
  cases pass with
  | true => simp
  | false =>
    rw [if_neg Bool.false_ne_true, if_neg Bool.false_ne_true, if_neg Bool.false_ne_true]
    have hfail := fun l d => Chip.CollsGo.forEach (r := r) (fun e i => Chip.collFail_goes e r i 0x81 0) l d
    refine ⟨(hfail _ _).endpointOk.trans ?_, (hfail _ _).testFail.trans ?_⟩ <;> rw [Chip.apart_coll (Chip.health_apart ..) r] <;> simp

theorem Chip.adderTested_wharf (c : Chip) (r : ReachId) (pass full : Bool) :
    ((c.adderTested r true pass full).reach r).coll.wharfOk = ((c.reach r).coll.wharfOk && pass)
      ∧ ((c.adderTested r true pass full).reach r).coll.testFail = ((c.reach r).coll.testFail || !pass)
      ∧ ((c.adderTested r true pass full).reach r).mem = (c.reach r).mem := by
  unfold Chip.adderTested; dsimp only
  cases pass with
  | true => simp
  | false =>
    rw [if_neg Bool.false_ne_true, if_pos rfl, Chip.apart_coll (Chip.health_apart ..) r, Chip.apart_mem (Chip.health_apart ..) r]
    simp

/-- The burst that ends a test of the wharf counts it (R453). -/
theorem Chip.adderTested_counts (c : Chip) (r : ReachId) :
    ((c.adderTested r true true true).reach r).coll.tests = (c.reach r).coll.tests + 1
      ∧ ((c.adderTested r true true true).reach r).bist = (c.reach r).bist
      ∧ (c.adderTested r true true true).now r = c.now r := by
  simp [Chip.adderTested, Chip.now]

/-- A burst that is due runs: the self-test's own state moves on, dated where the burst ends a test, and the result is the adder's. -/
theorem adderTestBurst_runs {c : Chip} {r : ReachId} (now : Time) {wharf : Bool} (pass : Bool) (hserv : c.inService r = true)
    (hdue : flag (c.reach r).bist.svc 0 = true ∨ (c.reach r).coll.recover = true)
    (hidle : burstOn (if wharf then (c.reach r).bist.burstWharf else (c.reach r).bist.burstEnd) ((c.at r now).now r) = false) :
    ∃ b : Bist, adderTestBurst r now wharf pass c = ((c.at r now).onBist r (fun _ => b)).adderTested r wharf pass
        (decide (499 ≤ if wharf then (c.reach r).bist.burstsWharf else (c.reach r).bist.burstsEnd))
      ∧ (pass = true → 499 ≤ (if wharf then (c.reach r).bist.burstsWharf else (c.reach r).bist.burstsEnd) →
          Tab.find? b.lastPass (if wharf then 64 else 65) = some ((c.at r now).now r)) := by
  have hfull : ∀ n : Nat, decide (500 ≤ n + 1) = decide (499 ≤ n) := fun n => by simp
  unfold adderTestBurst; dsimp only
  have hrun : (flag (c.reach r).bist.svc 0 || (c.reach r).coll.recover) = true := by simpa using hdue
  rw [if_neg (by simp [hserv, hrun, hidle])]
  simp only [Chip.reach_at_bist, hfull]
  refine ⟨_, rfl, fun hpass hn => ?_⟩
  subst hpass
  rw [if_pos (by simpa using hn)]
  exact Tab.find?_set_self ..

/-- Settles O40: the start by `collStart_starts`, the timeout by `collTimeout_late`, where an invocation that has just started has not waited yet,
and the bursts by what `adderTestBurst_runs` and the adder's flags say. -/
theorem collectivesStartAndTimeOut : Obligations.CollectivesStartAndTimeOut := by
  unfold Obligations.CollectivesStartAndTimeOut
  intro s halive
  refine ⟨?start, ?timeout, fun r now pass hserv hdue => ⟨?endpoint, ?wharf⟩⟩
  case start =>
    intro ref p fmt ds ms es d m r htaking hsec hd hm hr hserv hcheck hpeer
    have hstarts := collStart_starts hsec hd hm hr hserv hcheck hpeer
    rw [exec_collStart, State.runCmdSettle_live _ halive htaking, hstarts]
  case timeout =>
    intro r now key coll member i0 i hserv hi0 w c hi hfin hcode hready hwaits hlate
    have hat : ((s.chip.at r now).reach r).inv key coll member = some i0 := by simpa [Reach.inv] using hi0
    rcases Chip.nextRound_woken hat hi with hnext | ⟨hplan, hnow⟩
    · have hends := collTimeout_late hserv hi0 hnext.symm hi hfin hcode hready hwaits hlate
      rw [exec_collTimeout]
      exact State.runSettle_live_eq halive hends
    · have hpos := Chip.collPatience_pos (c := c) (r := r) hplan
      rw [hnow, timeDiff, BitVec.sub_self] at hlate
      exact absurd (Int.lt_of_lt_of_le hpos hlate) (by decide)
  case endpoint =>
    intro hidle
    obtain ⟨b, hrun, -⟩ := adderTestBurst_runs now (wharf := false) pass hserv hdue hidle
    rw [exec_adderTestBurst, State.runSettle_live _ halive, hrun]
    refine ⟨_, rfl, ?_⟩
    simpa using Chip.adderTested_flags ((s.chip.at r now).onBist r (fun _ => b)) r pass (decide (499 ≤ (s.chip.reach r).bist.burstsEnd))
  case wharf =>
    intro hidle
    obtain ⟨b, hrun, hdated⟩ := adderTestBurst_runs now (wharf := true) pass hserv hdue hidle
    simp only [if_true] at hrun hdated
    obtain ⟨hok, hfail, hmem⟩ := Chip.adderTested_wharf ((s.chip.at r now).onBist r (fun _ => b)) r pass
      (decide (499 ≤ (s.chip.reach r).bist.burstsWharf))
    rw [exec_adderTestBurst, State.runSettle_live _ halive, hrun]
    refine ⟨_, rfl, by simpa using hok, by simpa using hfail, fun hpass hn => ?_, by simpa using hmem⟩
    have hfind := hdated hpass hn
    obtain ⟨htests, hbist, hnow⟩ := Chip.adderTested_counts ((s.chip.at r now).onBist r (fun _ => b)) r
    rw [hpass, decide_eq_true hn, htests, hbist, hnow]
    simpa [Chip.now] using hfind

end Sys2Proof.Machine
end

section
/-!
Chunks of a collective (R290, R297 to R300, R307): when a chunk goes out, the exact sum's residue, and the statement about them, which a round that
ends as the command comes refutes.
-/

namespace Sys2Proof.Machine

/-! ### COLL_CHUNK_SEND (R298, R299) -/

theorem exec_collChunkSend (r : ReachId) (now : Time) (key : Word64) (coll member dest : Nat) (s : State) :
    exec (.collChunkSend r now key coll member dest) s = s.runSettle (collChunkSend r now key coll member dest) := rfl

/-- A chunk goes out of the invocation that the command finds once the member has looked at its words. The round after it starts there if the
invocation had finished before, not if it finishes as the member looks. -/
theorem collChunkSend_sends {c d : Chip} {r : ReachId} {now : Time} {key : Word64} {coll member dest : Nat} {i0 i : CollInv} {x : CollItem}
    {p : (Nat × CollItem) × Nat} (hserv : c.inService r = true) (hi0 : (c.reach r).inv key coll member = some i0)
    (hd : ((c.at r now).collWake r i0).nextRound r i0 = d) (hi : (d.reach r).inv key coll member = some i) (hfin : i.finished = false)
    (hcode : i.code = none) (hitem : (i.sends.filter (fun x => x.dest == dest))[Tab.getD i.sent dest 0]? = some x)
    (hplace : ((recvList i.desc i.edges dest).zipIdx.filter (fun e => e.1.1 == i.member))[Tab.getD i.sent dest 0]? = some p)
    (hsource : i.sourceReady x = true) (hturn : i.inTurn dest = true)
    (hcredit : Tab.getD i.used (i.desc.slotOf x dest) 0 < d.memberWord r i.mine (i.mine.creditAddr + 8 * (i.desc.slotOf x dest + 1))) :
    collChunkSend r now key coll member dest c =
      let bs := d.memberRead r i.mine (i.chunkAddr x.fromIn x.src) i.desc.c
      if i.host dest = d.nodeId r then d.sendMember r i x (p.2 % (i.entry dest).stageDepth) bs (d.chunkTail r i x bs)
      else d.sendRemote r i x (p.2 % (i.entry dest).stageDepth) (d.chunkTail r i x bs) := by
  have hat : ((c.at r now).reach r).inv key coll member = some i0 := by simpa [Reach.inv] using hi0
  unfold collChunkSend; dsimp only
  rw [hat]; dsimp only
  rw [if_neg (by simp [hserv]), Chip.invNow_self hat, hd, hi]; dsimp only
  rw [if_neg (by simp [hfin, hcode]), hitem, hplace]; dsimp only
  rw [if_neg (by simp [hsource, hturn, hcredit])]
  simp only [beq_iff_eq]

/-! ### The residue of an exact sum (R307) -/

/-- Chunks add up in either order. -/
theorem addChunks_comm {a b : List Byte} (h : a.length = b.length) : addChunks 0 a b = addChunks 0 b a := by
  simp [addChunks, addElem, h, Nat.add_comm]

/-- An AP128 element of a chunk. -/
def chunkElem (bs : List Byte) (k : Nat) : Int := (BitVec.ofNat 128 (leAt bs (16 * k) 16)).toInt

/-- The residue of the first elements of a chunk, summed one after another. -/
def residueSum (e : Nat → Int) (n : Nat) : Nat :=
  (List.range n).foldl (fun s k => (s + (e k % (residueM : Int)).toNat) % residueM) 0

theorem residue_eq (bs : List Byte) : residue bs = residueSum (chunkElem bs) (bs.length / 16) := rfl

theorem residueSum_succ (e : Nat → Int) (n : Nat) :
    residueSum e (n + 1) = (residueSum e n + (e n % (residueM : Int)).toNat) % residueM := by
  rw [residueSum, List.range_succ, List.foldl_append]
  rfl

/-- Where elements add up exactly, so do residues. -/
theorem residueSum_add {e f g : Nat → Int} {n : Nat} (h : ∀ k, k < n → g k = e k + f k) :
    residueSum g n = (residueSum e n + residueSum f n) % residueM := by
  induction n with
  | zero => rfl
  | succ n ih =>
    have hlast := h n (Nat.lt_succ_self n)
    rw [residueSum_succ, residueSum_succ, residueSum_succ, ih (fun k hk => h k (Nat.lt_succ_of_lt hk)), hlast]
    simp only [residueM]
    omega

/-- The pieces of one length that a list is made of. -/
theorem take_drop_flatMap {α β : Type} {f : α → List β} {w : Nat} (hf : ∀ x, (f x).length = w) {l : List α} {k : Nat} {x : α}
    (hx : l[k]? = some x) : ((l.flatMap f).drop (w * k)).take w = f x := by
  induction l generalizing k with
  | nil => cases hx
  | cons y l ih =>
    rw [List.flatMap_cons]
    cases k with
    | zero =>
      obtain rfl : y = x := by simpa using hx
      simp [← hf y]
    | succ k =>
      have hlen : w * (k + 1) = (f y).length + w * k := by rw [hf, Nat.mul_succ, Nat.add_comm]
      rw [hlen, List.drop_append, Nat.add_sub_cancel_left, List.drop_eq_nil_of_le (Nat.le_add_right ..), List.nil_append]
      exact ih hx

theorem length_flatMap_of_length {α β : Type} {f : α → List β} {w : Nat} (hf : ∀ x, (f x).length = w) (l : List α) :
    (l.flatMap f).length = w * l.length := by
  induction l with
  | nil => rfl
  | cons x l ih => rw [List.flatMap_cons, List.length_append, hf, ih, List.length_cons, Nat.mul_succ, Nat.add_comm]

theorem length_addChunks (a b : List Byte) : (addChunks 0 a b).length = 16 * (a.length / 16) :=
  (length_flatMap_of_length (fun _ => length_leBytes ..) _).trans (congrArg (16 * ·) List.length_range)

/-- An element of a sum, while it stays in the 128-bit range. -/
theorem chunkElem_addChunks {a b : List Byte} {k : Nat} (hk : k < a.length / 16) (hlow : -(2 : Int) ^ 127 ≤ chunkElem a k + chunkElem b k)
    (hhigh : chunkElem a k + chunkElem b k < (2 : Int) ^ 127) : chunkElem (addChunks 0 a b) k = chunkElem a k + chunkElem b k := by
  have hpiece := take_drop_flatMap (l := List.range (a.length / 16))
    (f := fun k => leBytes 16 (addElem 0 (leAt a (16 * k) 16) (leAt b (16 * k) 16))) (fun _ => length_leBytes ..) (List.getElem?_range hk)
  have hbytes : leAt (addChunks 0 a b) (16 * k) 16 = (leAt a (16 * k) 16 + leAt b (16 * k) 16) % 2 ^ 128 := by
    simp only [leAt, sliceBytes, addChunks, wireBytes, if_true] at hpiece ⊢
    rw [hpiece, length_leBytes, Nat.sub_self, List.replicate_zero, List.append_nil, leNat_leBytes]
    exact Nat.mod_mod _ _
  have hmod : BitVec.ofNat 128 ((leAt a (16 * k) 16 + leAt b (16 * k) 16) % 2 ^ 128) =
      BitVec.ofNat 128 (leAt a (16 * k) 16) + BitVec.ofNat 128 (leAt b (16 * k) 16) := by
    apply BitVec.eq_of_toNat_eq
    simp
  rw [chunkElem, hbytes, hmod, BitVec.toInt_add]
  exact Int.bmod_eq_of_le (by simpa [chunkElem] using hlow) (by simpa [chunkElem] using hhigh)

/-- The residue of an exact sum is that of the sum of the residues, while no element leaves the 128-bit range (R307). -/
theorem residue_addChunks {a b : List Byte} {n : Nat} (ha : a.length = 16 * n) (hb : b.length = 16 * n)
    (h : ∀ k, k < n → -(2 : Int) ^ 127 ≤ chunkElem a k + chunkElem b k ∧ chunkElem a k + chunkElem b k < (2 : Int) ^ 127) :
    residue (addChunks 0 a b) = (residue a + residue b) % residueM := by
  have hdiv : 16 * n / 16 = n := Nat.mul_div_cancel_left n (by decide)
  have hsum : ∀ k, k < n → chunkElem (addChunks 0 a b) k = chunkElem a k + chunkElem b k := fun k hk => by
    obtain ⟨hlow, hhigh⟩ := h k hk
    exact chunkElem_addChunks (by rw [ha, hdiv]; exact hk) hlow hhigh
  rw [residue_eq, residue_eq a, residue_eq b, length_addChunks, ha, hb, hdiv, hdiv]
  exact residueSum_add hsum

/-! ### A round that ends as the command comes -/

/-- A PERMUTE of 1 KiB between two members of one node. -/
def swapDesc : CollDesc :=
  { fmt := 1, op := 5, wire := 0, alg := 2, coll := 0, log2G := 1, root := 0, memFirst := 0, edgeFirst := 0, edgeCount := 2, chunkKib := 1,
    win := 0xFFFF, bytes := 1024, tc := 2, slots := 1, phase := 0, freeboard := 0, threshStep := 0 }

/-- A member entry of it on a tile, whose two moorings follow one another. -/
def swapMember (tile moor : Nat) : CollMember :=
  { fmt := 1, peer := 0, tile := tile, slotFirst := 0, inAddr := 0, wAddr := 0x2000, tailAddr := 0x4000, stageMoor := moor, stageDepth := 1,
    stageAddr := 0x6000, creditAddr := 0x8000, creditMoor := moor + 1, readyAddr := 0x9000, doneAddr := 0x9008, readyBase := 0 }

/-- One edge each way. -/
def swapEdges : List CollEdge := [{ from_ := 0, dest := 1, qpn := 0xFFFFFF }, { from_ := 1, dest := 0, qpn := 0xFFFFFF }]

/-- Round 0 of member 0, its chunks in and out, while the plan has come to round 1. -/
def swapInv : CollInv :=
  { newInv (some 0) 0 swapDesc [swapMember 0 2, swapMember 1 4] [0, 0] swapEdges 0 0 0 none [] 0 0 with
    ready := true, granted := 1, done := [0], sent := [(1, 1)], doneAdded := true, last := 1 }

/-- Round 1 of it, ready and with its one entry granted. -/
def swapNext : CollInv := { swapInv.following 0 with ready := true, granted := 1 }

/-- What member 0 sends to member 1. -/
def swapItem : CollItem := { level := 0, dest := 1, chunk := 0, fromIn := true, src := 0, adds := false }

/-- The module after reset with reach 0 in service, where the plan runs and member 0 has round 0 in hand and a credit of member 1. -/
def swapChip : Chip :=
  Chip.reset.onReach 0 (fun x =>
    { x with
      service := .inService
      plan := { x.plan with plans := [stampPlan] }
      coll := { x.coll with invs := [swapInv] }
      tiles := [(0, { Tile.reset with spad := [(0x8010, 1)] })] })

/-- The round that member 0 has in hand. -/
def Chip.swapRound (c : Chip) : Option Nat := ((c.reach 0).inv 0 0 0).map (fun i => i.round)

/-- Round 0 ends as the member looks at its words; where the statement looks, round 1 has then started in its place. -/
theorem swapNext_started :
    let w := (swapChip.at 0 0).collWake 0 swapInv
    ((w.nextRound 0 (w.invNow 0 swapInv)).reach 0).inv 0 0 0 = some swapNext := by decide +kernel

/-- The command leaves that start to a later one: round 0 stays in hand, ended. -/
theorem swapRound_collChunkSend : (collChunkSend 0 0 0 0 0 1 swapChip).settle.swapRound = some 0 := by decide +kernel

/-- Refutes O41: round 0 of a PERMUTE ends as its member looks at its words, so that the statement sees round 1 with a chunk to be sent, while the
command starts a next round only where the last had ended before, and sends nothing. The clause that fails is that of a chunk that goes out, which
`collChunkSend_sends` proves of the invocation that the command finds; that of the residues holds, by `addChunks_comm` and `residue_addChunks`. -/
theorem not_chunksAreSentAddedAndChecked : ¬ Obligations.ChunksAreSentAddedAndChecked := by
  unfold Obligations.ChunksAreSentAddedAndChecked
  rintro ⟨hchunks, -⟩
  obtain ⟨hsend, -⟩ := hchunks ⟨swapChip, []⟩ 0 0 0 0 0 swapInv swapNext rfl rfl rfl swapNext_started
  have hsent := hsend 1 swapItem ((0, swapItem), 0) rfl rfl (by decide +kernel) (by decide +kernel) (by decide +kernel) (by decide +kernel)
    (by decide +kernel)
  rw [exec_collChunkSend, State.runSettle_live _ rfl] at hsent
  have hround := congrArg (fun t : State => t.chip.swapRound) (Host.Outcome.next.inj hsent)
  rw [State.put_chip, State.put_chip, swapRound_collChunkSend] at hround
  exact absurd hround (by decide +kernel)

end Sys2Proof.Machine
end

section
/-!
The block as a whole (assumptions 1, 3 and 17): what a command's effect becomes, and the statements about the queue, about completion and about a module
without power or in MRST_N.
-/

namespace Sys2Proof.Machine

/-- A command's effect on the module: at a pin it acts whatever the module's state, else on a live module alone (R478, R480, R518). -/
def State.act (s : State) (i : Instr) (f : Chip → Chip) : Host.Outcome State Fault Refusal := if i.atPin = true then s.runPin f else s.run f

/-- What a role request does: one of a ring acts once its chain is taken (R511). -/
def Chip.byPath (c : Chip) (p : ReqPath) (f : Chip → Chip) : Chip :=
  match p with
  | .ring ref _ _ => if c.taking ref then f c else c
  | .mctp _ => f c

theorem State.runReq_eq_run (s : State) (p : ReqPath) (f : ReqPath → Chip → Chip) : s.runReq p f = s.run (fun c => c.byPath p (f p)) := by
  cases p <;> rfl

/-- Every command has an effect on the module, and no other. -/
theorem exec_eq_act (i : Instr) : ∃ f : Chip → Chip, ∀ s, exec i s = s.act i f := by
  cases i
  case roleOpen p b => exact ⟨fun c => c.byPath p (roleOpen p b), fun s => s.runReq_eq_run p (fun p => roleOpen p b)⟩
  case roleClose p b => exact ⟨fun c => c.byPath p (roleClose p b), fun s => s.runReq_eq_run p (fun p => roleClose p b)⟩
  case enrol p b => exact ⟨fun c => c.byPath p (enrol p b), fun s => s.runReq_eq_run p (fun p => enrol p b)⟩
  case revoke p b => exact ⟨fun c => c.byPath p (revoke p b), fun s => s.runReq_eq_run p (fun p => revoke p b)⟩
  case imageStage p b image => exact ⟨fun c => c.byPath p (imageStage p b image), fun s => s.runReq_eq_run p (fun p => imageStage p b image)⟩
  case svnCommit p b => exact ⟨fun c => c.byPath p (svnCommit p b), fun s => s.runReq_eq_run p (fun p => svnCommit p b)⟩
  case fabricKey p b => exact ⟨fun c => c.byPath p (fabricKey p b), fun s => s.runReq_eq_run p (fun p => fabricKey p b)⟩
  case kekSet p b => exact ⟨fun c => c.byPath p (kekSet p b), fun s => s.runReq_eq_run p (fun p => kekSet p b)⟩
  case hostKey p b => exact ⟨fun c => c.byPath p (hostKeyInstall p b), fun s => s.runReq_eq_run p (fun p => hostKeyInstall p b)⟩
  case logRead p b => exact ⟨fun c => c.byPath p (logRead p b), fun s => s.runReq_eq_run p (fun p => logRead p b)⟩
  case logTrim p b => exact ⟨fun c => c.byPath p (logTrim p b), fun s => s.runReq_eq_run p (fun p => logTrim p b)⟩
  case cipher p b x => exact ⟨fun c => c.byPath p (cipherOp p b x), fun s => s.runReq_eq_run p (fun p => cipherOp p b x)⟩
  case identity p b => exact ⟨fun c => c.byPath p (identity p b), fun s => s.runReq_eq_run p (fun p => identity p b)⟩
  all_goals exact ⟨_, fun _ => rfl⟩

theorem State.act_eq_put (s : State) (i : Instr) (f : Chip → Chip) : ∃ c, s.act i f = .next (s.put c) := by
  unfold State.act State.run
  split <;> exact ⟨_, rfl⟩

/-- An effect that is not at a pin leaves a dead module's block as it is. -/
theorem State.act_dead {s : State} {i : Instr} (f : Chip → Chip) (hpin : i.atPin = false) (hdead : s.chip.alive = false) : s.act i f = .next s := by
  rw [State.act, hpin, if_neg Bool.false_ne_true, State.run_dead f hdead]

theorem exec_eq_put (i : Instr) (s : State) : ∃ c, exec i s = .next (s.put c) := by
  obtain ⟨f, hf⟩ := exec_eq_act i
  rw [hf]
  exact s.act_eq_put i f

theorem exec_dead {i : Instr} {s : State} (hpin : i.atPin = false) (hdead : s.chip.alive = false) : exec i s = .next s := by
  obtain ⟨f, hf⟩ := exec_eq_act i
  rw [hf, State.act_dead f hpin hdead]

theorem step_empty {s : State} (h : s.pending = []) : step s = .next s := by
  rw [step, h]

theorem step_cons {s : State} {i : Instr} {rest : List Instr} (h : s.pending = i :: rest) : step s = exec i { s with pending := rest } := by
  rw [step, h]

/-- A step answers a next state, whose queue is the rest of the queue. -/
theorem step_eq_next (s : State) : ∃ t, step s = .next t ∧ t.pending = s.pending.drop 1 := by
  cases hq : s.pending with
  | nil => exact ⟨s, step_empty hq, hq⟩
  | cons i rest =>
    obtain ⟨c, hc⟩ := exec_eq_put i { s with pending := rest }
    exact ⟨_, (step_cons hq).trans hc, rfl⟩

theorem run_succ {M : Host.Core} {k : Nat} {s t : M.State} (h : M.step s = .next t) : M.run (k + 1) s = M.run k t := by
  rw [Host.Core.run, h]

theorem run_eq_next (k : Nat) (s : State) : ∃ t, core.run k s = .next t ∧ t.pending = s.pending.drop k := by
  induction k generalizing s with
  | zero => exact ⟨s, rfl, rfl⟩
  | succ k ih =>
    obtain ⟨t, hstep, ht⟩ := step_eq_next s
    obtain ⟨u, hrun, hu⟩ := ih t
    refine ⟨u, ?_, ?_⟩
    · exact (run_succ (M := core) hstep).trans hrun
    · rw [hu, ht, List.drop_drop, Nat.add_comm]

/-- Settles O1: the step's two equations. -/
theorem stepTakesTheFrontCommand : Obligations.StepTakesTheFrontCommand := by
  unfold Obligations.StepTakesTheFrontCommand
  exact ⟨fun s i rest h => step_cons h, fun s i => step_cons rfl⟩

/-- Settles O3: every command is an effect on the module alone, and a run follows by induction on its steps. -/
theorem everyCommandCompletes : Obligations.EveryCommandCompletes := by
  unfold Obligations.EveryCommandCompletes
  exact ⟨exec_eq_put, run_eq_next⟩

/-- Settles O4: a command that is not at a pin leaves a dead module as it is, and the queue only grows shorter. -/
theorem aDeadModuleStaysAsItIs : Obligations.ADeadModuleStaysAsItIs := by
  unfold Obligations.ADeadModuleStaysAsItIs
  rintro c hdead s t rfl hpins hstep
  cases hq : s.pending with
  | nil =>
    rw [step_empty hq] at hstep
    cases hstep
    exact ⟨rfl, hpins⟩
  | cons i rest =>
    rw [hq] at hpins
    obtain ⟨hi, hrest⟩ := List.forall_mem_cons.1 hpins
    cases hstep.symm.trans ((step_cons hq).trans (exec_dead hi hdead))
    exact ⟨rfl, hrest⟩

end Sys2Proof.Machine
end

section
/-!
Memories in canonical form (chapter 05, assumption 5): every part of the model keeps it. The lemmas are named so that a chain of them follows the
definition that it is about: `Chip.memOk.f` says that `f` keeps the form of a module, `Reach.memOk.f` of a reach, `Tile.memOk.f` of a tile.
-/

set_option Elab.async false

namespace Sys2Proof.Machine

/-! ### What the form hangs on -/

theorem Chip.memOk.same {c d : Chip} (h : c.memOk) (hhost : d.host.mem = c.host.mem := by rfl) (hreach : d.reaches = c.reaches := by rfl) :
    d.memOk := by
  obtain ⟨hmem, hall⟩ := h
  refine ⟨hhost ▸ hmem, fun r => ?_⟩
  rw [Chip.reach, hreach]
  exact hall r

/-- All but the reaches and the host port's part may change. -/
theorem Chip.memOk.other {c : Chip} {x : Xlt} {s : Sec} {g : Gate} {n : Nat} {o : List Out} (h : c.memOk) :
    ({ c with xlt := x, sec := s, gate := g, freeCtr := n, sent := o } : Chip).memOk := h.same

/-- Of the host port only host memory must stay. -/
theorem Chip.memOk.otherHost {c : Chip} {f0 f1 : BitVec 2} {f2 f3 f4 : Bool} {f5 : Tab HostFn} {f6 : List FeedItem}
    {f7 : List (Word64 × Word16 × Word64)} {x : Xlt} {s : Sec} {g : Gate} {n : Nat} {o : List Out} (h : c.memOk) :
    ({ c with host := { c.host with clkMode := f0, clkActive := f1, inReset := f2, trained := f3, d3hot := f4, fns := f5, feeds := f6, feedSeq := f7 },
              xlt := x, sec := s, gate := g, freeCtr := n, sent := o } : Chip).memOk := h.same

theorem Reach.memOk.same {x y : Reach} (h : x.memOk) (hbytes : y.mem.bytes = x.mem.bytes := by rfl)
    (hwharf : y.coll.wharf = x.coll.wharf := by rfl) (htiles : y.tiles = x.tiles := by rfl) : y.memOk := by
  unfold Reach.memOk
  rw [hbytes, hwharf, htiles]
  exact h

theorem Tile.memOk.same {t u : Tile} (h : t.memOk) (hspad : u.spad = t.spad := by rfl) : u.memOk := by
  rw [Tile.memOk, hspad]
  exact h

theorem Chip.memOk.ite {c d : Chip} {p : Prop} [Decidable p] (h : c.memOk) (h' : d.memOk) : (if p then c else d).memOk := by
  split
  · exact h
  · exact h'

theorem Reach.memOk.ite {c d : Reach} {p : Prop} [Decidable p] (h : c.memOk) (h' : d.memOk) : (if p then c else d).memOk := by
  split
  · exact h
  · exact h'

theorem Tile.memOk.ite {c d : Tile} {p : Prop} [Decidable p] (h : c.memOk) (h' : d.memOk) : (if p then c else d).memOk := by
  split
  · exact h
  · exact h'

theorem Chip.memOk.dite {p : Prop} [Decidable p] {f : p → Chip} {g : ¬p → Chip} (h : ∀ hp, (f hp).memOk) (h' : ∀ hp, (g hp).memOk) :
    (if hp : p then f hp else g hp).memOk := by
  split
  · exact h _
  · exact h' _

theorem Chip.memOk.iteFst {α : Type} {c d : Chip × α} {p : Prop} [Decidable p] (h : c.1.memOk) (h' : d.1.memOk) :
    (if p then c else d).1.memOk := by
  split
  · exact h
  · exact h'

theorem Chip.memOk.iteSnd {α : Type} {c d : α × Chip} {p : Prop} [Decidable p] (h : c.2.memOk) (h' : d.2.memOk) :
    (if p then c else d).2.memOk := by
  split
  · exact h
  · exact h'

theorem Chip.memOk.getD {o : Option Chip} {c : Chip} (ho : ∀ d, o = some d → d.memOk) (h : c.memOk) : (o.getD c).memOk := by
  cases o with
  | none => exact h
  | some d => exact ho d rfl

theorem Chip.memOk.foldlFst {α β : Type} {l : List α} {s : Chip × β} {f : Chip × β → α → Chip × β} (h : s.1.memOk)
    (hf : ∀ s a, s.1.memOk → (f s a).1.memOk) : (l.foldl f s).1.memOk :=
  List.foldlRecOn (motive := fun s : Chip × β => s.1.memOk) l f h (fun s hs a _ => hf s a hs)

theorem Chip.memOk.forEachFst {α β : Type} {l : List α} {s : Chip × β} {f : Chip × β → α → Chip × β} (h : s.1.memOk)
    (hf : ∀ s a, s.1.memOk → (f s a).1.memOk) : (Machine.forEach l s f).1.memOk := h.foldlFst hf

theorem Chip.memOk.foldlSnd {α β : Type} {l : List α} {s : β × Chip} {f : β × Chip → α → β × Chip} (h : s.2.memOk)
    (hf : ∀ s a, s.2.memOk → (f s a).2.memOk) : (l.foldl f s).2.memOk :=
  List.foldlRecOn (motive := fun s : β × Chip => s.2.memOk) l f h (fun s hs a _ => hf s a hs)

theorem Chip.memOk.forEach {α : Type} {l : List α} {c : Chip} {f : Chip → α → Chip} (h : c.memOk) (hf : ∀ c a, c.memOk → (f c a).memOk) :
    (Machine.forEach l c f).memOk := forEach_preserves l h hf

theorem Reach.memOk.forEach {α : Type} {l : List α} {x : Reach} {f : Reach → α → Reach} (h : x.memOk)
    (hf : ∀ x a, x.memOk → (f x a).memOk) : (Machine.forEach l x f).memOk := forEach_preserves l h hf

theorem Tile.memOk.forEach {α : Type} {l : List α} {x : Tile} {f : Tile → α → Tile} (h : x.memOk) (hf : ∀ x a, x.memOk → (f x a).memOk) :
    (Machine.forEach l x f).memOk := forEach_preserves l h hf

theorem Chip.memOk.foldl {α : Type} {l : List α} {c : Chip} {f : Chip → α → Chip} (h : c.memOk) (hf : ∀ c a, c.memOk → (f c a).memOk) :
    (l.foldl f c).memOk := forEach_preserves l h hf

theorem Reach.memOk.foldl {α : Type} {l : List α} {x : Reach} {f : Reach → α → Reach} (h : x.memOk) (hf : ∀ x a, x.memOk → (f x a).memOk) :
    (l.foldl f x).memOk := forEach_preserves l h hf

theorem Tile.memOk.foldl {α : Type} {l : List α} {x : Tile} {f : Tile → α → Tile} (h : x.memOk) (hf : ∀ x a, x.memOk → (f x a).memOk) :
    (l.foldl f x).memOk := forEach_preserves l h hf

theorem Chip.memOk.reach {c : Chip} {r : ReachId} (h : c.memOk) : (c.reach r).memOk := h.2 r

theorem Reach.memOk.tile {x : Reach} {t : Nat} (h : x.memOk) : (x.tile t).memOk := Reach.memOk_tile t h

theorem Chip.memOk.onReach {c : Chip} {r : ReachId} {f : Reach → Reach} (h : c.memOk) (hf : ∀ x, x.memOk → (f x).memOk) :
    (c.onReach r f).memOk := Chip.memOk_onReach (hf _ h.reach) h

theorem Reach.memOk.onTile {x : Reach} {t : Nat} {f : Tile → Tile} (h : x.memOk) (hf : ∀ t, t.memOk → (f t).memOk) : (x.onTile t f).memOk :=
  Reach.memOk_onTile (hf _ h.tile) h

theorem Chip.memOk.onTile {c : Chip} {r : ReachId} {t : Nat} {f : Tile → Tile} (h : c.memOk) (hf : ∀ t, t.memOk → (f t).memOk) :
    (c.onTile r t f).memOk := h.onReach fun _ hx => hx.onTile hf

theorem Chip.memOk.writeHost {c : Chip} {a : Nat} {bs : List Byte} (h : c.memOk) :
    ({ c with host := { c.host with mem := Mem.writeBytes c.host.mem a bs } } : Chip).memOk := Chip.memOk_writeHost a bs h

theorem memOk_stepAll {α : Type} {f : Chip → α → Chip × Nat} {l : List α} {c : Chip} (h : c.memOk)
    (hf : ∀ c a, c.memOk → (f c a).1.memOk) : (stepAll f l c).1.memOk := by
  induction l generalizing c with
  | nil => exact h
  | cons a l ih => exact (hf c a h).iteFst (ih (hf c a h))

theorem Chip.memOk.hostMem {c : Chip} (h : c.memOk) : Mem.wf c.host.mem = true := h.1

theorem Chip.memOk.withHost {c d : Chip} (h : c.memOk) (hmem : Mem.wf d.host.mem = true) (hreach : d.reaches = c.reaches := by rfl) : d.memOk := by
  refine ⟨hmem, fun r => ?_⟩
  rw [Chip.reach, hreach]
  exact h.reach

theorem Reach.memOk.bytes {x : Reach} (h : x.memOk) : Mem.wf x.mem.bytes = true := h.1

theorem Reach.memOk.wharf {x : Reach} (h : x.memOk) : Mem.wf x.coll.wharf = true := h.2.1

theorem Reach.memOk.tiles {x : Reach} (h : x.memOk) : ∀ e ∈ x.tiles, e.2.memOk := h.2.2

/-- All but the tiles, device memory and the collective buffers may change. -/
theorem Reach.memOk.other {x : Reach} {f0 : ReachService} {f1 : TimeDom} {f2 : PlanService} {f3 : Tdc} {f4 : Rme} {f5 : Router} {f6 : Tab Mac}
    {f7 : CipherEngine} {f8 : Bist} {f9 : Trace} {f10 : Power} {f11 : Tab Nat} {f12 : Tab (List Byte)} {f13 : Tab Word64} {f14 : Tab Word64}
    {f15 : Tab (Word16 × BitVec 24 × BitVec 24)} {f16 : Word64} {f17 : Tab Nat} {f18 : List Claim} (h : x.memOk) :
    ({ x with service := f0, time := f1, plan := f2, tdc := f3, rme := f4, rtr := f5, macs := f6, cipher := f7, bist := f8, trace := f9,
              pwr := f10, pkmap := f11, addr := f12, lanemap := f13, serdes := f14, maint := f15, mirrorSeq := f16, gauges := f17,
              claims := f18 } : Reach).memOk := h.same

theorem Reach.memOk.withColl {x : Reach} {k : Coll} (h : x.memOk) (hk : k.wharf = x.coll.wharf := by rfl) : ({ x with coll := k } : Reach).memOk :=
  h.same rfl hk

theorem Reach.memOk.withBytes {x y : Reach} (h : x.memOk) (hbytes : Mem.wf y.mem.bytes = true) (hwharf : y.coll.wharf = x.coll.wharf := by rfl)
    (htiles : y.tiles = x.tiles := by rfl) : y.memOk := by
  unfold Reach.memOk
  rw [hwharf, htiles]
  exact ⟨hbytes, h.2⟩

theorem Reach.memOk.withWharf {x y : Reach} (h : x.memOk) (hwharf : Mem.wf y.coll.wharf = true) (hbytes : y.mem.bytes = x.mem.bytes := by rfl)
    (htiles : y.tiles = x.tiles := by rfl) : y.memOk := by
  obtain ⟨hmem, -, hall⟩ := h
  unfold Reach.memOk
  rw [hbytes, htiles]
  exact ⟨hmem, hwharf, hall⟩

theorem Reach.memOk.withTiles {x y : Reach} (h : x.memOk) (htiles : ∀ e ∈ y.tiles, e.2.memOk) (hbytes : y.mem.bytes = x.mem.bytes := by rfl)
    (hwharf : y.coll.wharf = x.coll.wharf := by rfl) : y.memOk := by
  obtain ⟨hmem, hbuf, -⟩ := h
  unfold Reach.memOk
  rw [hbytes, hwharf]
  exact ⟨hmem, hbuf, htiles⟩

/-- The scratchpad that a compute step is writing is in canonical form. -/
def Emit.memOk (k : Emit) : Prop := Mem.wf k.spad = true

/-- The scratchpad that a compute step leaves is in canonical form. -/
def Comp.memOk (k : Comp) : Prop := Mem.wf k.spad = true

/-- The module that a role request leaves is in canonical form. -/
def RoleDone.memOk (d : RoleDone) : Prop := d.chip.memOk

theorem Tile.memOk.spad {t : Tile} (h : t.memOk) : Mem.wf t.spad = true := h

theorem Tile.memOk.of_spad {t : Tile} (h : Mem.wf t.spad = true) : t.memOk := h

theorem Emit.memOk.of_spad {t : Emit} (h : Mem.wf t.spad = true) : t.memOk := h

theorem Comp.memOk.of_spad {t : Comp} (h : Mem.wf t.spad = true) : t.memOk := h

theorem Emit.memOk.spad {t : Emit} (h : t.memOk) : Mem.wf t.spad = true := h

theorem Comp.memOk.spad {t : Comp} (h : t.memOk) : Mem.wf t.spad = true := h

theorem Emit.memOk.ite {c d : Emit} {p : Prop} [Decidable p] (h : c.memOk) (h' : d.memOk) : (if p then c else d).memOk := by
  split
  · exact h
  · exact h'

theorem Comp.memOk.ite {c d : Comp} {p : Prop} [Decidable p] (h : c.memOk) (h' : d.memOk) : (if p then c else d).memOk := by
  split
  · exact h
  · exact h'

theorem RoleDone.memOk.ite {c d : RoleDone} {p : Prop} [Decidable p] (h : c.memOk) (h' : d.memOk) : (if p then c else d).memOk := by
  split
  · exact h
  · exact h'

theorem Emit.memOk.same {t u : Emit} (h : t.memOk) (hspad : u.spad = t.spad := by rfl) : u.memOk := by
  rw [Emit.memOk, hspad]
  exact h

theorem Comp.memOk.same {t u : Comp} (h : t.memOk) (hspad : u.spad = t.spad := by rfl) : u.memOk := by
  rw [Comp.memOk, hspad]
  exact h

theorem Emit.memOk.foldl {α : Type} {l : List α} {x : Emit} {f : Emit → α → Emit} (h : x.memOk) (hf : ∀ x a, x.memOk → (f x a).memOk) :
    (l.foldl f x).memOk := forEach_preserves l h hf

theorem Emit.memOk.forEach {α : Type} {l : List α} {x : Emit} {f : Emit → α → Emit} (h : x.memOk) (hf : ∀ x a, x.memOk → (f x a).memOk) :
    (Machine.forEach l x f).memOk := forEach_preserves l h hf

theorem Chip.memOk.of_fst {α : Type} {p : Chip × α} {c : Chip} {a : α} (h : p.1.memOk) (hp : p = (c, a)) : c.memOk := by
  rw [hp] at h
  exact h

theorem Chip.memOk.of_snd {α : Type} {p : α × Chip} {c : Chip} {a : α} (h : p.2.memOk) (hp : p = (a, c)) : c.memOk := by
  rw [hp] at h
  exact h

theorem Reach.memOk.reset : Reach.reset.memOk := ⟨Mem.wf_nil, Mem.wf_nil, fun _ h => nomatch h⟩

theorem Tile.memOk.reset : Tile.reset.memOk := Tile.memOk_reset

end Sys2Proof.Machine
end

section
/-! What each function of the model does to the form, in the order of the model. -/

-- The lemmas are many and short: elaborated one after another they need no thread each.
set_option Elab.async false

namespace Sys2Proof.Machine

/-! ### Parts of the module, free values and gauges -/

theorem Reach.memOk.onMac {x : Reach} {p : PortId} {f : Mac → Mac} (h : x.memOk) : (x.onMac p f).memOk :=
  h.other

theorem Reach.memOk.onPort {x : Reach} {p : PortId} {f : RtrPort → RtrPort} (h : x.memOk) : (x.onPort p f).memOk :=
  h.other

theorem Chip.memOk.onFn {c : Chip} {f : FnId} {g : HostFn → HostFn} (h : c.memOk) : (c.onFn f g).memOk :=
  h.otherHost

theorem Chip.memOk.onTen {c : Chip} {f : FnId} {g : Tenancy → Tenancy} (h : c.memOk) : (c.onTen f g).memOk :=
  h.other

theorem Chip.memOk.at {c : Chip} {r : ReachId} {now : Time} (h : c.memOk) : (c.at r now).memOk :=
  h.onReach fun _ hx => hx.other

theorem Chip.memOk.free {c : Chip} (h : c.memOk) : c.free.2.memOk :=
  h.other

theorem Chip.memOk.freeBytes {c : Chip} {n : Nat} (h : c.memOk) : (c.freeBytes n).2.memOk :=
  h.other

theorem Chip.memOk.emit {c : Chip} {o : Out} (h : c.memOk) : (c.emit o).memOk :=
  h.other

theorem Reach.memOk.gaugeAdd {x : Reach} {group obj idx n : Nat} (h : x.memOk) : (x.gaugeAdd group obj idx n).memOk :=
  h.other

theorem Reach.memOk.gaugeMax {x : Reach} {group obj idx n : Nat} (h : x.memOk) : (x.gaugeMax group obj idx n).memOk :=
  h.other

theorem Chip.memOk.alert {c : Chip} {kind reach : Nat} {arg : Word64} (h : c.memOk) : (c.alert kind reach arg).memOk :=
  h.other

/-! ### The writing of a compute step's outputs -/

theorem Tile.memOk.setRecord {t : Tile} {i : Nat} {x : BitVec 128} (h : t.memOk) : (t.setRecord i x).memOk :=
  h.same

theorem wf_writeCode {sp : Mem} {fmt data i code : Nat} (h : Mem.wf sp = true) : Mem.wf (writeCode sp fmt data i code) = true :=
  Mem.wf_writeLe _ _ _ h

theorem Tile.memOk.addFolds {t : Tile} {l : List DigestSlot} (h : t.memOk) : (t.addFolds l).memOk :=
  h.same

theorem Emit.memOk.put {x : Emit} {g : EmitCfg} {pos idx code scale flags : Nat} (h : x.memOk) : (x.put g pos idx code scale flags).memOk :=
  Emit.memOk.of_spad (wf_writeCode h.spad)

theorem Emit.memOk.block {x : Emit} {g : EmitCfg} {pos idx by_ : Nat} {vs : List Val} (h : x.memOk) : (x.block g pos idx by_ vs).memOk := by
  unfold Emit.block
  extract_lets
  exact ((Emit.memOk.of_spad (Mem.wf_write _ _ h.spad)).foldl fun _ _ hx => hx.put.ite (Emit.memOk.of_spad (wf_writeCode hx.spad))).ite
    (h.foldl fun _ _ hx => hx.put)

theorem Emit.memOk.row {x : Emit} {g : EmitCfg} {pos idx : Nat} {vs : List Val} (h : x.memOk) : (x.row g pos idx vs).memOk :=
  h.foldl fun _ _ hx => hx.block

theorem Emit.memOk.foldWords {x : Emit} {g : EmitCfg} {idx : Nat} {ws : List (Nat × Val)} (h : x.memOk) : (x.foldWords g idx ws).memOk :=
  h.foldl fun _ _ hx => hx.same

theorem Tile.memOk.emitStart {t : Tile} {hdr : Word64} {flags : Nat} (h : t.memOk) : (t.emitStart hdr flags).memOk :=
  Emit.memOk.of_spad h.spad

theorem Tile.memOk.comp {t : Tile} {g : EmitCfg} {x : Emit} {positions : Nat} (h : t.memOk) (h1 : x.memOk) : (t.comp g x positions).memOk :=
  Comp.memOk.of_spad h1.spad

theorem Tile.memOk.compFail {t : Tile} {g : EmitCfg} {flags code positions : Nat} (h : t.memOk) : (t.compFail g flags code positions).memOk :=
  Comp.memOk.of_spad h.spad

/-! ### The matrix unit -/

theorem Emit.memOk.member {x : Emit} {g : EmitCfg} {trans : Bool} {s : MatShape} {q : Nat} {rows : List (List Val)} (h : x.memOk) :
    (x.member g trans s q rows).memOk := by
  unfold Emit.member
  extract_lets
  exact (h.foldl fun _ _ hx => hx.row).ite ((h.foldl fun _ _ hx => hx.foldl fun _ _ hy => hy.block).ite (h.foldl fun _ _ hx => hx.row))

theorem Tile.memOk.matrix {t : Tile} {seed hdr w1 w2 w3 w4 w5 : Word64} (h : t.memOk) : (t.matrix seed hdr w1 w2 w3 w4 w5).memOk := by
  unfold Tile.matrix
  extract_lets
  exact h.compFail.ite (h.compFail.ite (h.compFail.ite (h.comp (h.emitStart.foldl fun _ _ hx => hx.member))))

/-! ### Records, events, completions and trace -/

theorem Chip.memOk.hostWrite {c : Chip} {f : FnId} {iova : Nat} {bs : List Byte} (h : c.memOk) : (c.hostWrite f iova bs).memOk :=
  h.writeHost

theorem Chip.memOk.msix {c : Chip} {f : FnId} {vector : BitVec 11} (h : c.memOk) : (c.msix f vector).memOk :=
  h.onFn.ite h.emit

theorem Chip.memOk.postNow {c : Chip} {f : FnId} {q : HostRing} {p : Posting} (h : c.memOk) : (c.postNow f q p).memOk :=
  (h.hostWrite.ite h.hostWrite).onFn.msix.ite (h.hostWrite.ite h.hostWrite).onFn

theorem Chip.memOk.hold {c : Chip} {f : FnId} {p : Posting} (h : c.memOk) : (c.hold f p).memOk :=
  h.onFn

theorem Chip.memOk.post {c : Chip} {f : FnId} {p : Posting} (h : c.memOk) : (c.post f p).memOk := by
  unfold Chip.post
  extract_lets
  refine h.hold.ite ?_
  split
  · exact h.hold
  · exact h.postNow.ite h.onFn

theorem Chip.memOk.postRecord {c : Chip} {f : FnId} {ring : BitVec 8} {x : Record} {nomod : Bool} (h : c.memOk) :
    (c.postRecord f ring x nomod).memOk :=
  h.post.ite h

theorem Chip.memOk.dropChain {c : Chip} {ref : CmdRef} (h : c.memOk) : (c.dropChain ref).memOk :=
  h.onFn

theorem Chip.memOk.onChain {c : Chip} {ref : CmdRef} {f : TakenChain → TakenChain} (h : c.memOk) : (c.onChain ref f).memOk :=
  h.onFn

theorem Chip.memOk.completeFuel {n : Nat} {c : Chip} {ref : CmdRef} {source status : Nat} {result : Word64} (h : c.memOk) :
    (Chip.completeFuel n c ref source status result).memOk := by
  induction n generalizing c ref source status result with
  | zero => exact h
  | succ n ih =>
    unfold Chip.completeFuel
    dsimp only
    split
    · exact (ih h.postRecord.dropChain.onFn).onFn
    · exact h.postRecord.dropChain

theorem Chip.memOk.complete {c : Chip} {ref : CmdRef} {source status : Nat} {result : Word64} (h : c.memOk) :
    (c.complete ref source status result).memOk :=
  h.completeFuel

theorem Chip.memOk.chainGone {c : Chip} {f : FnId} {ring : BitVec 8} (h : c.memOk) : (c.chainGone f ring).memOk := by
  unfold Chip.chainGone
  split
  · exact h.onFn.complete.onFn
  · exact h

theorem Chip.memOk.completeOpt {c : Chip} {ref : Option CmdRef} {source status : Nat} {result : Word64} (h : c.memOk) :
    (c.completeOpt ref source status result).memOk := by
  unfold Chip.completeOpt
  split
  · exact h.complete
  · exact h

theorem Chip.memOk.ringError {c : Chip} {f : FnId} {ring : BitVec 8} (h : c.memOk) : (c.ringError f ring).memOk :=
  h.onFn

theorem Chip.memOk.traceFrom {c : Chip} {r : ReachId} {kind src : Nat} {hold : Option Nat} {fn : Nat} {p0 p1 : Word64} (h : c.memOk) :
    (c.traceFrom r kind src hold fn p0 p1).memOk :=
  h.ite (h.ite (h.onReach fun _ hx => hx.other))

theorem Chip.memOk.trace {c : Chip} {r : ReachId} {kind src fn : Nat} {p0 p1 : Word64} (h : c.memOk) : (c.trace r kind src fn p0 p1).memOk :=
  h.traceFrom

theorem Chip.memOk.triggerRecord {c : Chip} {r from_ : ReachId} (h : c.memOk) : (c.triggerRecord r from_).memOk :=
  ((h.onReach fun _ hx => hx.other).ite h).trace

theorem Chip.memOk.fire {c : Chip} {r : ReachId} {kind : Nat} (h : c.memOk) : (c.fire r kind).memOk :=
  h.triggerRecord.other.ite h

theorem Chip.memOk.postEvent {c : Chip} {f : FnId} {code source : Nat} {body : List Byte} {handle result : Word64} (h : c.memOk) :
    (c.postEvent f code source body handle result).memOk :=
  h.ite h.post

theorem Chip.memOk.event {c : Chip} {r : ReachId} {owner : FnId} {alsoPf : Bool} {code : Nat} {body : List Byte} {handle : Word64} (h : c.memOk) :
    (c.event r owner alsoPf code body handle).memOk :=
  (h.postEvent.postEvent.ite h.postEvent).trace

theorem Chip.memOk.tdc {c : Chip} {r : ReachId} {cause : Nat} {fn : Option FnId} {src : Nat} {a : Word32} {b : Word64} (h : c.memOk) :
    (c.tdc r cause fn src a b).memOk :=
  (h.onReach fun _ hx => hx.other).trace.fire.ite (h.onReach fun _ hx => hx.other).trace

theorem Chip.memOk.grantClaim {c : Chip} {r : ReachId} {fn : Option FnId} {src index : Nat} {k : Claim} (h : c.memOk) :
    (c.grantClaim r fn src index k).memOk := by
  unfold Chip.grantClaim
  dsimp only
  refine Chip.memOk.onReach ?_ fun _ hx => hx.other
  split
  · exact h.tdc
  · exact h

theorem Chip.memOk.health {c : Chip} {r : ReachId} {owner : FnId} {action block inst sub : Nat} {detail handle : Word64} (h : c.memOk) :
    (c.health r owner action block inst sub detail handle).memOk := by
  unfold Chip.health
  extract_lets _ _ c1 c2 c3
  have hc1 : c1.memOk := h.onReach fun _ hx => hx.other
  have hc2 : c2.memOk := hc1.event
  have hc3 : c3.memOk := hc2.alert.ite hc2
  exact hc3.fire

theorem Chip.memOk.gateHealth {c : Chip} {action block inst : Nat} (h : c.memOk) : (c.gateHealth action block inst).memOk :=
  h.other.postEvent.alert.ite h.other.postEvent

/-! ### Translation and its faults -/

theorem Reach.memOk.writePhys {x : Reach} {pa : Nat} {bs : List Byte} (h : x.memOk) : (x.writePhys pa bs).memOk := by
  unfold Reach.writePhys
  extract_lets
  exact (h.onTile fun _ hx => Tile.memOk.of_spad (Mem.wf_writeBytes _ _ hx.spad)).ite (h.withBytes (Mem.wf_writeBytes _ _ h.bytes))

theorem Chip.memOk.writeRuns {c : Chip} {r : ReachId} {runs : List Run} {off : Nat} {bs : List Byte} (h : c.memOk) :
    (c.writeRuns r runs off bs).memOk :=
  h.foldlFst fun _ _ hx => hx.writeHost.ite (hx.onReach fun _ hy => hy.writePhys)

theorem Chip.memOk.xltFault {c : Chip} {f : FnId} {engine : Nat} {asid : Word16} {x : XFault} {handle : Word64} {s : Stalled} (h : c.memOk) :
    (c.xltFault f engine asid x handle s).1.memOk :=
  h.other.iteFst (h.iteFst h.onTen.other.postEvent)

/-! ### The vector unit -/

theorem Tile.memOk.vectorOut {t : Tile} {g : EmitCfg} {hdr : Word64} {flags : Nat} {vs : List Val} (h : t.memOk) :
    (t.vectorOut g hdr flags vs).memOk :=
  h.comp h.emitStart.row

theorem Tile.memOk.vectorElementwise {t : Tile} {op : Nat} {seed hdr w1 w2 w3 w4 : Word64} (h : t.memOk) :
    (t.vectorElementwise op seed hdr w1 w2 w3 w4).memOk :=
  h.vectorOut

theorem Tile.memOk.vectorFunction {t : Tile} {op : Nat} {seed hdr w1 w3 w4 : Word64} (h : t.memOk) : (t.vectorFunction op seed hdr w1 w3 w4).memOk :=
  h.vectorOut

theorem Tile.memOk.vectorReduce {t : Tile} {op : Nat} {seed hdr w1 w3 w4 : Word64} (h : t.memOk) : (t.vectorReduce op seed hdr w1 w3 w4).memOk :=
  h.vectorOut

theorem Tile.memOk.convert {t : Tile} {seed hdr w1 w2 w3 : Word64} (h : t.memOk) : (t.convert seed hdr w1 w2 w3).memOk :=
  h.vectorOut

/-! ### SELECT steps -/

theorem wf_writeWords {sp : Mem} {a n : Nat} {ws : List Nat} (h : Mem.wf sp = true) : Mem.wf (writeWords sp a n ws) = true :=
  Mem.wf_writeBytes _ _ h

theorem Tile.memOk.topK {t : Tile} {seed hdr w1 w3 w4 : Word64} (h : t.memOk) : (t.topK seed hdr w1 w3 w4).memOk :=
  h.comp (Emit.memOk.of_spad (wf_writeWords h.emitStart.row.spad)).foldWords

theorem Tile.memOk.sortStep {t : Tile} {seed hdr w1 w2 w3 w4 : Word64} (h : t.memOk) : (t.sortStep seed hdr w1 w2 w3 w4).memOk :=
  h.vectorOut

theorem Tile.memOk.gather {t : Tile} {seed hdr w1 w2 w3 w4 : Word64} (h : t.memOk) : (t.gather seed hdr w1 w2 w3 w4).memOk :=
  h.vectorOut

theorem memOk_scatterOut {t : Tile} {g : EmitCfg} {limit : Nat} {x : Emit} {touched : Tab Val} (h : t.memOk) (h1 : x.memOk) :
    (scatterOut t g limit x touched).memOk :=
  (h1.foldl fun _ _ hx => hx.block).ite (h1.foldl fun _ _ hx => hx.block)

theorem Tile.memOk.scatter {t : Tile} {add : Bool} {seed hdr w1 w2 w3 w4 : Word64} (h : t.memOk) : (t.scatter add seed hdr w1 w2 w3 w4).memOk :=
  h.comp (memOk_scatterOut h h.emitStart)

theorem Tile.memOk.expertRoute {t : Tile} {seed hdr w1 w2 w3 w4 : Word64} (h : t.memOk) : (t.expertRoute seed hdr w1 w2 w3 w4).memOk :=
  h.comp (Emit.memOk.of_spad (wf_writeWords (wf_writeWords (wf_writeWords h.spad)))).foldWords

/-! ### Keeper frames and stoppages -/

theorem Chip.memOk.sendKeeper {c : Chip} {r : ReachId} {dst : Word16} {b : KeeperBody} (h : c.memOk) : (c.sendKeeper r dst b).memOk :=
  h.onReach fun _ hx => hx.other

theorem Chip.memOk.sendLink {c : Chip} {r : ReachId} {p : PortId} {b : FrameBody} {len : Nat} (h : c.memOk) : (c.sendLink r p b len).memOk :=
  h.onReach fun _ hx => hx.onMac

theorem Chip.memOk.sendLocal {c : Chip} {r : ReachId} {p : PortId} {b : KeeperBody} (h : c.memOk) : (c.sendLocal r p b).memOk :=
  h.sendLink

theorem Reach.memOk.mapPlans {x : Reach} {sel : PlanInst → Bool} {f : PlanInst → PlanInst} (h : x.memOk) : (x.mapPlans sel f).memOk :=
  h.other

theorem Chip.memOk.stopTdc {c : Chip} {r : ReachId} {cause : StopCause} {i : StopInfo} {p : PlanInst} (h : c.memOk) :
    (c.stopTdc r cause i p).memOk := by
  unfold Chip.stopTdc
  split
  · exact h.tdc
  · exact h.tdc
  · exact h.tdc
  · exact h

theorem Tile.memOk.freeze {t : Tile} (h : t.memOk) : t.freeze.memOk :=
  h.ite h.same

theorem Reach.memOk.onPlanTiles {x : Reach} {planId : Word64} {f : Tile → Tile} (h : x.memOk) (hf : ∀ t, t.memOk → (f t).memOk) :
    (x.onPlanTiles planId f).memOk := by
  refine h.withTiles fun e he => ?_
  obtain ⟨d, hd, rfl⟩ := List.mem_map.1 he
  exact .ite (hf _ (h.tiles d hd)) (h.tiles d hd)

theorem Chip.memOk.declareStop {c : Chip} {r : ReachId} {cause : StopCause} {i : StopInfo} {tell : Bool} {p : PlanInst} (h : c.memOk) :
    (c.declareStop r cause i tell p).memOk := by
  unfold Chip.declareStop
  extract_lets c1 c2 c3 c4
  have hc1 : c1.memOk := h.onReach fun _ hx => hx.mapPlans
  have hc2 : c2.memOk := hc1.onReach fun _ hx => hx.onPlanTiles fun _ hy => hy.freeze
  have hc3 : c3.memOk := (hc2.stopTdc.forEach fun _ _ hx => hx.sendKeeper).ite hc2
  have hc4 : c4.memOk := hc3.event
  exact hc4.fire

theorem Chip.memOk.stopPlans {c : Chip} {r : ReachId} {sel : PlanInst → Bool} {cause : StopCause} {i : StopInfo} {tell : Bool} (h : c.memOk) :
    (c.stopPlans r sel cause i tell).memOk :=
  h.forEach fun _ _ hx => hx.declareStop

/-! ### What a plan holds on a reach -/

theorem Chip.memOk.onPlan {c : Chip} {r : ReachId} {f : PlanService → PlanService} (h : c.memOk) : (c.onPlan r f).memOk :=
  h.onReach fun _ hx => hx.other

theorem Chip.memOk.onPlanBy {c : Chip} {r : ReachId} {handle : Word64} {f : PlanInst → PlanInst} (h : c.memOk) : (c.onPlanBy r handle f).memOk :=
  h.onReach fun _ hx => hx.mapPlans

theorem Chip.memOk.writeGates {c : Chip} {r : ReachId} (h : c.memOk) : (c.writeGates r).memOk := by
  unfold Chip.writeGates
  dsimp only
  refine h.onReach ?_
  intro _ hx
  split
  · exact (hx.forEach fun _ _ hz => hz.onMac).other
  · exact hx.forEach fun _ _ hz => hz.onMac

theorem Reach.memOk.reserve {x : Reach} {r : ReachId} {k : Container} {on : Bool} (h : x.memOk) : (x.reserve r k on).memOk := by
  unfold Reach.reserve
  dsimp only
  cases on <;> exact h.same

theorem Tile.memOk.uninstall {t : Tile} (h : t.memOk) : t.uninstall.memOk :=
  h.same

theorem Chip.memOk.releasePlan {c : Chip} {r : ReachId} {handle : Word64} (h : c.memOk) : (c.releasePlan r handle).memOk := by
  unfold Chip.releasePlan
  split
  · exact h
  · exact (h.onReach fun _ hy => (hy.onPlanTiles fun _ hz => hz.uninstall).reserve.same).writeGates

theorem Chip.memOk.planFail {c : Chip} {r : ReachId} {handle : Word64} {code idx : Nat} (h : c.memOk) : (c.planFail r handle code idx).memOk := by
  unfold Chip.planFail
  split
  · exact h
  · extract_lets _ c1
    have hc1 : c1.memOk := (h.forEach fun _ _ hy => hy.onPlanBy).ite (h.forEach fun _ _ hy => hy.releasePlan)
    exact hc1.completeOpt

theorem Chip.memOk.failArming {c : Chip} {r : ReachId} (h : c.memOk) : (c.failArming r).memOk :=
  h.forEach fun _ _ hx => hx.planFail

/-! ### The time service -/

theorem Chip.memOk.onTime {c : Chip} {r : ReachId} {f : TimeDom → TimeDom} (h : c.memOk) : (c.onTime r f).memOk :=
  h.onReach fun _ hx => hx.other

theorem Chip.memOk.discontinuity {c : Chip} {r : ReachId} {cause : Nat} {before : TimeDom} (h : c.memOk) : (c.discontinuity r cause before).memOk :=
  h.onTime.event

theorem Chip.memOk.stopForTime {c : Chip} {r : ReachId} (h : c.memOk) : (c.stopForTime r).memOk :=
  h.stopPlans.failArming

theorem Chip.memOk.enterServo {c : Chip} {r : ReachId} {s : Servo} {f : TimeDom → TimeDom} (h : c.memOk) : (c.enterServo r s f).memOk := by
  unfold Chip.enterServo
  dsimp only
  split
  · exact ((h.onTime.discontinuity.ite h.onTime).discontinuity.health.ite (h.onTime.discontinuity.ite h.onTime)).discontinuity.ite
      ((h.onTime.discontinuity.ite h.onTime).discontinuity.health.ite (h.onTime.discontinuity.ite h.onTime))
  · exact (((h.onTime.discontinuity.ite h.onTime).discontinuity.health.ite (h.onTime.discontinuity.ite h.onTime)).discontinuity.ite
      ((h.onTime.discontinuity.ite h.onTime).discontinuity.health.ite (h.onTime.discontinuity.ite h.onTime))).failArming
  · exact (((h.onTime.discontinuity.ite h.onTime).discontinuity.health.ite (h.onTime.discontinuity.ite h.onTime)).discontinuity.ite
      ((h.onTime.discontinuity.ite h.onTime).discontinuity.health.ite (h.onTime.discontinuity.ite h.onTime))).stopForTime

theorem Chip.memOk.stepTime {c : Chip} {r : ReachId} {off : Int} {era : Word16} (h : c.memOk) : (c.stepTime r off era).memOk :=
  (h.onTime.onReach fun _ hx => hx.other).discontinuity.stopForTime

theorem Chip.memOk.servoOffset {c : Chip} {r : ReachId} {measured : Int} {era : Word16} (h : c.memOk) : (c.servoOffset r measured era).memOk := by
  unfold Chip.servoOffset
  extract_lets _ _ _ c1 c2 c3 c4
  have hc1 : c1.memOk := h.onTime
  have hc2 : c2.memOk := hc1.enterServo.ite hc1
  have hc3 : c3.memOk := hc2.stepTime.onTime
  have hc4 : c4.memOk := hc2.onTime
  refine (h.ite h.enterServo).ite ?_
  refine (hc3.enterServo.ite hc3).ite ?_
  split
  · exact hc4.onTime
  · exact hc4.onTime.ite hc4.enterServo
  · exact hc4

theorem Chip.memOk.sendPtp {c : Chip} {r : ReachId} {p : PortId} {m : PtpMsg} {len : Nat} (h : c.memOk) : (c.sendPtp r p m len).memOk :=
  h.sendLink

theorem memOk_syncRx {r : ReachId} {now : Time} {p : PortId} {dom : BitVec 8} {seq : Word16} {arrival : Time} {c : Chip} (h : c.memOk) :
    (syncRx r now p dom seq arrival c).memOk :=
  h.at.onTime.ite h.at

theorem memOk_followUpRx {r : ReachId} {now : Time} {p : PortId} {dom : BitVec 8} {seq : Word16} {sec : BitVec 48} {ns : Word32} {corr : BitVec 64}
    {c : Chip} (h : c.memOk) : (followUpRx r now p dom seq sec ns corr c).memOk := by
  unfold followUpRx
  extract_lets c1 _ _ c2
  have hc1 : c1.memOk := h.at
  have hc2 : c2.memOk := hc1.onTime
  split
  · exact (hc2.servoOffset.ite hc2).ite hc1
  · exact hc1

theorem memOk_pdelayReqRx {r : ReachId} {now : Time} {p : PortId} {dom : BitVec 8} {seq : Word16} {t2 t3 : Time} {c : Chip} (h : c.memOk) :
    (pdelayReqRx r now p dom seq t2 t3 c).memOk :=
  h.at.sendPtp.sendPtp.ite h.at

theorem memOk_pdelayRespRx {r : ReachId} {now : Time} {p : PortId} {dom : BitVec 8} {seq : Word16} {followUp : Bool} {stamp arrival : Time}
    {c : Chip} (h : c.memOk) : (pdelayRespRx r now p dom seq followUp stamp arrival c).memOk := by
  unfold pdelayRespRx
  extract_lets c1
  have hc1 : c1.memOk := h.at
  refine hc1.ite ?_
  split
  · exact hc1
  · refine hc1.ite ?_
    refine hc1.onTime.ite ?_
    split
    · exact hc1
    · exact hc1.onTime

theorem memOk_ptpManagementRx {r : ReachId} {c : Chip} (h : c.memOk) : (ptpManagementRx r c).memOk :=
  h.onTime

theorem memOk_syncTxTimer {r : ReachId} {now : Time} {p : PortId} {c : Chip} (h : c.memOk) : (syncTxTimer r now p c).memOk :=
  h.at.onTime.sendPtp.sendPtp.ite h.at

theorem memOk_announceTxTimer {r : ReachId} {now : Time} {p : PortId} {c : Chip} (h : c.memOk) : (announceTxTimer r now p c).memOk :=
  h.at.onTime.sendPtp.ite h.at

theorem memOk_pdelayReqTimer {r : ReachId} {now : Time} {p : PortId} {c : Chip} (h : c.memOk) : (pdelayReqTimer r now p c).memOk :=
  h.at.onTime.sendPtp.ite h.at

theorem Chip.memOk.ppsEdge {c : Chip} {r : ReachId} {edge : Time} {refOk : Bool} (h : c.memOk) : (c.ppsEdge r edge refOk).memOk :=
  h.at.onTime.servoOffset.ite h.at.onTime

theorem memOk_ppsInEdge {marks : Quad PpsMark} {c : Chip} (h : c.memOk) : (ppsInEdge marks c).memOk :=
  h.forEach fun _ _ hx => hx.ppsEdge

theorem Chip.memOk.firstOffset {c : Chip} {r : ReachId} {s : TimeSource} {off : Int} {era : Word16} (h : c.memOk) :
    (c.firstOffset r s off era).memOk :=
  h.onTime.ite h.servoOffset

theorem Chip.memOk.loseSource {c : Chip} {r : ReachId} (h : c.memOk) : (c.loseSource r).memOk := by
  unfold Chip.loseSource
  extract_lets
  split
  · exact h.enterServo.ite h.enterServo
  · exact h.enterServo.ite h.enterServo
  · exact h.enterServo.ite h.enterServo
  · exact h

theorem memOk_sourceLoss {r : ReachId} {now : Time} {c : Chip} (h : c.memOk) : (sourceLoss r now c).memOk :=
  h.at.ite h.at.onTime.loseSource

theorem Chip.memOk.reselect {c : Chip} {r : ReachId} (h : c.memOk) : (c.reselect r).memOk := by
  unfold Chip.reselect
  extract_lets
  split
  · exact h.loseSource.ite h
  · exact h.onTime.ite h

theorem memOk_announceRx {r : ReachId} {now : Time} {p : PortId} {dom : BitVec 8} {clk : PtpClock} {c : Chip} (h : c.memOk) :
    (announceRx r now p dom clk c).memOk :=
  h.at.onTime.reselect.ite h.at

theorem Chip.memOk.timeCtrlAfter {c : Chip} {r : ReachId} (h : c.memOk) : (c.timeCtrlAfter r).memOk :=
  h.ite (h.loseSource.ite (h.onTime.ite h).reselect)

theorem memOk_sourceQualifies {r : ReachId} {now : Time} {s : TimeSource} {p : PortId} {srcTime : Time} {srcEra : Word16} {c : Chip} (h : c.memOk) :
    (sourceQualifies r now s p srcTime srcEra c).memOk := by
  unfold sourceQualifies
  extract_lets c1 _ _ _ _ c2 c3 c4 c5
  have hc1 : c1.memOk := h.at
  have hc2 : c2.memOk := hc1.onTime
  have hc3 : c3.memOk := hc1.enterServo
  have hc4 : c4.memOk := hc1.onTime
  have hc5 : c5.memOk := hc1.onTime
  refine hc1.ite ?_
  refine (hc2.ite hc2.discontinuity).ite ?_
  split
  · exact hc3.firstOffset
  · exact hc3.firstOffset
  · exact hc1.enterServo.ite hc3.firstOffset
  · exact hc4.firstOffset.ite hc1
  · exact hc5.firstOffset.ite hc1
  · exact hc5.firstOffset.ite hc1

theorem memOk_lockEntry {r : ReachId} {now : Time} {c : Chip} (h : c.memOk) : (lockEntry r now c).memOk :=
  h.at.enterServo.ite h.at

theorem memOk_holdoverExpiry {r : ReachId} {now : Time} {c : Chip} (h : c.memOk) : (holdoverExpiry r now c).memOk :=
  h.at.enterServo.ite h.at

theorem memOk_timeEraWrap {r : ReachId} {now : Time} {c : Chip} (h : c.memOk) : (timeEraWrap r now c).memOk :=
  h.at

theorem memOk_timeNowLowRead {r : ReachId} {c : Chip} (h : c.memOk) : (timeNowLowRead r c).memOk :=
  h.onTime

theorem Chip.memOk.domainStop {c : Chip} {r : ReachId} (h : c.memOk) : (c.domainStop r).memOk :=
  h.onTime

theorem Chip.memOk.domainStart {c : Chip} {r : ReachId} (h : c.memOk) : (c.domainStart r).memOk := by
  unfold Chip.domainStart
  extract_lets
  split
  · exact h
  · exact h.onTime.discontinuity

theorem memOk_timingDomainStop {r : ReachId} {c : Chip} (h : c.memOk) : (timingDomainStop r c).memOk :=
  h.domainStop.domainStart.stopForTime

/-! ### The logbook -/

theorem Chip.memOk.log {c : Chip} {kind : Nat} {w : Who} {result : Nat} {detail : List Byte} (h : c.memOk) : (c.log kind w result detail).memOk :=
  h.ite (h.other.alert.ite h.other)

theorem Chip.memOk.ignoreWrite {c : Chip} {p : RegPath} (h : c.memOk) : (c.ignoreWrite p).memOk :=
  h.other

theorem Chip.memOk.rwlWrite {c : Chip} {p : RegPath} {role offset : Nat} {old new : Word64} {apply : Chip → Chip} (h : c.memOk)
    (hf : ∀ (a : Chip), a.memOk → (apply a).memOk) : (c.rwlWrite p role offset old new apply).memOk :=
  h.ignoreWrite.ite (h.ite (hf _ h.log))

theorem Chip.memOk.endPfSession {c : Chip} (h : c.memOk) : c.endPfSession.memOk := by
  unfold Chip.endPfSession
  split
  · exact h
  · exact h.log.other

/-! ### Errors of the memory tiers -/

theorem MemState.touchCheck_bytes (m : MemState) (k : Nat) : (m.touchCheck k).bytes = m.bytes := by
  unfold MemState.touchCheck
  dsimp only
  split
  · rfl
  · split <;> rfl

theorem Reach.memOk.countLines {x : Reach} {pa n : Nat} {write : Bool} (h : x.memOk) : (x.countLines pa n write).memOk :=
  Reach.memOk_countLines pa n write h

theorem Chip.memOk.serveWrite {c : Chip} {r : ReachId} {by_ pa : Nat} {bs : List Byte} (h : c.memOk) : (c.serveWrite r by_ pa bs).memOk := by
  unfold Chip.serveWrite
  extract_lets x _ _ _ _ _ c1 c2
  have hx : x.memOk := h.reach
  have hc1 : c1.memOk := h.onReach fun _ hx => hx.writePhys.countLines
  have hc2 : c2.memOk := hc1.onReach fun _ hx => hx.same.foldl fun _ _ hy => hy.writePhys
  exact hc2.forEach fun _ _ hx => hx.forEach fun _ _ hy => hy.tdc

theorem Chip.memOk.storeRuns {c : Chip} {r : ReachId} {by_ : Nat} {runs : List Run} {off : Nat} {bs : List Byte} (h : c.memOk) :
    (c.storeRuns r by_ runs off bs).memOk :=
  h.foldlFst fun _ _ hx => hx.writeHost.ite ((hx.onReach fun _ hy => hy.writePhys).ite hx.serveWrite)

theorem Reach.memOk.countRuns {x : Reach} {runs : List Run} {off n : Nat} (h : x.memOk) : (x.countRuns runs off n).memOk :=
  h.foldl fun _ _ hx => hx.ite hx.countLines

theorem Chip.memOk.memRecord {c : Chip} {r : ReachId} {cls pa bit : Nat} {handle : Word64} (h : c.memOk) : (c.memRecord r cls pa bit handle).memOk :=
  (h.onReach fun _ hx => hx.same).event

theorem Chip.memOk.repairRecord {c : Chip} {r : ReachId} {row : MemRow} {cause : Nat} (h : c.memOk) : (c.repairRecord r row cause).memOk :=
  h.ite (h.log.onReach fun _ hx => hx.same)

theorem Chip.memOk.memUe {c : Chip} {r : ReachId} {cls pa : Nat} {handle : Word64} (h : c.memOk) : (c.memUe r cls pa handle).memOk := by
  unfold Chip.memUe
  extract_lets _ c1 c2
  have hc1 : c1.memOk := h.memRecord
  have hc2 : c2.memOk := hc1.onReach fun _ hx => hx.gaugeAdd
  exact hc1.ite (hc2.ite hc2.repairRecord)

theorem Chip.memOk.memCe {c : Chip} {r : ReachId} {pa bit : Nat} (h : c.memOk) : (c.memCe r pa bit).memOk := by
  unfold Chip.memCe
  extract_lets _ _ _ _ _ c1 c2 _ _ _ c3
  have hc1 : c1.memOk := h.onReach fun _ hx => hx.gaugeAdd
  have hc2 : c2.memOk := hc1.ite (hc1.memRecord.onReach fun _ hx => hx.same)
  have hc3 : c3.memOk := hc2.onReach fun _ hx => hx.same
  exact hc2.ite (hc3.repairRecord.ite hc3)

theorem Reach.memOk.patrolNext {x : Reach} {lp : Bool} (h : x.memOk) : (x.patrolNext lp).memOk :=
  h.withBytes ((x.patrolNext_keeps lp).1 ▸ h.bytes) (by unfold Reach.patrolNext; rfl) (by unfold Reach.patrolNext; rfl)

theorem Chip.memOk.addUe {c : Chip} {r : ReachId} {l : List Nat} (h : c.memOk) : (c.addUe r l).memOk :=
  h.onReach fun _ hx => hx.same

theorem Chip.memOk.memParity {c : Chip} {r : ReachId} {pa : Nat} {handle : Word64} (h : c.memOk) : (c.memParity r pa handle).memOk :=
  h.memUe.onReach fun _ hx => hx.same

theorem Chip.memOk.readFinds {c : Chip} {r : ReachId} {patrol : Bool} {pa : Nat} {f : DredgeFind} (h : c.memOk) :
    (c.readFinds r patrol pa f).1.memOk := by
  unfold Chip.readFinds
  split
  · exact h
  · exact h.memCe
  · exact h.ite (h.onReach fun _ hy => hy.gaugeAdd)
  · exact h
  · exact (h.onTile fun _ hy => hy.same).memUe.iteFst h.addUe.memUe
  · exact h.addUe.memUe.iteFst h
  · exact h.memParity.iteFst h

theorem memOk_dredgeRead {r : ReachId} {now : Time} {lp : Bool} {f : DredgeFind} {c : Chip} (h : c.memOk) : (dredgeRead r now lp f c).memOk := by
  unfold dredgeRead
  extract_lets c1 _ _ c2 _ c3
  have hc1 : c1.memOk := h.at
  have hc2 : c2.memOk := hc1.onReach fun _ hx => hx.patrolNext
  have hc3 : c3.memOk := hc1.onReach fun _ hx => hx.patrolNext.countLines
  exact hc1.ite ((hc2.readFinds.ite hc2).ite (hc3.memUe.ite hc3.readFinds))

/-! ### Routing tables and the fabric manager -/

theorem Chip.memOk.onRtr {c : Chip} {r : ReachId} {f : Router → Router} (h : c.memOk) : (c.onRtr r f).memOk :=
  h.onReach fun _ hx => hx.other

theorem Chip.memOk.startEpoch {c : Chip} {r : ReachId} (h : c.memOk) : (c.startEpoch r).memOk :=
  h.ite (h.onRtr.ite (h.onRtr.forEach fun _ _ hx => hx.sendKeeper))

theorem Chip.memOk.epochOver {c : Chip} {r : ReachId} (h : c.memOk) : (c.epochOver r).memOk :=
  h.startEpoch.ite h

theorem Chip.memOk.passLsa {c : Chip} {r : ReachId} {l : Lsa} {except : Option PortId} (h : c.memOk) : (c.passLsa r l except).memOk :=
  h.forEach fun _ _ hx => hx.sendLocal

theorem Chip.memOk.dbChanged {c : Chip} {r : ReachId} (h : c.memOk) : (c.dbChanged r).memOk :=
  (h.onRtr.ite h.onRtr.onRtr).startEpoch.ite (h.onRtr.ite h.onRtr.onRtr)

theorem Chip.memOk.floodOwn {c : Chip} {r : ReachId} (h : c.memOk) : (c.floodOwn r).memOk :=
  h.onRtr.onRtr.passLsa.dbChanged.ite h.onRtr.onRtr.passLsa

/-! ### Router and survey -/

theorem Chip.memOk.freeIngress {c : Chip} {r : ReachId} {ingress q len : Nat} (h : c.memOk) : (c.freeIngress r ingress q len).memOk :=
  Chip.memOk.dite (fun _ => (h.onReach fun _ hy => hy.onMac).emit.ite (h.onReach fun _ hy => hy.onMac)) fun _ => h

theorem Chip.memOk.portDrop {c : Chip} {r : ReachId} {i : Nat} {f : RtrPort → RtrPort} (h : c.memOk) : (c.portDrop r i f).memOk :=
  h.onRtr

theorem Chip.memOk.innerSent {c : Chip} {r : ReachId} {i len : Nat} {tc6 : Bool} (h : c.memOk) : (c.innerSent r i len tc6).memOk :=
  h.portDrop

theorem Chip.memOk.toEgress {c : Chip} {r : ReachId} {p : PortId} {f : RtrFrame} {b : FrameBody} {tc win part : Nat} (h : c.memOk) :
    (c.toEgress r p f b tc win part).memOk :=
  h.onReach fun _ hx => hx.onMac

theorem Chip.memOk.dropFrame {c : Chip} {r : ReachId} {f : RtrFrame} (h : c.memOk) : (c.dropFrame r f).memOk :=
  h.freeIngress

theorem Chip.memOk.egress {c : Chip} {r : ReachId} {f : RtrFrame} {k : RouteKey} {o : RouteOut} {p : PortId} {prim : Nat} {backup : Bool}
    (h : c.memOk) : (c.egress r f k o p prim backup).memOk := by
  unfold Chip.egress
  extract_lets x _ c1 c2
  have hx : x.memOk := h.reach
  have hc1 : c1.memOk := h.tdc
  have hc2 : c2.memOk := (hc1.portDrop.onReach fun _ hx => hx.gaugeAdd).ite h
  split
  · exact h.dropFrame.portDrop
  · refine h.dropFrame.portDrop.onRtr.ite ?_
    split
    · exact (hc2.portDrop.ite hc2).toEgress
    · exact hc2.toEgress
    · exact hc2.toEgress

theorem Chip.memOk.toKeepers {c : Chip} {r : ReachId} {f : RtrFrame} {pkey : Nat} (h : c.memOk) : (c.toKeepers r f pkey).memOk := by
  unfold Chip.toKeepers
  extract_lets
  split
  · exact h.portDrop.ite (h.innerSent.onRtr.ite h.onRtr)
  · exact h.innerSent.onRtr

theorem Chip.memOk.forwardRouted {c : Chip} {r : ReachId} {f : RtrFrame} {k : RouteKey} (h : c.memOk) : (c.forwardRouted r f k).memOk := by
  unfold Chip.forwardRouted
  extract_lets _ c1 c2 c3
  have hc1 : c1.memOk := h.onRtr.ite h
  have hc2 : c2.memOk := hc1.dropFrame
  have hc3 : c3.memOk := hc2.innerSent
  split
  · exact hc2.onRtr
  · exact hc2.onRtr
  · split
    · exact hc2.portDrop
    · exact hc2
  · split
    · exact hc3.onReach fun _ hz => hz.other
    · exact hc2.portDrop
  · exact hc2.toKeepers
  · exact hc1.egress

theorem Chip.memOk.forward {c : Chip} {r : ReachId} {f : RtrFrame} (h : c.memOk) : (c.forward r f).memOk := by
  unfold Chip.forward
  extract_lets
  refine h.dropFrame.onRtr.ite ?_
  refine h.dropFrame.portDrop.ite ?_
  split
  · exact h.dropFrame.onRtr
  · exact h.dropFrame.toKeepers
  · refine h.dropFrame.portDrop.ite ?_
    refine h.dropFrame.toKeepers.ite ?_
    split
    · exact h.forwardRouted
    · exact h
  · refine h.dropFrame.portDrop.ite ?_
    split
    · exact h.forwardRouted
    · exact h

theorem memOk_frameForward {r : ReachId} {now : Time} {c : Chip} (h : c.memOk) : (frameForward r now c).memOk := by
  unfold frameForward
  dsimp only
  split
  · exact h.at
  · refine Chip.memOk.forward ?_
    refine Chip.memOk.onRtr ?_
    split
    · exact h.at.tdc
    · exact h.at

theorem Chip.memOk.takeKeeper {c : Chip} {r : ReachId} {p : RtrFrame → Bool} (h : c.memOk) : (c.takeKeeper r p).memOk :=
  h.onRtr

theorem memOk_surveyTxTimer {r : ReachId} {now : Time} {c : Chip} (h : c.memOk) : (surveyTxTimer r now c).memOk :=
  h.at.ite (h.at.forEach fun _ _ hx => hx.sendLocal)

theorem Chip.memOk.duplicate {c : Chip} {r : ReachId} {eui : Word64} (h : c.memOk) : (c.duplicate r eui).memOk :=
  (h.onRtr.onReach fun _ hx => hx.forEach fun _ _ hy => hy.onPort).health.floodOwn.ite h

theorem memOk_surveyRx {r : ReachId} {now : Time} {p : PortId} {s : Survey} {c : Chip} (h : c.memOk) : (surveyRx r now p s c).memOk := by
  unfold surveyRx
  extract_lets c1 c2 _ c3 _ _ _ _ c4
  have hc1 : c1.memOk := h.at
  have hc2 : c2.memOk := hc1.takeKeeper
  have hc3 : c3.memOk := hc2.duplicate.ite hc2
  have hc4 : c4.memOk := hc3.onReach fun _ hx => hx.onPort
  exact hc2.ite (hc4.floodOwn.ite hc4)

theorem memOk_portUsableTimer {r : ReachId} {now : Time} {p : PortId} {c : Chip} (h : c.memOk) : (portUsableTimer r now p c).memOk :=
  (h.at.onReach fun _ hx => hx.onPort).floodOwn.ite h.at

theorem Chip.memOk.noticeLoss {c : Chip} {r : ReachId} {p : PortId} (h : c.memOk) : (c.noticeLoss r p).memOk :=
  h.floodOwn.sendKeeper.ite h.floodOwn

theorem Chip.memOk.portDown {c : Chip} {r : ReachId} {p : PortId} (h : c.memOk) : (c.portDown r p).memOk :=
  h.onReach fun _ hx => hx.onPort

theorem Chip.memOk.detour {c : Chip} {r : ReachId} {p : PortId} {lost : Nat} (h : c.memOk) : (c.detour r p lost).memOk :=
  h.stopPlans

theorem memOk_surveyLoss {r : ReachId} {now : Time} {p : PortId} {c : Chip} (h : c.memOk) : (surveyLoss r now p c).memOk :=
  h.at.portDown.noticeLoss.detour.ite h.at

theorem memOk_lsaRx {r : ReachId} {now : Time} {p : PortId} {l : Lsa} {c : Chip} (h : c.memOk) : (lsaRx r now p l c).memOk := by
  unfold lsaRx
  extract_lets c1 c2 _ _ _ c3 c4 c5
  have hc1 : c1.memOk := h.at
  have hc2 : c2.memOk := hc1.takeKeeper
  have hc3 : c3.memOk := hc2.onRtr
  have hc4 : c4.memOk := hc3.passLsa
  have hc5 : c5.memOk := hc4.dbChanged.ite hc4
  exact hc2.ite ((hc2.ite hc2.duplicate).ite (hc2.ite (hc5.floodOwn.ite hc5)))

theorem memOk_lsaFloodTimer {r : ReachId} {now : Time} {c : Chip} (h : c.memOk) : (lsaFloodTimer r now c).memOk :=
  h.at.floodOwn.ite h.at

theorem memOk_tableWriteRx {r : ReachId} {now : Time} {src : Word16} {num : BitVec 24} {entries : List (Nat × Word32)} {valiant : List Word16}
    {c : Chip} (h : c.memOk) : (tableWriteRx r now src num entries valiant c).memOk :=
  h.at.takeKeeper.ite (h.at.takeKeeper.sendKeeper.ite h.at.takeKeeper.onRtr.sendKeeper)

theorem memOk_tableAckRx {r : ReachId} {now : Time} {src : Word16} {num : BitVec 24} {refused : Bool} {c : Chip} (h : c.memOk) :
    (tableAckRx r now src num refused c).memOk := by
  unfold tableAckRx
  extract_lets c1 c2 _ _ _ c3 _ c4
  have hc1 : c1.memOk := h.at
  have hc2 : c2.memOk := hc1.takeKeeper
  have hc3 : c3.memOk := hc2.onRtr
  have hc4 : c4.memOk := hc3.onRtr
  exact hc2.ite (hc2.onRtr.epochOver.ite ((hc4.forEach fun _ _ hx => hx.sendKeeper).ite hc3))

theorem memOk_tableAckTimeout {r : ReachId} {now : Time} {c : Chip} (h : c.memOk) : (tableAckTimeout r now c).memOk :=
  h.at.onRtr.epochOver.ite h.at

theorem memOk_flipRx {r : ReachId} {now : Time} {src : Word16} {num : BitVec 24} {tFlip : Time} {c : Chip} (h : c.memOk) :
    (flipRx r now src num tFlip c).memOk :=
  h.at.takeKeeper.ite (h.at.takeKeeper.onRtr.ite h.at.takeKeeper).sendKeeper

theorem memOk_flipAckRx {r : ReachId} {now : Time} {src : Word16} {num : BitVec 24} {c : Chip} (h : c.memOk) : (flipAckRx r now src num c).memOk :=
  (h.at.takeKeeper.onRtr.epochOver.ite h.at.takeKeeper.onRtr).ite h.at.takeKeeper

theorem memOk_flipRepeatTimer {r : ReachId} {now : Time} {c : Chip} (h : c.memOk) : (flipRepeatTimer r now c).memOk := by
  unfold flipRepeatTimer
  extract_lets c1
  have hc1 : c1.memOk := h.at
  split
  · exact (hc1.forEach fun _ _ hy => hy.sendKeeper).ite hc1
  · exact hc1

theorem memOk_epochFlip {r : ReachId} {now : Time} {c : Chip} (h : c.memOk) : (epochFlip r now c).memOk := by
  unfold epochFlip
  extract_lets c1
  have hc1 : c1.memOk := h.at
  split
  · exact hc1.onRtr.ite hc1
  · exact hc1

theorem memOk_epochDrainEnd {r : ReachId} {now : Time} {c : Chip} (h : c.memOk) : (epochDrainEnd r now c).memOk := by
  unfold epochDrainEnd
  extract_lets c1 _ _ c2
  have hc1 : c1.memOk := h.at
  have hc2 : c2.memOk := hc1.onRtr
  split
  · exact ((hc2.startEpoch.ite (hc2.onRtr.ite hc2.onRtr)).ite hc2).ite hc1
  · exact hc1

theorem memOk_fmHelloTimer {r : ReachId} {now : Time} {c : Chip} (h : c.memOk) : (fmHelloTimer r now c).memOk :=
  (h.at.onRtr.forEach fun _ _ hx => hx.sendKeeper).ite h.at

theorem memOk_fmHelloRx {r : ReachId} {now : Time} {src : Word16} {c : Chip} (h : c.memOk) : (fmHelloRx r now src c).memOk := by
  unfold fmHelloRx
  extract_lets c1 c2
  have hc1 : c1.memOk := h.at
  have hc2 : c2.memOk := hc1.takeKeeper
  exact hc2.ite (hc2.onRtr.ite (hc2.onRtr.ite (hc2.onRtr.ite hc2)))

theorem memOk_fmTakeover {r : ReachId} {now : Time} {c : Chip} (h : c.memOk) : (fmTakeover r now c).memOk :=
  h.at.ite (h.at.onRtr.startEpoch.ite h.at.onRtr.onRtr)

theorem memOk_linkNoticeRx {r : ReachId} {now : Time} {node : Word16} {port : PortId} {c : Chip} (h : c.memOk) :
    (linkNoticeRx r now node port c).memOk :=
  h.at.takeKeeper.onRtr.startEpoch.ite h.at.takeKeeper

theorem memOk_cmapTxTimer {r : ReachId} {now : Time} {hist : List (List Word16)} {c : Chip} (h : c.memOk) : (cmapTxTimer r now hist c).memOk :=
  h.at.ite h.at.sendKeeper.onRtr

theorem memOk_cmapRx {r : ReachId} {now : Time} {m : Cmap} {c : Chip} (h : c.memOk) : (cmapRx r now m c).memOk :=
  h.at.takeKeeper.ite (h.at.takeKeeper.onRtr.ite h.at.takeKeeper.onRtr)

theorem memOk_linkFault {r : ReachId} {now : Time} {p : PortId} {c : Chip} (h : c.memOk) : (linkFault r now p c).memOk := by
  unfold linkFault
  extract_lets c1 _ c2 _ c3
  have hc1 : c1.memOk := h.at
  have hc2 : c2.memOk := hc1.onReach fun _ hx => hx.onMac.other
  have hc3 : c3.memOk := hc2.portDown
  exact hc2.ite (hc3.noticeLoss.detour.ite hc3)

theorem memOk_linkUp {r : ReachId} {now : Time} {p : PortId} {peerAdv rxInv : BitVec 4} {rxOrder : BitVec 8} {c : Chip} (h : c.memOk) :
    (linkUp r now p peerAdv rxInv rxOrder c).memOk := by
  unfold linkUp
  dsimp only
  split
  · exact h.at
  · exact .ite h.at (h.at.onReach fun _ hx => .ite hx.same hx.same)

/-! ### Ports -/

theorem Chip.memOk.pfcCheck {c : Chip} {r : ReachId} {p : PortId} {q : Nat} (h : c.memOk) : (c.pfcCheck r p q).memOk :=
  (h.onReach fun _ hx => hx.onMac).emit.ite h

theorem Chip.memOk.onMac {c : Chip} {r : ReachId} {p : PortId} {f : Mac → Mac} (h : c.memOk) : (c.onMac r p f).memOk :=
  h.onReach fun _ hx => hx.onMac

theorem Chip.memOk.countCorrected {c : Chip} {r : ReachId} {p : PortId} {f : EthFrame} (h : c.memOk) : (c.countCorrected r p f).memOk :=
  h.ite (h.onReach fun _ hx => hx.gaugeAdd)

theorem memOk_macFrameRx {r : ReachId} {now : Time} {p : PortId} {f : EthFrame} {c : Chip} (h : c.memOk) : (macFrameRx r now p f c).memOk := by
  unfold macFrameRx
  extract_lets c1 _ c2
  have hc1 : c1.memOk := h.at
  have hc2 : c2.memOk := hc1.countCorrected
  refine hc1.ite ?_
  split
  · exact hc2.onMac
  · exact hc2.onMac
  · refine hc2.onMac.ite ?_
    refine hc2.onMac.ite ?_
    refine hc2.onMac.ite ?_
    refine hc2.onMac.ite ?_
    split
    · exact hc2.onMac
    · exact hc2.onMac.ite (hc2.onMac.ite hc2.onMac.onRtr.pfcCheck)

theorem memOk_pauseRx {r : ReachId} {now : Time} {p : PortId} {quanta : Word16} {c : Chip} (h : c.memOk) : (pauseRx r now p quanta c).memOk :=
  h.at.onReach fun _ hx => hx.onMac.gaugeAdd

theorem memOk_pfcRx {r : ReachId} {now : Time} {p : PortId} {classes : BitVec 8} {times : List Word16} {c : Chip} (h : c.memOk) :
    (pfcRx r now p classes times c).memOk :=
  h.at.onReach fun _ hx => hx.onMac.foldl fun _ _ hy => hy.gaugeAdd

theorem memOk_pauseExpiry {r : ReachId} {now : Time} {p : PortId} {tc : Fin 8} {c : Chip} (h : c.memOk) : (pauseExpiry r now p tc c).memOk :=
  h.at.onReach fun _ hx => hx.onMac

theorem memOk_pauseWatchdog {r : ReachId} {now : Time} {p : PortId} {tc7 : Bool} {c : Chip} (h : c.memOk) : (pauseWatchdog r now p tc7 c).memOk := by
  unfold pauseWatchdog
  extract_lets c1 _ _ _ c2
  have hc1 : c1.memOk := h.at
  have hc2 : c2.memOk := hc1.onMac
  split
  · exact hc2.health.ite hc1
  · exact hc1

theorem memOk_pauseWatchdogHoldEnd {r : ReachId} {now : Time} {p : PortId} {tc7 : Bool} {c : Chip} (h : c.memOk) :
    (pauseWatchdogHoldEnd r now p tc7 c).memOk :=
  h.at.onReach fun _ hx => hx.onMac

theorem memOk_pfcRepeatTimer {r : ReachId} {now : Time} {p : PortId} {tc : Fin 6} {c : Chip} (h : c.memOk) : (pfcRepeatTimer r now p tc c).memOk := by
  unfold pfcRepeatTimer
  extract_lets c1
  have hc1 : c1.memOk := h.at
  split
  · exact hc1.onMac.emit.ite hc1
  · exact hc1

theorem memOk_portFrameStart {r : ReachId} {now : Time} {p : PortId} {ending : FrameEnd} {c : Chip} (h : c.memOk) :
    (portFrameStart r now p ending c).memOk := by
  unfold portFrameStart
  extract_lets c1
  have hc1 : c1.memOk := h.at
  refine hc1.ite ?_
  split
  · exact hc1
  · extract_lets _ _ c2 c3 _ c4 c5
    have hc2 : c2.memOk := hc1.onMac
    have hc3 : c3.memOk := Chip.memOk.dite (fun _ => hc2.onMac) fun _ => hc2
    have hc4 : c4.memOk := hc3.onReach fun _ hy => hy.onPort.gaugeAdd.gaugeAdd.gaugeAdd.gaugeAdd.ite hy.onPort.gaugeAdd.gaugeAdd
    have hc5 : c5.memOk := hc4.freeIngress
    exact (hc1.onMac.freeIngress.onReach fun _ hy => hy.onPort.gaugeAdd.ite hy.onPort).ite hc5.emit

theorem memOk_uncorrectableCodeword {r : ReachId} {now : Time} {p : PortId} {c : Chip} (h : c.memOk) : (uncorrectableCodeword r now p c).memOk :=
  h.at.onMac.health.ite h.at.onMac

/-! ### The plan service -/

theorem Reach.memOk.zeroCredits {x : Reach} {k : Container} {me : Word16} (h : x.memOk) : (x.zeroCredits k me).memOk :=
  h.foldl fun _ _ hx => hx.foldl fun _ _ hy => hy.onTile fun _ hz => Tile.memOk.of_spad (Mem.wf_zeroRange _ _ hz.spad)

theorem Tile.memOk.install {t : Tile} {k : Container} {tile : Nat} (h : t.memOk) : (t.install k tile).memOk :=
  h.same

theorem Chip.memOk.sendArm {c : Chip} {r : ReachId} {p : PlanInst} (h : c.memOk) : (c.sendArm r p).memOk :=
  h.forEach fun _ _ hx => hx.sendKeeper

theorem Chip.memOk.armPlan {c : Chip} {r : ReachId} {ref : CmdRef} {k : Container} (h : c.memOk) : (c.armPlan r ref k).memOk := by
  unfold Chip.armPlan
  extract_lets _ _ c1 c2 c3
  have hc1 : c1.memOk := h.onReach fun _ hx => hx.reserve.zeroCredits
  have hc2 : c2.memOk := hc1.forEach fun _ _ hx => hx.onTile fun _ hy => hy.install
  have hc3 : c3.memOk := hc2.onPlan
  exact hc3.writeGates.sendArm

theorem Chip.memOk.planDone {c : Chip} {r : ReachId} {handle : Word64} (h : c.memOk) : (c.planDone r handle).memOk := by
  unfold Chip.planDone
  extract_lets
  split
  · refine h.ite ?_
    split
    · exact (h.forEach fun _ _ hz => hz.onPlanBy).complete
    · exact h
  · exact h

theorem Chip.memOk.tryAgree {c : Chip} {r : ReachId} {handle : Word64} (h : c.memOk) : (c.tryAgree r handle).memOk := by
  unfold Chip.tryAgree
  split
  · exact h
  · refine h.ite ?_
    refine h.planFail.ite ?_
    split
    · exact h.planFail
    · exact (h.onPlanBy.tdc.ite h.onPlanBy).planDone.ite h

theorem Chip.memOk.planTake {c : Chip} {ref : CmdRef} {p : PlanLoad} (h : c.memOk) : (c.planTake ref p).memOk := by
  unfold Chip.planTake
  dsimp only
  split
  · split
    · exact h.complete
    · exact h.complete
  · split
    · exact h.complete
    · exact (h.forEach fun _ _ hz => hz.armPlan).forEach fun _ _ hz => hz.tryAgree

theorem memOk_planLoad {ref : CmdRef} {p : PlanLoad} {c : Chip} (h : c.memOk) : (planLoad ref p c).memOk := by
  unfold planLoad
  refine h.planTake.ite ?_
  extract_lets
  split
  · exact h.planTake
  · exact h.xltFault.ite h.xltFault.complete

theorem memOk_planArmRx {r : ReachId} {now : Time} {a : ArmFrame} {c : Chip} (h : c.memOk) : (planArmRx r now a c).memOk := by
  unfold planArmRx
  extract_lets c1 c2
  have hc1 : c1.memOk := h.at
  have hc2 : c2.memOk := hc1.takeKeeper
  split
  · exact hc2.ite hc2.onPlanBy.tryAgree
  · exact hc2.onPlan

theorem memOk_planPeerTimeout {r : ReachId} {now : Time} {handle : Word64} {c : Chip} (h : c.memOk) : (planPeerTimeout r now handle c).memOk := by
  unfold planPeerTimeout
  extract_lets c1
  have hc1 : c1.memOk := h.at
  split
  · exact hc1
  · exact hc1.planFail.ite hc1

theorem Tile.memOk.reprogram {t : Tile} {k : Container} {tile : Nat} (h : t.memOk) : (t.reprogram k tile).memOk :=
  h.same

theorem Chip.memOk.rearm {c : Chip} {r : ReachId} {ref : CmdRef} {handle : Word64} (h : c.memOk) : (c.rearm r ref handle).memOk := by
  unfold Chip.rearm
  split
  · exact h
  · exact (h.onPlanBy.onPlan.forEach fun _ _ hy => hy.onTile fun _ hz => hz.reprogram).sendArm

theorem memOk_planResume {ref : CmdRef} {handle : Word64} {c : Chip} (h : c.memOk) : (planResume ref handle c).memOk := by
  unfold planResume
  refine h.complete.ite ?_
  split
  · exact h.complete
  · exact (h.forEach fun _ _ hy => hy.rearm).forEach fun _ _ hy => hy.tryAgree

theorem Chip.memOk.driverStop {c : Chip} {handle : Word64} (h : c.memOk) : (c.driverStop handle).memOk := by
  unfold Chip.driverStop
  refine h.forEach ?_
  intro _ _ hx
  split
  · exact hx.declareStop.ite hx
  · exact hx

theorem memOk_planStop {ref : CmdRef} {handle : Word64} {c : Chip} (h : c.memOk) : (planStop ref handle c).memOk :=
  h.complete.ite h.driverStop.complete

theorem memOk_planUnload {ref : CmdRef} {handle : Word64} {c : Chip} (h : c.memOk) : (planUnload ref handle c).memOk :=
  h.complete.ite (h.driverStop.forEach fun _ _ hx => hx.releasePlan).complete

theorem memOk_planStopRx {r : ReachId} {now : Time} {planId : Word64} {cause : BitVec 3} {c : Chip} (h : c.memOk) :
    (planStopRx r now planId cause c).memOk :=
  h.at.takeKeeper.stopPlans

/-! ### The tile sequencer -/

theorem Tile.memOk.advance {t : Tile} (h : t.memOk) : t.advance.memOk := by
  unfold Tile.advance
  split
  · exact h.same
  · exact h.same

theorem Chip.memOk.stepTrace {c : Chip} {r : ReachId} {t i cls : Nat} {ends : Bool} {v : Nat} (h : c.memOk) : (c.stepTrace r t i cls ends v).memOk :=
  h.ite h.trace

theorem Chip.memOk.lateStop {c : Chip} {r : ReachId} {t i : Nat} {p : PlanInst} (h : c.memOk) : (c.lateStop r t i p).memOk :=
  h.declareStop

theorem Reach.memOk.lateStart {x : Reach} {t late : Nat} (h : x.memOk) : (x.lateStart t late).memOk :=
  h.gaugeAdd.gaugeAdd.gaugeMax

theorem Chip.memOk.begin {c : Chip} {r : ReachId} {t i : Nat} {s : StepWords} {late hold : Nat} (h : c.memOk) :
    (c.begin r t i s late hold).memOk := by
  unfold Chip.begin
  extract_lets c1
  have hc1 : c1.memOk := h.onReach fun _ hx => (hx.gaugeAdd.gaugeAdd.ite hx.gaugeAdd.gaugeAdd.lateStart).onTile fun _ hy => hy.same
  exact hc1.stepTrace

theorem Chip.memOk.startStep {c : Chip} {r : ReachId} {t hold : Nat} {pick : StepWords → Bool} {k : PlanInst → Nat → StepWords → Chip → Chip}
    (h : c.memOk) (hf : ∀ (a : PlanInst) (a_1 : ℕ) (a_2 : StepWords) (a_3 : Chip), a_3.memOk → (k a a_1 a_2 a_3).memOk) :
    (c.startStep r t hold pick k).memOk := by
  unfold Chip.startStep
  split
  · refine h.ite ?_
    split
    · exact h.lateStop.ite (hf _ _ _ _ h.begin)
    · exact hf _ _ _ _ h.begin
  · exact h

theorem memOk_lateStoppage {r : ReachId} {now : Time} {t : TileId} {c : Chip} (h : c.memOk) : (lateStoppage r now t c).memOk := by
  unfold lateStoppage
  extract_lets c1
  have hc1 : c1.memOk := h.at
  split
  · refine hc1.ite ?_
    split
    · exact hc1.lateStop.ite hc1
    · exact hc1
  · exact hc1

theorem Tile.memOk.failed {t : Tile} {i code : Nat} {started : Bool} (h : t.memOk) : (t.failed i code started).memOk :=
  h.same

theorem Chip.memOk.tileFail {c : Chip} {r : ReachId} {t i code : Nat} {cause : StopCause} {coll : Nat} {started : Bool} (h : c.memOk) :
    (c.tileFail r t i code cause coll started).memOk := by
  unfold Chip.tileFail
  extract_lets c1
  have hc1 : c1.memOk := h.onTile fun _ hx => hx.failed
  split
  · exact hc1.declareStop.ite hc1
  · exact hc1

theorem Chip.memOk.stepFail {c : Chip} {r : ReachId} {t i code : Nat} (h : c.memOk) : (c.stepFail r t i code).memOk :=
  h.tileFail

theorem Chip.memOk.waitFail {c : Chip} {r : ReachId} {t i code : Nat} (h : c.memOk) : (c.waitFail r t i code).memOk :=
  h.tileFail

theorem Chip.memOk.scramble {c : Chip} {r : ReachId} {t a n : Nat} (h : c.memOk) : (c.scramble r t a n).memOk :=
  h.freeBytes.onTile fun _ hx => Tile.memOk.of_spad (Mem.wf_writeBytes _ _ hx.spad)

theorem Tile.memOk.heal {t : Tile} {rs : List (Nat × Nat)} (h : t.memOk) : (t.heal rs).memOk :=
  h.same

theorem Tile.memOk.signalAdd {t : Tile} {a n : Nat} (h : t.memOk) : (t.signalAdd a n).memOk :=
  Tile.memOk.of_spad (Mem.wf_writeLe _ _ _ h.spad)

theorem Chip.memOk.waitFor {c : Chip} {r : ReachId} {t i : Nat} {deadline : Time} {state : BitVec 4} (h : c.memOk) :
    (c.waitFor r t i deadline state).memOk :=
  h.onTile fun _ hx => hx.same

theorem Chip.memOk.doneStep {c : Chip} {r : ReachId} {t i cls cycles : Nat} (h : c.memOk) : (c.doneStep r t i cls cycles).memOk :=
  (h.onTile fun _ hx => hx.advance.same).stepTrace

theorem Chip.memOk.compareSignal {c d : Chip} {r : ReachId} {t i : Nat} {s : StepWords} {cycles : Nat} (h : c.memOk)
    (hd : c.compareSignal r t i s cycles = some d) : d.memOk := by
  unfold Chip.compareSignal at hd
  dsimp only at hd
  split at hd
  · cases hd
    exact h.memUe.waitFail
  · split at hd
    · cases hd
      exact h.doneStep
    · cases hd

theorem Chip.memOk.wakeTile {c : Chip} {r : ReachId} {t : Nat} (h : c.memOk) : (c.wakeTile r t).memOk := by
  unfold Chip.wakeTile
  split
  · exact h.free.doneStep.ite h
  · exact h

theorem Chip.memOk.wake {c : Chip} {r : ReachId} (h : c.memOk) : (c.wake r).memOk :=
  h.forEach fun _ _ hx => hx.wakeTile

theorem Tile.memOk.enterPhase {t : Tile} {k : Container} {tile phase : Nat} {start : Time} (h : t.memOk) :
    (t.enterPhase k tile phase start).memOk := by
  unfold Tile.enterPhase
  extract_lets
  split
  · exact h.same
  · exact h.same

theorem Chip.memOk.roundEnd {c : Chip} {r : ReachId} {t : Nat} {p : PlanInst} (h : c.memOk) : (c.roundEnd r t p).memOk := by
  unfold Chip.roundEnd
  refine h.onTile ?_
  intro _ hx
  refine hx.same.ite ?_
  refine hx.enterPhase.ite ?_
  split
  · exact hx.same
  · exact hx

theorem Chip.memOk.phaseEnd {c : Chip} {r : ReachId} {t : Nat} {p : PlanInst} (h : c.memOk) : (c.phaseEnd r t p).memOk :=
  h.onTile fun _ hx => hx.enterPhase.ite hx.same

/-! ### Work that the remote-memory engine takes -/

theorem Chip.memOk.onRme {c : Chip} {r : ReachId} {f : Rme → Rme} (h : c.memOk) : (c.onRme r f).memOk :=
  h.onReach fun _ hx => hx.other

theorem Chip.memOk.onQp {c : Chip} {r : ReachId} {qpn : BitVec 24} {f : Qp → Qp} (h : c.memOk) : (c.onQp r qpn f).memOk :=
  h.onRme

theorem Chip.memOk.consume {c : Chip} {r : ReachId} {src : RmeSource} (h : c.memOk) : (c.consume r src).memOk := by
  unfold Chip.consume
  split
  · exact h.onTile fun _ hy => hy.same
  · exact h.onChain
  · exact h

theorem Chip.memOk.entryDone {c : Chip} {source : Nat} {ref : CmdRef} {pos : Nat} {cq : BitVec 8} {recv : Bool} {status len : Nat} (h : c.memOk) :
    (c.entryDone source ref pos cq recv status len).memOk := by
  unfold Chip.entryDone
  split
  · exact h
  · exact h.onChain.ite h.onChain.postRecord.dropChain.chainGone

theorem Chip.memOk.opGauge {c : Chip} {r : ReachId} {qpn : BitVec 24} {status : Nat} (h : c.memOk) : (c.opGauge r qpn status).memOk :=
  h.onReach fun _ hx => hx.gaugeAdd

theorem Chip.memOk.reportEntry {c : Chip} {r : ReachId} {by_ : Submitter} {cq : BitVec 8} {e : WorkEntry} {recv : Bool} {status len : Nat}
    (h : c.memOk) : (c.reportEntry r by_ cq e recv status len).memOk := by
  unfold Chip.reportEntry
  split
  · exact (h.onTile fun _ hy => (hy.same.ite hy).signalAdd.ite (hy.same.ite hy)).wakeTile.ite (h.onTile fun _ hy => hy.same).stepFail
  · exact h.entryDone
  · exact h

theorem Chip.memOk.rmeTrace {c : Chip} {r : ReachId} {q : Qp} {by_ : Submitter} {e : WorkEntry} {complete : Bool} {status : Nat} {msn : BitVec 24}
    (h : c.memOk) : (c.rmeTrace r q by_ e complete status msn).memOk :=
  h.ite h.traceFrom

theorem Reach.memOk.dropRefs {x : Reach} {l : List Nat} (h : x.memOk) : (x.dropRefs l).memOk :=
  h.other

theorem Chip.memOk.failOp {c : Chip} {r : ReachId} {qpn : BitVec 24} {seq status : Nat} (h : c.memOk) : (c.failOp r qpn seq status).memOk := by
  unfold Chip.failOp
  split
  · exact h
  · extract_lets c1 c2
    have hc1 : c1.memOk := h.onReach fun _ hy => hy.dropRefs
    have hc2 : c2.memOk := hc1.onQp
    exact hc2.ite hc2.completeOpt

theorem Chip.memOk.refuse {c : Chip} {r : ReachId} {q : Qp} {e : WorkEntry} {by_ : Submitter} {status : Nat} {fails : Bool} (h : c.memOk) :
    (c.refuse r q e by_ status fails).memOk :=
  h.onQp.failOp.ite h.onQp

theorem Chip.memOk.takeReady {c d : Chip} {r : ReachId} {src : RmeSource} {q : Qp} {e : WorkEntry} {by_ : Submitter} (h : c.memOk)
    (hd : c.takeReady r src q e by_ = some d) : d.memOk := by
  unfold Chip.takeReady at hd
  dsimp only at hd
  split at hd
  · cases hd
    exact h.consume.refuse
  · split at hd
    · cases hd
      exact h.consume.refuse
    · cases hd
      exact .ite h.xltFault h.xltFault.consume.refuse
    · split at hd
      · cases hd
      · split at hd
        · split at hd
          · cases hd
            exact h.consume.refuse
          · cases hd
            exact h.consume.onQp.rmeTrace
        · split at hd
          · cases hd
            exact h.consume.refuse
          · cases hd
            exact h.consume.onQp.rmeTrace

theorem Chip.memOk.rmeAnswer {c d : Chip} {r : ReachId} {src : RmeSource} (h : c.memOk) (hd : c.rmeAnswer r src = some d) : d.memOk := by
  unfold Chip.rmeAnswer at hd
  dsimp only at hd
  repeat' split at hd
  all_goals first
    | exact h.takeReady hd
    | cases hd
  all_goals first
    | exact h.consume.reportEntry
    | exact h.consume.refuse

theorem Chip.memOk.issueTie {c : Chip} {r : ReachId} {src : RmeSource} {claims : List (Time × Nat)} (h : c.memOk) :
    (c.issueTie r src claims).memOk := by
  unfold Chip.issueTie
  split
  · exact h.tdc
  · exact h

theorem memOk_rmeTake {op : BitVec 4} {r : ReachId} {now : Time} {src : RmeSource} {c : Chip} (h : c.memOk) : (rmeTake op r now src c).memOk :=
  h.at.ite (h.at.ite (Chip.memOk.getD (fun _ hx => h.at.issueTie.rmeAnswer hx) h.at))

theorem Chip.memOk.rmeRefuse {c : Chip} {r : ReachId} {src : RmeSource} (h : c.memOk) : (c.rmeRefuse r src).memOk := by
  unfold Chip.rmeRefuse
  split
  · exact h
  · split
    · exact h.consume.refuse
    · exact h.consume.reportEntry

theorem Chip.memOk.submit {c d : Chip} {r : ReachId} {e : WorkEntry} {by_ : Submitter} {runs : List Run} {tail : List Byte} (h : c.memOk)
    (hd : c.submit r e by_ runs tail = .taken d) : d.memOk := by
  unfold Chip.submit at hd
  repeat' split at hd
  all_goals cases hd
  all_goals exact h.onQp

/-! ### The parts of a collective invocation -/

theorem Chip.memOk.onInv {c : Chip} {r : ReachId} {i : CollInv} {f : CollInv → CollInv} (h : c.memOk) : (c.onInv r i f).memOk :=
  h.onReach fun _ hx => hx.same

theorem Chip.memOk.memberAdd {c : Chip} {r : ReachId} {m : CollMember} {a n : Nat} (h : c.memOk) : (c.memberAdd r m a n).memOk :=
  (h.onTile fun _ hx => hx.signalAdd).wakeTile

theorem Chip.memOk.memberWrite {c : Chip} {r : ReachId} {m : CollMember} {a : Nat} {bs : List Byte} (h : c.memOk) : (c.memberWrite r m a bs).memOk :=
  (h.onReach fun _ hx => hx.writePhys).wakeTile

theorem Chip.memOk.landChunk {c : Chip} {r : ReachId} {i : CollInv} {entry off : Nat} {bs : List Byte} (h : c.memOk) :
    (c.landChunk r i entry off bs).memOk := by
  unfold Chip.landChunk
  extract_lets
  split
  · extract_lets c1
    have hc1 : c1.memOk := h.onReach fun _ hy => hy.withWharf (Mem.wf_writeBytes _ _ hy.wharf)
    exact hc1.ite hc1.memberWrite
  · exact h.memberWrite

theorem Chip.memOk.chunkLanded {c : Chip} {r : ReachId} {i : CollInv} {entry : Nat} {by_ : Option (BitVec 24 × BitVec 24)} (h : c.memOk) :
    (c.chunkLanded r i entry by_).memOk := by
  unfold Chip.chunkLanded
  split
  · exact h.onInv
  · exact h

theorem Chip.memOk.countFallback {c : Chip} {r : ReachId} {i : CollInv} (h : c.memOk) : (c.countFallback r i).memOk :=
  (h.onReach fun _ hx => hx.gaugeAdd).tdc

theorem Chip.memOk.loadOperand {c : Chip} {r : ReachId} {i : CollInv} {entry : Nat} {bs : List Byte} (h : c.memOk) :
    (c.loadOperand r i entry bs).memOk := by
  unfold Chip.loadOperand
  split
  · exact h.onReach fun _ hy => hy.withWharf (Mem.wf_writeBytes _ _ hy.wharf)
  · exact h

theorem Chip.memOk.placeInv {c : Chip} {r : ReachId} {i : CollInv} {slot : Option Nat} {fallback : Bool} (h : c.memOk) :
    (c.placeInv r i slot fallback).memOk :=
  (h.countFallback.ite h).onInv

theorem Chip.memOk.freeSlots {c : Chip} {r : ReachId} {i : CollInv} (h : c.memOk) : (c.freeSlots r i).memOk := by
  unfold Chip.freeSlots
  split
  · exact h.onInv.ite ((h.onInv.onReach fun _ hy => hy.same).forEach fun _ _ hy => hy.planDone)
  · exact h

theorem Chip.memOk.leaveWharf {c : Chip} {r : ReachId} {i : CollInv} (h : c.memOk) : (c.leaveWharf r i).memOk := by
  unfold Chip.leaveWharf
  extract_lets _ c1
  have hc1 : c1.memOk := by
    refine h.forEach ?_
    intro _ _ hx
    split
    · exact hx
    · exact (hx.forEach fun _ _ hz => hz.memberWrite).freeSlots.onInv
  exact hc1.countFallback

theorem Chip.memOk.claimSlot {c : Chip} {r : ReachId} {i : CollInv} {tag : Time} {node : Word16} (h : c.memOk) :
    (c.claimSlot r i tag node).memOk := by
  unfold Chip.claimSlot
  dsimp only
  refine h.ite ?_
  refine (h.leaveWharf.ite h).ite ?_
  split
  · exact h.placeInv.ite (h.leaveWharf.ite h).placeInv
  · refine (h.placeInv.ite h.placeInv).ite ?_
    split
    · refine Chip.memOk.onReach ?_ fun _ hz => hz.same
      refine Chip.memOk.placeInv ?_
      refine Chip.memOk.onInv ?_
      split
      · exact h.grantClaim.leaveWharf
      · exact h.grantClaim
    · refine Chip.memOk.placeInv ?_
      refine Chip.memOk.onInv ?_
      split
      · exact h.grantClaim.leaveWharf
      · exact h.grantClaim

theorem Chip.memOk.creditAdd {c d : Chip} {r : ReachId} {i : CollInv} {m w : Nat} (h : c.memOk) (hd : c.creditAdd r i m w = .taken d) : d.memOk := by
  unfold Chip.creditAdd at hd
  split at hd
  · cases hd
    exact h.memberAdd
  · split at hd
    · cases hd
    · exact h.submit hd

theorem Chip.memOk.tellAborts {c : Chip} {r : ReachId} {i : CollInv} (h : c.memOk) : (c.tellAborts r i).memOk := by
  unfold Chip.tellAborts
  refine h.forEach ?_
  intro _ _ hx
  split
  · exact hx
  · exact hx.onInv
  · rename_i _ _ he12
    exact (hx.creditAdd he12).onInv

theorem Chip.memOk.rollBack {c : Chip} {r : ReachId} {i : CollInv} (h : c.memOk) : (c.rollBack r i).memOk := by
  unfold Chip.rollBack
  extract_lets _ _ c1 _ c2 c3
  have hc1 : c1.memOk := h.ite h.scramble.scramble
  have hc2 : c2.memOk := hc1.onInv
  have hc3 : c3.memOk := hc2.freeSlots
  split
  · exact h
  · refine h.ite ?_
    split
    · split
      · exact hc3.declareStop.ite hc3
      · exact hc3
    · exact hc3.completeOpt.onReach fun _ hz => hz.same

theorem Chip.memOk.dropLanded {c : Chip} {r : ReachId} {i : CollInv} (h : c.memOk) : (c.dropLanded r i).memOk := by
  unfold Chip.dropLanded
  extract_lets c1
  have hc1 : c1.memOk := by
    refine h.forEach ?_
    intro _ _ hx
    split
    · exact hx.onQp
    · exact hx
  exact hc1.onInv

theorem Chip.memOk.collFail {c : Chip} {r : ReachId} {i : CollInv} {code rme : Nat} (h : c.memOk) : (c.collFail r i code rme).memOk :=
  h.ite h.onInv.dropLanded.tellAborts.rollBack

theorem Chip.memOk.lookAbort {c : Chip} {r : ReachId} {i : CollInv} (h : c.memOk) : (c.lookAbort r i).memOk :=
  h.ite (h.collFail.ite h)

theorem Chip.memOk.grantNext {c : Chip} {r : ReachId} {i : CollInv} (h : c.memOk) : (c.grantNext r i).memOk := by
  unfold Chip.grantNext
  extract_lets
  split
  · exact h
  · refine h.ite ?_
    split
    · exact h
    · exact h.collFail
    · rename_i _ _ he12
      extract_lets c1
      have hc1 : c1.memOk := (h.creditAdd he12).onInv
      split
      · exact hc1.onInv
      · exact hc1

theorem Chip.memOk.grants {c : Chip} {r : ReachId} {i : CollInv} (h : c.memOk) : (c.grants r i).memOk :=
  h.foldl fun _ _ hx => hx.grantNext

theorem Chip.memOk.makeReady {c : Chip} {r : ReachId} {i : CollInv} (h : c.memOk) : (c.makeReady r i).memOk :=
  h.ite (h.forEach fun _ _ hx => hx.memberWrite.memberWrite).onInv

theorem Chip.memOk.collEnd {c : Chip} {r : ReachId} {i : CollInv} (h : c.memOk) : (c.collEnd r i).memOk := by
  unfold Chip.collEnd
  extract_lets _ _ c1 _ c2 c3 c4
  have hc1 : c1.memOk := h.memberAdd.onInv.ite h
  have hc2 : c2.memOk := hc1.onInv
  have hc3 : c3.memOk := hc2.freeSlots
  have hc4 : c4.memOk := hc3.completeOpt
  refine h.ite ?_
  refine Chip.memOk.ite ?_ hc1
  split
  · exact hc3
  · exact hc4.onReach fun _ hy => hy.same

theorem Chip.memOk.collRetired {c : Chip} {r : ReachId} {key : Word64} {coll member status : Nat} (h : c.memOk) :
    (c.collRetired r key coll member status).memOk := by
  unfold Chip.collRetired
  split
  · exact h
  · exact (h.ite h.collFail).tellAborts.grants.rollBack.collEnd

/-! ### Packets sent -/

theorem Chip.memOk.stamp {c : Chip} {r : ReachId} (h : c.memOk) : (c.stamp r).2.memOk :=
  h.onRme

theorem Chip.memOk.sendFrt {c : Chip} {r : ReachId} {dest : FrtTo} {y : FrtSay} (h : c.memOk) : (c.sendFrt r dest y).1.memOk := by
  unfold Chip.sendFrt
  dsimp only
  split
  · exact h.stamp
  · exact h.stamp.onRtr

theorem Chip.memOk.sendAck {c : Chip} {r : ReachId} {qpn : BitVec 24} (h : c.memOk) : (c.sendAck r qpn).memOk := by
  unfold Chip.sendAck
  split
  · exact h
  · exact h.sendFrt.onQp

theorem Chip.memOk.sendNak {c : Chip} {r : ReachId} {dest : FrtTo} {code status : Nat} {msn cum : BitVec 24} (h : c.memOk) :
    (c.sendNak r dest code status msn cum).memOk :=
  h.sendFrt

theorem Chip.memOk.nakOp {c : Chip} {r : ReachId} {qpn msn : BitVec 24} {code status : Nat} (h : c.memOk) :
    (c.nakOp r qpn msn code status).memOk := by
  unfold Chip.nakOp
  split
  · exact h
  · exact h.sendNak.onQp

theorem Chip.memOk.outputLate {c : Chip} {r : ReachId} {q : Qp} {by_ : Option Submitter} {say : FrtSay} (h : c.memOk) :
    (c.outputLate r q by_ say).memOk := by
  unfold Chip.outputLate
  split
  · exact h.ite (h.onReach fun _ hy => hy.lateStart)
  · exact h

theorem Chip.memOk.windowCarries {c : Chip} {r : ReachId} {f : FrameBody} (h : c.memOk) : (c.windowCarries r f).memOk := by
  unfold Chip.windowCarries
  split
  · refine h.ite ?_
    split
    · exact h.onQp
    · exact h
  · exact h

theorem memOk_portFrame {r : ReachId} {now : Time} {p : PortId} {ending : FrameEnd} {c : Chip} (h : c.memOk) :
    (portFrame r now p ending c).memOk := by
  unfold portFrame
  dsimp only
  refine (memOk_portFrameStart h).ite ?_
  split
  · exact (memOk_portFrameStart h).windowCarries
  · exact memOk_portFrameStart h

theorem memOk_frtPacketSend {r : ReachId} {now : Time} {qpn : BitVec 24} {host : List Byte} {c : Chip} (h : c.memOk) :
    (frtPacketSend r now qpn host c).memOk := by
  unfold frtPacketSend
  dsimp only
  split
  · exact h.at
  · refine h.at.ite ?_
    split
    · exact h.at
    · split
      · exact h.at
      · refine h.at.ite ?_
        refine h.at.failOp.ite ?_
        split
        · exact h.at.memUe.failOp
        · split
          · exact h.at.sendFrt
          · exact (h.at.sendFrt.onQp.onReach fun _ hu => hu.countRuns.gaugeAdd.gaugeAdd.ite hu.countRuns.gaugeAdd).outputLate.tdc.ite
              (h.at.sendFrt.onQp.onReach fun _ hu => hu.countRuns.gaugeAdd.gaugeAdd.ite hu.countRuns.gaugeAdd).outputLate

/-! ### Packets received -/

theorem Reach.memOk.takeRefs {x : Reach} {l : List Nat} (h : x.memOk) : (x.takeRefs l).memOk :=
  h.other

theorem Chip.memOk.addWord {c d : Chip} {r : ReachId} {i off : Nat} {n v : Word64} (h : c.memOk) (hd : c.addWord r i off n = .ok (v, d)) :
    d.memOk := by
  unfold Chip.addWord at hd
  split at hd
  · cases hd
    exact h
  · dsimp only at hd
    split at hd
    · cases hd
      exact h.free.writeHost
    · split at hd
      · cases hd
      · cases hd
        exact .ite (h.onReach fun _ hx => hx.writePhys).wake h.serveWrite

theorem Chip.memOk.addClaim {c : Chip} {r : ReachId} {i off : Nat} {tag : Time} {src : Word16} {qpn : BitVec 24} (h : c.memOk) :
    (c.addClaim r i off tag src qpn).memOk := by
  unfold Chip.addClaim
  split
  · exact h
  · exact h.grantClaim

theorem Chip.memOk.creditSeen {c : Chip} {r : ReachId} {i off : Nat} (h : c.memOk) : (c.creditSeen r i off).memOk := by
  unfold Chip.creditSeen
  split
  · exact h
  · exact h.forEach fun _ _ hy => hy.onInv.lookAbort

theorem Chip.memOk.failIn {c : Chip} {r : ReachId} {qpn : BitVec 24} {o : InOp} {status : Nat} (h : c.memOk) : (c.failIn r qpn o status).memOk := by
  unfold Chip.failIn
  extract_lets c1 c2
  have hc1 : c1.memOk := h.onReach fun _ hx => hx.dropRefs
  have hc2 : c2.memOk := hc1.onQp.nakOp
  split
  · exact hc2.failOp
  · exact hc2

theorem Chip.memOk.openIn {c : Chip} {r : ReachId} {q : Qp} {p : FrtPacket} {e : OpExt} (h : c.memOk) : (c.openIn r q p e).memOk := by
  unfold Chip.openIn
  dsimp only
  split
  · exact h.failIn
  · next refs _ =>
    have href : (c.onReach r fun x => x.takeRefs refs).memOk := h.onReach fun _ hx => hx.takeRefs
    refine .ite ?_ (.ite ?_ href.onQp)
    · split
      · exact href.memUe.failIn
      · exact href.onQp
    · split
      · exact href.memUe.failIn
      · next hd => exact (href.addClaim.addWord hd).onQp.creditSeen

theorem Chip.memOk.awaitFlush {c : Chip} {r : ReachId} {x : FlushItem} (h : c.memOk) : (c.awaitFlush r x).memOk :=
  h.onRme

theorem Chip.memOk.landBarge {c : Chip} {r : ReachId} {qpn : BitVec 24} {p : FrtPacket} {e : OpExt} (h : c.memOk) :
    (c.landBarge r qpn p e).memOk := by
  unfold Chip.landBarge
  dsimp only
  split
  · exact h
  · split
    · exact h
    · refine h.ite ?_
      refine h.failIn.ite ?_
      split
      · refine Chip.memOk.chunkLanded ?_
        refine Chip.memOk.ite ?_ ?_
        · refine Chip.memOk.awaitFlush ?_
          refine Chip.memOk.onQp ?_
          split
          · exact (h.onReach fun _ hv => hv.gaugeAdd).claimSlot.landChunk
          · exact (h.onReach fun _ hv => hv.gaugeAdd).storeRuns.wake
        · refine Chip.memOk.onQp ?_
          split
          · exact (h.onReach fun _ hv => hv.gaugeAdd).claimSlot.landChunk
          · exact (h.onReach fun _ hv => hv.gaugeAdd).storeRuns.wake
      · refine Chip.memOk.ite ?_ ?_
        · refine Chip.memOk.awaitFlush ?_
          refine Chip.memOk.onQp ?_
          split
          · exact (h.onReach fun _ hv => hv.gaugeAdd).claimSlot.landChunk
          · exact (h.onReach fun _ hv => hv.gaugeAdd).storeRuns.wake
        · refine Chip.memOk.onQp ?_
          split
          · exact (h.onReach fun _ hv => hv.gaugeAdd).claimSlot.landChunk
          · exact (h.onReach fun _ hv => hv.gaugeAdd).storeRuns.wake

theorem Chip.memOk.arrive {c : Chip} {r : ReachId} {qpn : BitVec 24} {p : FrtPacket} {e : OpExt} (h : c.memOk) : (c.arrive r qpn p e).memOk := by
  unfold Chip.arrive
  split
  · exact h
  · exact (h.ite h.openIn).landBarge

theorem Chip.memOk.takeRecv {c : Chip} {r : ReachId} {qpn : BitVec 24} {p : FrtPacket} {e : OpExt} (h : c.memOk) :
    (c.takeRecv r qpn p e).1.memOk := by
  unfold Chip.takeRecv
  split
  · exact h
  · split
    · exact h.nakOp
    · exact h.onQp.nakOp.failOp.iteFst h.onQp.onQp

theorem Chip.memOk.releaseHeld {c : Chip} {r : ReachId} {qpn : BitVec 24} (h : c.memOk) : (c.releaseHeld r qpn).memOk := by
  unfold Chip.releaseHeld
  split
  · exact h
  · extract_lets _ c1
    have hc1 : c1.memOk := h.onQp
    refine hc1.forEach ?_
    intro _ _ hy
    split
    · exact hy.landBarge
    · exact hy

theorem Chip.memOk.advanceRcv {r : ReachId} {qpn : BitVec 24} {n : Nat} {c : Chip} (h : c.memOk) : (Chip.advanceRcv r qpn n c).memOk := by
  induction n generalizing c with
  | zero => exact h
  | succ n ih =>
    unfold Chip.advanceRcv
    dsimp only
    split
    · exact h
    · refine .ite h ?_
      split
      · exact ih h.onQp
      · split
        · exact .ite (ih h.takeRecv.onQp.onQp.landBarge) h.takeRecv.onQp.onQp
        · exact h

theorem Chip.memOk.dropFrt {c : Chip} {r : ReachId} {f : Rme → Rme} (h : c.memOk) : (c.dropFrt r f).memOk :=
  h.onRme

theorem Chip.memOk.untrusted {c : Chip} {r : ReachId} {q : Qp} {p : FrtPacket} {bs : List Byte} (h : c.memOk) : (c.untrusted r q p bs).memOk := by
  unfold Chip.untrusted
  split
  · exact h.storeRuns
  · exact h

theorem Chip.memOk.openFrt {c : Chip} {r : ReachId} {q : Qp} {p : FrtPacket} (h : c.memOk) : (c.openFrt r q p).1.memOk := by
  unfold Chip.openFrt
  refine (h.onRme.iteFst h).iteFst ?_
  split
  · exact h.onReach fun _ hy => hy.other
  · exact h.iteFst h.untrusted.onRme

theorem Chip.memOk.receive {c : Chip} {r : ReachId} {p : FrtPacket} {type : BitVec 4} (h : c.memOk) : (c.receive r p type).1.memOk := by
  unfold Chip.receive
  dsimp only
  refine h.onRme.dropFrt.iteFst ?_
  refine h.onRme.dropFrt.iteFst ?_
  refine h.onRme.dropFrt.iteFst ?_
  split
  · split
    · exact h.onRme.sendNak
    · exact h.onRme
  · refine Chip.memOk.iteFst ?_ ?_
    · split
      · exact h.onRme.sendNak
      · exact h.onRme
    · refine Chip.memOk.iteFst ?_ ?_
      · refine Chip.memOk.onQp ?_
        split
        · exact h.onRme.sendNak
        · exact h.onRme
      · refine h.onRme.dropFrt.iteFst ?_
        refine Chip.memOk.iteFst ?_ h.onRme.openFrt.onQp
        split
        · exact h.onRme.sendNak
        · exact h.onRme

theorem Chip.memOk.dupPacket {c : Chip} {r : ReachId} {q : Qp} {p : FrtPacket} (h : c.memOk) : (c.dupPacket r q p).memOk := by
  unfold Chip.dupPacket
  extract_lets c1
  have hc1 : c1.memOk := h.onQp
  split
  · exact hc1.sendNak.ite hc1.sendAck
  · exact hc1.sendAck

theorem Chip.memOk.accept {c : Chip} {r : ReachId} {q : Qp} {p : FrtPacket} {cls : RxClass} (h : c.memOk) : (c.accept r q p cls).memOk :=
  h.onQp

theorem Chip.memOk.afterPacket {c : Chip} {r : ReachId} {qpn : BitVec 24} {p : FrtPacket} {cls : RxClass} (h : c.memOk) :
    (c.afterPacket r qpn p cls).memOk := by
  unfold Chip.afterPacket
  extract_lets c1 c2
  have hc1 : c1.memOk := h.advanceRcv.releaseHeld
  have hc2 : c2.memOk := hc1.onQp
  split
  · exact hc2.sendAck.ite hc2
  · exact hc2

theorem Chip.memOk.opArrives {c : Chip} {r : ReachId} {q : Qp} {p : FrtPacket} {e : OpExt} (h : c.memOk) : (c.opArrives r q p e).memOk := by
  unfold Chip.opArrives
  dsimp only
  split
  · exact h.dropFrt
  · exact h.dupPacket
  · exact h.dropFrt.ite (h.dropFrt.ite ((h.takeRecv.ite h.takeRecv.onQp.accept.onQp.landBarge.afterPacket).ite
      (h.accept.onQp.onQp.afterPacket.ite h.accept.onQp.arrive.afterPacket)))

theorem memOk_frtDataRx {r : ReachId} {now : Time} {p : FrtPacket} {c : Chip} (h : c.memOk) : (frtDataRx r now p c).memOk := by
  unfold frtDataRx
  extract_lets c1
  have hc1 : c1.memOk := h.at
  refine hc1.ite ?_
  split
  · rename_i _ _ _ _ he04
    split
    · exact (Chip.memOk.of_fst hc1.receive he04).opArrives.ite (Chip.memOk.of_fst hc1.receive he04).dropFrt
    · exact (Chip.memOk.of_fst hc1.receive he04).dropFrt
  · rename_i _ _ he02
    exact Chip.memOk.of_fst hc1.receive he02

theorem memOk_frtReadReqRx {r : ReachId} {now : Time} {p : FrtPacket} {c : Chip} (h : c.memOk) : (frtReadReqRx r now p c).memOk := by
  unfold frtReadReqRx
  extract_lets c1
  have hc1 : c1.memOk := h.at
  refine hc1.ite ?_
  split
  · rename_i _ _ _ _ he04
    split
    · exact (Chip.memOk.of_fst hc1.receive he04).opArrives.ite (Chip.memOk.of_fst hc1.receive he04).dropFrt
    · exact (Chip.memOk.of_fst hc1.receive he04).dropFrt
  · rename_i _ _ he02
    exact Chip.memOk.of_fst hc1.receive he02

theorem Chip.memOk.landResp {c : Chip} {r : ReachId} {qpn : BitVec 24} {p : FrtPacket} {e : RespExt} (h : c.memOk) :
    (c.landResp r qpn p e).memOk := by
  unfold Chip.landResp
  split
  · exact h
  · split
    · exact h
    · refine h.ite ?_
      refine h.failOp.ite ?_
      extract_lets c1 _ _ _ c2
      have hc1 : c1.memOk := h.storeRuns.wake.onReach fun _ hz => hz.gaugeAdd
      have hc2 : c2.memOk := hc1.onQp
      exact hc2.awaitFlush.ite hc2

theorem memOk_frtReadRespRx {r : ReachId} {now : Time} {p : FrtPacket} {c : Chip} (h : c.memOk) : (frtReadRespRx r now p c).memOk := by
  unfold frtReadRespRx
  dsimp only
  refine h.at.ite ?_
  split
  · rename_i _ _ _ _ he04
    split
    · split
      · exact (Chip.memOk.of_fst h.at.receive he04).dropFrt
      · exact (Chip.memOk.of_fst h.at.receive he04).dupPacket
      · exact (Chip.memOk.of_fst h.at.receive he04).dropFrt.ite (Chip.memOk.of_fst h.at.receive he04).accept.landResp.afterPacket
    · exact (Chip.memOk.of_fst h.at.receive he04).dropFrt
  · rename_i _ _ he02
    exact Chip.memOk.of_fst h.at.receive he02

theorem Chip.memOk.endResps {c : Chip} {r : ReachId} {qpn : BitVec 24} (h : c.memOk) : (c.endResps r qpn).memOk := by
  unfold Chip.endResps
  split
  · exact h
  · exact (h.onReach fun _ hy => hy.dropRefs).onQp

theorem memOk_frtAckRx {r : ReachId} {now : Time} {p : FrtPacket} {c : Chip} (h : c.memOk) : (frtAckRx r now p c).memOk := by
  unfold frtAckRx
  extract_lets c1
  have hc1 : c1.memOk := h.at
  refine hc1.ite ?_
  split
  · rename_i _ _ _ _ he04
    split
    · exact (Chip.memOk.of_fst hc1.receive he04).onQp.endResps
    · exact (Chip.memOk.of_fst hc1.receive he04).dropFrt
  · rename_i _ _ he02
    exact Chip.memOk.of_fst hc1.receive he02

theorem memOk_frtNakRx {r : ReachId} {now : Time} {p : FrtPacket} {c : Chip} (h : c.memOk) : (frtNakRx r now p c).memOk := by
  unfold frtNakRx
  extract_lets c1
  have hc1 : c1.memOk := h.at
  refine hc1.ite ?_
  split
  · rename_i _ _ _ _ he04
    split
    · extract_lets c2
      have hc2 : c2.memOk := (Chip.memOk.of_fst hc1.receive he04).onQp.endResps
      split
      · exact hc2
      · exact hc2.failOp.ite (hc2.failOp.ite ((hc2.onQp.onReach fun _ hw => hw.gaugeAdd).ite hc2))
    · exact (Chip.memOk.of_fst hc1.receive he04).dropFrt
  · rename_i _ _ he02
    exact Chip.memOk.of_fst hc1.receive he02

/-! ### Completions and timers of the remote-memory engine -/

theorem Chip.memOk.toReset {c : Chip} {r : ReachId} {qpn : BitVec 24} (h : c.memOk) : (c.toReset r qpn).memOk := by
  unfold Chip.toReset
  split
  · exact h
  · exact (h.onReach fun _ hy => hy.dropRefs).onQp

theorem Chip.memOk.retired {c : Chip} {r : ReachId} {qpn : BitVec 24} (h : c.memOk) : (c.retired r qpn).memOk := by
  unfold Chip.retired
  split
  · exact h
  · refine h.ite ?_
    split
    · exact (h.onReach fun _ hz => hz.dropRefs).onRme.complete
    · refine Chip.memOk.ite ?_ h
      split
      · exact h.toReset.complete
      · exact h

theorem Chip.memOk.xposFail {c : Chip} {r : ReachId} {f : XposFlight} (h : c.memOk) : (c.xposFail r f).memOk := by
  unfold Chip.xposFail
  extract_lets c1
  have hc1 : c1.memOk := h.onReach fun _ hx => hx.same
  split
  · exact hc1.declareStop.ite hc1
  · exact hc1

theorem Chip.memOk.xposPump {r : ReachId} {n : Nat} {c : Chip} {f : XposFlight} (h : c.memOk) : (Chip.xposPump r n c f).memOk := by
  induction n generalizing c with
  | zero => exact h
  | succ n ih =>
    unfold Chip.xposPump
    dsimp only
    split
    · refine .ite h ?_
      split
      · exact h
      · split
        · exact h.xposFail
        · split
          · exact h
          · exact h.xposFail
          · next hd => exact ih ((h.submit hd).onReach fun _ hx => hx.same)
    · exact h

theorem Chip.memOk.xposRetired {c : Chip} {r : ReachId} {f : XposFlight} {status : Nat} (h : c.memOk) : (c.xposRetired r f status).memOk := by
  unfold Chip.xposRetired
  refine h.xposFail.ite ?_
  extract_lets c1 c2
  have hc1 : c1.memOk := h.onReach fun _ hx => hx.same
  have hc2 : c2.memOk := hc1.xposPump
  split
  · exact (hc2.onReach fun _ hy => hy.same).ite hc2
  · exact hc2

theorem Chip.memOk.xposLocal {c : Chip} {r : ReachId} {f : XposFlight} {j : XposJob} (h : c.memOk) : (c.xposLocal r f j).memOk := by
  unfold Chip.xposLocal
  extract_lets
  refine Chip.memOk.ite ?_ ?_
  · refine Chip.memOk.xposFail ?_
    refine h.forEachFst ?_
    intro _ _ hx
    split
    · refine hx.iteFst ?_
      split
      · exact hx.memUe
      · exact (hx.onReach fun _ hw => hw.countRuns).storeRuns
    · exact hx
  · split
    · refine Chip.memOk.xposFail ?_
      refine Chip.memOk.memUe ?_
      refine h.forEachFst ?_
      intro _ _ hy
      split
      · refine hy.iteFst ?_
        split
        · exact hy.memUe
        · exact (hy.onReach fun _ hv => hv.countRuns).storeRuns
      · exact hy
    · refine Chip.memOk.wake ?_
      refine Chip.memOk.onTile ?_ fun _ hy => hy.signalAdd
      refine h.forEachFst ?_
      intro _ _ hy
      split
      · refine hy.iteFst ?_
        split
        · exact hy.memUe
        · exact (hy.onReach fun _ hv => hv.countRuns).storeRuns
      · exact hy

theorem Chip.memOk.xposStart {c : Chip} {r : ReachId} {f : XposFlight} (h : c.memOk) : (c.xposStart r f).1.memOk := by
  unfold Chip.xposStart
  split
  · exact h
  · exact h.iteFst (h.iteFst (h.iteFst ((h.onReach fun _ hy => hy.same).xposLocal.iteFst
      (h.iteFst ((h.onReach fun _ hy => hy.same).onReach fun _ hy => hy.same).xposPump))))

theorem memOk_xposSignalPoll {r : ReachId} {now : Time} {c : Chip} (h : c.memOk) : (xposSignalPoll r now c).memOk := by
  unfold xposSignalPoll
  extract_lets c1 c2
  have hc1 : c1.memOk := h.at
  have hc2 : c2.memOk := hc1.forEach fun _ _ hx => hx.xposPump
  refine hc1.ite ?_
  refine hc2.forEach ?_
  intro _ _ hx
  split
  · exact hx
  · exact hx.forEachFst fun _ _ hz => hz.xposStart.iteFst hz

theorem Chip.memOk.visOne {c : Chip} {r : ReachId} {qpn msn : BitVec 24} (h : c.memOk) : (c.visOne r qpn msn).memOk := by
  unfold Chip.visOne
  dsimp only
  split
  · exact h
  · split
    · exact h
    · refine .ite h (.ite (.ite h ?_) ?_)
      · split
        · exact h.memUe.failIn
        · next hd => exact (h.addClaim.addWord hd).onQp.creditSeen
      · split
        · exact h.onQp.onQp
        · exact h.onQp

theorem Chip.memOk.passVisible {r : ReachId} {qpn : BitVec 24} {n : Nat} {c : Chip} (h : c.memOk) : (Chip.passVisible r qpn n c).memOk := by
  induction n generalizing c with
  | zero => exact h
  | succ n ih =>
    unfold Chip.passVisible
    split
    · exact h
    · split
      · exact .ite (ih (h.onReach fun _ hx => hx.dropRefs).onQp) h
      · exact h

theorem Chip.memOk.targetVisible {c : Chip} {r : ReachId} {qpn : BitVec 24} (h : c.memOk) : (c.targetVisible r qpn).memOk := by
  unfold Chip.targetVisible
  split
  · exact h
  · extract_lets c1 c2
    have hc1 : c1.memOk := h.forEach fun _ _ hy => hy.visOne
    have hc2 : c2.memOk := hc1.passVisible
    split
    · exact hc2.sendAck.ite hc2
    · exact hc2

theorem Chip.memOk.tellOp {c : Chip} {r : ReachId} {q : Qp} {o : RmeOp} {status : Nat} (h : c.memOk) : (c.tellOp r q o status).memOk := by
  unfold Chip.tellOp
  extract_lets c1
  have hc1 : c1.memOk := h.rmeTrace.opGauge
  split
  · exact hc1.collRetired
  · exact hc1.xposRetired
  · exact hc1.reportEntry

theorem Chip.memOk.requestDone {c : Chip} {r : ReachId} {qpn : BitVec 24} (h : c.memOk) : (c.requestDone r qpn).memOk := by
  unfold Chip.requestDone
  split
  · exact h
  · split
    · exact h
    · split
      · exact h
      · split
        · exact h.memUe.failOp
        · exact h.onQp.tellOp.retired

theorem Chip.memOk.receiveDone {c : Chip} {r : ReachId} {qpn : BitVec 24} (h : c.memOk) : (c.receiveDone r qpn).memOk := by
  unfold Chip.receiveDone
  split
  · exact h
  · split
    · exact h
    · split
      · exact h
      · exact h.onQp.rmeTrace.opGauge.reportEntry.retired

theorem memOk_rmeCompletion {r : ReachId} {now : Time} {qpn : BitVec 24} {which : CompletionOf} {c : Chip} (h : c.memOk) :
    (rmeCompletion r now qpn which c).memOk := by
  unfold rmeCompletion
  extract_lets c1
  have hc1 : c1.memOk := h.at
  refine hc1.ite ?_
  split
  · exact hc1.requestDone
  · exact hc1.receiveDone
  · exact hc1.targetVisible

theorem Chip.memOk.retryExceeded {c : Chip} {r : ReachId} {q : Qp} (h : c.memOk) : (c.retryExceeded r q).memOk :=
  (h.onReach fun _ hx => hx.dropRefs).onQp.completeOpt

theorem memOk_retransmitTimer {r : ReachId} {now : Time} {qpn : BitVec 24} {c : Chip} (h : c.memOk) : (retransmitTimer r now qpn c).memOk := by
  unfold retransmitTimer
  extract_lets c1
  have hc1 : c1.memOk := h.at
  split
  · exact hc1
  · split
    · exact hc1
    · exact hc1.ite (hc1.onQp.ite (hc1.ite (hc1.retryExceeded.ite hc1.onQp)))

theorem memOk_ackDelayTimer {r : ReachId} {now : Time} {qpn : BitVec 24} {c : Chip} (h : c.memOk) : (ackDelayTimer r now qpn c).memOk := by
  unfold ackDelayTimer
  extract_lets c1
  have hc1 : c1.memOk := h.at
  split
  · exact hc1
  · split
    · exact hc1.sendAck.ite hc1
    · exact hc1

theorem memOk_rnrRetry {r : ReachId} {now : Time} {qpn : BitVec 24} {c : Chip} (h : c.memOk) : (rnrRetry r now qpn c).memOk := by
  unfold rnrRetry
  extract_lets c1
  have hc1 : c1.memOk := h.at
  split
  · exact hc1
  · split
    · exact hc1
    · exact hc1.ite (hc1.failOp.ite hc1.onQp)

theorem memOk_qpDrainDone {r : ReachId} {now : Time} {qpn : BitVec 24} {c : Chip} (h : c.memOk) : (qpDrainDone r now qpn c).memOk := by
  unfold qpDrainDone
  extract_lets c1
  have hc1 : c1.memOk := h.at
  split
  · exact hc1
  · exact hc1.ite (hc1.toReset.ite hc1.onQp).completeOpt

theorem memOk_hostFlushRead {r : ReachId} {now : Time} {c : Chip} (h : c.memOk) : (hostFlushRead r now c).memOk :=
  h.at.ite h.at.onRme.emit

theorem Chip.memOk.flushed {c : Chip} {r : ReachId} {x : FlushItem} (h : c.memOk) : (c.flushed r x).memOk :=
  h.onQp

theorem memOk_hostFlushDone {r : ReachId} {now : Time} {c : Chip} (h : c.memOk) : (hostFlushDone r now c).memOk := by
  unfold hostFlushDone
  extract_lets c1
  have hc1 : c1.memOk := h.at
  split
  · exact hc1
  · exact hc1.onRme.forEach fun _ _ hy => hy.flushed

theorem Chip.memOk.flushLost {c : Chip} {r : ReachId} {x : FlushItem} (h : c.memOk) : (c.flushLost r x).memOk := by
  unfold Chip.flushLost
  split
  · exact h
  · refine Chip.memOk.ite ?_ ?_
    · split
      · exact h.failIn.ite h
      · exact h
    · split
      · exact h.failOp.ite h
      · exact h

theorem Chip.memOk.flushesLost {c : Chip} {r : ReachId} (h : c.memOk) : (c.flushesLost r).memOk :=
  h.onRme.forEach fun _ _ hx => hx.flushLost

theorem Chip.memOk.recvsLost {c : Chip} {r : ReachId} {f : FnId} (h : c.memOk) : (c.recvsLost r f).memOk := by
  unfold Chip.recvsLost
  refine h.forEach ?_
  intro _ _ hx
  extract_lets _ c1
  have hc1 : c1.memOk := hx.onQp
  split
  · exact hx
  · exact hc1.failOp.ite hc1

theorem memOk_qpCreate {ref : CmdRef} {p : QpParams} {c : Chip} (h : c.memOk) : (qpCreate ref p c).memOk := by
  unfold qpCreate
  extract_lets
  refine h.complete.ite ?_
  split
  · exact h.complete
  · exact h.onRme.complete

theorem memOk_qpModify {ref : CmdRef} {m : QpModify} {c : Chip} (h : c.memOk) : (qpModify ref m c).memOk := by
  unfold qpModify
  extract_lets
  refine h.complete.ite ?_
  split
  · exact h.complete
  · refine h.complete.ite ?_
    refine h.complete.ite ?_
    refine h.onQp.complete.ite ?_
    split
    · exact h.complete.ite (h.complete.ite (h.complete.ite h.onQp.complete))
    · exact h.complete.ite (h.complete.ite (h.complete.ite h.onQp.complete))
    · exact h.onQp
    · exact h.onQp
    · exact h.onQp
    · exact h.toReset.complete
    · exact h.complete.ite h.onQp.retired
    · exact h.complete

theorem Chip.memOk.qpKill {c : Chip} {r : ReachId} {q : Qp} {d : Option CmdRef} (h : c.memOk) : (c.qpKill r q d).memOk :=
  (h.onReach fun _ hx => hx.dropRefs).onQp.completeOpt.retired

theorem memOk_qpDestroy {ref : CmdRef} {qpn : BitVec 24} {c : Chip} (h : c.memOk) : (qpDestroy ref qpn c).memOk := by
  unfold qpDestroy
  extract_lets
  refine h.complete.ite ?_
  split
  · exact h.complete
  · exact h.complete.ite (h.complete.ite h.qpKill)

theorem memOk_mooringRegister {ref : CmdRef} {r : ReachId} {p : MooringParams} {c : Chip} (h : c.memOk) : (mooringRegister ref r p c).memOk := by
  unfold mooringRegister
  extract_lets
  refine h.complete.ite ?_
  refine h.complete.ite ?_
  refine h.complete.ite ?_
  split
  · exact h.complete
  · refine h.complete.ite ?_
    split
    · exact h.complete
    · exact h.onRme.complete

theorem Chip.memOk.releaseMoor {c : Chip} {r : ReachId} {i : Nat} (h : c.memOk) : (c.releaseMoor r i).memOk := by
  unfold Chip.releaseMoor
  split
  · exact h
  · split
    · exact h
    · exact h.ite h.onRme.complete

theorem memOk_mooringWithdraw {ref : CmdRef} {key : Word32} {c : Chip} (h : c.memOk) : (mooringWithdraw ref key c).memOk := by
  unfold mooringWithdraw
  extract_lets
  refine h.complete.ite ?_
  split
  · exact h.complete
  · exact h.complete.ite (h.complete.ite h.onRme.releaseMoor)

theorem memOk_mooringRelease {r : ReachId} {now : Time} {i : BitVec 15} {c : Chip} (h : c.memOk) : (mooringRelease r now i c).memOk :=
  h.at.releaseMoor

/-! ### Collective invocations -/

theorem Chip.memOk.collWake {c : Chip} {r : ReachId} {i : CollInv} (h : c.memOk) : (c.collWake r i).memOk := by
  unfold Chip.collWake
  extract_lets c1 c2 c3 c4
  have hc1 : c1.memOk := h.collFail.ite h
  have hc2 : c2.memOk := hc1.makeReady
  have hc3 : c3.memOk := hc2.lookAbort
  have hc4 : c4.memOk := hc3.grants.ite hc3.tellAborts.rollBack
  exact hc4.collEnd

theorem Chip.memOk.startInv {c : Chip} {r : ReachId} {i : CollInv} (h : c.memOk) : (c.startInv r i).memOk :=
  (h.onReach fun _ hx => hx.same).collWake

theorem Chip.memOk.replaceInv {c : Chip} {r : ReachId} {i j : CollInv} (h : c.memOk) : (c.replaceInv r i j).memOk :=
  (h.onReach fun _ hx => hx.same).startInv

theorem Chip.memOk.nextRound {c : Chip} {r : ReachId} {i : CollInv} (h : c.memOk) : (c.nextRound r i).memOk := by
  unfold Chip.nextRound
  split
  · exact h
  · split
    · exact h.replaceInv.ite h
    · exact h

theorem Chip.memOk.itemSent {c : Chip} {r : ReachId} {i : CollInv} {x : CollItem} (h : c.memOk) : (c.itemSent r i x).memOk :=
  h.onInv

theorem Chip.memOk.sendRemote {c : Chip} {r : ReachId} {i : CollInv} {x : CollItem} {entry : Nat} {tail : List Byte} (h : c.memOk) :
    (c.sendRemote r i x entry tail).memOk := by
  unfold Chip.sendRemote
  split
  · exact h.collFail
  · extract_lets
    split
    · exact h
    · exact h.collFail
    · rename_i _ _ he12
      exact (h.submit he12).itemSent

theorem Chip.memOk.sendMember {c : Chip} {r : ReachId} {i : CollInv} {x : CollItem} {entry : Nat} {bs tail : List Byte} (h : c.memOk) :
    (c.sendMember r i x entry bs tail).memOk := by
  unfold Chip.sendMember
  split
  · exact h
  · exact h.claimSlot.landChunk.itemSent.chunkLanded

theorem memOk_collChunkSend {r : ReachId} {now : Time} {key : Word64} {coll member dest : Nat} {c : Chip} (h : c.memOk) :
    (collChunkSend r now key coll member dest c).memOk := by
  unfold collChunkSend
  dsimp only
  split
  · exact h.at
  · refine h.at.ite ?_
    split
    · exact h.at.collWake.nextRound
    · refine h.at.collWake.nextRound.ite ?_
      split
      · exact h.at.collWake.nextRound.ite (h.at.collWake.nextRound.sendMember.ite h.at.collWake.nextRound.sendRemote)
      · exact h.at.collWake.nextRound

theorem Chip.memOk.noteRefusal {c : Chip} {r : ReachId} {i : CollInv} {code : Nat} (h : c.memOk) : (c.noteRefusal r i code).memOk :=
  h.onReach fun _ hx => hx.same

theorem memOk_collChunkReceive {r : ReachId} {now : Time} {key : Word64} {coll member item : Nat} {c : Chip} (h : c.memOk) :
    (collChunkReceive r now key coll member item c).memOk := by
  unfold collChunkReceive
  dsimp only
  split
  · exact h.at
  · refine h.at.ite ?_
    split
    · exact h.at.collWake.nextRound
    · split
      · refine (h.at.collWake.nextRound.claimSlot.ite h.at.collWake.nextRound).ite ?_
        split
        · exact (h.at.collWake.nextRound.claimSlot.ite h.at.collWake.nextRound).memUe.collFail
        · split
          · exact ((h.at.collWake.nextRound.claimSlot.ite h.at.collWake.nextRound).loadOperand.ite
              (h.at.collWake.nextRound.claimSlot.ite h.at.collWake.nextRound)).noteRefusal.collFail
          · refine Chip.memOk.collEnd ?_
            refine Chip.memOk.grants ?_
            refine Chip.memOk.ite ?_ ?_
            · refine Chip.memOk.freeSlots ?_
              refine Chip.memOk.onInv ?_
              split
              · exact ((h.at.collWake.nextRound.claimSlot.ite h.at.collWake.nextRound).loadOperand.ite
                  (h.at.collWake.nextRound.claimSlot.ite h.at.collWake.nextRound)).memberWrite.memberWrite.onQp
              · exact ((h.at.collWake.nextRound.claimSlot.ite h.at.collWake.nextRound).loadOperand.ite
                  (h.at.collWake.nextRound.claimSlot.ite h.at.collWake.nextRound)).memberWrite.memberWrite
            · refine Chip.memOk.onInv ?_
              split
              · exact ((h.at.collWake.nextRound.claimSlot.ite h.at.collWake.nextRound).loadOperand.ite
                  (h.at.collWake.nextRound.claimSlot.ite h.at.collWake.nextRound)).memberWrite.memberWrite.onQp
              · exact ((h.at.collWake.nextRound.claimSlot.ite h.at.collWake.nextRound).loadOperand.ite
                  (h.at.collWake.nextRound.claimSlot.ite h.at.collWake.nextRound)).memberWrite.memberWrite
      · exact h.at.collWake.nextRound

theorem memOk_collTimeout {r : ReachId} {now : Time} {key : Word64} {coll member : Nat} {c : Chip} (h : c.memOk) :
    (collTimeout r now key coll member c).memOk := by
  unfold collTimeout
  extract_lets c1
  have hc1 : c1.memOk := h.at
  split
  · exact hc1
  · refine hc1.ite ?_
    extract_lets c2
    have hc2 : c2.memOk := hc1.collWake.nextRound
    split
    · exact hc2
    · exact hc2.ite hc2.tdc.collFail

theorem memOk_collStart {ref : CmdRef} {p : CollStart} {c : Chip} (h : c.memOk) : (collStart ref p c).memOk := by
  unfold collStart
  dsimp only
  split
  · exact h.complete
  · split
    · exact h.complete
    · refine h.complete.ite ?_
      split
      · exact h.complete
      · exact h.complete.ite h.startInv

theorem Chip.memOk.adderTested {c : Chip} {r : ReachId} {wharf pass full : Bool} (h : c.memOk) : (c.adderTested r wharf pass full).memOk := by
  unfold Chip.adderTested
  dsimp only
  refine .ite (h.onReach fun x hx => hx.withColl ?_) (.ite (h.onReach fun x hx => hx.withColl ?_).health
    ((h.onReach fun x hx => hx.withColl ?_).health.forEach fun _ _ hc => hc.collFail))
  all_goals cases wharf <;> rfl

theorem memOk_adderTestBurst {r : ReachId} {now : Time} {wharf pass : Bool} {c : Chip} (h : c.memOk) : (adderTestBurst r now wharf pass c).memOk :=
  h.at.ite (h.at.onReach fun _ hx => hx.other).adderTested

/-! ### Cipher requests -/

theorem Chip.memOk.answer {c : Chip} {p : ReqPath} {status : Nat} {result : Word64} {data : List Byte} (h : c.memOk) :
    (c.answer p status result data).memOk := by
  unfold Chip.answer
  split
  · exact h.hostWrite.complete
  · exact h.emit

theorem Chip.memOk.onEngine {c : Chip} {e : BitVec 3} {f : CipherEngine → CipherEngine} (h : c.memOk) : (c.onEngine e f).memOk :=
  Chip.memOk.dite (fun _ => h.onReach fun _ hy => hy.other) fun _ => h.other

theorem Chip.memOk.putCtx {c : Chip} {q : CipherReq} {x : CipherCtx} (h : c.memOk) : (c.putCtx q x).memOk :=
  h.onEngine

theorem Chip.memOk.cipherWrite {c : Chip} {f : FnId} {q : CipherReq} {runs : List Run} {addr : Word64} {bs : List Byte} (h : c.memOk) :
    (c.cipherWrite f q runs addr bs).memOk :=
  h.hostWrite.ite h.writeRuns

theorem Chip.memOk.cipherRun {c : Chip} {p : ReqPath} {f : FnId} {q : CipherReq} {d : CipherData} {x : CipherCtx} {src dst tag : List Run}
    (h : c.memOk) : (c.cipherRun p f q d x src dst tag).memOk := by
  unfold Chip.cipherRun
  extract_lets _ _ _ _ _ c1
  have hc1 : c1.memOk := h.cipherWrite
  exact hc1.putCtx.answer.ite (hc1.cipherWrite.putCtx.answer.ite (hc1.putCtx.answer.ite hc1.putCtx.answer))

theorem Chip.memOk.cipherSave {c : Chip} {p : ReqPath} {f : FnId} {q : CipherReq} {d : CipherData} {src dst : List Run} (h : c.memOk) :
    (c.cipherSave p f q d src dst).memOk := by
  unfold Chip.cipherSave
  extract_lets
  split
  · exact h.answer
  · refine h.cipherWrite.answer.ite ?_
    refine h.answer.ite ?_
    split
    · exact h.answer
    · split
      · exact h.answer
      · exact h.putCtx.answer

theorem Chip.memOk.cipher {c : Chip} {p : ReqPath} {q : CipherReq} {d : CipherData} (h : c.memOk) : (c.cipher p q d).memOk := by
  unfold Chip.cipher
  extract_lets
  split
  · exact h.answer
  · refine h.answer.ite ?_
    split
    · exact h.answer
    · exact h.xltFault.ite h.xltFault.answer
    · exact h.answer.ite (h.cipherSave.ite h.cipherRun)

/-! ### Site tables -/

theorem Reach.memOk.putEntry {x : Reach} {table : Nat} {port : PortId} {i : Nat} {b : List Byte} (h : x.memOk) : (x.putEntry table port i b).memOk :=
  h.other.ite (h.other.ite h.onMac)

theorem Chip.memOk.onSite {c : Chip} {r : ReachId} {f : SiteCopy → SiteCopy} (h : c.memOk) : (c.onSite r f).memOk :=
  h.other

theorem Chip.memOk.configWrite {c : Chip} {path : RegPath} {t : ConfigTable} (h : c.memOk) : (c.configWrite path t).2.2.memOk := by
  unfold Chip.configWrite
  dsimp only
  split
  · exact h
  · split
    · exact h
    · split
      · exact h
      · split
        · exact h
        · split
          · exact h
          · exact h.forEach fun _ _ hu => hu.log.forEach fun _ _ h6 => (h6.onReach fun _ h7 => h7.putEntry).onSite

/-! ### Rings -/

theorem Chip.memOk.onRing {c : Chip} {f : FnId} {ring : BitVec 8} {g : HostRing → HostRing} (h : c.memOk) : (c.onRing f ring g).memOk :=
  h.onFn

theorem Chip.memOk.countRing {c : Chip} {f : FnId} {ring : BitVec 8} {idx : Nat} (h : c.memOk) : (c.countRing f ring idx).memOk :=
  h.onFn

theorem Chip.memOk.readIndex {c : Chip} {f : FnId} {ring : BitVec 8} (h : c.memOk) : (c.readIndex f ring).memOk := by
  unfold Chip.readIndex
  split
  · exact h
  · exact h.onRing.ite h.onRing.emit

theorem Chip.memOk.ringFails {c : Chip} {f : FnId} {ring : BitVec 8} (h : c.memOk) : (c.ringFails f ring).memOk := by
  unfold Chip.ringFails
  split
  · exact h
  · exact h.ringError.postEvent

theorem Chip.memOk.fetch {c : Chip} {f : FnId} {ring : BitVec 8} (h : c.memOk) : (c.fetch f ring).memOk := by
  unfold Chip.fetch
  split
  · exact h
  · exact h.ite h.onRing.emit

theorem Chip.memOk.fetchAll {c : Chip} {f : FnId} (h : c.memOk) : (c.fetchAll f).memOk :=
  h.forEach fun _ _ hx => hx.fetch

theorem memOk_doorbell {f : FnId} {ring : BitVec 8} {c : Chip} (h : c.memOk) : (doorbell f ring c).memOk := by
  unfold doorbell
  refine h.ite ?_
  extract_lets drop
  have hdrop : drop.memOk := h.countRing
  split
  · exact hdrop
  · exact hdrop.ite h.readIndex

theorem Chip.memOk.drainWaiting {n : Nat} {c : Chip} {f : FnId} {ring : BitVec 8} (h : c.memOk) : (Chip.drainWaiting n c f ring).memOk := by
  induction n generalizing c with
  | zero => exact h
  | succ n ih =>
    unfold Chip.drainWaiting
    split
    · exact h
    · split
      · exact h
      · exact .ite (ih h.postNow) h

theorem Chip.memOk.roomRead {c : Chip} {f : FnId} {ring : BitVec 8} {consumed : Word32} (h : c.memOk) : (c.roomRead f ring consumed).memOk := by
  unfold Chip.roomRead
  split
  · exact h
  · exact h.onRing.drainWaiting.fetchAll

theorem Chip.memOk.readBack {c : Chip} {f : FnId} {ring : BitVec 8} (h : c.memOk) : (c.readBack f ring).memOk := by
  unfold Chip.readBack
  split
  · exact h
  · exact h.onRing.readIndex.ite h.onRing

theorem memOk_indexWordReadDone {f : FnId} {ring : BitVec 8} {word : Word32} {c : Chip} (h : c.memOk) : (indexWordReadDone f ring word c).memOk := by
  unfold indexWordReadDone
  split
  · exact h
  · refine h.ite ?_
    extract_lets c1
    have hc1 : c1.memOk := h.readBack
    exact hc1.roomRead.ite (hc1.ite (hc1.ringFails.ite hc1.onRing.fetch))

theorem memOk_completionRingRoom {f : FnId} {ring : BitVec 8} {consumed : Word32} {c : Chip} (h : c.memOk) :
    (completionRingRoom f ring consumed c).memOk := by
  unfold completionRingRoom
  split
  · exact h
  · exact h.ite h.readBack.roomRead

theorem Chip.memOk.takeChain {c : Chip} {f : FnId} {ring : BitVec 8} {q : HostRing} {l : List Desc} (h : c.memOk) : (c.takeChain f ring q l).memOk :=
  h.onRing.countRing.onFn.complete.ite h.onRing.countRing.onFn

theorem Chip.memOk.takeChains {n : Nat} {c : Chip} {f : FnId} {ring : BitVec 8} {l : List Desc} (h : c.memOk) :
    (Chip.takeChains n c f ring l).memOk := by
  induction n generalizing c l with
  | zero => exact h
  | succ n ih =>
    unfold Chip.takeChains
    dsimp only
    split
    · exact h
    · refine .ite h ?_
      split
      · exact .ite h.fetch h
      · exact h.countRing
      · exact h.ringFails
      · exact .ite h.readIndex (ih h.takeChain)

theorem memOk_descriptorFetchDone {f : FnId} {ring : BitVec 8} {l : List Desc} {c : Chip} (h : c.memOk) : (descriptorFetchDone f ring l c).memOk := by
  unfold descriptorFetchDone
  split
  · exact h
  · exact h.ite h.onRing.takeChains

theorem memOk_interruptModerationTimer {f : FnId} {ring : BitVec 8} {elapsed : Nat} {c : Chip} (h : c.memOk) :
    (interruptModerationTimer f ring elapsed c).memOk := by
  unfold interruptModerationTimer
  split
  · exact h
  · exact h.ite (h.onRing.msix.ite h.onRing)

/-! ### Commands of the host port -/

theorem Chip.memOk.postHeld {c : Chip} {f : FnId} {ring : BitVec 8} (h : c.memOk) : (c.postHeld f ring).memOk :=
  h.onFn.forEach fun _ _ hx => hx.post

theorem memOk_ringCreate {ref : CmdRef} {p : RingCreate} {c : Chip} (h : c.memOk) : (ringCreate ref p c).memOk :=
  h.complete.ite h.onFn.complete.postHeld

theorem memOk_ringDestroy {ref : CmdRef} {ring : BitVec 8} {c : Chip} (h : c.memOk) : (ringDestroy ref ring c).memOk := by
  unfold ringDestroy
  extract_lets
  split
  · exact h.complete
  · exact h.complete.ite (h.onRing.chainGone.ite (h.complete.ite (h.onFn.forEach fun _ _ hy => hy.hold).complete))

theorem memOk_nop {ref : CmdRef} {c : Chip} (h : c.memOk) : (nop ref c).memOk :=
  h.complete

theorem memOk_objQuery {ref : CmdRef} {kind : BitVec 8} {number : Word32} {iova : Word64} {c : Chip} (h : c.memOk) :
    (objQuery ref kind number iova c).memOk := by
  unfold objQuery
  extract_lets
  refine h.ite ?_
  refine h.complete.ite ?_
  refine Chip.memOk.ite ?_ ?_
  · refine h.complete.ite ?_
    split
    · exact h.complete
    · exact h.hostWrite.complete
  · refine Chip.memOk.ite ?_ h.complete
    refine h.complete.ite ?_
    split
    · exact h.complete
    · exact h.hostWrite.complete

theorem memOk_configTableWrite {ref : CmdRef} {t : ConfigTable} {c : Chip} (h : c.memOk) : (configTableWrite ref t c).memOk :=
  h.ite (h.complete.ite (h.complete.ite h.configWrite.complete))

theorem memOk_configTableRead {ref : CmdRef} {t : ConfigTable} {c : Chip} (h : c.memOk) : (configTableRead ref t c).memOk :=
  h.ite (h.complete.ite (h.complete.ite (h.complete.ite h.hostWrite.complete)))

theorem Chip.memOk.feedRun {n : Nat} {c : Chip} {plan : Word64} {feed : Word16} (h : c.memOk) : (Chip.feedRun n c plan feed).memOk := by
  induction n generalizing c with
  | zero => exact h
  | succ n ih =>
    unfold Chip.feedRun
    dsimp only
    split
    · exact h
    · exact .ite (Chip.memOk.complete h.same) (ih (Chip.memOk.complete h.same))

theorem memOk_feedPost {ref : CmdRef} {p : FeedPost} {c : Chip} (h : c.memOk) : (feedPost ref p c).memOk :=
  h.ite (h.complete.ite (h.complete.ite h.otherHost.feedRun))

theorem Chip.memOk.countCkpt {c : Chip} {f : FnId} {slot : Word16} (h : c.memOk) : (c.countCkpt f slot).memOk := by
  unfold Chip.countCkpt
  refine h.forEach ?_
  intro _ _ hx
  refine hx.onReach ?_
  intro _ hy
  split
  · exact hy.other
  · exact hy

theorem memOk_ckptPost {ref : CmdRef} {p : FeedPost} {c : Chip} (h : c.memOk) : (ckptPost ref p c).memOk := by
  unfold ckptPost
  extract_lets
  refine h.ite ?_
  refine h.complete.ite ?_
  split
  · exact h.free.other.hostWrite.complete
  · exact h.freeBytes.countCkpt.hostWrite.complete

theorem memOk_hostReadTimeout {w : HostWork} {c : Chip} (h : c.memOk) : (hostReadTimeout w c).memOk := by
  unfold hostReadTimeout
  split
  · split
    · exact h.ite h.otherHost.complete
    · exact h
  · split
    · exact h.readBack.ite h
    · exact h
  · exact h.onRing
  · split
    · exact h.failOp.ite h
    · exact h
  · split
    · exact h
    · exact h.onRme.forEach fun _ _ hz => hz.flushLost

/-! ### Shut-down of a function -/

theorem Chip.memOk.shutPlan {c : Chip} {handle : Word64} (h : c.memOk) : (c.shutPlan handle).memOk := by
  unfold Chip.shutPlan
  dsimp only
  refine Chip.memOk.forEach ?_ fun _ _ hx => hx.releasePlan
  refine Chip.memOk.driverStop ?_
  split
  · exact h.planFail
  · exact h

theorem Chip.memOk.shutMoors {c : Chip} {f : FnId} {r : ReachId} (h : c.memOk) : (c.shutMoors f r).memOk :=
  h.onRme

theorem Chip.memOk.shutStart {c : Chip} {f : FnId} (h : c.memOk) : (c.shutStart f).memOk := by
  unfold Chip.shutStart
  refine h.ite ?_
  extract_lets c1 _ c2 c3
  have hc1 : c1.memOk := h.onFn
  have hc2 : c2.memOk := hc1.onTen.completeOpt
  have hc3 : c3.memOk := hc2.forEach fun _ _ hx => hx.shutPlan
  refine hc3.forEach ?_
  intro _ _ hx
  extract_lets c4 c5
  have hc4 : c4.memOk := hx.forEach fun _ _ hy => hy.ite hy.collFail
  have hc5 : c5.memOk := hc4.forEach fun _ _ hy => hy.ite hy.qpKill
  exact hc5.shutMoors

/-! ### Functions of the host port -/

theorem Chip.memOk.absent {c : Chip} {f : FnId} (h : c.memOk) : (c.absent f).memOk := by
  unfold Chip.absent
  extract_lets _ c1 c2 c3 c4
  have hc1 : c1.memOk := h.onFn
  have hc2 : c2.memOk := hc1.onTen
  have hc3 : c3.memOk := hc2.forEach fun _ _ hx => hx.hold
  have hc4 : c4.memOk := hc3.forEach fun _ _ hx => hx.completeOpt
  exact hc4.forEach fun _ _ hx => hx.recvsLost

theorem memOk_detach {f : FnId} {c : Chip} (h : c.memOk) : (detach f c).memOk :=
  h.absent.ite h

theorem Chip.memOk.attachDone {c : Chip} {f : FnId} (h : c.memOk) : (c.attachDone f).memOk :=
  (h.onFn.onTen.postEvent.onFn.ite h.onFn.onTen).postHeld.postHeld

theorem Chip.memOk.attachGo {c : Chip} {f : FnId} (h : c.memOk) : (c.attachGo f).memOk :=
  h.onTen.ite (h.onTen.shutStart.ite h.attachDone)

theorem memOk_attach {f : FnId} {c : Chip} (h : c.memOk) : (attach f c).memOk :=
  h.ite (h.onFn.ite h.onFn.attachGo)

theorem memOk_hostRevWrite {f : FnId} {value : Word64} {c : Chip} (h : c.memOk) : (hostRevWrite f value c).memOk :=
  h.ite h.onFn

theorem memOk_hostClkWrite {p : RegPath} {value : Word64} {c : Chip} (h : c.memOk) : (hostClkWrite p value c).memOk :=
  h.rwlWrite fun _ hx => hx.otherHost

theorem Chip.memOk.trainHost {c : Chip} (h : c.memOk) : c.trainHost.memOk :=
  h.ite h.otherHost

theorem Chip.memOk.portReset {c : Chip} (h : c.memOk) : c.portReset.memOk := by
  unfold Chip.portReset
  refine Chip.memOk.endPfSession (Chip.memOk.otherHost ?_)
  exact (Chip.memOk.forEach h.otherHost fun _ _ hx => hx.absent).forEach fun _ _ hx => hx.flushesLost

theorem memOk_hostPortReset {cause : HostReset} {c : Chip} (h : c.memOk) : (hostPortReset cause c).memOk := by
  unfold hostPortReset
  split
  · exact h.portReset.other
  · exact h.ite h.portReset.trainHost

theorem memOk_perstRelease {c : Chip} (h : c.memOk) : (perstRelease c).memOk :=
  h.other.trainHost.ite h.other

theorem memOk_functionLevelReset {f : FnId} {c : Chip} (h : c.memOk) : (functionLevelReset f c).memOk :=
  h.ite (h.forEach fun _ _ hx => hx.absent.shutStart)

theorem memOk_powerStateChange {d3hot : Bool} {c : Chip} (h : c.memOk) : (powerStateChange d3hot c).memOk := by
  unfold powerStateChange
  refine h.ite ?_
  extract_lets _ c1
  have hc1 : c1.memOk := h.otherHost
  exact hc1.ite (hc1.forEach fun _ _ hx => (hx.forEach fun _ _ hy => hy.postHeld).fetchAll)

/-! ### Resets of tile arrays and reaches -/

theorem Tile.memOk.arrayReset {t : Tile} (h : t.memOk) : t.arrayReset.memOk :=
  Tile.memOk.of_spad Mem.wf_nil

theorem Chip.memOk.resetGroups {c : Chip} {r : ReachId} {mask : Nat} (h : c.memOk) : (c.resetGroups r mask).memOk := by
  refine h.stopPlans.onReach fun x hx => hx.withTiles fun e he => ?_
  obtain ⟨d, hd, rfl⟩ := List.mem_map.1 he
  split
  · exact (hx.tiles d hd).arrayReset
  · exact hx.tiles d hd

theorem Chip.memOk.tilesDone {c : Chip} {ref : CmdRef} (h : c.memOk) : (c.tilesDone ref).memOk := by
  unfold Chip.tilesDone
  split
  · exact h
  · exact h.other.complete.forEach fun _ _ hy => hy.tryAgree

theorem memOk_resetTiles {ref : CmdRef} {reach : BitVec 8} {mark : TileResetMark} {c : Chip} (h : c.memOk) : (resetTiles ref reach mark c).memOk := by
  unfold resetTiles
  split
  · exact h.tilesDone
  · exact h.ite (Chip.memOk.dite (fun _ => h.complete.ite (h.complete.ite (h.complete.ite h.resetGroups.other))) fun _ => h.complete)

theorem Chip.memOk.entryLost {c : Chip} {by_ : Submitter} {cq : Word16} {e : WorkEntry} (h : c.memOk) : (c.entryLost by_ cq e).memOk := by
  unfold Chip.entryLost
  split
  · exact h.entryDone
  · exact h

theorem Chip.memOk.workLost {c : Chip} {r : ReachId} (h : c.memOk) : (c.workLost r).memOk := by
  unfold Chip.workLost
  extract_lets x c1 c2 c3 c4 c5 _ c6
  have hx : x.memOk := h.reach
  have hc1 : c1.memOk := by
    refine h.forEach ?_
    intro _ _ hx
    extract_lets _ c7 c8
    have hc7 : c7.memOk := hx.forEach fun _ _ hy => hy.entryLost
    have hc8 : c8.memOk := hc7.forEach fun _ _ hy => hy.entryLost
    exact hc8.completeOpt.completeOpt
  have hc2 : c2.memOk := hc1.forEach fun _ _ hx => hx.completeOpt
  have hc3 : c3.memOk := hc2.forEach fun _ _ hx => hx.completeOpt
  have hc4 : c4.memOk := hc3.forEach fun _ _ hx => hx.planFail
  have hc5 : c5.memOk := hc4.forEach fun _ _ hx => hx.complete
  have hc6 : c6.memOk := hc5.other
  exact hc6.other

theorem Chip.memOk.faultLinks {c : Chip} {r : ReachId} (h : c.memOk) : (c.faultLinks r).memOk :=
  h.forEach fun _ _ hx => hx.emit

theorem Chip.memOk.noteReplicas {c : Chip} (h : c.memOk) : c.noteReplicas.memOk :=
  h.ite h.other

theorem Reach.memOk.afterReset {x : Reach} (h : x.memOk) : x.afterReset.memOk :=
  Reach.memOk.reset.withBytes (Mem.wf_zeroRange _ _ h.bytes)

theorem Chip.memOk.reachReset {c : Chip} {r : ReachId} (h : c.memOk) : (c.reachReset r).memOk :=
  (h.workLost.faultLinks.domainStop.onReach fun _ hx => hx.afterReset).noteReplicas

theorem Chip.memOk.parityReset {c : Chip} {r : ReachId} (h : c.memOk) : (c.parityReset r).memOk :=
  h.ite h.reachReset

theorem Chip.memOk.holdReach {c : Chip} {r : ReachId} (h : c.memOk) : (c.holdReach r).memOk :=
  (h.stopPlans.workLost.faultLinks.onReach fun _ hx => hx.afterReset.other).noteReplicas

theorem memOk_resetReach {ref : CmdRef} {reach : BitVec 8} {c : Chip} (h : c.memOk) : (resetReach ref reach c).memOk := by
  unfold resetReach
  refine h.complete.ite ?_
  refine Chip.memOk.dite ?_ fun _ => h.complete
  intro _
  extract_lets _ c1 _ c2
  have hc1 : c1.memOk := h.log
  have hc2 : c2.memOk := hc1.other
  split
  · exact h.complete
  · exact h.complete.ite (hc2.ite hc2.reachReset)

/-! ### Translation commands -/

theorem Chip.memOk.onAsid {c : Chip} {a : Nat} {f : Asid → Asid} (h : c.memOk) : (c.onAsid a f).memOk :=
  h.other

theorem memOk_asidCreate {ref : CmdRef} {asid : Word16} {c : Chip} (h : c.memOk) : (asidCreate ref asid c).memOk := by
  unfold asidCreate
  refine h.ite ?_
  extract_lets
  refine Chip.memOk.ite ?_ (h.complete.ite h.other.complete)
  split
  · exact h.other.complete
  · exact h.complete

theorem Reach.memOk.zeroPhys {x : Reach} {pa n : Nat} (h : x.memOk) : (x.zeroPhys pa n).memOk :=
  h.withBytes (Mem.wf_zeroRange _ _ h.bytes)

theorem Chip.memOk.again {c : Chip} {s : Stalled} (h : c.memOk) : (c.again s).memOk := by
  unfold Chip.again
  split
  · split
    · exact memOk_rmeTake h
    · exact h
  · exact memOk_planLoad h
  · exact h.cipher

theorem Chip.memOk.refused {c : Chip} {s : Stalled} (h : c.memOk) : (c.refused s).memOk := by
  unfold Chip.refused
  split
  · exact h.rmeRefuse
  · exact h.complete
  · exact h.answer

theorem Chip.memOk.closeFaults {c : Chip} {sel : FaultRecord → Bool} {resolved : Bool} (h : c.memOk) : (c.closeFaults sel resolved).memOk :=
  h.other.forEach fun _ _ hx => hx.again.ite hx.refused

theorem Chip.memOk.resolveFaults {c : Chip} {asid : Word16} (h : c.memOk) : (c.resolveFaults asid).memOk := by
  unfold Chip.resolveFaults
  split
  · exact h
  · exact h.closeFaults

theorem memOk_xltMap {ref : CmdRef} {p : XltMap} {c : Chip} (h : c.memOk) : (xltMap ref p c).memOk := by
  unfold xltMap
  refine h.ite ?_
  extract_lets
  refine h.complete.ite ?_
  refine h.onAsid.complete.resolveFaults.ite ?_
  refine h.complete.ite ?_
  split
  · exact h.complete
  · exact (h.onReach fun _ hy => hy.forEach fun _ _ hz => hz.zeroPhys).onAsid.complete.resolveFaults

theorem Chip.memOk.invFinish {c : Chip} {i : InvCmd} {gen : BitVec 12} (h : c.memOk) : (c.invFinish i gen).memOk :=
  h.other.complete

theorem Chip.memOk.invStart {c : Chip} {i : InvCmd} (h : c.memOk) : (c.invStart i).memOk := by
  unfold Chip.invStart
  split
  · exact h.other.complete
  · exact h.other.complete.ite (h.other.onTen.ite h.other.onTen.invFinish)

theorem Chip.memOk.invRun {n : Nat} {c : Chip} {asid : Word16} (h : c.memOk) : (Chip.invRun n c asid).memOk := by
  induction n generalizing c with
  | zero => exact h
  | succ n ih =>
    unfold Chip.invRun
    split
    · exact ih h.invStart
    · exact h

theorem Chip.memOk.invPut {c : Chip} {i : InvCmd} (h : c.memOk) : (c.invPut i).memOk :=
  h.other.invRun

theorem memOk_xltWithdraw {ref : CmdRef} {p : XltWithdraw} {c : Chip} (h : c.memOk) : (xltWithdraw ref p c).memOk :=
  (h.complete.ite (h.complete.ite h.closeFaults.complete)).ite (h.ite (h.complete.ite h.invPut))

theorem memOk_asidInvalidate {ref : CmdRef} {asid : Word16} {free : Bool} {c : Chip} (h : c.memOk) : (asidInvalidate ref asid free c).memOk :=
  h.ite (h.complete.ite h.invPut)

theorem Chip.memOk.invDrained {c : Chip} {asid : Word16} (h : c.memOk) : (c.invDrained asid).memOk := by
  unfold Chip.invDrained
  split
  · exact h.ite h.invFinish.invRun
  · exact h

theorem memOk_xltFaultExpiry {r : ReachId} {now : Time} {f : FnId} {seq : Word16} {c : Chip} (h : c.memOk) : (xltFaultExpiry r now f seq c).memOk :=
  h.at.closeFaults

/-! ### Tenancies -/

theorem Chip.memOk.enableNow {c : Chip} {ref : CmdRef} {g : Grant} (h : c.memOk) : (c.enableNow ref g).memOk :=
  h.complete.ite h.onTen.onFn.complete

theorem memOk_functionEnable {ref : CmdRef} {g : Grant} {c : Chip} (h : c.memOk) : (functionEnable ref g c).memOk := by
  unfold functionEnable
  extract_lets
  refine h.complete.ite ?_
  refine h.complete.ite ?_
  split
  · exact h.complete
  · exact (h.complete.ite h.log.onTen).ite (h.complete.ite h.log.enableNow)

theorem Chip.memOk.eraseObjects {c : Chip} {f : FnId} (h : c.memOk) : (c.eraseObjects f).memOk := by
  unfold Chip.eraseObjects
  refine h.forEach ?_
  intro _ _ hx
  extract_lets c1 c2
  have hc1 : c1.memOk := hx.forEach fun _ _ hy => hy.completeOpt.freeSlots.onReach fun _ hz => hz.same
  have hc2 : c2.memOk := hc1.forEach fun _ _ hy => hy.onRme
  exact hc2.onRme

theorem Chip.memOk.freeAsids {c : Chip} {f : FnId} (h : c.memOk) : (c.freeAsids f).memOk := by
  unfold Chip.freeAsids
  extract_lets _ _ _ c1 c2
  have hc1 : c1.memOk := h.forEach fun _ _ hx => hx.complete
  have hc2 : c2.memOk := hc1.forEach fun _ _ hx => hx.onReach fun _ hy => hy.zeroPhys
  exact hc2.other

theorem Chip.memOk.nextGeneration {c : Chip} {f : FnId} (h : c.memOk) : (c.nextGeneration f).memOk :=
  h.onFn.otherHost.other

theorem Chip.memOk.shutEnd {c : Chip} {f : FnId} (h : c.memOk) : (c.shutEnd f).memOk := by
  unfold Chip.shutEnd
  dsimp only
  refine Chip.memOk.fetchAll ?_
  refine Chip.memOk.ite ?_ ?_
  · refine Chip.memOk.attachGo ?_
    split
    · exact (((h.eraseObjects.closeFaults.freeAsids.forEach fun _ _ hy => hy.resetGroups.onReach fun _ hz => hz.other).nextGeneration.ite
        (h.eraseObjects.closeFaults.freeAsids.forEach fun _ _ hy => hy.resetGroups.onReach fun _ hz =>
        hz.other).nextGeneration.onTen.onFn).onTen.onFn.forEach fun _ _ hy => hy.complete).enableNow
    · exact ((h.eraseObjects.closeFaults.freeAsids.forEach fun _ _ hy => hy.resetGroups.onReach fun _ hz => hz.other).nextGeneration.ite
        (h.eraseObjects.closeFaults.freeAsids.forEach fun _ _ hy => hy.resetGroups.onReach fun _ hz =>
        hz.other).nextGeneration.onTen.onFn).onTen.onFn.forEach fun _ _ hy => hy.complete
  · split
    · exact (((h.eraseObjects.closeFaults.freeAsids.forEach fun _ _ hy => hy.resetGroups.onReach fun _ hz => hz.other).nextGeneration.ite
        (h.eraseObjects.closeFaults.freeAsids.forEach fun _ _ hy => hy.resetGroups.onReach fun _ hz =>
        hz.other).nextGeneration.onTen.onFn).onTen.onFn.forEach fun _ _ hy => hy.complete).enableNow
    · exact ((h.eraseObjects.closeFaults.freeAsids.forEach fun _ _ hy => hy.resetGroups.onReach fun _ hz => hz.other).nextGeneration.ite
        (h.eraseObjects.closeFaults.freeAsids.forEach fun _ _ hy => hy.resetGroups.onReach fun _ hz =>
        hz.other).nextGeneration.onTen.onFn).onTen.onFn.forEach fun _ _ hy => hy.complete

theorem Chip.memOk.freezeDone {c : Chip} {f : FnId} {rolled uncertain : Nat} (h : c.memOk) : (c.freezeDone f rolled uncertain).memOk :=
  h.onTen.onFn.completeOpt

theorem Chip.memOk.settle {c : Chip} (h : c.memOk) : c.settle.memOk :=
  h.forEach fun _ _ hx => (hx.shutEnd.ite hx).ite (hx.freezeDone.ite hx)

theorem memOk_functionDisable {ref : CmdRef} {fn : BitVec 8} {c : Chip} (h : c.memOk) : (functionDisable ref fn c).memOk := by
  unfold functionDisable
  refine h.complete.ite ?_
  refine Chip.memOk.dite ?_ fun _ => h.complete
  intro _
  extract_lets _ _ c1
  have hc1 : c1.memOk := h.log
  refine h.complete.ite ?_
  split
  · exact h.complete
  · exact hc1.onTen.shutStart.settle

theorem Chip.memOk.freezePlans {c : Chip} {f : FnId} (h : c.memOk) : (c.freezePlans f).memOk := by
  unfold Chip.freezePlans
  dsimp only
  refine h.forEach ?_
  intro _ _ hx
  refine Chip.memOk.driverStop ?_
  split
  · exact hx.planFail
  · exact hx

theorem memOk_tenFreeze {ref : CmdRef} {fn : BitVec 8} {drainMs : Word32} {c : Chip} (h : c.memOk) : (tenFreeze ref fn drainMs c).memOk := by
  unfold tenFreeze
  refine h.complete.ite ?_
  split
  · exact h.complete
  · exact h.complete.ite (h.freezePlans.onTen.forEach fun _ _ hy => hy.forEach fun _ _ hz => hz.onQp).settle

theorem memOk_tenFreezeDrainExpiry {r : ReachId} {now : Time} {f : FnId} {c : Chip} (h : c.memOk) : (tenFreezeDrainExpiry r now f c).memOk := by
  unfold tenFreezeDrainExpiry
  extract_lets c1 _ _ _ _ c' c'1
  have hc1 : c1.memOk := h.at
  have hc' : c'.memOk := hc1.forEach fun _ _ hx => hx.forEach fun _ _ hy => hy.onQp
  have hc'1 : c'1.memOk := hc'.forEach fun _ _ hx => hx.complete
  exact hc1.ite hc'1.freezeDone

theorem memOk_tenUnfreeze {ref : CmdRef} {fn : BitVec 8} {c : Chip} (h : c.memOk) : (tenUnfreeze ref fn c).memOk := by
  unfold tenUnfreeze
  refine h.complete.ite ?_
  split
  · exact h.complete
  · exact h.complete.ite (h.onTen.forEach fun _ _ hy => hy.forEach fun _ _ hz => hz.onQp).complete.fetchAll

theorem memOk_xltInvalidateDrained {asid : Word16} {c : Chip} (h : c.memOk) : (xltInvalidateDrained asid c).memOk :=
  h.invDrained.settle

/-! ### Watchdogs and self-tests -/

theorem Chip.memOk.onBist {c : Chip} {r : ReachId} {f : Bist → Bist} (h : c.memOk) : (c.onBist r f).memOk :=
  h.onReach fun _ hx => hx.other

theorem memOk_watchReach {r : ReachId} {core : Fin 8} {c : Chip} (h : c.memOk) : (watchReach r core c).memOk := by
  unfold watchReach
  dsimp only
  refine Chip.memOk.ite ?_ ?_
  · refine Chip.memOk.reachReset ?_
    refine Chip.memOk.health ?_
    refine Chip.memOk.onBist ?_
    split
    · exact h.memUe
    · exact h
  · refine Chip.memOk.health ?_
    refine Chip.memOk.onBist ?_
    split
    · exact h.memUe
    · exact h

theorem memOk_tileServiceTest {r : ReachId} {now : Time} {t : TileId} {fails : Option TestUnit} {c : Chip} (h : c.memOk) :
    (tileServiceTest r now t fails c).memOk := by
  unfold tileServiceTest
  extract_lets c1
  have hc1 : c1.memOk := h.at
  refine hc1.ite ?_
  split
  · exact hc1.onBist
  · exact hc1.health.holdReach

theorem memOk_serviceTestOverdue {r : ReachId} {now : Time} {part : Fin 66} {c : Chip} (h : c.memOk) : (serviceTestOverdue r now part c).memOk :=
  h.at.ite h.at.onBist.health

theorem Chip.memOk.testBegin {c : Chip} {r : ReachId} {kind : Nat} (h : c.memOk) : (c.testBegin r kind).memOk := by
  unfold Chip.testBegin
  extract_lets c1 _ c2
  have hc1 : c1.memOk := h.holdReach.ite h
  have hc2 : c2.memOk := hc1.onReach fun _ hx => hx.other
  exact hc2.onBist.ite hc2

theorem wf_marched {m : Mem} {base part all i n : Nat} (h : Mem.wf m = true) : Mem.wf (marched m base part all i n) = true :=
  List.foldlRecOn (motive := fun m => Mem.wf m = true) _ _ h (fun _ hm _ _ => Mem.wf_zeroRange _ _ hm)

theorem Reach.memOk.march {x : Reach} {hbm lp : Nat} (h : x.memOk) : (x.march hbm lp).memOk :=
  h.withBytes (wf_marched (wf_marched h.bytes))

theorem Chip.memOk.testRepairs {c : Chip} {r : ReachId} {l : List TestFound} (h : c.memOk) : (c.testRepairs r l).memOk :=
  h.forEach fun _ _ hx => hx.repairRecord

theorem Chip.memOk.testRuns {c : Chip} {r : ReachId} {t : TestDone} (h : c.memOk) : (c.testRuns r t).memOk := by
  unfold Chip.testRuns
  dsimp only
  refine Chip.memOk.onReach (.ite ?_ ?_) fun _ hx => hx.same
  · refine Chip.memOk.onReach ?_ fun _ hx => hx.same
    exact Chip.memOk.onReach (.ite h.at.log.testRepairs (h.at.log.testRepairs.onReach fun _ hx => hx.same)) fun _ hx => hx.march
  · exact Chip.memOk.onReach (.ite h.at.log.testRepairs (h.at.log.testRepairs.onReach fun _ hx => hx.same)) fun _ hx => hx.march

theorem Chip.memOk.testUntested {c : Chip} {r : ReachId} (h : c.memOk) : (c.testUntested r).memOk :=
  h.onBist

theorem Chip.memOk.testReport {c : Chip} {r : ReachId} (h : c.memOk) : (c.testReport r).memOk :=
  h.onBist

theorem Chip.memOk.bistFinished {c : Chip} {r : ReachId} (h : c.memOk) : (c.bistFinished r).memOk := by
  unfold Chip.bistFinished
  dsimp only
  split
  · exact h
  · refine Chip.memOk.ite ?_ ?_
    · refine Chip.memOk.complete ?_
      refine Chip.memOk.other ?_
      split
      · exact h.hostWrite
      · exact h
    · refine Chip.memOk.other ?_
      split
      · exact h.hostWrite
      · exact h

theorem Chip.memOk.bistEnded {c : Chip} {r : ReachId} (h : c.memOk) : (c.bistEnded r).memOk :=
  (h.testReport.onReach fun _ hx => hx.other).bistFinished.ite h.testReport.reachReset

theorem memOk_bistRun {ref : CmdRef} {mask kind : BitVec 8} {iova : Word64} {runs : Quad TestRun} {c : Chip} (h : c.memOk) :
    (bistRun ref mask kind iova runs c).memOk := by
  unfold bistRun
  extract_lets _ c1 _ _ c2
  have hc1 : c1.memOk := h.log
  have hc2 : c2.memOk := hc1.other
  refine h.complete.ite ?_
  refine h.complete.ite ?_
  refine h.complete.ite ?_
  refine h.complete.ite ?_
  refine h.complete.ite ?_
  split
  · exact h.complete
  · refine hc2.forEach ?_
    intro _ _ hy
    extract_lets c3
    have hc3 : c3.memOk := hy.testBegin
    split
    · exact hc3
    · exact hc3.testRuns.bistEnded

/-! ### Power and temperature -/

theorem Chip.memOk.onPwr {c : Chip} {r : ReachId} {f : Power → Power} (h : c.memOk) : (c.onPwr r f).memOk :=
  h.onReach fun _ hx => hx.other

theorem Chip.memOk.droop {c : Chip} {r : ReachId} (h : c.memOk) : (c.droop r).memOk :=
  h.ite h.onPwr

theorem memOk_droopTrip {r : ReachId} {now : Time} {dropMv : Nat} {c : Chip} (h : c.memOk) : (droopTrip r now dropMv c).memOk :=
  h.at.ite h.at.droop

theorem memOk_droopClear {r : ReachId} {now : Time} {c : Chip} (h : c.memOk) : (droopClear r now c).memOk :=
  h.at.onPwr

theorem memOk_powerPeakTrip {watts : Nat} {c : Chip} (h : c.memOk) : (powerPeakTrip watts c).memOk :=
  h.ite (h.forEach fun _ _ hx => hx.droop)

theorem memOk_railFault {r : ReachId} {now : Time} {cause : RailCause} {c : Chip} (h : c.memOk) : (railFault r now cause c).memOk :=
  h.at.onPwr.ite h.at.health.reachReset.onPwr

theorem Chip.memOk.limitTick {c : Chip} {r : ReachId} (h : c.memOk) : (c.limitTick r).memOk :=
  h.onPwr

theorem memOk_powerCapTick {avg : Nat} {c : Chip} (h : c.memOk) : (powerCapTick avg c).memOk :=
  (h.forEach fun _ _ hx => hx.onPwr.limitTick).other

theorem memOk_powerLimitUnmet {avg100 : Nat} {c : Chip} (h : c.memOk) : (powerLimitUnmet avg100 c).memOk := by
  unfold powerLimitUnmet
  extract_lets _ c1
  have hc1 : c1.memOk := h.other.gateHealth.ite h
  exact hc1.ite (hc1.forEach fun _ _ hx => hx.health.stopPlans)

theorem memOk_pwrCapWrite {p : RegPath} {value : Word64} {c : Chip} (h : c.memOk) : (pwrCapWrite p value c).memOk :=
  h.ignoreWrite.ite (h.rwlWrite fun _ hx => hx.other)

theorem Chip.memOk.thermalAlert {c : Chip} {r : ReachId} {was is : Bool} {block : Nat} (h : c.memOk) : (c.thermalAlert r was is block).memOk :=
  h.health.ite h

theorem memOk_thermalTick {r : ReachId} {now : Time} {s : Sensors} {c : Chip} (h : c.memOk) : (thermalTick r now s c).memOk := by
  unfold thermalTick
  extract_lets c1 _ _ _ _ _ _ _ c2 c3 c4 _ c5
  have hc1 : c1.memOk := h.at
  have hc2 : c2.memOk := hc1.onPwr
  have hc3 : c3.memOk := hc2.thermalAlert.thermalAlert.thermalAlert
  have hc4 : c4.memOk := hc3.gateHealth.ite hc3
  have hc5 : c5.memOk := hc4.other
  exact hc5.health.holdReach.ite hc5

/-! ### Steps that units run -/

theorem Tile.memOk.unfolded {t : Tile} (h : t.memOk) : t.unfolded.memOk :=
  h.same

theorem Chip.memOk.compute {c : Chip} {r : ReachId} {t i : Nat} {s : StepWords} {unit : StepUnit} {outWord : Word64} {k : Comp}
    {shape : Running → Running} (h : c.memOk) (h1 : k.memOk) : (c.compute r t i s unit outWord k shape).memOk := by
  unfold Chip.compute
  dsimp only
  split
  · exact (((h.onTile fun _ hy => hy.setRecord.advance.same.ite (Tile.memOk.of_spad h1.spad)).foldl fun _ _ hy => hy.scramble).ite
      (h.onTile fun _ hy => hy.setRecord.advance.same.ite (Tile.memOk.of_spad h1.spad))).memUe
  · exact ((h.onTile fun _ hy => hy.setRecord.advance.same.ite (Tile.memOk.of_spad h1.spad)).foldl fun _ _ hy => hy.scramble).ite
      (h.onTile fun _ hy => hy.setRecord.advance.same.ite (Tile.memOk.of_spad h1.spad))

theorem memOk_matrixStep {op : Nat} {r : ReachId} {now : Time} {t : TileId} {hold : Word32} {c : Chip} (h : c.memOk) :
    (matrixStep op r now t hold c).memOk :=
  h.at.startStep fun _ _ _ _ hx => hx.compute hx.reach.tile.unfolded.matrix

theorem memOk_vectorComp {op : Nat} {y : Tile} {seed : Word64} {s : StepWords} (h : y.memOk) : (vectorComp op y seed s).memOk :=
  h.vectorElementwise.ite (h.vectorFunction.ite h.vectorReduce)

theorem memOk_vectorStep {op : Nat} {r : ReachId} {now : Time} {t : TileId} {hold : Word32} {c : Chip} (h : c.memOk) :
    (vectorStep op r now t hold c).memOk :=
  h.at.startStep fun _ _ _ _ hx => hx.compute (memOk_vectorComp hx.reach.tile.unfolded)

theorem memOk_selectComp {op : Nat} {y : Tile} {seed : Word64} {s : StepWords} (h : y.memOk) : (selectComp op y seed s).memOk := by
  unfold selectComp
  split
  · exact h.topK
  · exact h.sortStep
  · exact h.sortStep
  · exact h.gather
  · exact h.scatter
  · exact h.scatter
  · exact h.expertRoute

theorem memOk_selectStep {op : Nat} {r : ReachId} {now : Time} {t : TileId} {hold : Word32} {c : Chip} (h : c.memOk) :
    (selectStep op r now t hold c).memOk :=
  h.at.startStep fun _ _ _ _ hx => hx.compute (memOk_selectComp hx.reach.tile.unfolded)

theorem memOk_convertStep {r : ReachId} {now : Time} {t : TileId} {hold : Word32} {c : Chip} (h : c.memOk) : (convertStep r now t hold c).memOk :=
  h.at.startStep fun _ _ _ _ hx => hx.compute hx.reach.tile.unfolded.convert

theorem Chip.memOk.takeChunk {c : Chip} {r : ReachId} {i : CollInv} {base k : Nat} (h : c.memOk) : (c.takeChunk r i base k).1.memOk :=
  h.collFail.iteFst h.onInv.collWake

theorem Chip.memOk.handChunk {c : Chip} {r : ReachId} {t : Nat} {p : PlanInst} {idx base k : Nat} (h : c.memOk) :
    (c.handChunk r t p idx base k).1.memOk := by
  unfold Chip.handChunk
  split
  · exact h.takeChunk
  · split
    · exact h.iteFst h.replaceInv.takeChunk
    · exact h

theorem Chip.memOk.handChunks {r : ReachId} {t : Nat} {p : PlanInst} {idx base : Nat} {l : List Nat} {c : Chip} (h : c.memOk) :
    (Chip.handChunks r t p idx base l c).1.memOk := by
  induction l generalizing c with
  | nil => exact h
  | cons k ks ih =>
    rw [Chip.handChunks]
    split
    next hk =>
      split
      · exact (ih (h.handChunk.of_fst hk)).of_fst rfl
      · exact h.handChunk.of_fst hk

theorem Tile.memOk.onRunning {t : Tile} {u : StepUnit} {f : Running → Running} (h : t.memOk) : (t.onRunning u f).memOk :=
  h.same

theorem memOk_matrixBlockFinal {r : ReachId} {now : Time} {t : TileId} {c : Chip} (h : c.memOk) : (matrixBlockFinal r now t c).memOk := by
  unfold matrixBlockFinal
  extract_lets c1 y
  have hc1 : c1.memOk := h.at
  have hy : y.memOk := hc1.reach.tile
  split
  · exact hc1
  · refine hc1.ite ?_
    extract_lets _ c2
    have hc2 : c2.memOk := hc1.onTile fun _ hy => hy.onRunning
    split
    · exact hc2.ite ((hc2.handChunks.onTile fun _ hz => hz.onRunning).ite (hc2.handChunks.onTile fun _ hz => hz.onRunning).tileFail)
    · exact hc2

theorem Chip.memOk.busy {c : Chip} {r : ReachId} {t : Nat} {since : Time} {cycles : Nat} (h : c.memOk) : (c.busy r t since cycles).memOk :=
  h.onReach fun _ hx => hx.gaugeAdd.gaugeAdd

theorem memOk_stepEnd {r : ReachId} {now : Time} {t : TileId} {unit : StepUnit} {cycles : Word32} {c : Chip} (h : c.memOk) :
    (stepEnd r now t unit cycles c).memOk := by
  unfold stepEnd
  extract_lets c1 y
  have hc1 : c1.memOk := h.at
  have hy : y.memOk := hc1.reach.tile
  split
  · exact hc1
  · refine hc1.ite ?_
    extract_lets c2 c3
    have hc2 : c2.memOk := hc1.onTile fun _ hy => hy.same.ite (hy.same.addFolds.foldl fun _ _ hz => hz.setRecord)
    have hc3 : c3.memOk := hc2.busy.stepTrace
    split
    · exact hc3.stepFail
    · exact hc3.wakeTile

theorem Tile.memOk.clearCeils {t : Tile} {m : Move} (h : t.memOk) : (t.clearCeils m).memOk :=
  h.foldl fun _ _ hx => hx.setRecord

theorem memOk_moveStep {kind : Nat} {r : ReachId} {now : Time} {t : TileId} {hold : Word32} {c : Chip} (h : c.memOk) :
    (moveStep kind r now t hold c).memOk :=
  h.at.startStep fun _ _ _ _ hx => hx.onTile fun _ hy => (hy.clearCeils.ite hy).advance.same

theorem Chip.memOk.moveDest {c : Chip} {r : ReachId} {t : Nat} {m : Move} {rows : List (List Run)} {data : List (List Byte)} (h : c.memOk) :
    (c.moveDest r t m rows data).memOk := by
  unfold Chip.moveDest
  split
  · exact h.onTile fun _ hy => hy.foldl fun _ _ hz => Tile.memOk.of_spad (Mem.wf_writeBytes _ _ hz.spad)
  · exact h.onTile fun _ hy => hy.foldl fun _ _ hz => Tile.memOk.of_spad (Mem.wf_writeBytes _ _ hz.spad)
  · exact h.onTile fun _ hy => hy.foldl fun _ _ hz => hz.setRecord
  · exact h.foldl fun _ _ hy => hy.storeRuns

theorem Reach.memOk.countMove {x : Reach} {m : Move} {rows : List (List Run)} (h : x.memOk) : (x.countMove m rows).memOk :=
  (h.foldl fun _ _ hx => hx.countLines).ite h

theorem Chip.memOk.moveFinds {c : Chip} {r : ReachId} {t : Nat} {m : Move} {rows : List (List Run)} {finds : List (Nat × DredgeFind)} (h : c.memOk) :
    (c.moveFinds r t m rows finds).1.memOk := by
  unfold Chip.moveFinds
  refine h.forEachFst ?_
  intro _ _ hx
  refine hx.iteFst ?_
  split
  · rename_i _ _ he12
    exact Chip.memOk.of_fst hx.readFinds he12
  · rename_i _ _ he12
    exact Chip.memOk.of_fst hx.readFinds he12

theorem Tile.memOk.settleMoves {t : Tile} (h : t.memOk) : t.settleMoves.memOk :=
  h.same.foldl fun _ _ hx => hx.signalAdd.ite hx

theorem Tile.memOk.endMove {t : Tile} {k : Nat} {failed : Bool} (h : t.memOk) : (t.endMove k failed).memOk :=
  h.same

theorem memOk_moveEnd {r : ReachId} {now : Time} {t : TileId} {k : Nat} {finds : List (Nat × DredgeFind)} {cycles : Word32} {c : Chip} (h : c.memOk) :
    (moveEnd r now t k finds cycles c).memOk := by
  unfold moveEnd
  extract_lets c1
  have hc1 : c1.memOk := h.at
  split
  · exact hc1
  · refine hc1.ite ?_
    extract_lets m
    split
    next c2 found hc2 =>
      replace hc2 : c2.memOk := hc1.moveFinds.of_fst hc2
      extract_lets bad data c3 c4
      have hc4 : c4.memOk := (hc2.onReach fun _ hx => hx.countMove).stepTrace
      clear_value bad
      cases bad with
      | none => exact (hc4.moveDest.onTile fun _ hx => hx.endMove.settleMoves).wakeTile
      | some a =>
        generalize hc5 : c4.free = p
        obtain ⟨w, c5⟩ := p
        replace hc5 : c5.memOk := hc4.free.of_snd hc5
        dsimp only
        generalize hc6 : List.foldl _ _ _ = p
        obtain ⟨junk, c6⟩ := p
        replace hc6 : c6.memOk := by
          refine Chip.memOk.of_snd ?_ hc6
          exact Chip.memOk.foldlSnd hc5 fun _ _ hx => hx.freeBytes
        refine (Chip.memOk.ite ?_ (Chip.memOk.memUe ?_)).wakeTile.stepFail <;>
          exact hc6.moveDest.onTile fun _ hx => (hx.clearCeils.ite hx).endMove.settleMoves

theorem Tile.memOk.copyEntry {t : Tile} {k : IqCopy} (h : t.memOk) : (t.copyEntry k).memOk :=
  h.same.ite (Tile.memOk.of_spad (Mem.wf_writeBytes _ _ h.spad))

theorem Tile.memOk.copyEntries {n : Nat} {t : Tile} (h : t.memOk) : (Tile.copyEntries n t).memOk := by
  induction n generalizing t with
  | zero => exact h
  | succ n ih =>
    unfold Tile.copyEntries
    split
    · exact .ite (ih h.copyEntry) h
    · exact h

theorem Chip.memOk.copyOn {c : Chip} {r : ReachId} {t n cycles : Nat} (h : c.memOk) : (c.copyOn r t n cycles).memOk := by
  unfold Chip.copyOn
  extract_lets _ c1 _ c2
  have hc1 : c1.memOk := h.onTile fun _ hx => hx.same
  have hc2 : c2.memOk := h.onTile fun _ hx => hx.copyEntries.same
  split
  · exact h
  · split
    · exact hc1.memUe.stepFail
    · split
      · exact (hc2.onTile fun _ hw => hw.same).stepTrace.ite hc2
      · exact hc2

theorem Tile.memOk.startRun {t : Tile} {i run : Nat} (h : t.memOk) : (t.startRun i run).memOk :=
  h.advance.same

theorem memOk_remoteStep {r : ReachId} {now : Time} {t : TileId} {hold cycles : Word32} {c : Chip} (h : c.memOk) :
    (remoteStep r now t hold cycles c).memOk :=
  h.at.startStep fun _ _ _ _ hx => (hx.onTile fun _ hy => hy.advance.same).copyOn

theorem memOk_issueQueueCopy {r : ReachId} {now : Time} {t : TileId} {stall cycles : Word32} {c : Chip} (h : c.memOk) :
    (issueQueueCopy r now t stall cycles c).memOk :=
  h.at.ite (h.at.onReach fun _ hx => hx.gaugeAdd).copyOn

theorem memOk_waitTimeStep {r : ReachId} {now : Time} {t : TileId} {hold cycles : Word32} {c : Chip} (h : c.memOk) :
    (waitTimeStep r now t hold cycles c).memOk :=
  h.at.startStep fun _ _ _ _ hx => (hx.onReach fun _ hy => hy.ite hy.gaugeAdd.gaugeMax).doneStep.ite hx.waitFor

theorem memOk_waitTimeExpiry {r : ReachId} {now : Time} {t : TileId} {cycles : Word32} {c : Chip} (h : c.memOk) :
    (waitTimeExpiry r now t cycles c).memOk := by
  unfold waitTimeExpiry
  extract_lets c1
  have hc1 : c1.memOk := h.at
  split
  · exact hc1.doneStep.ite hc1
  · exact hc1

theorem memOk_waitSignalStep {r : ReachId} {now : Time} {t : TileId} {hold cycles : Word32} {c : Chip} (h : c.memOk) :
    (waitSignalStep r now t hold cycles c).memOk := by
  unfold waitSignalStep
  extract_lets c1
  have hc1 : c1.memOk := h.at
  split
  · exact (Chip.memOk.getD (fun _ hy => hc1.compareSignal hy) hc1).ite hc1
  · exact hc1.startStep fun _ _ _ _ hy => Chip.memOk.getD (fun _ hz => hy.compareSignal hz) hy.waitFor

theorem memOk_seqWaitTimeout {r : ReachId} {now : Time} {t : TileId} {c : Chip} (h : c.memOk) : (seqWaitTimeout r now t c).memOk := by
  unfold seqWaitTimeout
  extract_lets c1
  have hc1 : c1.memOk := h.at
  split
  · exact hc1.waitFail.ite hc1
  · exact hc1

theorem Chip.memOk.marker {c : Chip} {r : ReachId} {t i : Nat} {p : PlanInst} {s : StepWords} (h : c.memOk) : (c.marker r t i p s).memOk :=
  (h.trace.ite h).fire.ite (h.trace.ite h)

theorem memOk_markerStep {r : ReachId} {now : Time} {t : TileId} {hold : Word32} {c : Chip} (h : c.memOk) : (markerStep r now t hold c).memOk :=
  h.at.startStep fun _ _ _ _ hx => hx.marker.doneStep

theorem memOk_markerStamp {r : ReachId} {now : Time} {t : TileId} {hold : Word32} {c : Chip} (h : c.memOk) : (markerStamp r now t hold c).memOk :=
  h.at.startStep fun _ _ _ _ hx => (hx.marker.onTile fun _ hy => Tile.memOk.of_spad (Mem.wf_writeLe _ _ _ hy.spad)).doneStep

theorem memOk_digestOpen {r : ReachId} {now : Time} {t : TileId} {hold : Word32} {c : Chip} (h : c.memOk) : (digestOpen r now t hold c).memOk :=
  h.at.startStep fun _ _ _ _ hx => (hx.onTile fun _ hy => hy.same).doneStep

theorem Tile.memOk.closeDigest {t : Tile} {s : StepWords} (h : t.memOk) : (t.closeDigest s).memOk := by
  unfold Tile.closeDigest
  split
  · unfold Tile.memOk
    dsimp only
    exact Mem.wf_writeBytes _ _ h
  · exact h

theorem memOk_digestClose {r : ReachId} {now : Time} {t : TileId} {hold : Word32} {c : Chip} (h : c.memOk) : (digestClose r now t hold c).memOk := by
  unfold digestClose
  extract_lets c1
  have hc1 : c1.memOk := h.at
  split
  · exact (hc1.waitFor.ite (hc1.onTile fun _ hy => hy.closeDigest).doneStep).ite hc1
  · exact hc1.startStep fun _ _ _ _ hy => hy.waitFor.ite (hy.onTile fun _ hz => hz.closeDigest).doneStep

theorem Chip.memOk.endPhase {c : Chip} {r : ReachId} {t : Nat} {p : PlanInst} {i : Nat} {s : StepWords} {cycles : Nat} (h : c.memOk) :
    (c.endPhase r t p i s cycles).memOk := by
  unfold Chip.endPhase
  dsimp only
  refine h.waitFor.ite ?_
  split
  · exact h.memUe.waitFail
  · exact h.doneStep.phaseEnd.ite h.doneStep.roundEnd

theorem memOk_phaseEndStep {op : Nat} {r : ReachId} {now : Time} {t : TileId} {hold cycles : Word32} {c : Chip} (h : c.memOk) :
    (phaseEndStep op r now t hold cycles c).memOk := by
  unfold phaseEndStep
  extract_lets c1
  have hc1 : c1.memOk := h.at
  split
  · exact hc1.endPhase.ite hc1
  · exact hc1.startStep fun _ _ _ _ hy => hy.endPhase

/-! ### Gauges -/

theorem Chip.memOk.gaugeDenied {c : Chip} {p : RegPath} (h : c.memOk) : (c.gaugeDenied p).memOk :=
  h.other

theorem memOk_gaugeSnap {p : RegPath} {value : Word64} {c : Chip} (h : c.memOk) : (gaugeSnap p value c).memOk := by
  unfold gaugeSnap
  extract_lets
  split
  · exact h.gaugeDenied
  · exact h.gaugeDenied.ite h.other

/-! ### Role requests -/

theorem memOk_refusedWith {c : Chip} {status : Nat} (h : c.memOk) : (refusedWith c status).memOk :=
  h

theorem memOk_doneWith {c : Chip} {result : Word64} (h : c.memOk) : (doneWith c result).memOk :=
  h

theorem Chip.memOk.roleRefused {c : Chip} {p : ReqPath} {b : RoleReq} {check code : Nat} (h : c.memOk) : (c.roleRefused p b check code).memOk :=
  (h.other.log.ite h.other).answer

theorem Chip.memOk.roleRun {c : Chip} {p : ReqPath} {b : RoleReq} {subop : Nat} {act : Chip → Who → RoleDone} (h : c.memOk)
    (hf : ∀ (a : Chip) (a_1 : Who), a.memOk → (act a a_1).memOk) : (c.roleRun p b subop act).memOk := by
  unfold Chip.roleRun
  refine h.ite ?_
  split
  · exact h.roleRefused
  · exact h.answer.ite (hf _ _ (h.ite h.other)).answer

theorem Chip.memOk.endMctpSession {c : Chip} {w : Who} (h : c.memOk) : (c.endMctpSession w).memOk := by
  unfold Chip.endMctpSession
  split
  · exact h
  · exact h.log.other

theorem memOk_roleOpen {p : ReqPath} {b : RoleReq} {c : Chip} (h : c.memOk) : (roleOpen p b c).memOk := by
  unfold roleOpen
  refine h.roleRun ?_
  intro _ _ hx
  extract_lets _ _ _ c1 c2 _ c3
  have hc1 : c1.memOk := hx.endPfSession.ite hx.endMctpSession
  have hc2 : c2.memOk := hc1.log
  have hc3 : c3.memOk := hc2.other.ite hc2.other
  exact (memOk_refusedWith hx).ite (memOk_doneWith hc3)

theorem memOk_roleClose {p : ReqPath} {b : RoleReq} {c : Chip} (h : c.memOk) : (roleClose p b c).memOk := by
  unfold roleClose
  refine h.roleRun ?_
  intro _ _ hx
  split
  · split
    · exact memOk_doneWith hx
    · exact memOk_doneWith hx.log.other
  · exact memOk_doneWith hx.endMctpSession

theorem memOk_roleSessionExpiry {r : ReachId} {now : Time} {mctp : Bool} {c : Chip} (h : c.memOk) : (roleSessionExpiry r now mctp c).memOk :=
  (h.at.endMctpSession.ite h.at).ite (h.at.endPfSession.ite h.at)

theorem memOk_enrol {p : ReqPath} {b : RoleReq} {c : Chip} (h : c.memOk) : (enrol p b c).memOk := by
  unfold enrol
  refine h.roleRun ?_
  intro _ _ hx
  extract_lets _ _ _ _ c1
  have hc1 : c1.memOk := hx.log
  refine (memOk_refusedWith hx).ite ?_
  refine ((memOk_doneWith hc1.other).ite (memOk_refusedWith hx)).ite ?_
  split
  · exact (memOk_doneWith hc1.other).ite (memOk_refusedWith hx)
  · refine (memOk_refusedWith hx).ite ?_
    refine (memOk_doneWith hc1.other).ite ?_
    split
    · exact memOk_doneWith hc1.other
    · exact memOk_refusedWith hx

theorem memOk_revoke {p : ReqPath} {b : RoleReq} {c : Chip} (h : c.memOk) : (revoke p b c).memOk := by
  unfold revoke
  refine h.roleRun ?_
  intro _ _ hx
  extract_lets
  split
  · exact memOk_refusedWith hx
  · exact (memOk_refusedWith hx).ite (memOk_doneWith hx.log.other)

theorem memOk_imageStage {p : ReqPath} {b : RoleReq} {image : Image} {c : Chip} (h : c.memOk) : (imageStage p b image c).memOk := by
  unfold imageStage
  refine h.roleRun ?_
  intro _ _ hx
  extract_lets _ _ _ _ c1
  have hc1 : c1.memOk := hx.log
  exact (memOk_refusedWith hx).ite ((memOk_refusedWith hx).ite ((memOk_refusedWith hx).ite (memOk_doneWith hc1.other)))

theorem memOk_svnCommit {p : ReqPath} {b : RoleReq} {c : Chip} (h : c.memOk) : (svnCommit p b c).memOk := by
  unfold svnCommit
  refine h.roleRun ?_
  intro _ _ hx
  extract_lets _ _ _ c1
  have hc1 : c1.memOk := hx.log
  exact (memOk_refusedWith hx).ite ((memOk_refusedWith hx).ite ((memOk_doneWith hx).ite ((memOk_refusedWith hx).ite (memOk_doneWith hc1.other))))

theorem Chip.memOk.putKey {c : Chip} {rs : List ReachId} {slot : Nat} {k : KeySlot} (h : c.memOk) : (c.putKey rs slot k).memOk :=
  h.forEach fun _ _ hx => hx.onReach fun _ hy => hy.other

theorem memOk_fabricKey {p : ReqPath} {b : RoleReq} {c : Chip} (h : c.memOk) : (fabricKey p b c).memOk := by
  unfold fabricKey
  refine h.roleRun ?_
  intro _ _ hx
  extract_lets
  split
  · exact memOk_refusedWith hx
  · refine (memOk_refusedWith hx).ite ?_
    split
    · exact memOk_refusedWith hx
    · exact memOk_doneWith hx.log.putKey.other

theorem Chip.memOk.eraseKey {c : Chip} {slot : Nat} (h : c.memOk) : (c.eraseKey slot).memOk :=
  (h.forEach fun _ _ hx => hx.onReach fun _ hy => hy.other).other

theorem memOk_fabricKeyRetire {r : ReachId} {now : Time} {slot : Nat} {c : Chip} (h : c.memOk) : (fabricKeyRetire r now slot c).memOk := by
  unfold fabricKeyRetire
  extract_lets c1
  have hc1 : c1.memOk := h.at
  split
  · exact hc1
  · exact hc1.log.eraseKey.ite hc1

theorem memOk_fabricKeyAgeAlert {r : ReachId} {now : Time} {slot : Nat} {c : Chip} (h : c.memOk) : (fabricKeyAgeAlert r now slot c).memOk := by
  unfold fabricKeyAgeAlert
  extract_lets c1
  have hc1 : c1.memOk := h.at
  split
  · exact hc1
  · exact hc1.ite hc1.other.gateHealth

theorem memOk_kekSet {p : ReqPath} {b : RoleReq} {c : Chip} (h : c.memOk) : (kekSet p b c).memOk := by
  unfold kekSet
  refine h.roleRun ?_
  intro _ _ hx
  extract_lets _ _ _ c1
  have hc1 : c1.memOk := hx.log
  refine (memOk_refusedWith hx).ite ?_
  refine (memOk_refusedWith hx).ite ?_
  split
  · exact memOk_refusedWith hx
  · exact memOk_doneWith hc1.other

theorem memOk_hostKeyInstall {p : ReqPath} {b : RoleReq} {c : Chip} (h : c.memOk) : (hostKeyInstall p b c).memOk := by
  unfold hostKeyInstall
  refine h.roleRun ?_
  intro _ _ hx
  split
  · exact memOk_refusedWith hx
  · split
    · exact memOk_refusedWith hx
    · split
      · exact memOk_refusedWith hx
      · exact memOk_refusedWith hx
      · exact memOk_doneWith hx.log.putKey

theorem memOk_logRead {p : ReqPath} {b : RoleReq} {c : Chip} (h : c.memOk) : (logRead p b c).memOk :=
  h.roleRun fun _ _ hx => (memOk_refusedWith hx).ite hx.other

theorem memOk_logTrim {p : ReqPath} {b : RoleReq} {c : Chip} (h : c.memOk) : (logTrim p b c).memOk :=
  h.roleRun fun _ _ hx => (memOk_refusedWith hx).ite (memOk_doneWith (hx.log.other.ite hx.other.log))

theorem memOk_cipherOp {p : ReqPath} {b : RoleReq} {d : CipherData} {c : Chip} (h : c.memOk) : (cipherOp p b d c).memOk := by
  unfold cipherOp
  refine h.ite ?_
  split
  · exact h.roleRefused
  · exact h.cipher

theorem memOk_identity {p : ReqPath} {b : RoleReq} {c : Chip} (h : c.memOk) : (identity p b c).memOk :=
  h.roleRun fun _ _ hx => hx

/-! ### A tile's registers -/

theorem Tile.memOk.clearFlags {t : Tile} {v : Word32} (h : t.memOk) : (t.clearFlags v).memOk :=
  h.same

/-! ### Commands of the trace unit -/

theorem Chip.memOk.onTrace {c : Chip} {r : ReachId} {f : Trace → Trace} (h : c.memOk) : (c.onTrace r f).memOk :=
  h.onReach fun _ hx => hx.other

theorem memOk_traceStall {r : ReachId} {now : Time} {c : Chip} (h : c.memOk) : (traceStall r now c).memOk := by
  unfold traceStall
  extract_lets c1
  have hc1 : c1.memOk := h.at.onTrace
  split
  · exact hc1
  · exact hc1.ite hc1.onTrace.tdc

theorem memOk_traceRoomReturn {r : ReachId} {now : Time} {c : Chip} (h : c.memOk) : (traceRoomReturn r now c).memOk :=
  h.at.onTrace

theorem memOk_traceSyncTimer {r : ReachId} {now : Time} {c : Chip} (h : c.memOk) : (traceSyncTimer r now c).memOk :=
  h.at.ite h.at.trace

theorem memOk_traceCaptureFull {r : ReachId} {now : Time} {c : Chip} (h : c.memOk) : (traceCaptureFull r now c).memOk :=
  h.at.ite h.at.onTrace

theorem Chip.memOk.trcControl {c : Chip} {new : Word64} (h : c.memOk) : (c.trcControl new).memOk :=
  h.other.forEach fun _ _ hx => hx.onTrace

theorem Chip.memOk.trcCtrlWrite {c : Chip} {p : RegPath} {value : Word64} (h : c.memOk) : (c.trcCtrlWrite p value).memOk :=
  h.ignoreWrite.ite ((h.trcControl.ite h).ite (h.rwlWrite fun _ hx => hx.trcControl))

theorem memOk_trcCtrlArm {p : RegPath} {value : Word64} {c : Chip} (h : c.memOk) : (trcCtrlArm p value c).memOk :=
  h.trcCtrlWrite.ite h

theorem Chip.memOk.trcTrigWrite {c : Chip} {p : RegPath} {value : Word64} (h : c.memOk) : (c.trcTrigWrite p value).memOk := by
  unfold Chip.trcTrigWrite
  extract_lets _ c1
  have hc1 : c1.memOk := h.rwlWrite fun _ hx => hx.other
  refine h.ignoreWrite.ite ?_
  refine hc1.ite ?_
  split
  · exact hc1.fire
  · exact hc1

theorem memOk_trcTrigFire {p : RegPath} {value : Word64} {c : Chip} (h : c.memOk) : (trcTrigFire p value c).memOk :=
  h.trcTrigWrite.ite h

theorem Chip.memOk.trcTrigTimeWrite {c : Chip} {p : RegPath} {value : Word64} (h : c.memOk) : (c.trcTrigTimeWrite p value).memOk :=
  h.rwlWrite fun _ hx => hx.other

theorem Chip.memOk.trcStatusWrite {c : Chip} {p : RegPath} {value : Word64} (h : c.memOk) : (c.trcStatusWrite p value).memOk :=
  h.ite (h.ignoreWrite.ite h.other)

theorem Chip.memOk.trcDumpAddrWrite {c : Chip} {p : RegPath} {value : Word64} (h : c.memOk) : (c.trcDumpAddrWrite p value).memOk :=
  h.rwlWrite fun _ hx => hx.other

theorem Chip.memOk.trcMaskWrite {c : Chip} {p : RegPath} {r : ReachId} {offset : Nat} {value : Word64} (h : c.memOk) :
    (c.trcMaskWrite p r offset value).memOk :=
  h.rwlWrite fun _ hx => hx.onTrace

theorem memOk_traceTriggerNotice {r : ReachId} {now : Time} {src : ReachId} {c : Chip} (h : c.memOk) : (traceTriggerNotice r now src c).memOk :=
  h.at.ite (h.at.other.triggerRecord.ite h.at.other)

theorem memOk_traceTriggerTime {r : ReachId} {now : Time} {c : Chip} (h : c.memOk) : (traceTriggerTime r now c).memOk :=
  h.at.ite h.at.fire.other

theorem memOk_traceFrameSend {c : Chip} (h : c.memOk) : (traceFrameSend c).memOk := by
  unfold traceFrameSend
  refine h.ite ?_
  split
  · exact h
  · exact h.emit.other.onTrace

theorem memOk_traceAlignmentBlock {c : Chip} (h : c.memOk) : (traceAlignmentBlock c).memOk :=
  h.emit

theorem Chip.memOk.trcDumpWrite {c : Chip} {p : RegPath} {value : Word64} (h : c.memOk) : (c.trcDumpWrite p value).memOk := by
  unfold Chip.trcDumpWrite
  extract_lets _ c1
  have hc1 : c1.memOk := h.rwlWrite fun _ hx => hx.other
  exact h.ignoreWrite.ite (h.ite (hc1.ite hc1.other))

theorem memOk_trcDumpGo {p : RegPath} {value : Word64} {c : Chip} (h : c.memOk) : (trcDumpGo p value c).memOk :=
  h.trcDumpWrite.ite h

theorem Chip.memOk.dumpCopy {c : Chip} {limit k : Nat} {l : List ReachId} (h : c.memOk) : (c.dumpCopy limit k l).memOk := by
  induction l generalizing c k with
  | nil => exact h
  | cons r rs ih => exact ih (h.withHost (Mem.wf_writeBytes _ _ (Mem.wf_zeroRange _ _ h.hostMem)))

theorem memOk_traceDumpDone {refused : Option Nat} {c : Chip} (h : c.memOk) : (traceDumpDone refused c).memOk :=
  h.ite (h.other.ite h.dumpCopy.other)

/-! ### Registers as they read -/

theorem Chip.memOk.regRead {c : Chip} {p : RegPath} {a : RegAddr} (h : c.memOk) : (c.regRead p a).2.memOk := by
  unfold Chip.regRead
  split
  · exact h
  · exact h.iteSnd h.gaugeDenied

/-! ### The maintenance service -/

theorem Chip.memOk.maintOpen {c : Chip} {r : ReachId} {src : Word16} {q : EchoReq} (h : c.memOk) : (c.maintOpen r src q).2.memOk := by
  unfold Chip.maintOpen
  refine h.iteSnd ?_
  split
  · exact h
  · split
    · exact h
    · exact h.free.onReach fun _ hz => hz.other

theorem memOk_echoReq {r : ReachId} {now : Time} {src : Word16} {q : EchoReq} {c : Chip} (h : c.memOk) : (echoReq r now src q c).memOk :=
  h.at.takeKeeper.ite (h.at.takeKeeper.maintOpen.iteSnd h.at.takeKeeper).sendKeeper

theorem memOk_echoResp {r : ReachId} {now : Time} {a : EchoResp} {c : Chip} (h : c.memOk) : (echoResp r now a c).memOk :=
  h.at.takeKeeper

theorem memOk_maintenanceContextIdle {r : ReachId} {now : Time} {i : Fin 64} {c : Chip} (h : c.memOk) : (maintenanceContextIdle r now i c).memOk := by
  unfold maintenanceContextIdle
  extract_lets c1
  have hc1 : c1.memOk := h.at
  split
  · exact hc1
  · exact hc1.ite (hc1.onReach fun _ hy => hy.other)

theorem memOk_mirrorRefreshTimer {r : ReachId} {now : Time} {c : Chip} (h : c.memOk) : (mirrorRefreshTimer r now c).memOk := by
  refine .ite h.at (h.at.onReach fun x hx => hx.withBytes ?_)
  dsimp only
  exact Mem.wf_writeBytes _ _ (Mem.wf_writeBytes _ _ (Mem.wf_writeBytes _ _ (Mem.wf_zeroRange _ _ hx.bytes)))

/-! ### Installer registers -/

theorem Reach.memOk.rwlSet {x : Reach} {w : WinReg} {v : Word64} (h : x.memOk) : (x.rwlSet w v).memOk := by
  unfold Reach.rwlSet
  split
  · exact h.other
  · exact h.other
  · exact h.same
  · exact h.other
  · exact h.other.forEach fun _ _ hy => hy.onMac
  · exact h.other
  · exact h.other
  · exact h.other
  · exact h.other
  · exact h.other
  · exact h.other
  · exact h.other
  · exact h.other
  · exact h.same
  · exact h.other
  · exact h.other
  · exact h.other
  · exact h.onMac
  · exact h.other
  · exact h.other
  · exact h.onMac
  · exact h.other
  · exact h

theorem Reach.memOk.restore {x : Reach} {s : SiteCopy} (h : x.memOk) : (x.restore s).memOk := by
  unfold Reach.restore
  extract_lets x1 _ x2 x3
  have hx1 : x1.memOk := by
    refine h.forEach ?_
    intro _ _ hx
    split
    · exact hx.other
    · exact hx.rwlSet
    · exact hx
  have hx2 : x2.memOk := hx1.other
  have hx3 : x3.memOk := by
    refine hx2.forEach ?_
    intro _ _ hx
    split
    · exact hx.onMac
    · exact hx
  refine hx3.forEach ?_
  intro _ _ hx
  split
  · exact hx.onMac
  · exact hx

/-! ### The SPDM responder -/

theorem Chip.memOk.setSpdm {c : Chip} {eid : BitVec 8} {x : SpdmConn} (h : c.memOk) : (c.setSpdm eid x).memOk :=
  h.other

theorem Chip.memOk.spdmRefuse {c : Chip} {eid : BitVec 8} {code : Byte} (h : c.memOk) : (c.spdmRefuse eid code).memOk :=
  h.emit

theorem memOk_spdmGetVersion {eid : BitVec 8} {msg : List Byte} {c : Chip} (h : c.memOk) : (spdmGetVersion eid msg c).memOk :=
  h.setSpdm.emit

theorem memOk_spdmGetCapabilities {eid : BitVec 8} {msg : List Byte} {c : Chip} (h : c.memOk) : (spdmGetCapabilities eid msg c).memOk :=
  h.spdmRefuse.ite h.setSpdm.emit

theorem memOk_spdmNegotiateAlgorithms {eid : BitVec 8} {msg : List Byte} {offered : Bool} {c : Chip} (h : c.memOk) :
    (spdmNegotiateAlgorithms eid msg offered c).memOk :=
  h.spdmRefuse.ite (h.spdmRefuse.ite h.setSpdm.emit)

theorem memOk_spdmGetDigests {eid : BitVec 8} {msg : List Byte} {c : Chip} (h : c.memOk) : (spdmGetDigests eid msg c).memOk :=
  h.spdmRefuse.ite h.setSpdm.emit

theorem memOk_spdmGetCertificate {eid : BitVec 8} {msg : List Byte} {slot offset length : Nat} {c : Chip} (h : c.memOk) :
    (spdmGetCertificate eid msg slot offset length c).memOk :=
  h.spdmRefuse.ite (h.spdmRefuse.ite h.setSpdm.emit)

theorem Chip.memOk.measure {c : Chip} {i : Nat} (h : c.memOk) : (c.measure i).2.memOk := by
  unfold Chip.measure
  split
  · exact h
  · exact h
  · exact h
  · exact h
  · exact h
  · exact h
  · exact h.freeBytes
  · exact h
  · exact h
  · exact h
  · exact h

theorem Chip.memOk.measures {c : Chip} {op : Nat} (h : c.memOk) : (c.measures op).2.memOk := by
  unfold Chip.measures
  split
  · exact h
  · split
    · exact Chip.memOk.foldlSnd h fun _ _ hs => hs.measure
    · exact h.measure

theorem Chip.memOk.spdmSigned {c : Chip} {transcript data : List Byte} (h : c.memOk) : (c.spdmSigned transcript data).2.2.memOk :=
  h.freeBytes

theorem memOk_spdmChallenge {eid : BitVec 8} {msg : List Byte} {slot : Nat} {summary : Bool} {c : Chip} (h : c.memOk) :
    (spdmChallenge eid msg slot summary c).memOk :=
  h.spdmRefuse.ite (h.spdmRefuse.ite (h.measures.iteSnd h).other.setSpdm.emit)

theorem memOk_spdmGetMeasurements {eid : BitVec 8} {msg : List Byte} {op : BitVec 8} {sign : Bool} {c : Chip} (h : c.memOk) :
    (spdmGetMeasurements eid msg op sign c).memOk := by
  unfold spdmGetMeasurements
  extract_lets
  exact h.spdmRefuse.ite (h.spdmRefuse.ite (h.measures.other.setSpdm.emit.ite h.measures.setSpdm.emit))

theorem memOk_pqCosign {eid : BitVec 8} {c : Chip} (h : c.memOk) : (pqCosign eid c).memOk := by
  unfold pqCosign
  split
  · exact h.spdmRefuse
  · exact h.emit

theorem memOk_pqChain {eid : BitVec 8} {offset length : Nat} {c : Chip} (h : c.memOk) : (pqChain eid offset length c).memOk :=
  h.emit

/-! ### Start-up and its end -/

theorem Reach.memOk.moduleReset {x : Reach} {rails : Fin 8} : (x.moduleReset rails).memOk := Reach.memOk.reset.same

theorem Chip.memOk.moduleReset {c : Chip} {rails : Quad (Fin 8)} (h : c.memOk) : (c.moduleReset rails).memOk := by
  refine ⟨h.hostMem, fun r => ?_⟩
  match r with
  | 0 => exact Reach.memOk.moduleReset
  | 1 => exact Reach.memOk.moduleReset
  | 2 => exact Reach.memOk.moduleReset
  | 3 => exact Reach.memOk.moduleReset

theorem Chip.memOk.logBoot {c : Chip} {type slot svn : Nat} (h : c.memOk) : (c.logBoot type slot svn).memOk :=
  h.log

theorem Chip.memOk.bootType {c : Chip} {type : Nat} (h : c.memOk) : (c.bootType type).memOk := by
  unfold Chip.bootType
  split
  · exact h.other.logBoot
  · exact h.other.logBoot.gateHealth

theorem Chip.memOk.boot {c : Chip} (h : c.memOk) : c.boot.memOk := by
  unfold Chip.boot
  extract_lets c1 c2 c3 _ c4
  have hc1 : c1.memOk := h.other
  have hc2 : c2.memOk := hc1.ite hc1.alert
  have hc3 : c3.memOk := hc2.bootType.ite hc2.logBoot
  have hc4 : c4.memOk := hc3.bootType.bootType.bootType
  exact hc3.other.ite (hc4.trainHost.ite hc4)

theorem Chip.memOk.faultAll {c : Chip} (h : c.memOk) : c.faultAll.memOk :=
  h.forEach fun _ _ hx => hx.faultLinks

theorem memOk_moduleReset {c : Chip} (h : c.memOk) : (moduleReset c).memOk :=
  h.faultAll.moduleReset.boot

theorem Chip.memOk.powerOff {c : Chip} (h : c.memOk) : c.powerOff.memOk :=
  h.moduleReset.other

theorem memOk_pwrEnRise {rails : Quad (Fin 8)} {lowLong : Bool} {c : Chip} (h : c.memOk) : (pwrEnRise rails lowLong c).memOk :=
  h.ite (h.other.ite (h.other.other.moduleReset.boot.ite h.other.other.moduleReset))

theorem memOk_pwrEnFall {c : Chip} (h : c.memOk) : (pwrEnFall c).memOk :=
  h.other.powerOff.ite h

theorem memOk_inputCutOff {lowUs highUs : Nat} {c : Chip} (h : c.memOk) : (inputCutOff lowUs highUs c).memOk :=
  h.other.powerOff.ite h

theorem memOk_thermTrip {hottest gatehouse : Nat} {c : Chip} (h : c.memOk) : (thermTrip hottest gatehouse c).memOk :=
  h.other.powerOff.ite h

theorem memOk_mrstNLow {c : Chip} (h : c.memOk) : (mrstNLow c).memOk :=
  h.faultAll.other.moduleReset

theorem memOk_mrstNRelease {rails : Quad (Fin 8)} {c : Chip} (h : c.memOk) : (mrstNRelease rails c).memOk :=
  h.ite (h.other.moduleReset.boot.ite h.other)

theorem memOk_strapChange {modid : BitVec 10} {parity mode : Bool} {c : Chip} (h : c.memOk) : (strapChange modid parity mode c).memOk :=
  h.other

theorem memOk_ppsOutEdge {r : ReachId} {now : Time} {c : Chip} (h : c.memOk) : (ppsOutEdge r now c).memOk :=
  h.at.emit.ite h.at

theorem Chip.memOk.rebuildXlt {c : Chip} {r : ReachId} (h : c.memOk) : (c.rebuildXlt r).memOk :=
  h.ite (h.other.closeFaults.forEach fun _ _ hx => hx.health)

theorem Chip.memOk.enterService {c : Chip} {r : ReachId} (h : c.memOk) : (c.enterService r).memOk :=
  (h.onReach fun _ hx => hx.other).rebuildXlt.onRtr

theorem Chip.memOk.quickDone {c : Chip} {r : ReachId} (h : c.memOk) : (c.quickDone r).memOk := by
  unfold Chip.quickDone
  extract_lets c1 _ c2
  have hc1 : c1.memOk := h.testReport
  have hc2 : c2.memOk := hc1.enterService
  exact (hc1.onReach fun _ hx => hx.other).ite (hc2.health.ite hc2)

theorem Chip.memOk.startReach {c : Chip} {r : ReachId} {run : TestRun} (h : c.memOk) : (c.startReach r run).memOk := by
  unfold Chip.startReach
  extract_lets _ c1 c2 c3 _ c4
  have hc1 : c1.memOk := h.onBist
  have hc2 : c2.memOk := hc1.onReach fun _ hx => hx.other
  have hc3 : c3.memOk := hc2.testBegin
  have hc4 : c4.memOk := hc3.other
  refine hc1.ite ?_
  refine (hc2.onReach fun _ hx => hx.other).ite ?_
  refine hc2.enterService.health.ite ?_
  refine hc2.enterService.ite ?_
  split
  · exact hc4
  · exact hc4.testRuns.quickDone

theorem Chip.memOk.autoCommit {c : Chip} {type : Nat} (h : c.memOk) : (c.autoCommit type).memOk :=
  h.ite h.log.other

theorem Chip.memOk.becomeReady {c : Chip} {readyMs : Word32} (h : c.memOk) : (c.becomeReady readyMs).memOk :=
  (h.other.forEach fun _ _ hx => hx.autoCommit).forEach fun _ _ hx => hx.attachGo

theorem memOk_moduleReady {runs : Quad TestRun} {readyMs : Word32} {c : Chip} (h : c.memOk) : (moduleReady runs readyMs c).memOk := by
  unfold moduleReady
  refine h.ite ?_
  extract_lets _ _ _ c1
  have hc1 : c1.memOk := (h.other.forEach fun _ _ hx => hx.startReach).ite h
  exact hc1.becomeReady.ite hc1

theorem memOk_reachResetComplete {r : ReachId} {now : Time} {c : Chip} (h : c.memOk) : (reachResetComplete r now c).memOk := by
  unfold reachResetComplete
  refine h.ite ?_
  extract_lets c1 c2 c3 c4 _ _ c5 c6
  have hc1 : c1.memOk := h.domainStart.at
  have hc2 : c2.memOk := hc1.onReach fun _ hx => hx.restore
  have hc3 : c3.memOk := hc2.onReach fun _ hx => hx.same
  have hc4 : c4.memOk := (hc3.onReach fun _ hx => hx.other).ite hc3.enterService
  have hc5 : c5.memOk := hc4.other
  have hc6 : c6.memOk := hc5.forEach fun _ _ hx => hx.complete
  exact hc6.bistFinished.settle

theorem Chip.memOk.drainBegin {c : Chip} (h : c.memOk) : c.drainBegin.memOk := by
  unfold Chip.drainBegin
  extract_lets c1 _ c2 c3
  have hc1 : c1.memOk := h.log
  have hc2 : c2.memOk := hc1.forEach fun _ _ hx => hx.driverStop
  have hc3 : c3.memOk := hc2.forEach fun _ _ hx => hx.forEach fun _ _ hy => hy.collFail
  exact hc3.other

theorem Chip.memOk.shutResume {c : Chip} (h : c.memOk) : c.shutResume.memOk :=
  h.drainBegin.ite h

theorem Chip.memOk.gateShutWrite {c : Chip} {p : RegPath} {value : Word64} (h : c.memOk) : (c.gateShutWrite p value).memOk := by
  unfold Chip.gateShutWrite
  extract_lets _ _ c1
  have hc1 : c1.memOk := h.rwlWrite fun _ hx => hx.other
  exact h.ignoreWrite.ite (hc1.ite (hc1.drainBegin.ite hc1.other))

theorem memOk_gateShutGo {p : RegPath} {value : Word64} {c : Chip} (h : c.memOk) : (gateShutGo p value c).memOk :=
  h.gateShutWrite.ite h

theorem Chip.memOk.drainEntry {c : Chip} {r : ReachId} {by_ : Submitter} {cq : Word16} {e : WorkEntry} {status : BitVec 8} (h : c.memOk) :
    (c.drainEntry r by_ cq e status).memOk := by
  unfold Chip.drainEntry
  split
  · exact h.entryDone
  · exact h

theorem Chip.memOk.drainReach {c : Chip} {r : ReachId} (h : c.memOk) : (c.drainReach r).memOk :=
  h.forEach fun _ _ hx => ((hx.forEach fun _ _ hy => hy.drainEntry).forEach fun _ _ hy => hy.drainEntry).onQp

theorem Chip.memOk.shutSkip {c : Chip} {r : ReachId} {cause : Nat} (h : c.memOk) : (c.shutSkip r cause).memOk :=
  ((h.holdReach.ite h).onReach fun _ hx => hx.other).onBist

theorem Chip.memOk.shutTested {c : Chip} {r : ReachId} (h : c.memOk) : (c.shutTested r).memOk :=
  (h.testReport.onReach fun _ hx => hx.other).other

theorem Chip.memOk.shutReach {c : Chip} {r : ReachId} {run : TestRun} (h : c.memOk) : (c.shutReach r run).memOk := by
  unfold Chip.shutReach
  extract_lets _ c1
  have hc1 : c1.memOk := h.testBegin
  refine h.shutSkip.ite ?_
  refine h.shutSkip.ite ?_
  split
  · exact hc1.other
  · exact hc1.testRuns.shutTested

theorem memOk_shutdownDrainEnd {r : ReachId} {now : Time} {runs : Quad TestRun} {c : Chip} (h : c.memOk) : (shutdownDrainEnd r now runs c).memOk := by
  unfold shutdownDrainEnd
  extract_lets c1 _ c2 _ c3
  have hc1 : c1.memOk := h.at
  have hc2 : c2.memOk := hc1.forEach fun _ _ hx => hx.drainReach
  have hc3 : c3.memOk := hc2.other
  exact hc1.ite (hc3.forEach fun _ _ hx => hx.shutReach).settle

theorem memOk_shutdownDone {c : Chip} (h : c.memOk) : (shutdownDone c).memOk := by
  unfold shutdownDone
  refine h.ite ?_
  extract_lets c1 c2
  have hc1 : c1.memOk := h.forEach fun _ _ hx => hx.onReach fun _ hy => hy.same
  have hc2 : c2.memOk := hc1.other.ite hc1
  exact hc2.other.alert

theorem memOk_keeperWatchdogExpiry {r : ReachId} {now : Time} {core : Fin 12} {c : Chip} (h : c.memOk) :
    (keeperWatchdogExpiry r now core c).memOk := by
  unfold keeperWatchdogExpiry
  extract_lets c1 _ _ _ c2 c3
  have hc1 : c1.memOk := h.at
  have hc2 : c2.memOk := hc1.other
  have hc3 : c3.memOk := hc2.gateHealth
  exact Chip.memOk.dite (fun _ => (memOk_watchReach hc1).settle.ite hc1) fun _ => (memOk_moduleReset hc3).ite hc3

theorem memOk_bistWindowTimeout {r : ReachId} {now : Time} {c : Chip} (h : c.memOk) : (bistWindowTimeout r now c).memOk := by
  unfold bistWindowTimeout
  extract_lets c1 _ c2
  have hc1 : c1.memOk := h.at
  have hc2 : c2.memOk := hc1.testUntested
  exact hc1.ite (hc2.shutTested.ite (hc2.quickDone.ite hc2.bistEnded.settle.shutResume))

/-! ### Writes to set-up registers -/

theorem Chip.memOk.onPath {c : Chip} {p : RegPath} {f : Chip → Chip} (h : c.memOk) (hf : ∀ (a : Chip), a.memOk → (f a).memOk) :
    (c.onPath p f).memOk :=
  (hf _ h).ite h

theorem Chip.memOk.inWindow {c : Chip} {p : RegPath} {r : ReachId} {f : Chip → Chip} (h : c.memOk) (hf : ∀ (a : Chip), a.memOk → (f a).memOk) :
    (c.inWindow p r f).memOk :=
  (hf _ h).ite h.ignoreWrite

theorem Chip.memOk.rwlAfter {c : Chip} {r : ReachId} {w : WinReg} {new : Word64} (h : c.memOk) : (c.rwlAfter r w new).memOk := by
  unfold Chip.rwlAfter
  split
  · exact h.ite (memOk_linkFault h)
  · exact h.floodOwn
  · exact h.timeCtrlAfter
  · exact h

theorem Chip.memOk.rwlWindow {c : Chip} {p : RegPath} {r : ReachId} {o : Nat} {w : WinReg} {m v : Word64} (h : c.memOk) :
    (c.rwlWindow p r o w m v).memOk :=
  h.rwlWrite fun _ hx => (hx.onReach fun _ hy => hy.rwlSet).onSite.rwlAfter

theorem Chip.memOk.floorWrite {c : Chip} {r : ReachId} {v : Word64} (h : c.memOk) : (c.floorWrite r v).memOk :=
  h.onTime

theorem memOk_timeFloorWrite {p : RegPath} {r : ReachId} {v : Word64} {c : Chip} (h : c.memOk) : (timeFloorWrite p r v c).memOk :=
  h.onPath fun _ hx => hx.inWindow fun _ hy => hy.floorWrite

theorem Chip.memOk.sluiceWrite {c : Chip} {p : RegPath} {r : ReachId} {q : PortId} {s : Nat} {v : Word64} (h : c.memOk) :
    (c.sluiceWrite p r q s v).memOk :=
  h.ignoreWrite.ite (h.ite (h.ite h.log).onMac.onSite)

theorem memOk_shpSluiceWrite {p : RegPath} {r : ReachId} {now : Time} {q : PortId} {s : Fin 72} {v : Word64} {c : Chip} (h : c.memOk) :
    (shpSluiceWrite p r now q s v c).memOk :=
  h.onPath fun _ hx => hx.at.inWindow fun _ hy => hy.sluiceWrite

theorem Chip.memOk.ctWrite {c : Chip} {p : RegPath} {r : ReachId} {q : PortId} {v : Word64} (h : c.memOk) : (c.ctWrite p r q v).memOk :=
  h.ite (h.rwlWrite fun _ hx => hx.onMac)

theorem memOk_macCtReset {p : RegPath} {r : ReachId} {q : PortId} {c : Chip} (h : c.memOk) : (macCtReset p r q c).memOk :=
  h.onPath fun _ hx => hx.inWindow fun _ hy => hy.ctWrite

theorem Chip.memOk.maskWrite {c : Chip} {p : RegPath} {r : ReachId} {v : Word64} (h : c.memOk) : (c.maskWrite p r v).memOk :=
  h.trcMaskWrite.onSite.ite h.trcMaskWrite

theorem Chip.memOk.winWrite {c : Chip} {p : RegPath} {r : ReachId} {o : Nat} {w : WinReg} {v ones : Word64} (h : c.memOk) :
    (c.winWrite p r o w v ones).memOk := by
  unfold Chip.winWrite
  split
  · exact h.floorWrite
  · exact h.onBist
  · exact h.maskWrite
  · exact (h.onReach fun _ hy => hy.same).ite h
  · exact h.onTile fun _ hy => hy.clearFlags
  · exact h.ctWrite
  · exact h.sluiceWrite
  · split
    · exact h.rwlWindow
    · exact h

theorem Chip.memOk.admWrite {c : Chip} {f : FnId} {g : HostFn → HostFn} (h : c.memOk) : (c.admWrite f g).memOk :=
  h.ite h.onFn

theorem Chip.memOk.fnWrite {c : Chip} {p : RegPath} {f : FnId} {x : FnReg} {v ones : Word64} (h : c.memOk) : (c.fnWrite p f x v ones).memOk := by
  unfold Chip.fnWrite
  refine h.ite ?_
  split
  · exact memOk_hostRevWrite h
  · exact (memOk_detach ((memOk_attach h).ite h)).ite ((memOk_attach h).ite h)
  · exact h.admWrite
  · exact h.admWrite
  · exact memOk_gaugeSnap h
  · exact (h.onTile fun _ hy => hy.clearFlags).ite h
  · exact h

theorem Chip.memOk.gateWrite {c : Chip} {p : RegPath} {x : GateReg} {v ones : Word64} (h : c.memOk) : (c.gateWrite p x v ones).memOk := by
  unfold Chip.gateWrite
  split
  · exact h.gateShutWrite
  · exact memOk_hostClkWrite h
  · exact memOk_pwrCapWrite h
  · exact h.rwlWrite fun _ hy => hy.other
  · exact h.rwlWrite fun _ hy => hy.other
  · exact h.trcCtrlWrite
  · exact h.trcTrigWrite
  · exact h.trcTrigTimeWrite
  · exact h.trcStatusWrite
  · exact h.trcDumpAddrWrite
  · exact h.trcDumpWrite
  · exact h

theorem Chip.memOk.regWrite {c : Chip} {p : RegPath} {o : Nat} {a : RegAddr} {cover value : Word64} (h : c.memOk) :
    (c.regWrite p o a cover value).memOk := by
  unfold Chip.regWrite
  extract_lets
  split
  · exact h.gateWrite
  · exact h.fnWrite
  · exact h.inWindow fun _ hy => hy.winWrite

theorem Chip.memOk.barWrite {c : Chip} {p : RegPath} {offset size : Nat} {value : Word64} (h : c.memOk) : (c.barWrite p offset size value).memOk := by
  unfold Chip.barWrite
  split
  · exact h
  · split
    · exact h.regWrite
    · exact h

theorem Chip.memOk.vectorMask {c : Chip} {f : FnId} {vector : BitVec 11} {masked : Bool} (h : c.memOk) : (c.vectorMask f vector masked).memOk :=
  h.onFn.ite (h.onFn.emit.ite h.onFn)

theorem memOk_registerWrite {p : RegPath} {w : RegWrite} {c : Chip} (h : c.memOk) : (registerWrite p w c).memOk := by
  unfold registerWrite
  refine h.onPath ?_
  intro _ hx
  split
  · exact hx.barWrite
  · split
    · exact hx.vectorMask
    · exact hx

theorem memOk_mctpRegRead {eid : BitVec 8} {offset : Nat} {c : Chip} (h : c.memOk) : (mctpRegRead eid offset c).memOk := by
  unfold mctpRegRead
  extract_lets
  split
  · exact h.emit
  · split
    · exact h.regRead.emit
    · exact h.emit

theorem memOk_mctpRegWrite {eid : BitVec 8} {offset : Nat} {value : Word64} {c : Chip} (h : c.memOk) : (mctpRegWrite eid offset value c).memOk :=
  h.barWrite.emit

theorem memOk_mctpConfigTable {eid : BitVec 8} {read : Bool} {t : ConfigTable} {c : Chip} (h : c.memOk) : (mctpConfigTable eid read t c).memOk :=
  h.emit.ite h.configWrite.emit

/-! ### Plans in time -/

theorem Chip.memOk.startColls {c : Chip} {r : ReachId} {p : PlanInst} (h : c.memOk) : (c.startColls r p).memOk := by
  unfold Chip.startColls
  extract_lets _ c1
  have hc1 : c1.memOk := h.onReach fun _ hx => hx.same
  refine hc1.forEach ?_
  intro _ _ hx
  refine hx.forEach ?_
  intro _ _ hy
  refine hy.ite ?_
  extract_lets
  split
  · exact hy.startInv
  · exact hy.startInv

theorem Chip.memOk.nextRounds {c : Chip} {r : ReachId} {p : PlanInst} (h : c.memOk) : (c.nextRounds r p).memOk :=
  (h.onReach fun _ hx => hx.same).forEach fun _ _ hx => hx.nextRound

theorem Reach.memOk.armXpos {x : Reach} {p : PlanInst} (h : x.memOk) : (x.armXpos p).memOk := by
  unfold Reach.armXpos
  split
  · exact h
  · exact h.ite h.same

theorem Chip.memOk.beginPhase {c : Chip} {r : ReachId} {handle : Word64} {all : Bool} (h : c.memOk) : (c.beginPhase r handle all).memOk := by
  unfold Chip.beginPhase
  split
  · exact h
  · extract_lets c1
    have hc1 : c1.memOk := h.forEach fun _ _ hy => hy.onTile fun _ hz => hz.enterPhase.ite hz
    exact (hc1.onReach fun _ hy => hy.armXpos).startColls

theorem Tile.memOk.restart {t : Tile} {start : Time} (h : t.memOk) : (t.restart start).memOk := by
  unfold Tile.restart
  cases t.resumeAt <;> exact .ite h.same h.same

theorem Chip.memOk.rerunInv {c : Chip} {r : ReachId} {i : CollInv} (h : c.memOk) : (c.rerunInv r i).memOk :=
  h.replaceInv

theorem memOk_planStart {r : ReachId} {now : Time} {handle : Word64} {c : Chip} (h : c.memOk) : (planStart r now handle c).memOk := by
  unfold planStart
  extract_lets c1 c2
  have hc1 : c1.memOk := h.at
  have hc2 : c2.memOk := hc1.onPlanBy
  split
  · exact hc1
  · refine hc1.ite ?_
    refine hc1.declareStop.ite ?_
    refine hc2.beginPhase.ite ?_
    extract_lets c3
    have hc3 : c3.memOk := hc2.forEach fun _ _ hy => hy.onTile fun _ hz => hz.restart.ite hz
    exact hc3.forEach fun _ _ hy => hy.rerunInv

theorem Chip.memOk.roundBoundary {c : Chip} {r : ReachId} {b : Time} {p : PlanInst} (h : c.memOk) : (c.roundBoundary r b p).memOk := by
  unfold Chip.roundBoundary
  refine h.ite ?_
  refine Chip.memOk.ite ?_ (h.onPlanBy.beginPhase.ite (h.onPlanBy.forEach fun _ _ hx => hx.onTile fun _ hy => hy.same.ite hy))
  extract_lets c1
  have hc1 : c1.memOk := h.onPlanBy
  split
  · exact hc1.nextRounds
  · exact hc1

theorem Chip.memOk.oneBoundary {c : Chip} {r : ReachId} (h : c.memOk) : (c.oneBoundary r).memOk := by
  unfold Chip.oneBoundary
  split
  · exact h
  · extract_lets _ _ c1 c2
    have hc1 : c1.memOk := h.onPlan
    have hc2 : c2.memOk := hc1.onReach fun _ hy => hy.forEach fun _ _ hz => hz.onMac
    exact hc2.forEach fun _ _ hy => hy.roundBoundary

theorem memOk_lockCycleBoundary {r : ReachId} {now : Time} {c : Chip} (h : c.memOk) : (lockCycleBoundary r now c).memOk :=
  h.at.foldl fun _ _ hx => hx.oneBoundary

theorem memOk_gateEntryBoundary {r : ReachId} {now : Time} {p : PortId} {c : Chip} (h : c.memOk) : (gateEntryBoundary r now p c).memOk := by
  unfold gateEntryBoundary
  dsimp only
  split
  · exact h.at
  · split
    · exact h.at.trace.onMac.tdc.ite h.at.trace.onMac
    · exact h.at.trace.onMac

/-! ### Save and restore -/

theorem memOk_tenSave {ref : CmdRef} {p : TenSave} {c : Chip} (h : c.memOk) : (tenSave ref p c).memOk := by
  unfold tenSave
  extract_lets _ _ _ _ c1
  have hc1 : c1.memOk := h.log
  refine h.complete.ite ?_
  refine h.complete.ite ?_
  refine h.complete.ite ?_
  split
  · exact h.complete
  · split
    · exact h.complete
    · exact h.complete.ite hc1.freeBytes.hostWrite.complete

theorem Chip.memOk.restorePage {c : Chip} {f : FnId} {asid : Nat} {p : Page} {bs : List Byte} (h : c.memOk) :
    (c.restorePage f asid p bs).1.memOk := by
  unfold Chip.restorePage
  dsimp only
  split
  · exact (h.onReach fun _ hy => hy.zeroPhys.writePhys).onAsid
  · exact h

theorem Chip.memOk.restoreAsids {c : Chip} {f : FnId} {l : List SavedAsid} {bytes : List Byte} (h : c.memOk) : (c.restoreAsids f l bytes).1.memOk :=
  (memOk_stepAll h fun _ _ hx => hx.iteFst (hx.iteFst hx.other)).iteFst (memOk_stepAll (memOk_stepAll h fun _ _ hx => hx.iteFst (hx.iteFst hx.other))
    fun _ _ hx => hx.restorePage)

theorem Chip.memOk.restoreTiles {c : Chip} {g : Grant} {bytes : List Byte} (h : c.memOk) : (c.restoreTiles g bytes).memOk := by
  unfold Chip.restoreTiles
  extract_lets
  exact h.forEach fun _ _ hx => hx.onTile fun _ _ => Tile.memOk.of_spad (Mem.wf_writeBytes _ _ Mem.wf_nil)

theorem Chip.memOk.restoreQp {c : Chip} {f : FnId} {remap : List (Word16 × Word16)} {b : List Byte} (h : c.memOk) : (c.restoreQp f remap b).1.memOk :=
  h.iteFst h.onRme

theorem Chip.memOk.restoreMoor {c : Chip} {f : FnId} {b : List Byte} (h : c.memOk) : (c.restoreMoor f b).1.memOk := by
  unfold Chip.restoreMoor
  dsimp only
  split
  · exact h
  · split
    · exact h
    · exact h.onRme

theorem Chip.memOk.installStopped {c : Chip} {r : ReachId} {k : Container} {s : SavedPlan} {handle : Word64} (h : c.memOk) :
    (c.installStopped r k s handle).memOk := by
  unfold Chip.installStopped
  extract_lets _ c1 c2 c3
  have hc1 : c1.memOk := h.onReach fun _ hx => hx.reserve.zeroCredits
  have hc2 : c2.memOk := hc1.forEach fun _ _ hx => hx.onTile fun _ hy => hy.same
  have hc3 : c3.memOk := hc2.onPlan
  exact hc3.writeGates

theorem Chip.memOk.restorePlan {c : Chip} {f : FnId} {e : SavedPlan × PlanLoad} (h : c.memOk) : (c.restorePlan f e).1.memOk := by
  unfold Chip.restorePlan
  refine h.iteFst ?_
  split
  · exact h
  · exact h.forEach fun _ _ hy => hy.installStopped

theorem Chip.memOk.restoreAll {c : Chip} {p : TenRestore} {header plain : List Byte} (h : c.memOk) : (c.restoreAll p header plain).1.memOk := by
  unfold Chip.restoreAll
  extract_lets f g
  split
  · exact h
  split
  next c1 st1 hc1 =>
  replace hc1 : c1.memOk := h.restoreAsids.of_fst hc1
  split
  · exact hc1
  extract_lets c2
  have hc2 : c2.memOk := hc1.restoreTiles
  split
  next c3 st3 hc3 =>
  replace hc3 : c3.memOk := (memOk_stepAll hc2 fun _ _ hx => hx.restoreQp).of_fst hc3
  split
  · exact hc3
  split
  next c4 st4 hc4 =>
  replace hc4 : c4.memOk := (memOk_stepAll hc3 fun _ _ hx => hx.restoreMoor).of_fst hc4
  split
  · exact hc4
  split
  · exact hc4
  split
  next c5 st5 hc5 =>
  replace hc5 : c5.memOk := (memOk_stepAll hc4 fun _ _ hx => hx.restorePlan).of_fst hc5
  split
  · exact hc5
  exact hc5.forEach fun _ _ hx => hx.onReach fun _ hy => hy.other

theorem memOk_tenRestore {ref : CmdRef} {p : TenRestore} {c : Chip} (h : c.memOk) : (tenRestore ref p c).memOk := by
  unfold tenRestore
  dsimp only
  refine h.complete.ite ?_
  refine h.complete.ite ?_
  refine h.complete.ite ?_
  refine h.complete.ite ?_
  split
  · exact h.complete
  · split
    · exact h.log.complete.shutStart.settle
    · exact h.log.restoreAll.complete.shutStart.settle.ite h.log.restoreAll.onTen.complete

end Sys2Proof.Machine
end

section
/-! Every command, and the step. -/

set_option Elab.async false

namespace Sys2Proof.Machine

theorem State.memOk.put {s : State} {c : Chip} (h : c.memOk) : (s.put c).memOk := h

theorem State.memOk.runPin {s t : State} {f : Chip → Chip} (h : s.memOk) (ht : s.runPin f = .next t) (hf : ∀ {c}, c.memOk → (f c).memOk) :
    t.memOk := by
  cases ht
  exact hf h

theorem State.memOk.run {s t : State} {f : Chip → Chip} (h : s.memOk) (ht : s.run f = .next t) (hf : ∀ {c}, c.memOk → (f c).memOk) : t.memOk :=
  h.runPin ht fun hc => (hf hc).ite hc

theorem State.memOk.runSettle {s t : State} {f : Chip → Chip} (h : s.memOk) (ht : s.runSettle f = .next t) (hf : ∀ {c}, c.memOk → (f c).memOk) :
    t.memOk := h.run ht fun hc => (hf hc).settle

theorem State.memOk.runCmd {s t : State} {ref : CmdRef} {f : CmdRef → Chip → Chip} (h : s.memOk) (ht : s.runCmd ref f = .next t)
    (hf : ∀ {c}, c.memOk → (f ref c).memOk) : t.memOk := h.run ht fun hc => (hf hc).ite hc

theorem State.memOk.runCmdSettle {s t : State} {ref : CmdRef} {f : CmdRef → Chip → Chip} (h : s.memOk) (ht : s.runCmdSettle ref f = .next t)
    (hf : ∀ {c}, c.memOk → (f ref c).memOk) : t.memOk := h.run ht fun hc => (hf hc).settle.ite hc

theorem State.memOk.runReq {s t : State} {p : ReqPath} {f : ReqPath → Chip → Chip} (h : s.memOk) (ht : s.runReq p f = .next t)
    (hf : ∀ {c}, c.memOk → (f p c).memOk) : t.memOk := by
  cases p with
  | ring ref resp respLen => exact h.runCmd (f := fun _ => f _) ht hf
  | mctp q => exact h.run ht hf

/-- Every command keeps the memories' canonical form. -/
theorem State.memOk.exec {i : Instr} {s t : State} (h : s.memOk) (ht : exec i s = .next t) : t.memOk := by
  cases i with
  | followUpRx => exact h.run ht fun hc => memOk_followUpRx hc
  | syncRx => exact h.run ht fun hc => memOk_syncRx hc
  | announceRx => exact h.run ht fun hc => memOk_announceRx hc
  | pdelayReqRx => exact h.run ht fun hc => memOk_pdelayReqRx hc
  | pdelayRespRx => exact h.run ht fun hc => memOk_pdelayRespRx hc
  | ptpManagementRx => exact h.run ht fun hc => memOk_ptpManagementRx hc
  | syncTxTimer => exact h.run ht fun hc => memOk_syncTxTimer hc
  | announceTxTimer => exact h.run ht fun hc => memOk_announceTxTimer hc
  | pdelayReqTimer => exact h.run ht fun hc => memOk_pdelayReqTimer hc
  | ppsInEdge => exact h.run ht fun hc => memOk_ppsInEdge hc
  | sourceQualifies => exact h.run ht fun hc => memOk_sourceQualifies hc
  | lockEntry => exact h.run ht fun hc => memOk_lockEntry hc
  | sourceLoss => exact h.run ht fun hc => memOk_sourceLoss hc
  | holdoverExpiry => exact h.run ht fun hc => memOk_holdoverExpiry hc
  | timeEraWrap => exact h.run ht fun hc => memOk_timeEraWrap hc
  | timeNowLowRead => exact h.run ht fun hc => memOk_timeNowLowRead hc
  | timeFloorWrite => exact h.run ht fun hc => memOk_timeFloorWrite hc
  | timingDomainStop => exact h.run ht fun hc => memOk_timingDomainStop hc
  | planLoad => exact h.runCmd (f := fun q => planLoad q _) ht fun hc => memOk_planLoad hc
  | planArmRx => exact h.run ht fun hc => memOk_planArmRx hc
  | planPeerTimeout => exact h.run ht fun hc => memOk_planPeerTimeout hc
  | planStart => exact h.run ht fun hc => memOk_planStart hc
  | lockCycleBoundary => exact h.run ht fun hc => memOk_lockCycleBoundary hc
  | gateEntryBoundary => exact h.run ht fun hc => memOk_gateEntryBoundary hc
  | lateStoppage => exact h.run ht fun hc => memOk_lateStoppage hc
  | planStopRx => exact h.runSettle ht fun hc => memOk_planStopRx hc
  | planResume => exact h.runCmd (f := fun q => planResume q _) ht fun hc => memOk_planResume hc
  | planUnload => exact h.runCmdSettle (f := fun q => planUnload q _) ht fun hc => memOk_planUnload hc
  | planStop => exact h.runCmdSettle (f := fun q => planStop q _) ht fun hc => memOk_planStop hc
  | matrixProduct => exact h.run ht fun hc => memOk_matrixStep hc
  | matrixBatchedProduct => exact h.run ht fun hc => memOk_matrixStep hc
  | matrixBlockFinal => exact h.run ht fun hc => memOk_matrixBlockFinal hc
  | vectorAdd => exact h.run ht fun hc => memOk_vectorStep hc
  | vectorSub => exact h.run ht fun hc => memOk_vectorStep hc
  | vectorMul => exact h.run ht fun hc => memOk_vectorStep hc
  | vectorFma => exact h.run ht fun hc => memOk_vectorStep hc
  | vectorCmp => exact h.run ht fun hc => memOk_vectorStep hc
  | vectorMin => exact h.run ht fun hc => memOk_vectorStep hc
  | vectorMax => exact h.run ht fun hc => memOk_vectorStep hc
  | vectorSel => exact h.run ht fun hc => memOk_vectorStep hc
  | vectorExp2 => exact h.run ht fun hc => memOk_vectorStep hc
  | vectorLog2 => exact h.run ht fun hc => memOk_vectorStep hc
  | vectorRcp => exact h.run ht fun hc => memOk_vectorStep hc
  | vectorRsqrt => exact h.run ht fun hc => memOk_vectorStep hc
  | vectorRsum => exact h.run ht fun hc => memOk_vectorStep hc
  | vectorRmax => exact h.run ht fun hc => memOk_vectorStep hc
  | vectorRmin => exact h.run ht fun hc => memOk_vectorStep hc
  | topK => exact h.run ht fun hc => memOk_selectStep hc
  | sort => exact h.run ht fun hc => memOk_selectStep hc
  | merge => exact h.run ht fun hc => memOk_selectStep hc
  | gather => exact h.run ht fun hc => memOk_selectStep hc
  | scatterWrite => exact h.run ht fun hc => memOk_selectStep hc
  | scatterAdd => exact h.run ht fun hc => memOk_selectStep hc
  | expertRoute => exact h.run ht fun hc => memOk_selectStep hc
  | convert => exact h.run ht fun hc => memOk_convertStep hc
  | moveLoad => exact h.run ht fun hc => memOk_moveStep hc
  | moveStore => exact h.run ht fun hc => memOk_moveStep hc
  | moveCopy => exact h.run ht fun hc => memOk_moveStep hc
  | recload => exact h.run ht fun hc => memOk_moveStep hc
  | recstore => exact h.run ht fun hc => memOk_moveStep hc
  | moveEnd r now t k done => exact h.run (f := fun c => (moveEnd r now t k done.finds done.cycles c).parityReset r) ht fun hc =>
    (memOk_moveEnd hc).parityReset
  | remote => exact h.run ht fun hc => memOk_remoteStep hc
  | issueQueueCopy => exact h.run ht fun hc => memOk_issueQueueCopy hc
  | waitTime => exact h.run ht fun hc => memOk_waitTimeStep hc
  | waitTimeExpiry => exact h.run ht fun hc => memOk_waitTimeExpiry hc
  | waitSignal => exact h.run ht fun hc => memOk_waitSignalStep hc
  | seqWaitTimeout => exact h.run ht fun hc => memOk_seqWaitTimeout hc
  | marker => exact h.run ht fun hc => memOk_markerStep hc
  | markerStamp => exact h.run ht fun hc => memOk_markerStamp hc
  | digestOpen => exact h.run ht fun hc => memOk_digestOpen hc
  | digestClose => exact h.run ht fun hc => memOk_digestClose hc
  | roundEnd => exact h.run ht fun hc => memOk_phaseEndStep hc
  | phaseEnd => exact h.run ht fun hc => memOk_phaseEndStep hc
  | phaseEndOnSignal => exact h.run ht fun hc => memOk_phaseEndStep hc
  | stepEnd => exact h.run ht fun hc => memOk_stepEnd hc
  | dredgeRead r now lp f => exact h.run (f := fun c => (dredgeRead r now lp f c).parityReset r) ht fun hc => (memOk_dredgeRead hc).parityReset
  | xposSignalPoll => exact h.runSettle ht fun hc => memOk_xposSignalPoll hc
  | rmeWrite => exact h.runSettle ht fun hc => memOk_rmeTake hc
  | rmeWriteSignal => exact h.runSettle ht fun hc => memOk_rmeTake hc
  | rmeRead => exact h.runSettle ht fun hc => memOk_rmeTake hc
  | rmeSend => exact h.runSettle ht fun hc => memOk_rmeTake hc
  | rmeRecv => exact h.runSettle ht fun hc => memOk_rmeTake hc
  | rmeFetchAdd => exact h.runSettle ht fun hc => memOk_rmeTake hc
  | rmeFence => exact h.runSettle ht fun hc => memOk_rmeTake hc
  | rmeFlush => exact h.runSettle ht fun hc => memOk_rmeTake hc
  | rmeCompletion => exact h.runSettle ht fun hc => memOk_rmeCompletion hc
  | qpCreate => exact h.runCmd (f := fun q => qpCreate q _) ht fun hc => memOk_qpCreate hc
  | qpModify => exact h.runCmdSettle (f := fun q => qpModify q _) ht fun hc => memOk_qpModify hc
  | qpDrainDone => exact h.runSettle ht fun hc => memOk_qpDrainDone hc
  | qpDestroy => exact h.runCmdSettle (f := fun q => qpDestroy q _) ht fun hc => memOk_qpDestroy hc
  | mooringRegister => exact h.runCmd (f := fun q => mooringRegister q _ _) ht fun hc => memOk_mooringRegister hc
  | mooringWithdraw => exact h.runCmdSettle (f := fun q => mooringWithdraw q _) ht fun hc => memOk_mooringWithdraw hc
  | mooringRelease => exact h.runSettle ht fun hc => memOk_mooringRelease hc
  | hostFlushRead => exact h.run ht fun hc => memOk_hostFlushRead hc
  | hostFlushDone => exact h.runSettle ht fun hc => memOk_hostFlushDone hc
  | rnrRetry => exact h.runSettle ht fun hc => memOk_rnrRetry hc
  | frtPacketSend => exact h.run ht fun hc => memOk_frtPacketSend hc
  | frtDataRx => exact h.runSettle ht fun hc => memOk_frtDataRx hc
  | frtReadReqRx => exact h.runSettle ht fun hc => memOk_frtReadReqRx hc
  | frtReadRespRx => exact h.runSettle ht fun hc => memOk_frtReadRespRx hc
  | frtAckRx => exact h.runSettle ht fun hc => memOk_frtAckRx hc
  | frtNakRx => exact h.runSettle ht fun hc => memOk_frtNakRx hc
  | ackDelayTimer => exact h.run ht fun hc => memOk_ackDelayTimer hc
  | retransmitTimer => exact h.runSettle ht fun hc => memOk_retransmitTimer hc
  | frameForward => exact h.run ht fun hc => memOk_frameForward hc
  | surveyTxTimer => exact h.run ht fun hc => memOk_surveyTxTimer hc
  | surveyRx => exact h.run ht fun hc => memOk_surveyRx hc
  | portUsableTimer => exact h.run ht fun hc => memOk_portUsableTimer hc
  | surveyLoss => exact h.run ht fun hc => memOk_surveyLoss hc
  | lsaRx => exact h.run ht fun hc => memOk_lsaRx hc
  | lsaFloodTimer => exact h.run ht fun hc => memOk_lsaFloodTimer hc
  | linkNoticeRx => exact h.run ht fun hc => memOk_linkNoticeRx hc
  | cmapTxTimer => exact h.run ht fun hc => memOk_cmapTxTimer hc
  | cmapRx => exact h.run ht fun hc => memOk_cmapRx hc
  | tableWriteRx => exact h.run ht fun hc => memOk_tableWriteRx hc
  | tableAckRx => exact h.run ht fun hc => memOk_tableAckRx hc
  | tableAckTimeout => exact h.run ht fun hc => memOk_tableAckTimeout hc
  | flipRx => exact h.run ht fun hc => memOk_flipRx hc
  | flipAckRx => exact h.run ht fun hc => memOk_flipAckRx hc
  | flipRepeatTimer => exact h.run ht fun hc => memOk_flipRepeatTimer hc
  | epochFlip => exact h.run ht fun hc => memOk_epochFlip hc
  | epochDrainEnd => exact h.run ht fun hc => memOk_epochDrainEnd hc
  | fmHelloTimer => exact h.run ht fun hc => memOk_fmHelloTimer hc
  | fmHelloRx => exact h.run ht fun hc => memOk_fmHelloRx hc
  | fmTakeover => exact h.run ht fun hc => memOk_fmTakeover hc
  | linkFault => exact h.run ht fun hc => memOk_linkFault hc
  | linkUp => exact h.run ht fun hc => memOk_linkUp hc
  | echoReq => exact h.run ht fun hc => memOk_echoReq hc
  | echoResp => exact h.run ht fun hc => memOk_echoResp hc
  | maintenanceContextIdle => exact h.run ht fun hc => memOk_maintenanceContextIdle hc
  | mirrorRefreshTimer => exact h.run ht fun hc => memOk_mirrorRefreshTimer hc
  | collStart => exact h.runCmdSettle (f := fun q => collStart q _) ht fun hc => memOk_collStart hc
  | collChunkSend => exact h.runSettle ht fun hc => memOk_collChunkSend hc
  | collChunkReceive => exact h.runSettle ht fun hc => memOk_collChunkReceive hc
  | collTimeout => exact h.runSettle ht fun hc => memOk_collTimeout hc
  | adderTestBurst => exact h.runSettle ht fun hc => memOk_adderTestBurst hc
  | macFrameRx => exact h.run ht fun hc => memOk_macFrameRx hc
  | pauseRx => exact h.run ht fun hc => memOk_pauseRx hc
  | pfcRx => exact h.run ht fun hc => memOk_pfcRx hc
  | pauseExpiry => exact h.run ht fun hc => memOk_pauseExpiry hc
  | pauseWatchdog => exact h.run ht fun hc => memOk_pauseWatchdog hc
  | pauseWatchdogHoldEnd => exact h.run ht fun hc => memOk_pauseWatchdogHoldEnd hc
  | pfcRepeatTimer => exact h.run ht fun hc => memOk_pfcRepeatTimer hc
  | portFrameStart => exact h.run ht fun hc => memOk_portFrame hc
  | shpSluiceWrite => exact h.run ht fun hc => memOk_shpSluiceWrite hc
  | macCtReset => exact h.run ht fun hc => memOk_macCtReset hc
  | doorbell => exact h.run ht fun hc => memOk_doorbell hc
  | indexWordReadDone => exact h.run ht fun hc => memOk_indexWordReadDone hc
  | descriptorFetchDone => exact h.run ht fun hc => memOk_descriptorFetchDone hc
  | completionRingRoom => exact h.run ht fun hc => memOk_completionRingRoom hc
  | interruptModerationTimer => exact h.run ht fun hc => memOk_interruptModerationTimer hc
  | hostReadTimeout => exact h.runSettle ht fun hc => memOk_hostReadTimeout hc
  | ringCreate => exact h.runCmd (f := fun q => ringCreate q _) ht fun hc => memOk_ringCreate hc
  | ringDestroy => exact h.runCmd (f := fun q => ringDestroy q _) ht fun hc => memOk_ringDestroy hc
  | nop => exact h.runCmd (f := nop) ht fun hc => memOk_nop hc
  | objQuery => exact h.runCmd (f := fun q => objQuery q _ _ _) ht fun hc => memOk_objQuery hc
  | feedPost => exact h.runCmd (f := fun q => feedPost q _) ht fun hc => memOk_feedPost hc
  | ckptPost => exact h.runCmd (f := fun q => ckptPost q _) ht fun hc => memOk_ckptPost hc
  | configTableWrite => exact h.runCmd (f := fun q => configTableWrite q _) ht fun hc => memOk_configTableWrite hc
  | configTableRead => exact h.runCmd (f := fun q => configTableRead q _) ht fun hc => memOk_configTableRead hc
  | attach => exact h.runSettle ht fun hc => memOk_attach hc
  | detach => exact h.runSettle ht fun hc => memOk_detach hc
  | hostRevWrite => exact h.run ht fun hc => memOk_hostRevWrite hc
  | hostClkWrite p value => exact h.run (f := fun c => c.onPath p (hostClkWrite p value)) ht fun hc => hc.onPath fun _ hc => memOk_hostClkWrite hc
  | hostPortReset => exact h.runSettle ht fun hc => memOk_hostPortReset hc
  | functionLevelReset => exact h.runSettle ht fun hc => memOk_functionLevelReset hc
  | powerStateChange => exact h.run ht fun hc => memOk_powerStateChange hc
  | asidCreate => exact h.runCmd (f := fun q => asidCreate q _) ht fun hc => memOk_asidCreate hc
  | xltMap => exact h.runCmd (f := fun q => xltMap q _) ht fun hc => memOk_xltMap hc
  | xltWithdraw => exact h.runCmd (f := fun q => xltWithdraw q _) ht fun hc => memOk_xltWithdraw hc
  | asidInvalidate => exact h.runCmd (f := fun q => asidInvalidate q _ _) ht fun hc => memOk_asidInvalidate hc
  | xltInvalidateDrained => exact h.run ht fun hc => memOk_xltInvalidateDrained hc
  | xltFaultExpiry => exact h.run ht fun hc => memOk_xltFaultExpiry hc
  | functionEnable => exact h.runCmd (f := fun q => functionEnable q _) ht fun hc => memOk_functionEnable hc
  | functionDisable => exact h.runCmd (f := fun q => functionDisable q _) ht fun hc => memOk_functionDisable hc
  | tenFreeze => exact h.runCmd (f := fun q => tenFreeze q _ _) ht fun hc => memOk_tenFreeze hc
  | tenFreezeDrainExpiry => exact h.run ht fun hc => memOk_tenFreezeDrainExpiry hc
  | tenSave => exact h.runCmd (f := fun q => tenSave q _) ht fun hc => memOk_tenSave hc
  | tenRestore => exact h.runCmd (f := fun q => tenRestore q _) ht fun hc => memOk_tenRestore hc
  | tenUnfreeze => exact h.runCmd (f := fun q => tenUnfreeze q _) ht fun hc => memOk_tenUnfreeze hc
  | resetTiles => exact h.runCmdSettle (f := fun q => resetTiles q _ _) ht fun hc => memOk_resetTiles hc
  | resetReach => exact h.runCmdSettle (f := fun q => resetReach q _) ht fun hc => memOk_resetReach hc
  | bistRun ref mask kind iova runs => exact h.runCmdSettle (f := fun q c => (bistRun q mask kind iova runs c).shutResume) ht fun hc =>
    (memOk_bistRun hc).shutResume
  | bistWindowTimeout => exact h.run ht fun hc => memOk_bistWindowTimeout hc
  | roleOpen => exact h.runReq (f := fun q => roleOpen q _) ht fun hc => memOk_roleOpen hc
  | roleClose => exact h.runReq (f := fun q => roleClose q _) ht fun hc => memOk_roleClose hc
  | roleSessionExpiry => exact h.run ht fun hc => memOk_roleSessionExpiry hc
  | enrol => exact h.runReq (f := fun q => enrol q _) ht fun hc => memOk_enrol hc
  | revoke => exact h.runReq (f := fun q => revoke q _) ht fun hc => memOk_revoke hc
  | imageStage => exact h.runReq (f := fun q => imageStage q _ _) ht fun hc => memOk_imageStage hc
  | svnCommit => exact h.runReq (f := fun q => svnCommit q _) ht fun hc => memOk_svnCommit hc
  | fabricKey => exact h.runReq (f := fun q => fabricKey q _) ht fun hc => memOk_fabricKey hc
  | fabricKeyRetire => exact h.run ht fun hc => memOk_fabricKeyRetire hc
  | fabricKeyAgeAlert => exact h.run ht fun hc => memOk_fabricKeyAgeAlert hc
  | kekSet => exact h.runReq (f := fun q => kekSet q _) ht fun hc => memOk_kekSet hc
  | hostKey => exact h.runReq (f := fun q => hostKeyInstall q _) ht fun hc => memOk_hostKeyInstall hc
  | logRead => exact h.runReq (f := fun q => logRead q _) ht fun hc => memOk_logRead hc
  | logTrim => exact h.runReq (f := fun q => logTrim q _) ht fun hc => memOk_logTrim hc
  | cipher => exact h.runReq (f := fun q => cipherOp q _ _) ht fun hc => memOk_cipherOp hc
  | identity => exact h.runReq (f := fun q => identity q _) ht fun hc => memOk_identity hc
  | spdmGetVersion => exact h.run ht fun hc => memOk_spdmGetVersion hc
  | spdmGetCapabilities => exact h.run ht fun hc => memOk_spdmGetCapabilities hc
  | spdmNegotiateAlgorithms => exact h.run ht fun hc => memOk_spdmNegotiateAlgorithms hc
  | spdmGetDigests => exact h.run ht fun hc => memOk_spdmGetDigests hc
  | spdmGetCertificate => exact h.run ht fun hc => memOk_spdmGetCertificate hc
  | spdmChallenge => exact h.run ht fun hc => memOk_spdmChallenge hc
  | spdmGetMeasurements => exact h.run ht fun hc => memOk_spdmGetMeasurements hc
  | pqCosign => exact h.run ht fun hc => memOk_pqCosign hc
  | pqChain => exact h.run ht fun hc => memOk_pqChain hc
  | mctpRegRead => exact h.run ht fun hc => memOk_mctpRegRead hc
  | mctpRegWrite => exact h.run ht fun hc => memOk_mctpRegWrite hc
  | mctpConfigTable => exact h.run ht fun hc => memOk_mctpConfigTable hc
  | keeperWatchdogExpiry => exact h.run ht fun hc => memOk_keeperWatchdogExpiry hc
  | tileServiceTest => exact h.runSettle ht fun hc => memOk_tileServiceTest hc
  | serviceTestOverdue => exact h.run ht fun hc => memOk_serviceTestOverdue hc
  | gaugeSnap p value => exact h.run (f := fun c => c.onPath p (gaugeSnap p value)) ht fun hc => hc.onPath fun _ hc => memOk_gaugeSnap hc
  | trcCtrlArm p value => exact h.run (f := fun c => c.onPath p (trcCtrlArm p value)) ht fun hc => hc.onPath fun _ hc => memOk_trcCtrlArm hc
  | trcTrigFire p value => exact h.run (f := fun c => c.onPath p (trcTrigFire p value)) ht fun hc => hc.onPath fun _ hc => memOk_trcTrigFire hc
  | traceTriggerNotice => exact h.run ht fun hc => memOk_traceTriggerNotice hc
  | traceTriggerTime => exact h.run ht fun hc => memOk_traceTriggerTime hc
  | traceCaptureFull => exact h.run ht fun hc => memOk_traceCaptureFull hc
  | traceSyncTimer => exact h.run ht fun hc => memOk_traceSyncTimer hc
  | traceStall => exact h.run ht fun hc => memOk_traceStall hc
  | traceRoomReturn => exact h.run ht fun hc => memOk_traceRoomReturn hc
  | traceFrameSend => exact h.run ht fun hc => memOk_traceFrameSend hc
  | traceAlignmentBlock => exact h.run ht fun hc => memOk_traceAlignmentBlock hc
  | trcDumpGo p value => exact h.run (f := fun c => c.onPath p (trcDumpGo p value)) ht fun hc => hc.onPath fun _ hc => memOk_trcDumpGo hc
  | traceDumpDone => exact h.run ht fun hc => memOk_traceDumpDone hc
  | pwrEnRise => exact h.runPin ht fun hc => memOk_pwrEnRise hc
  | pwrEnFall => exact h.runPin ht fun hc => memOk_pwrEnFall hc
  | inputCutOff => exact h.runPin ht fun hc => memOk_inputCutOff hc
  | railFault => exact h.runSettle ht fun hc => memOk_railFault hc
  | droopTrip => exact h.run ht fun hc => memOk_droopTrip hc
  | droopClear => exact h.run ht fun hc => memOk_droopClear hc
  | powerPeakTrip => exact h.run ht fun hc => memOk_powerPeakTrip hc
  | powerCapTick => exact h.run ht fun hc => memOk_powerCapTick hc
  | thermalTick => exact h.runSettle ht fun hc => memOk_thermalTick hc
  | thermTrip => exact h.runPin ht fun hc => memOk_thermTrip hc
  | powerLimitUnmet => exact h.run ht fun hc => memOk_powerLimitUnmet hc
  | pwrCapWrite p value => exact h.run (f := fun c => c.onPath p (pwrCapWrite p value)) ht fun hc => hc.onPath fun _ hc => memOk_pwrCapWrite hc
  | moduleReset => exact h.run ht fun hc => memOk_moduleReset hc
  | mrstNLow => exact h.runPin ht fun hc => memOk_mrstNLow hc
  | strapChange => exact h.runPin ht fun hc => memOk_strapChange hc
  | moduleReady => exact h.runSettle ht fun hc => memOk_moduleReady hc
  | gateShutGo p value => exact h.run (f := fun c => c.onPath p (gateShutGo p value)) ht fun hc => hc.onPath fun _ hc => memOk_gateShutGo hc
  | shutdownDrainEnd => exact h.run ht fun hc => memOk_shutdownDrainEnd hc
  | shutdownDone => exact h.run ht fun hc => memOk_shutdownDone hc
  | registerWrite => exact h.runSettle ht fun hc => memOk_registerWrite hc
  | perstNRelease => exact h.runPin ht fun hc => memOk_perstRelease hc
  | mrstNRelease => exact h.runPin ht fun hc => memOk_mrstNRelease hc
  | reachResetComplete r now => exact h.run (f := fun c => (reachResetComplete r now c).shutResume) ht fun hc =>
    (memOk_reachResetComplete hc).shutResume
  | ppsOutEdge => exact h.run ht fun hc => memOk_ppsOutEdge hc
  | uncorrectableCodeword => exact h.run ht fun hc => memOk_uncorrectableCodeword hc

/-- Settles O5: the step runs the front command, and each command keeps the form. -/
theorem everyStepKeepsMemoriesCanonical : Obligations.EveryStepKeepsMemoriesCanonical := by
  unfold Obligations.EveryStepKeepsMemoriesCanonical
  intro s t h ht
  cases hq : s.pending with
  | nil =>
    rw [step, hq] at ht
    cases ht
    exact h
  | cons i rest =>
    rw [step, hq] at ht
    exact State.memOk.exec (s := { s with pending := rest }) h ht

end Sys2Proof.Machine
end

section
/-!
Frames at a port's receiver (chapter 11, R322 to R337): what the receiver does with a frame, check by check, and what pauses a class.
-/

namespace Sys2Proof.Machine

@[simp] theorem Chip.mac_at (c : Chip) (r q : ReachId) (now : Time) (p : PortId) : ((c.at r now).reach q).mac p = (c.reach q).mac p := by
  rw [Reach.mac, Reach.mac, Chip.reach_at_macs]

@[simp] theorem Reach.mac_gaugeAdd (x : Reach) (group obj idx n : Nat) (p : PortId) : (x.gaugeAdd group obj idx n).mac p = x.mac p := rfl

theorem Chip.mac_onRtr (c : Chip) (r : ReachId) (p : PortId) (f : Router → Router) : ((c.onRtr r f).reach r).mac p = (c.reach r).mac p := by
  rw [Chip.reach_onRtr]
  rfl

/-- The FEC's count of codewords is a gauge of the reach, and no more. -/
theorem Chip.countCorrected_keeps (c : Chip) (r : ReachId) (p : PortId) (f : EthFrame) :
    ((c.countCorrected r p f).reach r).rtr = (c.reach r).rtr ∧ ((c.countCorrected r p f).reach r).mac p = (c.reach r).mac p := by
  unfold Chip.countCorrected
  split
  · exact ⟨rfl, rfl⟩
  · rw [Chip.reach_onReach]
    exact ⟨rfl, rfl⟩

/-- Own PFC frames that a filled queue brings about: the router stays, and of the MAC all but the times of the frames sent. -/
theorem Chip.pfcCheck_keeps (c : Chip) (r : ReachId) (p : PortId) (q : Nat) :
    ((c.pfcCheck r p q).reach r).rtr = (c.reach r).rtr ∧ ((((c.pfcCheck r p q).reach r).mac p).ingress = ((c.reach r).mac p).ingress
      ∧ (((c.pfcCheck r p q).reach r).mac p).queues = ((c.reach r).mac p).queues) := by
  unfold Chip.pfcCheck
  extract_lets m
  split
  · rw [Chip.emit_reach, Chip.reach_onReach, Reach.mac_onMac]
    exact ⟨rfl, rfl, rfl⟩
  · exact ⟨rfl, rfl, rfl⟩

section
variable {c : Chip} {r : ReachId} {p : PortId} {f : EthFrame}

/-- The frame meets no check before its FCS where the port's MAC is up (R326). -/
theorem macFrameRx_stomped (now : Time) (hup : ((c.reach r).mac p).up = true) (hfcs : f.fcs = .stomped) : macFrameRx r now p f c =
    ((c.at r now).countCorrected r p f).onMac r p (fun m => { m with stomped := sat48 (m.stomped + 1) }) := by
  simp [macFrameRx, hup, hfcs]

theorem macFrameRx_bad (now : Time) (hup : ((c.reach r).mac p).up = true) (hfcs : f.fcs = .bad) : macFrameRx r now p f c =
    ((c.at r now).countCorrected r p f).onMac r p (fun m => { m with fcsErr := sat48 (m.fcsErr + 1) }) := by
  simp [macFrameRx, hup, hfcs]

theorem macFrameRx_size (now : Time) (hup : ((c.reach r).mac p).up = true) (hfcs : f.fcs = .good) (hlen : f.len < 64 ∨ 9216 < f.len) :
    macFrameRx r now p f c =
      ((c.at r now).countCorrected r p f).onMac r p (fun m => { m with sizeDrop := sat48 (m.sizeDrop + 1) }) := by
  simp [macFrameRx, hup, hfcs, hlen]

/-- The addresses that a port takes frames under (R330). -/
def ownFrame (r : ReachId) (p : PortId) (f : EthFrame) : Prop := f.dst = portAddress r p ∨ f.dst = ptpAddress ∨ f.dst = macCtlAddress

theorem ownFrame_iff : ownFrame r p f ↔ (f.dst != portAddress r p && f.dst != ptpAddress && f.dst != macCtlAddress) = false := by
  simp only [ownFrame, Bool.and_eq_false_iff, bne_eq_false_iff_eq, or_assoc]

theorem macFrameRx_notOwn (now : Time) (hup : ((c.reach r).mac p).up = true) (hfcs : f.fcs = .good) (hmin : 64 ≤ f.len) (hmax : f.len ≤ 9216)
    (hown : ¬ ownFrame r p f) : macFrameRx r now p f c =
      ((c.at r now).countCorrected r p f).onMac r p (fun m => { m with addrDrop := sat48 (m.addrDrop + 1) }) := by
  rw [ownFrame_iff, Bool.not_eq_false] at hown
  simp only [macFrameRx, Chip.mac_at, hup, hfcs, hown, Nat.not_lt.2 hmin, Nat.not_lt.2 hmax]
  rfl

section
variable (now : Time) (hup : ((c.reach r).mac p).up = true) (hfcs : f.fcs = .good) (hmin : 64 ≤ f.len) (hmax : f.len ≤ 9216) (hown : ownFrame r p f)
include hup hfcs hmin hmax hown

theorem macFrameRx_ip (hip : frameIpFails f = true) : macFrameRx r now p f c =
    ((c.at r now).countCorrected r p f).onMac r p (fun m => { m with ipDrop := sat48 (m.ipDrop + 1) }) := by
  rw [ownFrame_iff] at hown
  simp only [macFrameRx, Chip.mac_at, hup, hfcs, hown, hip, Nat.not_lt.2 hmin, Nat.not_lt.2 hmax]
  rfl

theorem macFrameRx_control (hip : frameIpFails f = false) (hctl : frameEtype f = 0x8808) : macFrameRx r now p f c =
    ((c.at r now).countCorrected r p f).onMac r p (fun m => { m with macCtl := sat48 (m.macCtl + 1) }) := by
  rw [ownFrame_iff] at hown
  simp only [macFrameRx, Chip.mac_at, hup, hfcs, hown, hip, hctl, Nat.not_lt.2 hmin, Nat.not_lt.2 hmax]
  rfl

theorem macFrameRx_noFilter (hip : frameIpFails f = false) (hctl : frameEtype f ≠ 0x8808) (hnone : ((c.reach r).mac p).filterOf f = none) :
    macFrameRx r now p f c = ((c.at r now).countCorrected r p f).onMac r p
      (fun m => { m with filterDrops := Tab.modify m.filterDrops 64 0 (fun n => sat48 (n + 1)) }) := by
  rw [ownFrame_iff] at hown
  rw [← beq_eq_false_iff_ne] at hctl
  simp only [macFrameRx, Chip.mac_at, hup, hfcs, hown, hip, hctl, hnone, Nat.not_lt.2 hmin, Nat.not_lt.2 hmax]
  rfl

theorem macFrameRx_filtered (hip : frameIpFails f = false) (hctl : frameEtype f ≠ 0x8808) {i : Nat} {e : FilterEntry}
    (hhit : ((c.reach r).mac p).filterOf f = some (i, e)) (hact : e.action ≠ 1) :
    macFrameRx r now p f c = ((c.at r now).countCorrected r p f).onMac r p
      (fun m => { m with filterDrops := Tab.modify m.filterDrops i 0 (fun n => sat48 (n + 1)) }) := by
  rw [ownFrame_iff] at hown
  rw [← beq_eq_false_iff_ne] at hctl
  rw [← bne_iff_ne] at hact
  simp only [macFrameRx, Chip.mac_at, hup, hfcs, hown, hip, hctl, hhit, hact, Nat.not_lt.2 hmin, Nat.not_lt.2 hmax]
  rfl

theorem macFrameRx_noRoom (hip : frameIpFails f = false) (hctl : frameEtype f ≠ 0x8808) {i : Nat} {e : FilterEntry}
    (hhit : ((c.reach r).mac p).filterOf f = some (i, e)) (hact : e.action = 1)
    (hroom : ((c.reach r).mac p).ingressRoom (e.queueOf f) f.len = false) :
    macFrameRx r now p f c = ((c.at r now).countCorrected r p f).onMac r p (fun m => { m with roomDrop := sat48 (m.roomDrop + 1) }) := by
  rw [ownFrame_iff] at hown
  rw [← beq_eq_false_iff_ne] at hctl
  rw [← bne_eq_false_iff_eq] at hact
  simp only [macFrameRx, Chip.mac_at, hup, hfcs, hown, hip, hctl, hhit, hact, hroom, Nat.not_lt.2 hmin, Nat.not_lt.2 hmax]
  rfl

theorem macFrameRx_taken (hip : frameIpFails f = false) (hctl : frameEtype f ≠ 0x8808) {i : Nat} {e : FilterEntry}
    (hhit : ((c.reach r).mac p).filterOf f = some (i, e)) (hact : e.action = 1)
    (hroom : ((c.reach r).mac p).ingressRoom (e.queueOf f) f.len = true) :
    macFrameRx r now p f c = ((((c.at r now).countCorrected r p f).onMac r p
        (fun m => { m with ingress := Tab.modify m.ingress (e.queueOf f) 0 (fun n => n + f.len) })).onRtr r (fun y => { y with inbox := y.inbox ++
          [{ ingress := p.val, body := f.body, len := f.len, arrived := ((c.at r now).countCorrected r p f).now r, queue := e.queueOf f }] })).pfcCheck
      r p (e.queueOf f) := by
  rw [ownFrame_iff] at hown
  rw [← beq_eq_false_iff_ne] at hctl
  rw [← bne_eq_false_iff_eq] at hact
  simp only [macFrameRx, Chip.mac_at, hup, hfcs, hown, hip, hctl, hhit, hact, hroom, Nat.not_lt.2 hmin, Nat.not_lt.2 hmax]
  simp [Chip.now]

end
end

theorem exec_macFrameRx (r : ReachId) (now : Time) (p : PortId) (f : EthFrame) (s : State) :
    exec (.macFrameRx r now p f) s = s.run (macFrameRx r now p f) := rfl

/-- Settles O42: the FCS is judged first, and a MAC's counts are not the router's. -/
theorem framesWithBadFcsAreDropped : Obligations.FramesWithBadFcsAreDropped := by
  unfold Obligations.FramesWithBadFcsAreDropped
  intro s r now p f halive hup
  have hstomped (h : f.fcs = .stomped) := macFrameRx_stomped now hup h
  have hbad (h : f.fcs = .bad) := macFrameRx_bad now hup h
  rw [exec_macFrameRx, State.run_live _ halive]
  refine ⟨fun h => by rw [hstomped h], fun h => by rw [hbad h], fun hgood => ⟨_, rfl, ?_⟩⟩
  have hrtr := (Chip.countCorrected_keeps (s.chip.at r now) r p f).1
  cases hf : f.fcs with
  | good => exact absurd hf hgood
  | bad => simp [hbad hf, hrtr]
  | stomped => simp [hstomped hf, hrtr]

/-- Settles O43: the receiver's checks one after another. -/
theorem framesAreFilteredInOrder : Obligations.FramesAreFilteredInOrder := by
  unfold Obligations.FramesAreFilteredInOrder
  intro s r now p f halive hup m c own
  obtain ⟨hrtr, hmac⟩ := Chip.countCorrected_keeps (s.chip.at r now) r p f
  rw [exec_macFrameRx, State.run_live _ halive]
  refine ⟨fun hfcs => by rw [macFrameRx_bad now hup hfcs], fun hfcs hlen => by rw [macFrameRx_size now hup hfcs hlen],
    fun hfcs hmin hmax hown => by rw [macFrameRx_notOwn now hup hfcs hmin hmax hown],
    fun hfcs hmin hmax hown hip => by rw [macFrameRx_ip now hup hfcs hmin hmax hown hip],
    fun hfcs hmin hmax hown hip hctl => by rw [macFrameRx_control now hup hfcs hmin hmax hown hip hctl],
    fun hfcs hmin hmax hown hip hctl => ⟨fun hnone => by rw [macFrameRx_noFilter now hup hfcs hmin hmax hown hip hctl hnone],
      fun i e hhit hact => by rw [macFrameRx_filtered now hup hfcs hmin hmax hown hip hctl hhit hact],
      fun i e hhit hact hroom => by rw [macFrameRx_noRoom now hup hfcs hmin hmax hown hip hctl hhit hact hroom], fun i e hhit hact hroom => ?_⟩⟩
  rw [macFrameRx_taken now hup hfcs hmin hmax hown hip hctl hhit hact hroom]
  refine ⟨_, rfl, ?_⟩
  obtain ⟨hpRtr, hpIn, hpQ⟩ := Chip.pfcCheck_keeps _ r p (e.queueOf f)
  simp only [State.put_chip, Mac.ingressBytes]
  rw [hpRtr, hpIn, hpQ, Chip.mac_onRtr]
  simp [hrtr, hmac, c, m]

end Sys2Proof.Machine
end

section
/-!
PAUSE and PFC at a port (chapter 11, R334 to R337): the pause of a class as one operation sets it, and what the others keep.
-/

namespace Sys2Proof.Machine

/-- What a time of `quanta` does to a class (R334, R336): none while the watchdog holds it, a release by zero. -/
def PauseClass.paused (x : PauseClass) (quanta gbps : Nat) (now : Time) : PauseClass :=
  if x.ignored now then x
  else if quanta == 0 then { x with until_ := none, since := none }
  else { x with until_ := some (now + pauseTime quanta gbps), since := some (x.since.getD now) }

theorem PauseClass.paused_until {x : PauseClass} {now : Time} (quanta : Word16) (gbps : Nat) (h : x.ignored now = false) :
    (x.paused quanta.toNat gbps now).until_ = if quanta = 0 then none else some (now + pauseTime quanta.toNat gbps) := by
  have hzero : (quanta.toNat == 0) = decide (quanta = 0) := by rw [Bool.eq_iff_iff, beq_iff_eq, decide_eq_true_iff, BitVec.toNat_eq]; rfl
  unfold PauseClass.paused
  rw [h, hzero, if_neg Bool.false_ne_true]
  by_cases hq : quanta = 0
  · rw [if_pos (decide_eq_true hq), if_pos hq]
  · rw [if_neg (by rwa [decide_eq_true_iff]), if_neg hq]

@[simp] theorem Mac.pauseOf_pauseSet_self (m : Mac) (tc quanta gbps : Nat) (now : Time) :
    (m.pauseSet tc quanta gbps now).pauseOf tc = (m.pauseOf tc).paused quanta gbps now := by
  exact Tab.getD_modify_self m.pause tc PauseClass.reset (fun x => x.paused quanta gbps now)

theorem Mac.pauseOf_pauseSet_ne (m : Mac) {tc k : Nat} (quanta gbps : Nat) (now : Time) (h : k ≠ tc) :
    (m.pauseSet tc quanta gbps now).pauseOf k = m.pauseOf k := by
  exact Tab.getD_modify_ne m.pause PauseClass.reset PauseClass.reset (fun x => x.paused quanta gbps now) h

/-- A frame that names several classes sets each of them once. -/
theorem Mac.pauseOf_pauseSets (m : Mac) {l : List Nat} (quanta : Nat → Nat) (gbps : Nat) (now : Time) (hl : l.Nodup) (k : Nat) :
    (l.foldl (fun m tc => m.pauseSet tc (quanta tc) gbps now) m).pauseOf k =
      if k ∈ l then (m.pauseOf k).paused (quanta k) gbps now else m.pauseOf k := by
  induction l generalizing m with
  | nil => rfl
  | cons tc l ih =>
    obtain ⟨htc, hl⟩ := List.nodup_cons.1 hl
    rw [List.foldl_cons, ih _ hl]
    by_cases hk : k = tc
    · subst hk
      simp [htc]
    · simp [hk, Mac.pauseOf_pauseSet_ne]

theorem Mac.pauseOf_update_self (m : Mac) (tc : Nat) (f : PauseClass → PauseClass) :
    ({ m with pause := Tab.update m.pause tc f } : Mac).pauseOf tc = ((Tab.find? m.pause tc).map f).getD PauseClass.reset := by
  rw [Mac.pauseOf, Tab.getD, Tab.find?_update_self]

theorem Mac.pauseOf_update_ne (m : Mac) {tc k : Nat} (f : PauseClass → PauseClass) (h : k ≠ tc) :
    ({ m with pause := Tab.update m.pause tc f } : Mac).pauseOf k = m.pauseOf k := by
  rw [Mac.pauseOf, Tab.getD, Tab.find?_update_ne _ _ h]
  rfl

/-- A change of a listed class that leaves the class as at reset alone is a change of what the MAC holds for it. -/
theorem Mac.pauseOf_update (m : Mac) (tc : Nat) {f : PauseClass → PauseClass} (hf : f PauseClass.reset = PauseClass.reset) :
    ({ m with pause := Tab.update m.pause tc f } : Mac).pauseOf tc = f (m.pauseOf tc) := by
  rw [Mac.pauseOf_update_self, Mac.pauseOf, Tab.getD]
  cases Tab.find? m.pause tc with
  | none => exact hf.symm
  | some v => rfl

theorem Reach.mac_gaugeAdds (x : Reach) (l : List Nat) (p : PortId) :
    (l.foldl (fun x tc => x.gaugeAdd 6 p.val (17 + tc) 1) x).mac p = x.mac p := by
  induction l generalizing x with
  | nil => rfl
  | cons tc l ih => rw [List.foldl_cons, ih, Reach.mac_gaugeAdd]

theorem Chip.health_mac (c : Chip) (r q : ReachId) (p : PortId) (owner : FnId) (action block inst sub : Nat) (detail handle : Word64) :
    ((c.health r owner action block inst sub detail handle).reach q).mac p = (c.reach q).mac p := by
  rw [Reach.mac, Chip.apart_macs (Chip.health_apart c r owner action block inst sub detail handle) q, Reach.mac]

section
variable (c : Chip) (r : ReachId) (now : Time) (p : PortId)

theorem pauseRx_mac (quanta : Word16) : ((pauseRx r now p quanta c).reach r).mac p =
    { (List.range 8).foldl (fun m tc => m.pauseSet tc quanta.toNat (((c.at r now).reach r).gbps p) ((c.at r now).now r)) ((c.reach r).mac p) with
      macCtl := sat48 (((c.reach r).mac p).macCtl + 1) } := by
  simp [pauseRx, Chip.now]

/-- The classes that a PFC frame names (R334). -/
def namedClasses (classes : BitVec 8) : List Nat := (List.range 8).filter (fun tc => classes.toNat.testBit tc)

theorem mem_namedClasses {classes : BitVec 8} {tc : Nat} (h : tc < 8) : tc ∈ namedClasses classes ↔ classes.toNat.testBit tc = true := by
  simp [namedClasses, h]

theorem pfcRx_mac (classes : BitVec 8) (times : List Word16) : ((pfcRx r now p classes times c).reach r).mac p =
    { (namedClasses classes).foldl (fun m tc => m.pauseSet tc ((times[tc]?).getD 0).toNat (((c.at r now).reach r).gbps p) ((c.at r now).now r))
        ((c.reach r).mac p) with macCtl := sat48 (((c.reach r).mac p).macCtl + 1) } := by
  simp [pfcRx, Chip.now, Reach.mac_gaugeAdds, namedClasses]

/-- A class whose time has run out is let go (R334). -/
def PauseClass.expired (now : Time) (k : PauseClass) : PauseClass :=
  match k.until_ with
  | some t => if notBefore t now then { k with until_ := none, since := none } else k
  | none => k

theorem pauseExpiry_mac (tc : Fin 8) : ((pauseExpiry r now p tc c).reach r).mac p =
    { (c.reach r).mac p with pause := Tab.update ((c.reach r).mac p).pause tc.val (PauseClass.expired ((c.at r now).now r)) } := by
  simp [pauseExpiry, Chip.now]
  rfl

def PauseClass.holdEnded (now : Time) (k : PauseClass) : PauseClass := if k.ignored now then k else { k with hold := none }

theorem pauseWatchdogHoldEnd_mac (tc7 : Bool) : ((pauseWatchdogHoldEnd r now p tc7 c).reach r).mac p =
    { (c.reach r).mac p with
      pause := Tab.update ((c.reach r).mac p).pause (if tc7 then 7 else 6) (PauseClass.holdEnded ((c.at r now).now r)) } := by
  simp [pauseWatchdogHoldEnd, Chip.now]
  rfl

variable {c} in
theorem pauseWatchdog_mac {tc7 : Bool} {since : Time} (hsince : (((c.reach r).mac p).pauseOf (if tc7 then 7 else 6)).since = some since)
    (hlate : nsUnits ((c.reach r).mac p).wdNs ≤ timeDiff since ((c.at r now).now r)) :
    ((pauseWatchdog r now p tc7 c).reach r).mac p = { (c.reach r).mac p with
      wdEvents := sat48 (((c.reach r).mac p).wdEvents + 1)
      pause := Tab.set ((c.reach r).mac p).pause (if tc7 then 7 else 6)
        { until_ := none, since := none, hold := some ((c.at r now).now r + nsTime (1000000 * ((c.reach r).mac p).wdHoldMs)) } } := by
  simp [pauseWatchdog, hsince, hlate, Chip.health_mac]

end

theorem exec_pauseRx (r : ReachId) (now : Time) (p : PortId) (quanta : Word16) (s : State) :
    exec (.pauseRx r now p quanta) s = s.run (pauseRx r now p quanta) := rfl

theorem exec_pfcRx (r : ReachId) (now : Time) (p : PortId) (classes : BitVec 8) (times : List Word16) (s : State) :
    exec (.pfcRx r now p classes times) s = s.run (pfcRx r now p classes times) := rfl

theorem exec_pauseExpiry (r : ReachId) (now : Time) (p : PortId) (tc : Fin 8) (s : State) :
    exec (.pauseExpiry r now p tc) s = s.run (pauseExpiry r now p tc) := rfl

theorem exec_pauseWatchdog (r : ReachId) (now : Time) (p : PortId) (tc7 : Bool) (s : State) :
    exec (.pauseWatchdog r now p tc7) s = s.run (pauseWatchdog r now p tc7) := rfl

theorem exec_pauseWatchdogHoldEnd (r : ReachId) (now : Time) (p : PortId) (tc7 : Bool) (s : State) :
    exec (.pauseWatchdogHoldEnd r now p tc7) s = s.run (pauseWatchdogHoldEnd r now p tc7) := rfl

theorem exec_pfcRepeatTimer (r : ReachId) (now : Time) (p : PortId) (tc : Fin 6) (s : State) :
    exec (.pfcRepeatTimer r now p tc) s = s.run (pfcRepeatTimer r now p tc) := rfl

theorem pfcRepeatTimer_sends {c : Chip} {r : ReachId} {now : Time} {p : PortId} {tc : Fin 6} {last : Time}
    (hmask : (fld ((c.reach r).mac p).pauseReg 24 6).testBit tc.val = true) (hsent : Tab.find? ((c.reach r).mac p).pfcSent tc.val = some last)
    (hdue : (pauseTime 32768 (((c.at r now).reach r).gbps p)).toInt ≤ timeDiff last ((c.at r now).now r))
    (hfull : 1024 * ((c.reach r).mac p).xon ≤ ((c.reach r).mac p).ingressBytes tc.val) :
    pfcRepeatTimer r now p tc c = (((c.at r now).onMac r p
      (fun m => { m with pfcSent := Tab.set m.pfcSent tc.val ((c.at r now).now r) })).emit (.pfc r p (BitVec.ofNat 8 (2 ^ tc.val)) 0xFFFF)) := by
  rw [Chip.now] at hdue
  simp only [pfcRepeatTimer, Chip.mac_at, hmask, hsent, decide_eq_true hdue, decide_eq_true hfull, Bool.and_self, if_true, Chip.now]

/-- Settles O44: each operation's effect on the one port's MAC, class by class. -/
theorem pauseStopsClassesForATime : Obligations.PauseStopsClassesForATime := by
  unfold Obligations.PauseStopsClassesForATime
  intro s r now p halive m c g
  refine ⟨fun quanta => ⟨_, (exec_pauseRx ..).trans (State.run_live _ halive), ?_⟩,
    fun classes times => ⟨_, (exec_pfcRx ..).trans (State.run_live _ halive), ?_⟩,
    fun tc => ⟨_, (exec_pauseExpiry ..).trans (State.run_live _ halive), ?_⟩,
    fun tc7 since => ?_, fun tc7 => ⟨_, (exec_pauseWatchdogHoldEnd ..).trans (State.run_live _ halive), ?_⟩,
    fun tc last hmask hsent hdue hfull => ?_⟩
  · rw [State.put_chip, pauseRx_mac]
    refine ⟨rfl, fun tc htc hign => ?_⟩
    have hall := Mac.pauseOf_pauseSets m (fun _ => quanta.toNat) g (c.now r) (List.nodup_range (n := 8)) tc
    rw [if_pos (List.mem_range.2 htc)] at hall
    exact (congrArg PauseClass.until_ hall).trans (PauseClass.paused_until _ _ hign)
  · rw [State.put_chip, pfcRx_mac]
    intro tc htc hign
    have hall := Mac.pauseOf_pauseSets m (fun tc => ((times[tc]?).getD 0).toNat) g (c.now r)
      ((List.nodup_range (n := 8)).filter (fun tc => classes.toNat.testBit tc)) tc
    refine (congrArg PauseClass.until_ hall).trans ?_
    cases hnamed : classes.toNat.testBit tc with
    | false => rw [if_neg (by simp [hnamed]), if_pos rfl]
    | true =>
      rw [if_pos (by simp [hnamed, htc]), PauseClass.paused_until _ _ hign, if_neg (show ¬true = false from nofun)]
  · rw [State.put_chip, pauseExpiry_mac]
    refine ⟨fun u hu hdue => ?_, fun u hu hdue => ?_, fun k hk => Mac.pauseOf_update_ne _ _ hk⟩
    · rw [Mac.pauseOf_update _ _ rfl, PauseClass.expired, hu]
      simp [hdue, c]
    · rw [Mac.pauseOf_update _ _ rfl, PauseClass.expired, hu]
      simp [hdue, c, m]
  · intro tc hsince hlate
    refine ⟨_, (exec_pauseWatchdog ..).trans (State.run_live _ halive), ?_⟩
    rw [State.put_chip, pauseWatchdog_mac r now p hsince hlate]
    exact ⟨rfl, Tab.getD_set_self ..⟩
  · rw [State.put_chip, pauseWatchdogHoldEnd_mac]
    have hone := Mac.pauseOf_update m (if tc7 then 7 else 6) (f := PauseClass.holdEnded (c.now r)) rfl
    exact ⟨fun hign => by rw [hone, PauseClass.holdEnded, hign]; rfl, fun hign => by rw [hone, PauseClass.holdEnded, hign]; rfl⟩
  · rw [exec_pfcRepeatTimer, State.run_live _ halive, pfcRepeatTimer_sends hmask hsent hdue hfull]

end Sys2Proof.Machine
end

section
/-!
Rings as the module serves them (chapter 12, R354 to R364, R368, R373): what a ring is after an operation on it, and each command that reads or
takes from one.
-/

namespace Sys2Proof.Machine

@[simp] theorem Chip.ring?_onRing (c : Chip) (f : FnId) (ring : BitVec 8) (g : HostRing → HostRing) :
    (c.onRing f ring g).ring? f ring = (c.ring? f ring).map g := by
  rw [Chip.ring?, Chip.onRing, Chip.fn_onFn, Tab.find?_update_self]
  rfl

@[simp] theorem Chip.ring?_countRing (c : Chip) (f : FnId) (ring k : BitVec 8) (idx : Nat) : (c.countRing f k idx).ring? f ring = c.ring? f ring := by
  rw [Chip.ring?, Chip.countRing, Chip.fn_onFn]
  rfl

section
variable {c : Chip} {f : FnId} {ring : BitVec 8} {q : HostRing}

theorem doorbell_unknown (hport : c.portOpen = true) (hring : c.ring? f ring = none) : doorbell f ring c = c.countRing f ring 2 := by
  simp [doorbell, hport, hring]

theorem doorbell_reads (hport : c.portOpen = true) (hring : c.ring? f ring = some q) (hlive : q.destroying = none) (hidle : q.reading = false) :
    doorbell f ring c = (c.onRing f ring (fun q => { q with reading := true })).emit (.indexRead f ring) := by
  simp [doorbell, hport, hring, hlive, hidle, Chip.readIndex]

theorem doorbell_again (hport : c.portOpen = true) (hring : c.ring? f ring = some q) (hlive : q.destroying = none) (hbusy : q.reading = true) :
    doorbell f ring c = c.onRing f ring (fun q => { q with readAgain := true }) := by
  simp [doorbell, hport, hring, hlive, hbusy, Chip.readIndex]

theorem indexWordReadDone_fails {word : Word32} (hport : c.portOpen = true) (hring : c.ring? f ring = some q) (hread : q.reading = true)
    (hkind : q.kind = .submission) (herr : q.error = false) (hahead : 2 ^ q.log2 < (word - q.taken).toNat) :
    indexWordReadDone f ring word c = (c.readBack f ring).ringFails f ring := by
  unfold indexWordReadDone
  simp only [hring, hread, hport, hkind, herr, if_pos hahead]
  rfl

theorem indexWordReadDone_publishes {word : Word32} (hport : c.portOpen = true) (hring : c.ring? f ring = some q) (hread : q.reading = true)
    (hkind : q.kind = .submission) (herr : q.error = false) (hahead : (word - q.taken).toNat ≤ 2 ^ q.log2) :
    indexWordReadDone f ring word c = ((c.readBack f ring).onRing f ring (fun q => { q with published := word })).fetch f ring := by
  unfold indexWordReadDone
  simp only [hring, hread, hport, hkind, herr, if_neg (Nat.not_lt.2 hahead)]
  rfl

theorem descriptorFetchDone_takes (l : List Desc) (hport : c.portOpen = true) (hring : c.ring? f ring = some q) (hfetch : q.fetching = true) :
    descriptorFetchDone f ring l c = (c.onRing f ring (fun q => { q with fetching := false })).takeChains
      ((l.take (min prefetch (q.published - q.taken).toNat)).length + 1) f ring (l.take (min prefetch (q.published - q.taken).toNat)) := by
  unfold descriptorFetchDone
  simp only [hring, hfetch, hport]
  rfl

theorem completionRingRoom_reads (n : Word32) (hport : c.portOpen = true) (hring : c.ring? f ring = some q) (hread : q.reading = true)
    (hkind : q.kind ≠ .submission) (hroom : q.room = false) :
    completionRingRoom f ring n c = (c.readBack f ring).roomRead f ring n := by
  rw [← beq_eq_false_iff_ne] at hkind
  unfold completionRingRoom
  simp only [hring, hread, hport, hkind, hroom]
  rfl

theorem interruptModerationTimer_due {ns : Nat} (hport : c.portOpen = true) (hring : c.ring? f ring = some q) (hkind : q.kind = .completion)
    (hsince : q.sinceMsg ≠ 0) (hmod : q.modUsec ≠ 0) (hdue : 1000 * q.modUsec.toNat ≤ ns + 1000) (hen : q.vecEn = true) :
    interruptModerationTimer f ring ns c = (c.onRing f ring (fun q => { q with sinceMsg := 0 })).msix f q.vector := by
  rw [← beq_eq_false_iff_ne] at hsince hmod
  unfold interruptModerationTimer
  simp only [hring, hport, hkind, hsince, hmod, hen, decide_eq_false (Nat.not_lt.2 hdue)]
  rfl

theorem hostReadTimeout_index (hring : c.ring? f ring = some q) (hread : q.reading = true) :
    hostReadTimeout (.index f ring) c = c.readBack f ring := by
  simp [hostReadTimeout, hring, hread]

end

theorem hostReadTimeout_command {c : Chip} {ref : CmdRef} {t : TakenChain} (hchain : c.chain? ref = some t) (hcmd : t.isCommand = true)
    (hfeeds : c.host.feeds = []) : hostReadTimeout (.command ref) c = c.complete ref 4 0x93 0 := by
  have hself : { c with host := { c.host with feeds := c.host.feeds.filter (fun i => i.cmd != ref) } } = c := by
    rw [hfeeds, List.filter_nil, ← hfeeds]
  unfold hostReadTimeout
  simp only [hchain, hcmd, hself]
  rfl

/-- A whole chain of descriptors from place `k` of it on (R359): each has the OWNER bit that its place in the ring asks for, the chain's first is
marked first, its last last, and no other. -/
theorem headOf_chain {log2 k at_ n : Nat} {l : List Desc} (h : headOf log2 k at_ l = .chain n) :
    k + 1 ≤ n ∧ n ≤ 16 ∧ n ≤ k + l.length ∧ ∀ j d, k + j < n → l[j]? = some d →
      d.owner = ownerBit (at_ + j) log2 ∧ (d.first = true ↔ k + j = 0) ∧ (d.last = true ↔ k + j + 1 = n) := by
  induction l generalizing k at_ with
  | nil => cases h
  | cons d rest ih =>
    rw [headOf] at h
    split at h
    · cases h
    rename_i howner
    split at h
    · cases h
    rename_i hbad
    rw [bne_iff_ne, not_not] at howner
    rw [Bool.or_eq_true, not_or, bne_iff_ne, not_not, decide_eq_true_iff, Nat.not_le] at hbad
    obtain ⟨hfirst, hmax⟩ := hbad
    replace hfirst : d.first = true ↔ k = 0 := by rw [hfirst, beq_iff_eq]
    change k < 16 at hmax
    split at h
    next hlast =>
      cases h
      refine ⟨Nat.le_refl _, hmax, by rw [List.length_cons]; omega, fun j e hj he => ?_⟩
      obtain rfl : j = 0 := by omega
      cases he
      exact ⟨howner, hfirst, by simp [hlast]⟩
    next hlast =>
      obtain ⟨hlow, hhigh, hlen, hall⟩ := ih h
      refine ⟨by omega, hhigh, by rw [List.length_cons]; omega, fun j e hj he => ?_⟩
      cases j with
      | zero =>
        cases he
        exact ⟨howner, hfirst, by simp [hlast]; omega⟩
      | succ j =>
        have hj := hall j e (by omega) (by simpa using he)
        rw [show at_ + (j + 1) = at_ + 1 + j by omega, show k + (j + 1) = k + 1 + j by omega]
        exact hj

/-- A chain that is taken stands last in what its function has out, under its handle (R360). -/
theorem Chip.takeChain_good {c : Chip} {f : FnId} {ring : BitVec 8} {q : HostRing} {l : List Desc} (hring : c.ring? f ring = some q)
    (hgood : chainBad l = false) : ∃ t q', ((c.takeChain f ring q l).fn f).out = (c.fn f).out ++ [t]
      ∧ (c.takeChain f ring q l).ring? f ring = some q' ∧ t.handle = handleOf f ring (q.serialBase + q.chains) (c.fn f).gen
      ∧ t.size = l.length ∧ q'.taken = q.taken + BitVec.ofNat 32 l.length ∧ q'.chains = q.chains + 1 := by
  unfold Chip.takeChain
  extract_lets serial handle isCommand bad at_ t c1 c2 c3
  rw [if_neg (by simp [bad, hgood])]
  refine ⟨t, { q with taken := q.taken + BitVec.ofNat 32 l.length, chains := q.chains + 1 }, ?_, ?_, rfl, rfl, rfl, rfl⟩
  · simp [c3, c2, c1, Chip.countRing, Chip.onRing]
  · have hrings : c3.ring? f ring = c2.ring? f ring := by
      rw [Chip.ring?, Chip.fn_onFn]
      rfl
    rw [hrings, Chip.ring?_countRing, Chip.ring?_onRing, hring]
    rfl

theorem exec_doorbell (f : FnId) (ring : BitVec 8) (s : State) : exec (.doorbell f ring) s = s.run (doorbell f ring) := rfl

theorem exec_indexWordReadDone (f : FnId) (ring : BitVec 8) (word : Word32) (s : State) :
    exec (.indexWordReadDone f ring word) s = s.run (indexWordReadDone f ring word) := rfl

theorem exec_descriptorFetchDone (f : FnId) (ring : BitVec 8) (l : List Desc) (s : State) :
    exec (.descriptorFetchDone f ring l) s = s.run (descriptorFetchDone f ring l) := rfl

theorem exec_completionRingRoom (f : FnId) (ring : BitVec 8) (n : Word32) (s : State) :
    exec (.completionRingRoom f ring n) s = s.run (completionRingRoom f ring n) := rfl

theorem exec_interruptModerationTimer (f : FnId) (ring : BitVec 8) (ns : Nat) (s : State) :
    exec (.interruptModerationTimer f ring ns) s = s.run (interruptModerationTimer f ring ns) := rfl

theorem exec_hostReadTimeout (w : HostWork) (s : State) : exec (.hostReadTimeout w) s = s.runSettle (hostReadTimeout w) := rfl

/-- Settles O46: each command's effect on the ring that it names, and the two facts about chains. -/
theorem ringsAreReadAndTaken : Obligations.RingsAreReadAndTaken := by
  unfold Obligations.RingsAreReadAndTaken
  refine ⟨fun s f ring halive hport => ⟨fun hring => ?_, fun q hring => ⟨fun hlive hidle => ?_, fun hlive hbusy => ?_,
      fun word hread hkind herr => ⟨fun hahead => ?_, fun hahead => ?_⟩, fun l hfetch => ?_, fun n hread hkind hroom => ?_,
      fun ns hkind hsince hmod hdue hen => ?_, fun hread => ?_⟩⟩, fun s ref t halive hchain hcmd hfeeds => ?_,
    fun log2 first l n h => ?_, fun c f ring q l hring hgood => Chip.takeChain_good hring hgood⟩
  · rw [exec_doorbell, State.run_live _ halive, doorbell_unknown hport hring]
  · rw [exec_doorbell, State.run_live _ halive, doorbell_reads hport hring hlive hidle]
  · rw [exec_doorbell, State.run_live _ halive, doorbell_again hport hring hlive hbusy]
  · rw [exec_indexWordReadDone, State.run_live _ halive, indexWordReadDone_fails hport hring hread hkind herr hahead]
  · rw [exec_indexWordReadDone, State.run_live _ halive, indexWordReadDone_publishes hport hring hread hkind herr hahead]
  · rw [exec_descriptorFetchDone, State.run_live _ halive, descriptorFetchDone_takes l hport hring hfetch]
  · rw [exec_completionRingRoom, State.run_live _ halive, completionRingRoom_reads n hport hring hread hkind hroom]
  · rw [exec_interruptModerationTimer, State.run_live _ halive, interruptModerationTimer_due hport hring hkind hsince hmod hdue hen]
  · rw [exec_hostReadTimeout, State.runSettle_live _ halive, hostReadTimeout_index hring hread]
  · rw [exec_hostReadTimeout, State.runSettle_live _ halive, hostReadTimeout_command hchain hcmd hfeeds]
  · obtain ⟨hmin, hmax, hlen, hall⟩ := headOf_chain h
    simp only [Nat.zero_add] at hmin hlen hall
    exact ⟨hmin, hmax, hlen, hall⟩

end Sys2Proof.Machine
end

section
/-!
The host's own commands (chapter 12, R370, R371, R376, R377, R444), one lemma for each outcome.
-/

namespace Sys2Proof.Machine

section
variable {c : Chip} {ref : CmdRef}

theorem ringCreate_refused {p : RingCreate} (h : c.ringCreateCheck ref.fn p ≠ 0) :
    ringCreate ref p c = c.complete ref 4 (c.ringCreateCheck ref.fn p) 0 := by
  simp [ringCreate, h]

/-- The ring that a create makes (R370, R373). -/
def createdRing (c : Chip) (f : FnId) (p : RingCreate) : HostRing :=
  if p.completion then newRing .completion p.log2.toNat p.base p.index 0 0 p.vector p.vecEn p.modCount p.modUsec
  else newRing .submission p.log2.toNat p.base p.index p.cq ((c.fn f).serialFrom p.ring.toNat p.serialBase) 0 false 0 0

theorem createdRing_fresh (c : Chip) (f : FnId) (p : RingCreate) : (createdRing c f p).published = 0 ∧ (createdRing c f p).taken = 0
    ∧ (createdRing c f p).posted = 0 ∧ (createdRing c f p).log2 = p.log2.toNat ∧ (createdRing c f p).base = p.base
    ∧ (createdRing c f p).index = p.index ∧ ((createdRing c f p).kind = .completion ↔ p.completion = true) := by
  unfold createdRing
  cases p.completion with
  | true => exact ⟨rfl, rfl, rfl, rfl, rfl, rfl, fun _ => rfl, fun _ => rfl⟩
  | false => exact ⟨rfl, rfl, rfl, rfl, rfl, rfl, nofun, nofun⟩

theorem ringCreate_taken {p : RingCreate} (h : c.ringCreateCheck ref.fn p = 0) : ringCreate ref p c =
    ((c.onFn ref.fn (fun x => { x with rings := Tab.set x.rings p.ring.toNat (createdRing c ref.fn p) })).complete ref 4 0 0).postHeld ref.fn
      p.ring := by
  unfold ringCreate
  simp only [h]
  rfl

/-- What the check of a new ring has found where it finds nothing wrong (R370). -/
theorem Chip.ringCreateCheck_eq_zero {f : FnId} {p : RingCreate} (h : c.ringCreateCheck f p = 0) : c.ring? f p.ring = none ∧ 3 ≤ p.ring.toNat
    ∧ 6 ≤ p.log2.toNat ∧ p.log2.toNat ≤ 16 ∧ p.base.toNat % 4096 = 0 ∧ p.index.toNat % 8 = 0 := by
  unfold Chip.ringCreateCheck at h
  extract_lets isCq at h
  split at h
  · cases h
  rename_i hnone
  split at h
  · cases h
  rename_i hplace
  simp only [Bool.or_eq_true, decide_eq_true_iff, bne_iff_ne, not_or, Nat.not_lt, not_not] at hplace
  obtain ⟨⟨⟨⟨hring, hmin⟩, hmax⟩, hbase⟩, hindex⟩ := hplace
  exact ⟨by simpa using hnone, hring, hmin, hmax, hbase, hindex⟩

theorem ringDestroy_submission {ring : BitVec 8} {q : HostRing} (hring : c.ring? ref.fn ring = some q) (hnum : 3 ≤ ring.toNat)
    (hlive : q.destroying = none) (hkind : q.kind = .submission) :
    ringDestroy ref ring c = (c.onRing ref.fn ring (fun q => { q with destroying := some ref })).chainGone ref.fn ring := by
  simp [ringDestroy, hring, hlive, hkind, Nat.not_lt.2 hnum]

theorem ringDestroy_completion {ring : BitVec 8} {q : HostRing} (hring : c.ring? ref.fn ring = some q) (hnum : 3 ≤ ring.toNat)
    (hlive : q.destroying = none) (hkind : q.kind ≠ .submission) (hnamed : c.cqNamed ref.fn ring = false) (hwait : q.waiting = []) :
    ringDestroy ref ring c = (c.onFn ref.fn (fun x => { x with rings := Tab.erase x.rings ring.toNat })).complete ref 4 0 0 := by
  rw [← beq_eq_false_iff_ne] at hkind
  unfold ringDestroy
  simp only [hring, hlive, hkind, hnamed, hwait, decide_eq_false (Nat.not_lt.2 hnum)]
  rfl

section
variable (hd3 : c.host.d3hot = false) (hhost : c.hostGone ref.fn = false)
include hd3 hhost

theorem objQuery_qp {n : Word32} (iova : Word64) {q : Qp} (hserv : c.inService (qpReach (BitVec.ofNat 24 n.toNat)) = true)
    (hqp : (c.reach (qpReach (BitVec.ofNat 24 n.toNat))).qp (BitVec.ofNat 24 n.toNat) = some q) (hfn : q.function = ref.fn) :
    objQuery ref 1 n iova c = (c.hostWrite ref.fn iova.toNat (qpBytes q)).complete ref 4 0 0 := by
  simp only [objQuery, hd3, hhost, hserv, hqp, hfn, beq_self_eq_true]
  rfl

theorem objQuery_mooring {r : ReachId} {n : Word32} (iova : Word64) {m : Mooring} (hr : r.val = n.toNat / 2 ^ 15 % 4)
    (hserv : c.inService r = true) (hm : Tab.find? (c.reach r).rme.moorings (natBits n.toNat 0 15) = some m) (hfn : m.function = ref.fn)
    (huse : m.inUse = true) : objQuery ref 2 n iova c = (c.hostWrite ref.fn iova.toNat (mooringBytes m)).complete ref 4 0 0 := by
  have hreach : (⟨n.toNat / 2 ^ 15 % 4, Nat.mod_lt _ (by decide)⟩ : ReachId) = r := Fin.ext hr.symm
  simp only [objQuery, hd3, hhost, hreach, hserv, hm, hfn, huse, beq_self_eq_true]
  rfl

theorem configTableWrite_pf (hpf : ref.fn = 0) (t : ConfigTable) : configTableWrite ref t c =
    (c.configWrite .pf t).2.2.complete ref 4 (c.configWrite .pf t).1 (BitVec.ofNat 64 (c.configWrite .pf t).2.1) := by
  rw [hpf] at hhost
  simp [configTableWrite, hd3, hpf, hhost]

theorem configTableRead_pf (hpf : ref.fn = 0) {t : ConfigTable} (hok : (c.configRead .pf t).1 = 0) : configTableRead ref t c =
    (c.hostWrite ref.fn t.iova.toNat (c.configRead .pf t).2).complete ref 4 0 (BitVec.ofNat 64 t.count) := by
  rw [hpf] at hhost
  simp [configTableRead, hd3, hpf, hhost, hok]

end

theorem configTable_vf (hd3 : c.host.d3hot = false) (hvf : ref.fn ≠ 0) (t : ConfigTable) :
    configTableWrite ref t c = c.complete ref 4 0x91 0 ∧ configTableRead ref t c = c.complete ref 4 0x91 0 := by
  simp [configTableWrite, configTableRead, hd3, hvf]

/-- The one buffer that waits, where it is the next of its feed (R376). -/
theorem feedRun_single {d : Chip} {i : FeedItem} (hfeeds : d.host.feeds = [i]) (hseq : i.post.seq = d.feedNext i.post.plan i.post.feed) :
    Chip.feedRun 1 d i.post.plan i.post.feed =
      if d.feedOk i = false then ({ d with host := { d.host with feeds := [] } } : Chip).complete i.cmd 4 0xB9 0
      else ({ d with host := { d.host with feeds := [], feedSeq := d.host.feedSeq.filter (fun (e : Word64 × Word16 × Word64) =>
        !(e.1 == i.post.plan && e.2.1 == i.post.feed)) ++ [(i.post.plan, i.post.feed, i.post.seq + 1)] } } : Chip).complete i.cmd 4 0
          (BitVec.ofNat 64 i.post.length.toNat) := by
  rw [Chip.feedRun]
  simp only [hfeeds, ← hseq, List.find?_cons, beq_self_eq_true, Bool.and_self, List.filter_cons, bne_self_eq_false, List.filter_nil]
  cases d.feedOk i <;> rfl

/-- A buffer that is the next of its feed is read as it is posted, and its feed then waits for the one behind it (R376). -/
theorem feedPost_next {p : FeedPost} (hd3 : c.host.d3hot = false) (hcheck : c.feedCheck ref p = 0) (hseq : p.seq = c.feedNext p.plan p.feed)
    (hfeeds : c.host.feeds = []) : feedPost ref p c = if c.feedOk { cmd := ref, post := p } = false then c.complete ref 4 0xB9 0
      else ({ c with host := { c.host with feeds := [], feedSeq := c.host.feedSeq.filter (fun (e : Word64 × Word16 × Word64) =>
        !(e.1 == p.plan && e.2.1 == p.feed)) ++ [(p.plan, p.feed, p.seq + 1)] } }).complete ref 4 0 (BitVec.ofNat 64 p.length.toNat) := by
  unfold feedPost
  rw [if_neg (by rw [hd3]; nofun), if_neg (by simp [hcheck]), if_neg (by simp [← hseq, hfeeds])]
  extract_lets item src d
  have hd : d.host.feeds = [item] := by rw [show d.host.feeds = c.host.feeds ++ [item] from rfl, hfeeds, List.nil_append]
  rw [hd]
  refine (feedRun_single hd hseq).trans ?_
  have hself : ({ c with host := { c.host with feeds := [] } } : Chip) = c := by rw [← hfeeds]
  exact congrArg₂ (fun a b => if c.feedOk { cmd := ref, post := p } = false then a else b)
    (congrArg (fun d : Chip => d.complete ref 4 0xB9 0) hself) rfl

/-- A checkpoint's buffer without a key gets bytes of the plan's choice, as many as the plan has (R377; the bytes are free, log entry 70). -/
theorem ckptPost_plain {p : FeedPost} {m : Mooring} (hd3 : c.host.d3hot = false) (hcheck : c.feedCheck ref p = 0)
    (hm : c.bounce ref.fn p = some m) (hkey : p.keySlot = 0xFFFF) : ∃ (bs : List Byte) (n : Nat), bs.length ≤ p.length.toNat ∧
      ckptPost ref p c = ({ c with freeCtr := n }.hostWrite ref.fn (m.base.toNat + p.roff.toNat) bs).complete ref 4 0 (BitVec.ofNat 64 bs.length) := by
  refine ⟨(c.free.2.freeBytes (c.free.1.toNat % (p.length.toNat + 1))).1,
    (c.free.2.freeBytes (c.free.1.toNat % (p.length.toNat + 1))).2.freeCtr, ?_, ?_⟩
  · simp only [Chip.freeBytes, List.length_map, List.length_range]
    exact Nat.lt_succ_iff.1 (Nat.mod_lt _ (Nat.succ_pos _))
  · simp [ckptPost, hd3, hcheck, hm, hkey, Chip.freeBytes, Chip.free]

end

theorem length_qpBytes (q : Qp) : (qpBytes q).length = 128 := by
  simp only [qpBytes, List.length_append, length_leBytes, List.length_replicate]

theorem length_mooringBytes (m : Mooring) : (mooringBytes m).length = 32 := by
  simp only [mooringBytes, List.length_append, length_leBytes]

theorem exec_nop (ref : CmdRef) (s : State) : exec (.nop ref) s = s.runCmd ref nop := rfl

theorem exec_ringCreate (ref : CmdRef) (p : RingCreate) (s : State) : exec (.ringCreate ref p) s = s.runCmd ref (fun ref => ringCreate ref p) := rfl

theorem exec_ringDestroy (ref : CmdRef) (ring : BitVec 8) (s : State) :
    exec (.ringDestroy ref ring) s = s.runCmd ref (fun ref => ringDestroy ref ring) := rfl

theorem exec_objQuery (ref : CmdRef) (kind : BitVec 8) (n : Word32) (iova : Word64) (s : State) :
    exec (.objQuery ref kind n iova) s = s.runCmd ref (fun ref => objQuery ref kind n iova) := rfl

theorem exec_feedPost (ref : CmdRef) (p : FeedPost) (s : State) : exec (.feedPost ref p) s = s.runCmd ref (fun ref => feedPost ref p) := rfl

theorem exec_ckptPost (ref : CmdRef) (p : FeedPost) (s : State) : exec (.ckptPost ref p) s = s.runCmd ref (fun ref => ckptPost ref p) := rfl

theorem exec_configTableWrite (ref : CmdRef) (t : ConfigTable) (s : State) :
    exec (.configTableWrite ref t) s = s.runCmd ref (fun ref => configTableWrite ref t) := rfl

theorem exec_configTableRead (ref : CmdRef) (t : ConfigTable) (s : State) :
    exec (.configTableRead ref t) s = s.runCmd ref (fun ref => configTableRead ref t) := rfl

/-- Settles O47: each command's outcome is one of the lemmas above. -/
theorem hostCommandsComplete : Obligations.HostCommandsComplete := by
  unfold Obligations.HostCommandsComplete
  refine ⟨fun s ref halive htake => ?_, length_qpBytes, length_mooringBytes⟩
  have hrun (f : CmdRef → Chip → Chip) : s.runCmd ref f = .next (s.put (f ref s.chip)) := State.runCmd_live f halive htake
  simp only [exec_nop, exec_ringCreate, exec_ringDestroy, exec_objQuery, exec_feedPost, exec_ckptPost, exec_configTableWrite,
    exec_configTableRead, hrun]
  refine ⟨rfl, fun p h => by rw [ringCreate_refused h], fun p h => ?_,
    fun ring q hring hnum hlive => ⟨fun hkind => ?_, fun hkind hnamed hwait => ?_⟩,
    fun hd3 hhost => ⟨fun n iova q hserv hqp hfn => ?_, fun r n iova m hr hserv hm hfn huse => ?_,
      fun p hcheck hseq hfeeds => ⟨fun hok => ?_, fun hok => ?_⟩, fun p m hcheck hm hkey => ?_, fun hpf t => ?_, fun hpf t hok => ?_,
      fun hvf t => ?_⟩⟩
  · obtain ⟨hnone, hring, hmin, hmax, hbase, hindex⟩ := Chip.ringCreateCheck_eq_zero h
    obtain ⟨hpub, htaken, hposted, hlog, hb, hi, hkind⟩ := createdRing_fresh s.chip ref.fn p
    exact ⟨hnone, hring, hmin, hmax, hbase, hindex, _, hpub, htaken, hposted, hlog, hb, hi, hkind, by rw [ringCreate_taken h]⟩
  · rw [ringDestroy_submission hring hnum hlive hkind]
  · rw [ringDestroy_completion hring hnum hlive hkind hnamed hwait]
  · rw [objQuery_qp hd3 hhost iova hserv hqp hfn]
  · rw [objQuery_mooring hd3 hhost iova hr hserv hm hfn huse]
  · rw [feedPost_next hd3 hcheck hseq hfeeds, if_pos hok]
  · rw [feedPost_next hd3 hcheck hseq hfeeds, if_neg (by rw [hok]; nofun)]
  · obtain ⟨bs, n, hlen, hpost⟩ := ckptPost_plain hd3 hcheck hm hkey
    exact ⟨bs, n, hlen, by rw [hpost]⟩
  · rw [configTableWrite_pf hd3 hhost hpf]
  · rw [configTableRead_pf hd3 hhost hpf hok]
  · obtain ⟨hwrite, hread⟩ := configTable_vf hd3 hvf t
    exact ⟨by rw [hwrite], by rw [hread]⟩

end Sys2Proof.Machine
end

section
/-!
The SPDM responder and the management endpoint (chapter 14, R433, R434; R371, R531): each message's answer.
-/

namespace Sys2Proof.Machine

section
variable {c : Chip} {eid : BitVec 8} (msg : List Byte)

theorem spdmGetCapabilities_met (hver : (c.spdmOf eid).version = true) (hcaps : (c.spdmOf eid).caps = false) : spdmGetCapabilities eid msg c =
    (c.setSpdm eid { c.spdmOf eid with caps := true, vca := (c.spdmOf eid).vca ++ msg ++ [0x16] }).emit (.spdm eid 0x61 [0x16]) := by
  simp [spdmGetCapabilities, hver, hcaps]

theorem spdmNegotiateAlgorithms_met (hcaps : (c.spdmOf eid).caps = true) (halgs : (c.spdmOf eid).algs = false) :
    spdmNegotiateAlgorithms eid msg true c = (c.setSpdm eid
      { c.spdmOf eid with algs := true, vca := (c.spdmOf eid).vca ++ msg ++ [1, 2, 2] }).emit (.spdm eid 0x63 [1, 2, 2]) := by
  simp [spdmNegotiateAlgorithms, hcaps, halgs]

theorem spdmChallenge_early (halgs : (c.spdmOf eid).algs = false) : spdmChallenge eid msg 0 false c = c.emit (.spdm eid 0x7F [0x04]) := by
  unfold spdmChallenge
  simp only [halgs]
  rfl

section
variable (halgs : (c.spdmOf eid).algs = true)
include halgs

theorem spdmGetDigests_met : spdmGetDigests eid msg c = (c.setSpdm eid
    { c.spdmOf eid with certs := (c.spdmOf eid).certs ++ msg ++ 1 :: slot0Digest }).emit (.spdm eid 0x01 (1 :: slot0Digest)) := by
  simp [spdmGetDigests, halgs]

theorem spdmGetCertificate_met {offset : Nat} (length : Nat) (hoff : offset ≤ (Config.identityChain 0).length) :
    spdmGetCertificate eid msg 0 offset length c = (c.setSpdm eid
      { c.spdmOf eid with certs := (c.spdmOf eid).certs ++ msg ++ ((Config.identityChain 0).drop offset).take length }).emit
        (.spdm eid 0x02 (((Config.identityChain 0).drop offset).take length)) := by
  simp [spdmGetCertificate, halgs, Nat.not_lt.2 hoff]

/-- A challenge signs the transcript with the nonce, which is the module's free choice (R433). -/
theorem spdmChallenge_met : spdmChallenge eid msg 0 false c =
    (Chip.setSpdm (c.freeBytes 32).2 eid { c.spdmOf eid with
      certs := []
      lastSigned := some (sha384 ((c.spdmOf eid).vca ++ (c.spdmOf eid).certs ++ msg ++ slot0Digest ++ (c.freeBytes 32).1)) }).emit
      (.spdm eid 0x03 (slot0Digest ++ (c.freeBytes 32).1 ++ Config.edSign (beBytes 48
        (sha384 ((c.spdmOf eid).vca ++ (c.spdmOf eid).certs ++ msg ++ slot0Digest ++ (c.freeBytes 32).1)).toNat))) := by
  simp [spdmChallenge, halgs, Chip.spdmSigned]

theorem spdmGetMeasurements_met {op : BitVec 8} (hop : op.toNat ≤ 10 ∨ op = 0xFF) : spdmGetMeasurements eid msg op false c =
    ((c.measures op.toNat).2.setSpdm eid { c.spdmOf eid with meas := (c.spdmOf eid).meas ++ msg ++ (c.measures op.toNat).1 }).emit
      (.spdm eid 0x60 (c.measures op.toNat).1) := by
  have hop' : (decide (10 < op.toNat) && op != 0xFF) = false := by
    rw [Bool.and_eq_false_iff, decide_eq_false_iff_not, Nat.not_lt, bne_eq_false_iff_eq]
    exact hop
  unfold spdmGetMeasurements
  simp only [halgs, hop']
  rfl

end
end

theorem pqCosign_signed {c : Chip} {eid : BitVec 8} {h : BitVec 384} (hsigned : (c.spdmOf eid).lastSigned = some h) :
    pqCosign eid c = c.emit (.spdm eid 0x7E (Config.mlSign (beBytes 48 h.toNat ++ leBytes 8 c.sec.eui.toNat))) := by
  simp [pqCosign, hsigned]

section
variable {c : Chip} {eid : BitVec 8} {offset : Nat}

/-- The management path reads and writes whole registers (R531). -/
theorem accessOf_whole (v : Word64) (h : offset % 8 = 0) : accessOf offset 8 v = some (offset, ~~~ 0, v) := by
  simp [accessOf, h]

theorem accessOf_unaligned (v : Word64) (h : offset % 8 ≠ 0) : accessOf offset 8 v = none := by
  simp [accessOf, h]

theorem mctpRegRead_register {a : RegAddr} (h8 : offset % 8 = 0) (ha : pathReg (.mctp eid) offset = some a) :
    mctpRegRead eid offset c = (c.regRead (.mctp eid) a).2.emit (.regRead eid (c.regRead (.mctp eid) a).1) := by
  simp [mctpRegRead, accessOf_whole _ h8, ha]

theorem mctpRegWrite_register {a : RegAddr} (h8 : offset % 8 = 0) (ha : pathReg (.mctp eid) offset = some a) (v : Word64) :
    mctpRegWrite eid offset v c = (c.regWrite (.mctp eid) offset a (~~~ 0) v).emit (.mctpStatus eid 0 []) := by
  simp [mctpRegWrite, Chip.barWrite, accessOf_whole _ h8, ha]

theorem mctpRegRead_nothing (h : offset % 8 ≠ 0 ∨ pathReg (.mctp eid) offset = none) : mctpRegRead eid offset c = c.emit (.regRead eid 0) := by
  by_cases h8 : offset % 8 = 0
  · simp [mctpRegRead, accessOf_whole _ h8, h.resolve_left (fun hn => hn h8)]
  · simp [mctpRegRead, accessOf_unaligned _ h8]

end

/-- Settles O54: each message's effect, in the order that the model asks for. -/
theorem managementRequestsAnswered : Obligations.ManagementRequestsAnswered := by
  unfold Obligations.ManagementRequestsAnswered
  intro s eid msg halive c x
  have hrun (f : Chip → Chip) : s.run f = .next (s.put (f c)) := State.run_live f halive
  refine ⟨hrun _, fun hver hcaps => ?_, fun hcaps halgs => ?_, fun halgs => ?_, fun offset length halgs hoff => ?_, fun halgs => ?_,
    fun op halgs hop => ?_, fun halgs => ?_, fun h hsigned => ?_, fun offset length => hrun _, fun offset a h8 ha => ⟨?_, fun v => ?_⟩,
    fun offset h => ?_, fun t => ⟨hrun _, hrun _⟩⟩
  · rw [← spdmGetCapabilities_met msg hver hcaps]
    exact hrun _
  · rw [← spdmNegotiateAlgorithms_met msg hcaps halgs]
    exact hrun _
  · rw [← spdmGetDigests_met msg halgs]
    exact hrun _
  · rw [← spdmGetCertificate_met msg halgs length hoff]
    exact hrun _
  · refine ⟨(c.freeBytes 32).1, (c.freeBytes 32).2.freeCtr, by simp [Chip.freeBytes], ?_⟩
    exact (hrun (spdmChallenge eid msg 0 false)).trans (by rw [spdmChallenge_met msg halgs]; rfl)
  · rw [← spdmGetMeasurements_met msg halgs hop]
    exact hrun _
  · rw [← spdmChallenge_early msg halgs]
    exact hrun _
  · rw [← pqCosign_signed hsigned]
    exact hrun _
  · rw [← mctpRegRead_register h8 ha]
    exact hrun _
  · rw [← mctpRegWrite_register h8 ha]
    exact hrun _
  · rw [← mctpRegRead_nothing h]
    exact hrun _

end Sys2Proof.Machine
end

section
/-!
Translation commands (chapter 13, R392 to R402): what each makes of the address spaces, and the pages that a map is given.
-/

namespace Sys2Proof.Machine

/-- An address space as a create leaves it (R392). -/
def Chip.newAsid (c : Chip) (f : FnId) (a : Nat) : Chip :=
  { c with xlt := { c.xlt with asids := Tab.set c.xlt.asids a { function := f, gen := 0, pages := [], wins := [] } } }

/-- The lowest free number is one that the function holds and that no address space has. -/
theorem Chip.freeAsid_some {c : Chip} {f : FnId} {a : Nat} (h : c.freeAsid f = some a) :
    c.holdsAsid f a = true ∧ Tab.find? c.xlt.asids a = none := by
  have hfree : (c.holdsAsid f a && (Tab.find? c.xlt.asids a).isNone) = true := by
    unfold Chip.freeAsid at h
    extract_lets free at h
    split at h
    · exact List.find?_some (p := free) h
    · exact List.find?_some (p := free) h
  simpa using hfree

section
variable {c : Chip} {ref : CmdRef} (hwaits : c.xltWaits = false)
include hwaits

theorem asidCreate_asked {a : Word16} (ha : a ≠ 0xFFFF) (hholds : c.holdsAsid ref.fn a.toNat = true) (hnew : Tab.find? c.xlt.asids a.toNat = none) :
    asidCreate ref a c = (c.newAsid ref.fn a.toNat).complete ref 4 0 (BitVec.ofNat 64 a.toNat) := by
  rw [← beq_eq_false_iff_ne] at ha
  simp only [asidCreate, hwaits, ha, hholds, hnew]
  rfl

theorem asidCreate_lowest {a : Nat} (hfree : c.freeAsid ref.fn = some a) :
    asidCreate ref 0xFFFF c = (c.newAsid ref.fn a).complete ref 4 0 (BitVec.ofNat 64 a) := by
  simp [asidCreate, hwaits, hfree, Chip.newAsid]

theorem xltMap_refused {p : XltMap} (h : c.xltMapCheck ref.fn p ≠ 0) : xltMap ref p c = c.complete ref 4 (c.xltMapCheck ref.fn p) 0 := by
  simp [xltMap, hwaits, h]

theorem xltMap_window {p : XltMap} (h : c.xltMapCheck ref.fn p = 0) (hwin : p.window = true) : xltMap ref p c =
    ((c.onAsid p.asid.toNat (fun a =>
      { a with wins := a.wins ++ [{ va := natBits p.va.toNat 0 57, len := p.length.toNat, iova := p.iova.toNat, rd := p.rd, wr := p.wr }] })).complete
        ref 4 0 0).resolveFaults p.asid := by
  simp [xltMap, hwaits, h, hwin]

theorem xltMap_pages {p : XltMap} {l : List Nat} (h : c.xltMapCheck ref.fn p = 0) (hwin : p.window = false) (hserv : c.inService p.reach = true)
    (hl : c.choosePages ref.fn p (p.length.toNat / pageBytes p.page) = some l) : xltMap ref p c =
    (((c.onReach p.reach (fun x => forEach l x (fun x pa => x.zeroPhys pa (pageBytes p.page)))).onAsid p.asid.toNat (fun a =>
      { a with pages := a.pages ++ l.zipIdx.map (fun e =>
        { va := natBits p.va.toNat 0 57 + e.2 * pageBytes p.page, size := p.page, tier := p.tier, reach := p.reach,
          set := if p.tier == 1 then 0 else p.pcset, pa := e.1, rd := p.rd, wr := p.wr }) })).complete ref 4 0
      (BitVec.ofNat 64 l.length)).resolveFaults p.asid := by
  simp [xltMap, hwaits, h, hwin, hserv, hl]

theorem xltWithdraw_queued {p : XltWithdraw} (hrefuse : p.refuse = false) (hown : c.ownAsid ref.fn p.asid ≠ none) : xltWithdraw ref p c =
    c.invPut { cmd := ref, asid := p.asid, free := false, range := some (natBits p.va.toNat 0 57, p.length.toNat), started := false,
               released := [] } := by
  simp [xltWithdraw, hwaits, hrefuse, hown]

theorem asidInvalidate_queued {a : Word16} (free : Bool) (hown : c.ownAsid ref.fn a ≠ none) : asidInvalidate ref a free c =
    c.invPut { cmd := ref, asid := a, free := free, range := none, started := false, released := [] } := by
  simp [asidInvalidate, hwaits, hown]

end

theorem le_of_mem_takePages {busy : List (Nat × Nat)} {size hi fuel pa want q : Nat} (h : q ∈ takePages busy size hi fuel pa want) : pa ≤ q := by
  induction fuel generalizing pa want with
  | zero => cases h
  | succ fuel ih =>
    rw [takePages] at h
    split at h
    · cases h
    split at h
    · have := ih h
      omega
    · rcases List.mem_cons.1 h with rfl | h
      · exact Nat.le_refl _
      · have := ih h
        omega

/-- The pages that a map is given meet no busy range and do not meet each other (R394). -/
theorem takePages_apart (busy : List (Nat × Nat)) (size hi fuel pa want : Nat) :
    (∀ q ∈ takePages busy size hi fuel pa want, ∀ e ∈ busy, e.1 + e.2 ≤ q ∨ q + size ≤ e.1)
      ∧ (takePages busy size hi fuel pa want).Pairwise (fun x y => x + size ≤ y) := by
  induction fuel generalizing pa want with
  | zero => exact ⟨nofun, .nil⟩
  | succ fuel ih =>
    rw [takePages]
    split
    · exact ⟨nofun, .nil⟩
    split
    · exact ih ..
    next hfree =>
      obtain ⟨hbusy, hpair⟩ := ih (pa + size) (want - 1)
      refine ⟨fun q hq e he => ?_, List.pairwise_cons.2 ⟨fun q hq => le_of_mem_takePages hq, hpair⟩⟩
      rcases List.mem_cons.1 hq with rfl | hq
      · have hmeets : ¬(e.1 < q + size ∧ q < e.1 + e.2) := fun hm =>
          hfree (List.any_eq_true.2 ⟨e, he, by simpa using hm⟩)
        omega
      · exact hbusy q hq e he

theorem Chip.choosePages_some {c : Chip} {f : FnId} {p : XltMap} {n : Nat} {l : List Nat} (h : c.choosePages f p n = some l) : l.length = n ∧
    (∀ pa ∈ l, ∀ e ∈ c.busyRanges p.reach, e.1 + e.2 ≤ pa ∨ pa + pageBytes p.page ≤ e.1)
      ∧ l.Pairwise (fun x y => x + pageBytes p.page ≤ y) := by
  unfold Chip.choosePages at h
  extract_lets size lp lo hi taken at h
  split at h
  · cases h
  split at h
  · cases h
  split at h
  next hlen =>
    rw [← Option.some.inj h]
    exact ⟨hlen, takePages_apart ..⟩
  · cases h

theorem Chip.invStart_refused {c : Chip} {i : InvCmd} {a : Asid} (ha : Tab.find? c.xlt.asids i.asid.toNat = some a) (hcheck : c.invCheck a i ≠ 0) :
    c.invStart i = ({ c with xlt := c.xlt.onInv i.cmd.handle (fun _ => none) } : Chip).complete i.cmd 4 (c.invCheck a i) 0 := by
  simp [Chip.invStart, ha, hcheck]

section
variable {c : Chip} {asid : Word16} {i : InvCmd} {a : Asid} (hi : c.xlt.inv.find? (fun i => i.asid == asid && i.started) = some i)
  (ha : Tab.find? c.xlt.asids asid.toNat = some a)
include hi ha

theorem xltInvalidateDrained_waits (hold : c.oldWork asid a.gen = true) : xltInvalidateDrained asid c = c.settle := by
  simp [xltInvalidateDrained, Chip.invDrained, hi, ha, hold]

theorem xltInvalidateDrained_ends (hold : c.oldWork asid a.gen = false) :
    xltInvalidateDrained asid c = ((c.invFinish i a.gen).invRun (c.invFinish i a.gen).xlt.inv.length asid).settle := by
  simp [xltInvalidateDrained, Chip.invDrained, hi, ha, hold]

end

theorem exec_asidCreate (ref : CmdRef) (a : Word16) (s : State) : exec (.asidCreate ref a) s = s.runCmd ref (fun ref => asidCreate ref a) := rfl

theorem exec_xltMap (ref : CmdRef) (p : XltMap) (s : State) : exec (.xltMap ref p) s = s.runCmd ref (fun ref => xltMap ref p) := rfl

theorem exec_xltWithdraw (ref : CmdRef) (p : XltWithdraw) (s : State) :
    exec (.xltWithdraw ref p) s = s.runCmd ref (fun ref => xltWithdraw ref p) := rfl

theorem exec_asidInvalidate (ref : CmdRef) (a : Word16) (free : Bool) (s : State) :
    exec (.asidInvalidate ref a free) s = s.runCmd ref (fun ref => asidInvalidate ref a free) := rfl

theorem exec_xltInvalidateDrained (asid : Word16) (s : State) : exec (.xltInvalidateDrained asid) s = s.run (xltInvalidateDrained asid) := rfl

theorem exec_xltFaultExpiry (r : ReachId) (now : Time) (f : FnId) (seq : Word16) (s : State) :
    exec (.xltFaultExpiry r now f seq) s = s.run (xltFaultExpiry r now f seq) := rfl

/-- Settles O49: each command's outcome, and the pages by induction on the search. -/
theorem addressSpacesChange : Obligations.AddressSpacesChange := by
  unfold Obligations.AddressSpacesChange
  refine ⟨fun s ref halive htake hwaits => ?_, fun c f p n l h => Chip.choosePages_some h, fun c i a ha hcheck => Chip.invStart_refused ha hcheck,
    fun s asid i a halive hi ha => ⟨fun hold => ?_, fun hold => ?_⟩, fun s r now f seq halive => State.run_live _ halive⟩
  · have hrun (f : CmdRef → Chip → Chip) : s.runCmd ref f = .next (s.put (f ref s.chip)) := State.runCmd_live f halive htake
    simp only [exec_asidCreate, exec_xltMap, exec_xltWithdraw, exec_asidInvalidate, hrun]
    refine ⟨fun a ha hholds hnew => ?_, fun a hfree => ?_, fun p h => ?_, fun p h hwin => ?_, fun p l h hwin hserv hl => ?_,
      fun p hrefuse hown => ?_, fun a free hown => ?_⟩
    · rw [asidCreate_asked hwaits ha hholds hnew, Chip.newAsid]
    · obtain ⟨hholds, hnew⟩ := Chip.freeAsid_some hfree
      exact ⟨hholds, hnew, by rw [asidCreate_lowest hwaits hfree, Chip.newAsid]⟩
    · rw [xltMap_refused hwaits h]
    · rw [xltMap_window hwaits h hwin]
    · rw [xltMap_pages hwaits h hwin hserv hl]
    · rw [xltWithdraw_queued hwaits hrefuse hown]
    · rw [asidInvalidate_queued hwaits free hown]
  · rw [exec_xltInvalidateDrained, State.run_live _ halive, xltInvalidateDrained_waits hi ha hold]
  · rw [exec_xltInvalidateDrained, State.run_live _ halive, xltInvalidateDrained_ends hi ha hold]

end Sys2Proof.Machine
end

section
/-!
Tenancies (chapter 13, R403 to R411): each command's outcome, the end of a freeze, and the blob's save and restore.
-/

namespace Sys2Proof.Machine

/-- A tenancy command of a function other than the PF is refused before anything else of it is looked at (R403). -/
theorem tenancy_vf {c : Chip} {ref : CmdRef} (hvf : ref.fn ≠ 0) : (∀ g, functionEnable ref g c = c.complete ref 4 0x91 0)
    ∧ (∀ n, functionDisable ref n c = c.complete ref 4 0x91 0) ∧ (∀ n ms, tenFreeze ref n ms c = c.complete ref 4 0x91 0)
    ∧ (∀ n, tenUnfreeze ref n c = c.complete ref 4 0x91 0) := by
  simp [functionEnable, functionDisable, tenFreeze, tenUnfreeze, hvf]

theorem Chip.tenFn_eq_some {c : Chip} {f : FnId} {n : BitVec 8} (hn : n.toNat = f.val) (hen : (c.fn f).enabled = true) : c.tenFn n = some f := by
  unfold Chip.tenFn
  have hlt : n.toNat < 64 := by rw [hn]; exact f.isLt
  have hf : (⟨n.toNat, hlt⟩ : FnId) = f := Fin.ext hn
  rw [dif_pos hlt, hf, if_pos hen]

theorem mem_allReaches (r : ReachId) : r ∈ allReaches := by
  revert r
  decide

section
variable {c : Chip} {ref : CmdRef} (hpf : ref.fn = 0)
include hpf

section
variable (hlog : c.sec.logRefusal = none)
include hlog

theorem functionEnable_conflict {g : Grant} (hgood : grantBad g = false) (hshut : (c.fn (grantFn g)).shutdown = false)
    (hconf : c.grantConflict g = true) : functionEnable ref g c = c.complete ref 4 0xA8 0 := by
  simp [functionEnable, hpf, hgood, hlog, hshut, hconf]

theorem functionEnable_logged {g : Grant} (hgood : grantBad g = false) (hshut : (c.fn (grantFn g)).shutdown = false)
    (hconf : c.grantConflict g = false) : functionEnable ref g c = (c.log 9 (c.whoOf .pf) 0 (grantBytes g)).enableNow ref g := by
  simp [functionEnable, hpf, hgood, hlog, hshut, hconf]

theorem functionDisable_shuts {f : FnId} {n : BitVec 8} {g : Grant} (hn : n.toNat = f.val) (hf : f ≠ 0) (hen : (c.fn f).enabled = true)
    (hgrant : (c.ten f).grant = some g) : functionDisable ref n c =
      (((c.log 9 (c.whoOf .pf) 0 (grantBytes g)).onTen f (fun t => { t with disable := t.disable ++ [ref] })).shutStart f).settle := by
  have hlt : n.toNat < 64 := by rw [hn]; exact f.isLt
  have hid : (⟨n.toNat, hlt⟩ : FnId) = f := Fin.ext hn
  simp [functionDisable, hpf, hlt, hid, hf, hen, hlog, hgrant]

end

section
variable {f : FnId} {n : BitVec 8} (hn : n.toNat = f.val) (hen : (c.fn f).enabled = true)
include hn hen

omit hpf hn hen in
theorem Chip.ten_onQp (c : Chip) (r : ReachId) (qpn : BitVec 24) (g : Qp → Qp) (f : FnId) : (c.onQp r qpn g).ten f = c.ten f := rfl

/-- The module once a freeze has begun, before it is looked at whether it has ended (R407). -/
def Chip.freezing (c : Chip) (ref : CmdRef) (f : FnId) (ms : Nat) : Chip :=
  forEach allReaches ((c.freezePlans f).onTen f (fun t =>
      { t with state := .freezing, freezeCmd := some ref, freezeEnd := (c.freezePlans f).gateTime + nsTime (1000000 * ms) })) (fun c r =>
    forEach (((c.reach r).qpsOf f).filter (fun q => q.state == .ready)) c (fun c q =>
      c.onQp r q.qpn (fun q => { q with state := .drain, drainTo := .frozen })))

omit hpf hn hen in
theorem Chip.freezing_ten (c : Chip) (ref : CmdRef) (f : FnId) (ms : Nat) :
    ((c.freezing ref f ms).ten f).state = .freezing ∧ ((c.freezing ref f ms).ten f).freezeCmd = some ref := by
  have hdrains (d : Chip) (r : ReachId) (l : List Qp) : (forEach l d (fun c q =>
      c.onQp r q.qpn (fun q => { q with state := .drain, drainTo := .frozen }))).ten f = d.ten f :=
    forEach_keeps (fun c : Chip => c.ten f) (fun d q => d.ten_onQp r q.qpn _ f) l d
  have hten := (forEach_keeps (fun c : Chip => c.ten f) (fun d r => hdrains d r (((d.reach r).qpsOf f).filter (fun q => q.state == .ready)))
    allReaches _).trans (Chip.ten_onTen (c.freezePlans f) f (fun t =>
    { t with state := .freezing, freezeCmd := some ref, freezeEnd := (c.freezePlans f).gateTime + nsTime (1000000 * ms) }))
  exact ⟨congrArg Tenancy.state hten, congrArg Tenancy.freezeCmd hten⟩

theorem tenFreeze_begins (hshut : (c.fn f).shutdown = false) (hstate : (c.ten f).state = .running) (ms : Word32) :
    tenFreeze ref n ms c = (c.freezing ref f (if ms == 0 then 10 else ms.toNat)).settle := by
  unfold tenFreeze
  simp only [hpf, Chip.tenFn_eq_some hn hen, hshut, hstate]
  rfl

theorem tenFreeze_refused (hstate : (c.ten f).state ≠ .running) (ms : Word32) : tenFreeze ref n ms c = c.complete ref 4 0xA9 0 := by
  simp [tenFreeze, hpf, Chip.tenFn_eq_some hn hen, hstate]

theorem tenUnfreeze_refused (hstate : (c.ten f).state ≠ .frozen) : tenUnfreeze ref n c = c.complete ref 4 0xA9 0 := by
  simp [tenUnfreeze, hpf, Chip.tenFn_eq_some hn hen, hstate]

theorem tenUnfreeze_runs (hshut : (c.fn f).shutdown = false) (hstate : (c.ten f).state = .frozen) (hnone : ∀ r, (c.reach r).qpsOf f = []) :
    tenUnfreeze ref n c = ((c.onTen f (fun t => { t with state := .running })).complete ref 4 0 0).fetchAll f := by
  unfold tenUnfreeze
  simp only [hpf, Chip.tenFn_eq_some hn hen, hshut, hstate]
  have hstays (d : Chip) (hd : ∀ r, (d.reach r).qpsOf f = []) : forEach allReaches d (fun c r =>
      forEach (((c.reach r).qpsOf f).filter (fun q => q.state == .frozen)) c (fun c q => c.onQp r q.qpn (fun q =>
        { q with state := .ready, timer := if q.out.isEmpty then none else some (c.now r + (c.reach r).rme.rto 0) }))) = d := by
    refine forEach_preserves (P := fun e => e = d) allReaches rfl (fun e r he => ?_)
    rw [he, hd]
    rfl
  exact congrArg (fun d : Chip => (d.complete ref 4 0 0).fetchAll f) (hstays (c.onTen f (fun t => { t with state := .running })) hnone)

end
end

theorem Chip.allFrozen_iff (c : Chip) (f : FnId) :
    c.allFrozen f = true ↔ ∀ r, c.collsInFlight f r = false ∧ ∀ q ∈ (c.reach r).qpsOf f, q.state ≠ .ready ∧ q.state ≠ .drain := by
  simp [Chip.allFrozen, mem_allReaches]

/-- The freeze's limit where no context drains any more (R407). -/
theorem tenFreezeDrainExpiry_done {c : Chip} {r : ReachId} {now : Time} {f : FnId} (hstate : (c.ten f).state = .freezing)
    (hend : notBefore (c.ten f).freezeEnd (c.at r now).gateTime = true ∨ (c.at r now).steadyReach = none)
    (hnone : ∀ r, ∀ q ∈ (c.reach r).qpsOf f, q.state ≠ .drain) : tenFreezeDrainExpiry r now f c = (c.at r now).freezeDone f 0 0 := by
  have hdrain (q : ReachId) : (((c.at r now).reach q).qpsOf f).filter (fun x => x.state == .drain) = [] := by
    rw [List.filter_eq_nil_iff, Reach.qpsOf, Chip.reach_at_rme]
    exact fun x hx => by simpa using hnone q x hx
  have hten : (c.at r now).ten f = c.ten f := rfl
  have hnow : ((c.ten f).state != .freezing || ((c.at r now).steadyReach.isSome && !notBefore (c.ten f).freezeEnd (c.at r now).gateTime)) = false := by
    rcases hend with hend | hend <;> simp [hstate, hend]
  unfold tenFreezeDrainExpiry
  simp only [hten, hnow, hdrain]
  rfl

theorem Qp.freezeNow_ops (q : Qp) : ∀ o ∈ q.freezeNow.ops, o.status ≠ none := by
  intro o ho
  obtain ⟨p, -, rfl⟩ := List.mem_map.1 ho
  split
  · nofun
  next hsome => simpa using hsome

theorem frozenStatus_eq (o : RmeOp) : frozenStatus o = if o.entry.op = 0 ∨ o.entry.op = 2 ∨ o.sent = 0 then 0xAA else 0xAB := by
  simp [frozenStatus, or_assoc]

section
variable {c : Chip} {ref : CmdRef} (hpf : ref.fn = 0) (hhost : c.hostGone 0 = false) (hlog : c.sec.logRefusal = none)
include hpf hhost hlog

section
variable {p : TenSave} {kek : List Byte} (hshut : (c.fn p.fn).shutdown = false) (hstate : (c.ten p.fn).state = .frozen)
  (hkek : c.migrationKek p.kek = some kek)
include hshut hstate hkek

/-- The bytes that a tenancy's blob takes (R408). -/
def Chip.blobLen (c : Chip) (f : FnId) : Nat := 256 + (c.blobPlain f (c.grantOf f)).length + 16 * segCount (c.blobPlain f (c.grantOf f)).length

theorem tenSave_short (hlen : p.length.toNat < c.blobLen p.fn) :
    tenSave ref p c = c.complete ref 4 0xAC (BitVec.ofNat 64 (c.blobLen p.fn)) := by
  rw [Chip.blobLen] at hlen
  simp [tenSave, hpf, hhost, hshut, hstate, hkek, hlog, hlen, Chip.blobLen]

/-- The entry that the logbook has of a save (R408). -/
def Chip.saveLogged (c : Chip) (p : TenSave) : Chip :=
  c.log 0xA (c.whoOf .pf) 0 (leBytes 1 p.fn.val ++ leBytes 1 p.kek.toNat ++ leBytes 6 0 ++ leBytes 8 (c.blobLen p.fn))

theorem tenSave_writes (hlen : c.blobLen p.fn ≤ p.length.toNat) : tenSave ref p c =
    let key := ((c.saveLogged p).freeBytes 32).1
    let d := ((c.saveLogged p).freeBytes 32).2
    let n := (c.blobPlain p.fn (c.grantOf p.fn)).length
    (d.hostWrite 0 p.iova.toNat (d.blobHeader p.fn (c.grantOf p.fn) p.kek.toNat (aesWrap kek key) n
      ++ sealSegments key (d.blobHeader p.fn (c.grantOf p.fn) p.kek.toNat (aesWrap kek key) n) (c.blobPlain p.fn (c.grantOf p.fn)))).complete
        ref 4 0 (BitVec.ofNat 64 (c.blobLen p.fn)) := by
  unfold tenSave
  rw [Chip.blobLen] at hlen
  simp only [hpf, hhost, hshut, hstate, hkek, hlog, Nat.not_lt.2 hlen, Chip.saveLogged, Chip.blobLen]
  rfl

end

section
variable {p : TenRestore} (hen : (c.fn p.fn).enabled = true) (hshut : (c.fn p.fn).shutdown = false) (hstate : (c.ten p.fn).state = .running)
  (hobj : c.holdsObjects p.fn = false)
include hen hshut hstate hobj

/-- The entry that the logbook has of a restore (R409). -/
def Chip.restoreLogged (c : Chip) (p : TenRestore) : Chip :=
  c.log 0xA (c.whoOf .pf) 0 (leBytes 1 p.fn.val ++ leBytes 1 p.kek.toNat ++ leBytes 6 0 ++ leBytes 8 p.length.toNat)

theorem tenRestore_fails {n : Nat} (hblob : (c.restoreLogged p).openBlob p = .error n) :
    tenRestore ref p c = ((((c.restoreLogged p).complete ref 4 n 0).shutStart p.fn).settle) := by
  rw [Chip.restoreLogged] at hblob
  simp only [tenRestore, hpf, hhost, hen, hshut, hstate, hobj, hlog, hblob, Chip.restoreLogged]
  rfl

theorem tenRestore_restores {header plain : List Byte} {d : Chip} (hblob : (c.restoreLogged p).openBlob p = .ok (header, plain))
    (hall : (c.restoreLogged p).restoreAll p header plain = (d, 0)) :
    tenRestore ref p c = (d.onTen p.fn (fun t => { t with state := .frozen })).complete ref 4 0 0 := by
  rw [Chip.restoreLogged] at hblob hall
  simp only [tenRestore, hpf, hhost, hen, hshut, hstate, hobj, hlog, hblob, hall]
  rfl

end
end

theorem exec_functionEnable (ref : CmdRef) (g : Grant) (s : State) :
    exec (.functionEnable ref g) s = s.runCmd ref (fun ref => functionEnable ref g) := rfl

theorem exec_functionDisable (ref : CmdRef) (n : BitVec 8) (s : State) :
    exec (.functionDisable ref n) s = s.runCmd ref (fun ref => functionDisable ref n) := rfl

theorem exec_tenFreeze (ref : CmdRef) (n : BitVec 8) (ms : Word32) (s : State) :
    exec (.tenFreeze ref n ms) s = s.runCmd ref (fun ref => tenFreeze ref n ms) := rfl

theorem exec_tenUnfreeze (ref : CmdRef) (n : BitVec 8) (s : State) :
    exec (.tenUnfreeze ref n) s = s.runCmd ref (fun ref => tenUnfreeze ref n) := rfl

theorem exec_tenFreezeDrainExpiry (r : ReachId) (now : Time) (f : FnId) (s : State) :
    exec (.tenFreezeDrainExpiry r now f) s = s.run (tenFreezeDrainExpiry r now f) := rfl

theorem exec_tenSave (ref : CmdRef) (p : TenSave) (s : State) : exec (.tenSave ref p) s = s.runCmd ref (fun ref => tenSave ref p) := rfl

theorem exec_tenRestore (ref : CmdRef) (p : TenRestore) (s : State) : exec (.tenRestore ref p) s = s.runCmd ref (fun ref => tenRestore ref p) := rfl

/-- Settles O50: each command's outcome is one of the lemmas above. -/
theorem tenanciesEnableAndFreeze : Obligations.TenanciesEnableAndFreeze := by
  unfold Obligations.TenanciesEnableAndFreeze
  refine ⟨fun s ref halive htake => ?_, Chip.allFrozen_iff, fun s r now f halive hstate hend hnone => ?_,
    fun q => ⟨rfl, rfl, q.freezeNow_ops⟩, frozenStatus_eq, fun s ref p kek halive htake hpf hhost hshut hstate hkek hlog => ?_,
    fun s ref p halive htake hpf hhost hen hshut hstate hobj hlog => ?_⟩
  · have hrun (f : CmdRef → Chip → Chip) : s.runCmd ref f = .next (s.put (f ref s.chip)) := State.runCmd_live f halive htake
    simp only [exec_functionEnable, exec_functionDisable, exec_tenFreeze, exec_tenUnfreeze, hrun]
    refine ⟨fun hvf => ?_, fun hpf hlog => ⟨fun g hgood hshut hconf => ?_, fun g hgood hshut hconf => ?_, fun f n g hn hf hen hgrant => ?_⟩,
      fun hpf f n hn hen hshut => ⟨fun hstate ms => ?_, fun hstate ms => ?_, fun hstate => ?_, fun hstate hnone => ?_⟩⟩
    · obtain ⟨henable, hdisable, hfreeze, hunfreeze⟩ := tenancy_vf (c := s.chip) hvf
      exact ⟨fun g => by rw [henable], fun n => by rw [hdisable], fun n ms => by rw [hfreeze], fun n => by rw [hunfreeze]⟩
    · rw [functionEnable_conflict hpf hlog hgood hshut hconf]
    · rw [functionEnable_logged hpf hlog hgood hshut hconf]
    · rw [functionDisable_shuts hpf hlog hn hf hen hgrant]
    · exact ⟨_, by rw [tenFreeze_begins hpf hn hen hshut hstate], Chip.freezing_ten ..⟩
    · rw [tenFreeze_refused hpf hn hen hstate]
    · rw [tenUnfreeze_refused hpf hn hen hstate]
    · rw [tenUnfreeze_runs hpf hn hen hshut hstate hnone]
  · rw [exec_tenFreezeDrainExpiry, State.run_live _ halive, tenFreezeDrainExpiry_done hstate hend hnone]
  · intro plain len
    rw [exec_tenSave, State.runCmd_live _ halive htake]
    refine ⟨fun hlen => by rw [tenSave_short hpf hhost hlog hshut hstate hkek hlen]; rfl, fun hlen => ?_⟩
    refine ⟨((s.chip.saveLogged p).freeBytes 32).1, ((s.chip.saveLogged p).freeBytes 32).2, by simp [Chip.freeBytes], rfl, ?_⟩
    rw [tenSave_writes hpf hhost hlog hshut hstate hkek hlen]
    rfl
  · intro d
    rw [exec_tenRestore, State.runCmd_live _ halive htake]
    exact ⟨fun n hblob => by rw [tenRestore_fails hpf hhost hlog hen hshut hstate hobj hblob]; rfl,
      fun header plain c' hblob hall => by rw [tenRestore_restores hpf hhost hlog hen hshut hstate hobj hblob hall]⟩

end Sys2Proof.Machine
end

section
/-!
Role requests, sessions and the logbook (chapter 14, R423 to R431): what an entry in the logbook changes, what a request's checks decide, and
each request's own effect.
-/

namespace Sys2Proof.Machine

/-- The logbook's own part of the root of trust's state. -/
def Sec.withLog (s : Sec) (log reserve : List LogEntry) (next : Word32) (digest : BitVec 384) (seals : List Seal) : Sec :=
  { s with log := log, reserve := reserve, logNext := next, lastDigest := digest, seals := seals }

theorem Sec.seal_eq_withLog (s : Sec) (now : Time) : ∃ seals, s.seal now = s.withLog s.log s.reserve s.logNext s.lastDigest seals := ⟨_, rfl⟩

/-- An entry goes to the end of the logbook or nowhere in it, and nothing outside the logbook and its seals changes (R429, R430). -/
theorem Chip.log_sec (c : Chip) (kind : Nat) (w : Who) (result : Nat) (detail : List Byte) : ∃ log reserve next digest seals,
    (c.log kind w result detail).sec = c.sec.withLog log reserve next digest seals
      ∧ (log = c.sec.log ∨ ∃ e : LogEntry, log = c.sec.log ++ [e] ∧ e.kind = BitVec.ofNat 16 kind) := by
  unfold Chip.log
  extract_lets s e full s1 c1
  split
  · exact ⟨_, _, _, _, _, rfl, .inl rfl⟩
  have hlog : s1.log = c.sec.log ∨ ∃ e : LogEntry, s1.log = c.sec.log ++ [e] ∧ e.kind = BitVec.ofNat 16 kind := by
    by_cases hfull : full = true
    · exact .inl (if_pos hfull)
    · exact .inr ⟨e, if_neg hfull, rfl⟩
  have hsec (d : Chip) (hd : d.sec = c1.sec) : ∃ log reserve next digest seals, d.sec = c.sec.withLog log reserve next digest seals
      ∧ (log = c.sec.log ∨ ∃ e : LogEntry, log = c.sec.log ++ [e] ∧ e.kind = BitVec.ofNat 16 kind) := by
    rw [hd, show c1.sec = if s1.logNext.toNat % 256 == 0 then s1.seal c.gateTime else s1 from rfl]
    split
    · exact ⟨_, _, _, _, _, rfl, hlog⟩
    · exact ⟨_, _, _, _, _, rfl, hlog⟩
  split
  · exact hsec _ (Chip.alert_sec ..)
  · exact hsec _ rfl

section
variable (c : Chip) (kind : Nat) (w : Who) (result : Nat) (detail : List Byte)

/-- What reads the root of trust's state apart from the logbook reads the same after an entry. -/
theorem Chip.log_keeps {α : Type} (g : Sec → α)
    (hg : ∀ s log reserve next digest seals, g (s.withLog log reserve next digest seals) = g s := by exact fun _ _ _ _ _ _ => rfl) :
    g (c.log kind w result detail).sec = g c.sec := by
  obtain ⟨log, reserve, next, digest, seals, hsec, -⟩ := c.log_sec kind w result detail
  rw [hsec, hg]

@[simp] theorem Chip.log_pfSession : (c.log kind w result detail).sec.pfSession = c.sec.pfSession := c.log_keeps kind w result detail Sec.pfSession

@[simp] theorem Chip.log_mctpSession : (c.log kind w result detail).sec.mctpSession = c.sec.mctpSession :=
  c.log_keeps kind w result detail Sec.mctpSession

/-- The entries of the logbook after one more was asked for. -/
theorem Chip.log_log : (c.log kind w result detail).sec.log = c.sec.log
    ∨ ∃ e : LogEntry, (c.log kind w result detail).sec.log = c.sec.log ++ [e] ∧ e.kind = BitVec.ofNat 16 kind := by
  obtain ⟨log, reserve, next, digest, seals, hsec, hlog⟩ := c.log_sec kind w result detail
  rw [hsec]
  exact hlog

end

theorem State.runReq_live {s : State} {p : ReqPath} (f : ReqPath → Chip → Chip) (halive : s.chip.alive = true) (htake : s.chip.reqTaken p) :
    s.runReq p f = .next (s.put (f p s.chip)) := by
  cases p with
  | ring ref resp n => exact State.runReq_ring_live f halive htake
  | mctp eid => exact State.runReq_mctp_live f halive

/-- A request's run is as its checks decide: refused, or what its act says, with the role's counter raised (R421, R425). -/
theorem Chip.roleRun_request {c : Chip} {p : ReqPath} {b : RoleReq} {subop : Nat} {act : Chip → Who → RoleDone} {ok : Chip → Chip → Prop}
    (hsub : b.subop.toNat = subop) (hok : ∀ c, ok c ((act c (reqWho p b)).chip.answer p (act c (reqWho p b)).status (act c (reqWho p b)).result
      (act c (reqWho p b)).data)) : c.roleRequest p b ok (c.roleRun p b subop act) := by
  unfold Chip.roleRequest Chip.roleRun
  rw [hsub, if_neg (by simp)]
  cases c.roleCheck p b with
  | some e => rfl
  | none =>
    dsimp only
    have hcond : (b.role != 0 && !c.sec.flashOk) = true ↔ b.role ≠ 0 ∧ c.sec.flashOk = false := by simp
    have hzero : (b.role == 0) = true ↔ b.role = 0 := beq_iff_eq
    simp only [hcond, hzero]
    split
    · rfl
    · exact hok _

/-- A request that comes by a live path leaves the module as `roleRequest` says. -/
theorem request_runs {s : State} {p : ReqPath} {b : RoleReq} {subop : Nat} {f : ReqPath → Chip → Chip} {act : Chip → Who → RoleDone}
    {ok : Chip → Chip → Prop} (halive : s.chip.alive = true) (htake : s.chip.reqTaken p) (hf : ∀ c, f p c = c.roleRun p b subop act)
    (hsub : b.subop.toNat = subop) (hok : ∀ c, ok c ((act c (reqWho p b)).chip.answer p (act c (reqWho p b)).status
      (act c (reqWho p b)).result (act c (reqWho p b)).data)) : ∃ d, s.runReq p f = .next (s.put d) ∧ s.chip.roleRequest p b ok d := by
  refine ⟨_, State.runReq_live _ halive htake, ?_⟩
  rw [hf]
  exact Chip.roleRun_request hsub hok

theorem exec_roleOpen (p : ReqPath) (b : RoleReq) (s : State) : exec (.roleOpen p b) s = s.runReq p (fun p => roleOpen p b) := rfl

theorem exec_roleClose (p : ReqPath) (b : RoleReq) (s : State) : exec (.roleClose p b) s = s.runReq p (fun p => roleClose p b) := rfl

theorem exec_logRead (p : ReqPath) (b : RoleReq) (s : State) : exec (.logRead p b) s = s.runReq p (fun p => logRead p b) := rfl

theorem exec_logTrim (p : ReqPath) (b : RoleReq) (s : State) : exec (.logTrim p b) s = s.runReq p (fun p => logTrim p b) := rfl

theorem exec_identity (p : ReqPath) (b : RoleReq) (s : State) : exec (.identity p b) s = s.runReq p (fun p => identity p b) := rfl

@[simp] theorem Chip.endPfSession_pfSession (c : Chip) : c.endPfSession.sec.pfSession = none := by
  unfold Chip.endPfSession
  split
  next h => exact h
  · rfl

@[simp] theorem Chip.endPfSession_mctpSession (c : Chip) : c.endPfSession.sec.mctpSession = c.sec.mctpSession := by
  unfold Chip.endPfSession
  split
  · rfl
  · exact Chip.log_mctpSession ..

@[simp] theorem Chip.endMctpSession_mctpSession (c : Chip) (w : Who) : (c.endMctpSession w).sec.mctpSession = none := by
  unfold Chip.endMctpSession
  split
  next h => exact h
  · rfl

@[simp] theorem Chip.endMctpSession_pfSession (c : Chip) (w : Who) : (c.endMctpSession w).sec.pfSession = c.sec.pfSession := by
  unfold Chip.endMctpSession
  split
  · rfl
  · exact Chip.log_pfSession ..

theorem exec_roleSessionExpiry (r : ReachId) (now : Time) (mctp : Bool) (s : State) :
    exec (.roleSessionExpiry r now mctp) s = s.run (roleSessionExpiry r now mctp) := rfl

section
variable {c : Chip} {r : ReachId} {now : Time} {x : Session} (hend : notBefore x.expiry (c.at r now).gateTime = true)
include hend

theorem roleSessionExpiry_mctp (hx : c.sec.mctpSession = some x) : roleSessionExpiry r now true c = (c.at r now).endMctpSession Who.module := by
  simp [roleSessionExpiry, hx, hend]

theorem roleSessionExpiry_pf (hx : c.sec.pfSession = some x) : roleSessionExpiry r now false c = (c.at r now).endPfSession := by
  simp [roleSessionExpiry, hx, hend]

end

/-- The logbook without its entries up to a sequence number (R431). -/
def Chip.logWithout (c : Chip) (last : Nat) : Chip := { c with sec := { c.sec with log := c.sec.log.filter (fun e => last < e.seq.toNat) } }

/-- A trim with its own entry, which comes first where the logbook has room (R431). -/
def Chip.logTrimmed (c : Chip) (w : Who) (last : Nat) : Chip :=
  if c.sec.log.length < logMax then (c.log 0xD w 0 (leBytes 8 last)).logWithout last else (c.logWithout last).log 0xD w 0 (leBytes 8 last)

theorem Chip.mem_logWithout {c : Chip} {last : Nat} {x : LogEntry} :
    x ∈ (c.logWithout last).sec.log ↔ x ∈ c.sec.log ∧ last < x.seq.toNat := by
  simp [Chip.logWithout]

theorem Chip.mem_log {c : Chip} {kind : Nat} {w : Who} {result : Nat} {detail : List Byte} {x : LogEntry} :
    (x ∈ (c.log kind w result detail).sec.log → x ∈ c.sec.log ∨ x.kind = BitVec.ofNat 16 kind)
      ∧ (x ∈ c.sec.log → x ∈ (c.log kind w result detail).sec.log) := by
  rcases c.log_log kind w result detail with hlog | ⟨e, hlog, he⟩
  · rw [hlog]
    exact ⟨.inl, id⟩
  · rw [hlog, List.mem_append, List.mem_singleton]
    exact ⟨Or.imp id fun hx => hx ▸ he, .inl⟩

theorem Chip.logTrimmed_log (c : Chip) (w : Who) (last : Nat) : (∀ x ∈ (c.logTrimmed w last).sec.log, last < x.seq.toNat ∨ x.kind = 0xD)
    ∧ (∀ x ∈ c.sec.log, last < x.seq.toNat → x ∈ (c.logTrimmed w last).sec.log) := by
  unfold Chip.logTrimmed
  split
  · exact ⟨fun x hx => .inl (Chip.mem_logWithout.1 hx).2, fun x hx hlast => Chip.mem_logWithout.2 ⟨Chip.mem_log.2 hx, hlast⟩⟩
  · exact ⟨fun x hx => (Chip.mem_log.1 hx).imp (fun hx => (Chip.mem_logWithout.1 hx).2) id,
      fun x hx hlast => Chip.mem_log.2 (Chip.mem_logWithout.2 ⟨hx, hlast⟩)⟩

/-- Settles O51: the checks are those of every request, and each act changes its own session or the logbook. -/
theorem roleSessionsAndLogbook : Obligations.RoleSessionsAndLogbook := by
  unfold Obligations.RoleSessionsAndLogbook
  refine ⟨fun s p b halive htake => ⟨fun hsub => ?_, fun hsub => ?_, fun hsub => ?_, fun hsub => ?_, fun hsub => ?_⟩,
    fun s r now x halive hend => ⟨fun hx => ?_, fun hx => ?_⟩⟩
  · rw [exec_roleOpen]
    refine request_runs halive htake (fun _ => rfl) (congrArg BitVec.toNat hsub) fun c =>
      ⟨fun hbad => ?_, fun hmin hmax hpath => ?_, fun hmin hmax hpath => ?_⟩
    · rw [if_pos (by simpa [or_assoc] using hbad)]
      rfl
    · rw [if_neg (by simp [hpath]; omega)]
      exact ⟨_, rfl, by simp [doneWith, hpath], by simp [doneWith, hpath]⟩
    · rw [if_neg (by simp [hpath]; omega)]
      exact ⟨_, rfl, by simp [doneWith, hpath], by simp [doneWith, hpath]⟩
  · rw [exec_roleClose]
    refine request_runs halive htake (fun _ => rfl) (congrArg BitVec.toNat hsub) fun c => ?_
    cases p with
    | ring ref resp n =>
      dsimp only
      cases hs : c.sec.pfSession with
      | none => exact ⟨c, rfl, hs, rfl⟩
      | some x => exact ⟨_, rfl, rfl, Chip.log_mctpSession ..⟩
    | mctp eid => exact ⟨_, rfl, Chip.endMctpSession_mctpSession .., Chip.endMctpSession_pfSession ..⟩
  · rw [exec_logRead]
    refine request_runs halive htake (fun _ => rfl) (congrArg BitVec.toNat hsub) fun c => ⟨fun hmany => ?_, fun hfew => ?_⟩
    · rw [if_pos hmany]
      rfl
    · rw [if_neg (Nat.not_lt.2 hfew)]
  · rw [exec_logTrim]
    refine request_runs halive htake (fun _ => rfl) (congrArg BitVec.toNat hsub) fun c => ⟨fun hflash => ?_, fun hflash => ?_⟩
    · simp [hflash, refusedWith]
    · obtain ⟨hleft, hkept⟩ := c.logTrimmed_log (reqWho p b) (leAt b.body 0 4)
      exact ⟨_, by rw [hflash]; rfl, hleft, hkept⟩
  · rw [exec_identity]
    exact request_runs halive htake (fun _ => rfl) (congrArg BitVec.toNat hsub) fun c => rfl
  · exact ⟨_, (exec_roleSessionExpiry ..).trans (State.run_live _ halive), by rw [State.put_chip, roleSessionExpiry_mctp hend hx]; simp⟩
  · exact ⟨_, (exec_roleSessionExpiry ..).trans (State.run_live _ halive), by rw [State.put_chip, roleSessionExpiry_pf hend hx]; simp⟩

end Sys2Proof.Machine
end

section
/-!
Keys and images by role requests (chapter 14, R417, R421, R422, R424, R435 to R440): the key tables after each change of them, and the requests.
-/

namespace Sys2Proof.Machine

theorem leNat_lt (bs : List Byte) : leNat bs < 256 ^ bs.length := by
  induction bs with
  | nil => exact Nat.one_pos
  | cons b bs ih =>
    rw [leNat, List.length_cons, Nat.pow_succ]
    have := b.isLt
    omega

theorem leAt_lt (bs : List Byte) (off n : Nat) : leAt bs off n < 256 ^ n := by
  have hlen : (sliceBytes bs off n).length = n := by simp [sliceBytes]
  have := leNat_lt (sliceBytes bs off n)
  rwa [hlen] at this

/-- A counter that is set to a number of four bytes reads as it. -/
theorem getD_set_ofNat (t : Tab Word32) (k : Nat) {n : Nat} (h : n < 256 ^ 4) : (Tab.getD (Tab.set t k (BitVec.ofNat 32 n)) k 0).toNat = n := by
  rw [Tab.getD_set_self, BitVec.toNat_ofNat]
  exact Nat.mod_eq_of_lt h

theorem Sec.enrolled_enrol (s : Sec) {x : Enrolled} {role : Nat} {id : Word64} (hrole : x.role.toNat = role) (hid : x.keyId = id) :
    (s.enrol x).enrolled role id = some x := by
  have hnone : (s.keys.filter (fun k => !(k.keyId == x.keyId) && !(x.role == 2 && k.role == 2))).find?
      (fun k => k.role.toNat == role && k.keyId == id) = none := by
    rw [List.find?_eq_none]
    intro k hk
    have hne := (List.mem_filter.1 hk).2
    simp only [Bool.and_eq_true, Bool.not_eq_true', beq_eq_false_iff_ne] at hne
    simp [← hid, hne.1]
  rw [Sec.enrolled, Sec.enrol, List.find?_append, hnone]
  simp [hrole, hid]

theorem Sec.installer_enrol (s : Sec) {x : Enrolled} (hrole : x.role = 2) : (s.enrol x).installer = some x := by
  have hnone : (s.keys.filter (fun k => !(k.keyId == x.keyId) && !(x.role == 2 && k.role == 2))).find? (fun k => k.role == 2) = none := by
    rw [List.find?_eq_none]
    intro k hk
    have hne := (List.mem_filter.1 hk).2
    rw [hrole] at hne
    simp only [Bool.and_eq_true, Bool.not_eq_true', beq_self_eq_true, Bool.true_and] at hne
    rw [hne.2]
    exact Bool.false_ne_true
  rw [Sec.installer, Sec.enrol, List.find?_append, hnone]
  simp [hrole]

/-- Without the key pair that a role has under an id, the role has none under it. -/
theorem Sec.enrolled_without {s : Sec} {role : Nat} {id : Word64} {k : Enrolled} (hk : s.enrolled role id = some k) (l : List Enrolled) :
    (l.filter (fun x => !(x.keyId == id && x.role == k.role))).find? (fun k => k.role.toNat == role && k.keyId == id) = none := by
  have hrole : k.role.toNat = role := by
    have := List.find?_some hk
    simp only [Bool.and_eq_true, beq_iff_eq] at this
    exact this.1
  rw [List.find?_eq_none]
  intro x hx hboth
  have hne := (List.mem_filter.1 hx).2
  simp only [Bool.and_eq_true, beq_iff_eq] at hboth
  have hsame : x.role = k.role := BitVec.eq_of_toNat_eq (hboth.1.trans hrole.symm)
  simp [hboth.2, hsame] at hne

/-- A loop that brings about `P` at one of its elements and keeps it ends with it. -/
theorem forEach_establishes {α σ : Type} {P : σ → Prop} {f : σ → α → σ} {l : List α} {a : α} (ha : a ∈ l) (hmake : ∀ s, P (f s a))
    (hkeep : ∀ s b, P s → P (f s b)) (s : σ) : P (forEach l s f) := by
  induction l generalizing s with
  | nil => cases ha
  | cons b l ih =>
    rcases List.mem_cons.1 ha with rfl | ha
    · exact forEach_preserves l (hmake s) hkeep
    · exact ih ha (f s b)

/-- A key that is put into the reaches in service of a list is in the slot of each. -/
theorem Chip.putKey_slot (c : Chip) {rs : List ReachId} (slot : Nat) (k : KeySlot) {r : ReachId} (hr : r ∈ rs) (hserv : c.inService r = true) :
    Tab.find? ((c.putKey rs slot k).reach r).cipher.slots slot = some k := by
  refine forEach_establishes (P := fun d : Chip => Tab.find? (d.reach r).cipher.slots slot = some k) (List.mem_filter.2 ⟨hr, hserv⟩) ?_ ?_ c
  · intro d
    rw [Chip.reach_onReach]
    exact Tab.find?_set_self ..
  · intro d q hd
    by_cases hq : r = q
    · subst hq
      rw [Chip.reach_onReach]
      exact Tab.find?_set_self ..
    · rw [Chip.reach_onReach_ne _ _ hq]
      exact hd

@[simp] theorem Chip.log_inService (c : Chip) (kind : Nat) (w : Who) (result : Nat) (detail : List Byte) (r : ReachId) :
    (c.log kind w result detail).inService r = c.inService r := by
  rw [Chip.inService, Chip.log_reach, Chip.inService]

theorem exec_enrol (p : ReqPath) (b : RoleReq) (s : State) : exec (.enrol p b) s = s.runReq p (fun p => enrol p b) := rfl

theorem exec_revoke (p : ReqPath) (b : RoleReq) (s : State) : exec (.revoke p b) s = s.runReq p (fun p => revoke p b) := rfl

theorem exec_imageStage (p : ReqPath) (b : RoleReq) (image : Image) (s : State) :
    exec (.imageStage p b image) s = s.runReq p (fun p => imageStage p b image) := rfl

theorem exec_svnCommit (p : ReqPath) (b : RoleReq) (s : State) : exec (.svnCommit p b) s = s.runReq p (fun p => svnCommit p b) := rfl

theorem exec_fabricKey (p : ReqPath) (b : RoleReq) (s : State) : exec (.fabricKey p b) s = s.runReq p (fun p => fabricKey p b) := rfl

theorem exec_kekSet (p : ReqPath) (b : RoleReq) (s : State) : exec (.kekSet p b) s = s.runReq p (fun p => kekSet p b) := rfl

theorem exec_hostKey (p : ReqPath) (b : RoleReq) (s : State) : exec (.hostKey p b) s = s.runReq p (fun p => hostKeyInstall p b) := rfl

/-- Settles O52: the checks are those of every request, and each act changes its own table. -/
theorem roleRequestsChangeKeys : Obligations.RoleRequestsChangeKeys := by
  unfold Obligations.RoleRequestsChangeKeys
  intro s p b halive htake
  refine ⟨fun hsub => ?_, fun hsub => ?_, fun image hsub => ?_, fun hsub => ?_, fun hsub => ?_, fun hsub => ?_, fun hsub => ?_⟩
  · rw [exec_enrol]
    refine request_runs halive htake (fun _ => rfl) (congrArg BitVec.toNat hsub) fun c => ?_
    dsimp only
    intro hflash
    simp only [hflash, Bool.not_true, if_neg Bool.false_ne_true]
    refine ⟨fun hrole hcert => ?_, fun hrole hcert => ?_, fun hrole hinst hextra => ?_, fun i kek hrole hinst hkek hops => ?_⟩
    · simp only [hrole, hcert, if_true]
      rfl
    · simp only [hrole, hcert, if_true]
      exact ⟨_, rfl, Sec.enrolled_enrol _ rfl rfl⟩
    · simp only [hrole, hinst, hextra]
      exact ⟨_, rfl, Sec.installer_enrol _ rfl⟩
    · simp only [hrole, hinst, hkek, Nat.not_le.2 hops, show ¬3 = 1 by decide, show ¬3 = 2 by decide, decide_false, Bool.and_false,
        Bool.false_and, if_false, Bool.false_eq_true]
      exact ⟨_, rfl, Sec.enrolled_enrol _ rfl rfl⟩
  · rw [exec_revoke]
    refine request_runs halive htake (fun _ => rfl) (congrArg BitVec.toNat hsub) fun c => ?_
    simp only [beq_iff_eq]
    refine ⟨fun hnone => ?_, fun hsome hflash => ?_⟩
    · rw [hnone]
      rfl
    · obtain ⟨k, hk⟩ := Option.ne_none_iff_exists'.1 hsome
      simp only [hk, hflash, Bool.not_true, if_neg Bool.false_ne_true]
      exact ⟨_, rfl, Sec.enrolled_without hk _⟩
  · rw [exec_imageStage]
    refine request_runs halive htake (fun _ => rfl) (congrArg BitVec.toNat hsub) fun c => ?_
    dsimp only
    intro hmin hmax hlen
    rw [if_neg (by simp [hlen]; omega)]
    refine ⟨fun hcode => ?_, fun hcode hflash => ?_⟩
    · rw [if_pos (bne_iff_ne.2 hcode)]
      rfl
    · simp only [hcode, hflash, bne_self_eq_false, Bool.not_true, if_neg Bool.false_ne_true]
      exact ⟨_, rfl, Tab.find?_set_self .., c.log_keeps 4 (reqWho p b) 0 _ Sec.booted⟩
  · rw [exec_svnCommit]
    refine request_runs halive htake (fun _ => rfl) (congrArg BitVec.toNat hsub) fun c => ?_
    dsimp only
    intro hmin hmax
    rw [if_neg (by simp; omega)]
    refine ⟨fun hlow => ?_, fun heq => ?_, fun hhigh hflash => ?_⟩
    · rw [if_pos hlow]
      rfl
    · rw [if_neg (by omega), if_pos heq]
      rfl
    · rw [if_neg (by omega), if_neg (by omega)]
      simp only [hflash, Bool.not_true, if_neg Bool.false_ne_true]
      exact ⟨_, rfl, getD_set_ofNat _ _ (leAt_lt b.body 4 4)⟩
  · rw [exec_fabricKey]
    refine request_runs halive htake (fun _ => rfl) (congrArg BitVec.toNat hsub) fun c => ?_
    dsimp only
    refine ⟨fun hinst => ?_, fun i key hinst hkey => ⟨fun hbad => ?_, fun slot hact hfew hslot => ?_⟩⟩
    · rw [hinst]
      rfl
    · rw [hinst, Option.bind_some, hkey]
      dsimp only
      rw [if_pos (by simpa using hbad)]
      rfl
    · rw [hinst, Option.bind_some, hkey]
      dsimp only
      rw [if_neg (by simpa [hact] using hfew), hslot]
      refine ⟨_, _, rfl, rfl, rfl, rfl, rfl, Tab.find?_set_self .., fun r hserv => ?_⟩
      exact Chip.putKey_slot _ slot _ (mem_allReaches r) (by rw [Chip.log_inService, hserv])
  · rw [exec_kekSet]
    refine request_runs halive htake (fun _ => rfl) (congrArg BitVec.toNat hsub) fun c => ?_
    dsimp only
    intro hkind hflash x hx
    rw [if_neg (by simp; omega), hflash, hx, Option.bind_some]
    refine ⟨fun hnone => ?_, fun key hkey => ?_⟩
    · rw [hnone]
      rfl
    · rw [hkey]
      refine ⟨_, _, rfl, Tab.find?_set_self .., rfl, ?_, ?_⟩
      · exact Nat.mod_eq_of_lt (by omega)
      · exact Nat.mod_eq_of_lt (by omega)
  · rw [exec_hostKey]
    refine request_runs halive htake (fun _ => rfl) (congrArg BitVec.toNat hsub) fun c => ?_
    refine ⟨fun hfn => ?_, fun f kek hfn hkek => ⟨fun hnone => ?_, fun key slot hkey hslot => ?_⟩⟩
    · rw [hfn]
      rfl
    · simp only [hfn, hkek, hnone]
      rfl
    · simp only [hfn, hkek, hkey, hslot]
      exact ⟨_, _, rfl, rfl, rfl, rfl, fun r hr hserv => Chip.putKey_slot _ slot _ hr (by rw [Chip.log_inService, hserv])⟩

end Sys2Proof.Machine
end

section
/-!
Fabric keys as they age, and the cipher engine's seal (chapter 14, R438 to R443): a message that comes in one piece is sealed as AES-256-GCM seals
it, because GHASH over whole blocks first and the rest afterwards is GHASH over all.
-/

namespace Sys2Proof.Machine

/-! ### Retirement and age -/

/-- A key that is erased is in no reach's slot (R438). -/
theorem Chip.eraseKey_slots (c : Chip) (slot : Nat) (r : ReachId) : Tab.find? ((c.eraseKey slot).reach r).cipher.slots slot = none := by
  refine forEach_establishes (P := fun d : Chip => Tab.find? (d.reach r).cipher.slots slot = none) (mem_allReaches r) ?_ ?_ c
  · intro d
    rw [Chip.reach_onReach]
    exact Tab.find?_erase_self ..
  · intro d q hd
    by_cases hq : r = q
    · subst hq
      rw [Chip.reach_onReach]
      exact Tab.find?_erase_self ..
    · rw [Chip.reach_onReach_ne _ _ hq]
      exact hd

section
variable {c : Chip} {r : ReachId} {now : Time} {slot : Nat} {k : KeySlot} (hk : Tab.find? c.sec.master slot = some k)
  (hsteady : (c.at r now).steadyReach ≠ none)
include hk hsteady

theorem fabricKeyRetire_due {n : KeySlot} (hn : n ∈ c.sec.master.vals) (hpkey : n.pkey = k.pkey) (hlater : later k.tAct n.tAct = true)
    (hdue : notBefore (n.tAct + nsTime (1000000 * fld c.sec.ciphCtrl 0 16)) (c.at r now).gateTime = true) :
    fabricKeyRetire r now slot c = ((c.at r now).log 8 Who.module 0 (keyDetail 1 slot k.pkey.toNat)).eraseKey slot := by
  have hany : c.sec.master.vals.any (fun n => n.pkey == k.pkey && later k.tAct n.tAct
      && notBefore (n.tAct + nsTime (1000000 * fld c.sec.ciphCtrl 0 16)) (c.at r now).gateTime) = true :=
    List.any_eq_true.2 ⟨n, hn, by rw [hpkey, beq_self_eq_true, hlater, hdue]; rfl⟩
  have hsome : (c.at r now).steadyReach.isSome = true := Option.isSome_iff_ne_none.2 hsteady
  unfold fabricKeyRetire
  simp only [Chip.at_sec, hk, hany, hsome]
  rfl

theorem fabricKeyAgeAlert_due (hold : ∀ n ∈ c.sec.master.vals, n.pkey = k.pkey → later k.tAct n.tAct = false) (haged : k.aged < 2)
    (hage : nsPow (45 + k.aged) ≤ timeDiff k.tAct (c.at r now).gateTime) : fabricKeyAgeAlert r now slot c =
    Chip.gateHealth { c.at r now with sec := { (c.at r now).sec with
      master := Tab.set c.sec.master slot { k with aged := k.aged + 1 } } } 7 0xC 0 := by
  have hany : c.sec.master.vals.any (fun n => n.pkey == k.pkey && later k.tAct n.tAct) = false := by
    rw [List.any_eq_false]
    intro n hn hboth
    rw [Bool.and_eq_true, beq_iff_eq] at hboth
    exact absurd hboth.2 (by rw [hold n hn hboth.1]; nofun)
  have hsome : (c.at r now).steadyReach.isNone = false := by rw [Option.isNone_eq_false_iff, Option.isSome_iff_ne_none]; exact hsteady
  have hlimit : (if k.aged = 0 then nsPow 45 else nsPow 46) = nsPow (45 + k.aged) := by
    split
    next h => rw [h]
    next h => rw [show k.aged = 1 by omega]
  unfold fabricKeyAgeAlert
  simp only [Chip.at_sec, hk, hany, hsome, hlimit, decide_eq_false (Nat.not_le.2 haged), decide_eq_false (Int.not_lt.2 hage)]
  rfl

end

/-! ### AES-256-GCM in one piece -/

theorem blocks16_append {a : List Byte} {n : Nat} (h : a.length = 16 * n) (b : List Byte) (m : Nat) :
    blocks16 (n + m) (a ++ b) = blocks16 n a ++ blocks16 m b := by
  induction n generalizing a with
  | zero =>
    rw [List.eq_nil_of_length_eq_zero h, Nat.zero_add]
    rfl
  | succ n ih =>
    have htail : (a.drop 16).length = 16 * n := by rw [List.length_drop]; omega
    have htake : (a ++ b).take 16 = a.take 16 := List.take_append_of_le_length (by omega)
    have hdrop : (a ++ b).drop 16 = a.drop 16 ++ b := List.drop_append_of_le_length (by omega)
    rw [Nat.succ_add, blocks16, blocks16, htake, hdrop, ih htail, List.cons_append]

theorem gcmBlocks_whole (bs : List Byte) :
    gcmBlocks (bs.take (bs.length / 16 * 16)) ++ gcmBlocks (bs.drop (bs.length / 16 * 16)) = gcmBlocks bs := by
  have hlen : (bs.take (bs.length / 16 * 16)).length = 16 * (bs.length / 16) := by rw [List.length_take]; omega
  have happ := blocks16_append hlen (bs.drop (bs.length / 16 * 16)) ((bs.length - bs.length / 16 * 16 + 15) / 16)
  rw [List.take_append_drop] at happ
  rw [gcmBlocks, gcmBlocks, gcmBlocks, hlen, List.length_drop, show (16 * (bs.length / 16) + 15) / 16 = bs.length / 16 by omega, ← happ,
    show bs.length / 16 + (bs.length - bs.length / 16 * 16 + 15) / 16 = (bs.length + 15) / 16 by omega]

/-- GHASH over whole blocks and then over the rest is GHASH over all. -/
theorem ghash_whole (h y : BitVec 128) (bs : List Byte) :
    ghash h (ghash h y (bs.take (bs.length / 16 * 16))) (bs.drop (bs.length / 16 * 16)) = ghash h y bs := by
  rw [ghash, ghash, ghash, ← List.foldl_append, gcmBlocks_whole]

theorem sum_blocks16_le (n : Nat) (bs : List Byte) : ((blocks16 n bs).map List.length).sum ≤ bs.length := by
  induction n generalizing bs with
  | zero => exact Nat.zero_le _
  | succ n ih =>
    have := ih (bs.drop 16)
    rw [List.length_drop] at this
    rw [blocks16, List.map_cons, List.sum_cons, List.length_take]
    omega

/-- What CTR mode makes of a block is no longer than the block. -/
theorem length_flatMap_zipIdx_le (l : List (List Byte)) (k : Nat) (pad : Nat → List Byte) :
    ((l.zipIdx k).flatMap (fun e => (e.1.zip (pad e.2)).map (fun p => p.1 ^^^ p.2))).length ≤ (l.map List.length).sum := by
  induction l generalizing k with
  | nil => exact Nat.le_refl _
  | cons a l ih =>
    have := ih (k + 1)
    simp only [List.zipIdx_cons, List.flatMap_cons, List.length_append, List.length_map, List.length_zip, List.map_cons, List.sum_cons]
    omega

theorem length_gctr_le (key : List Byte) (iv : BitVec 96) (n : Nat) (bs : List Byte) : (gctr key iv n bs).length ≤ bs.length :=
  (length_flatMap_zipIdx_le (gcmBlocks bs) 0 (fun i => aesBlock key (ctrBlock iv ((n + i) % 2 ^ 32)))).trans (sum_blocks16_le _ bs)

theorem gctrAt_zero (key : List Byte) (iv : BitVec 96) (bs : List Byte) : gctrAt key iv 0 bs = gctr key iv 2 bs := by
  simp [gctrAt]

/-- A fresh context that is fed a whole message has the tag of it (R442). -/
theorem ctxFirst_tag (q : CipherReq) (key aad data : List Byte) (haad : aad.length < 2 ^ 64) (hdata : data.length < 2 ^ 64) :
    ((ctxFirst q key aad).feed data).tag = gcmTag key q.iv (ghash (hashKey key) (ghash (hashKey key) 0 aad) data) aad.length data.length := by
  have hdata' : (BitVec.ofNat 64 ((0 : Word64).toNat + data.length)).toNat = data.length := by
    rw [show (0 : Word64).toNat = 0 from rfl, Nat.zero_add, BitVec.toNat_ofNat, Nat.mod_eq_of_lt hdata]
  have haad' : (BitVec.ofNat 64 aad.length).toNat = aad.length := by rw [BitVec.toNat_ofNat, Nat.mod_eq_of_lt haad]
  simp only [CipherCtx.tag, CipherCtx.feed, ctxFirst, List.nil_append, ghash_whole, haad', hdata']

section
variable {c : Chip} {p : ReqPath} {f : FnId} {q : CipherReq} (x : CipherData) (hhost : q.host = true)
include hhost

/-- A message of host memory begins with a fresh context (R441). -/
theorem Chip.cipher_begins {k : KeySlot} (hfn : pathFn p = some f) (hfirst : q.first = true) (hlen : q.length ≠ 0)
    (hok : c.cipherRefusal (some f) q = 0) (hkey : (c.engine q.engine).hostKey? f q.keySlot = some k) :
    c.cipher p q x = c.cipherRun p f q x (ctxFirst q k.key (sliceBytes x.aad 0 q.aadLen.toNat)) [] [] [] := by
  have hsaves : (q.length == 0) = false := beq_eq_false_iff_ne.2 hlen
  have hmem (n m : Nat) : c.cipherMem q n m = .ok [] [] [] [] := if_pos hhost
  have hread (given : List Byte) (n : Nat) : c.cipherRead q [] given n = sliceBytes given 0 n := if_pos hhost
  simp only [Chip.cipher, hfn, hok, hsaves, hmem, hhost, hkey, hfirst, hread]
  rfl

/-- What a message's last invocation writes where it is also the first: the data and then the tag (R442). -/
theorem Chip.cipherRun_seals (hlast : q.last = true) (hdir : q.dir = false) (y : CipherCtx) : c.cipherRun p f q x y [] [] [] =
    (((c.hostWrite f q.dst.toNat (gctrAt y.key y.iv y.dataLen.toNat (sliceBytes x.src 0 q.length.toNat))).hostWrite f q.tag.toNat
      (y.feed (gctrAt y.key y.iv y.dataLen.toNat (sliceBytes x.src 0 q.length.toNat))).tag).putCtx q CipherCtx.reset).answer
    p 0 (cipherResult q.length.toNat false) [] := by
  have hread (given : List Byte) (n : Nat) : c.cipherRead q [] given n = sliceBytes given 0 n := if_pos hhost
  have hwrite (d : Chip) (addr : Word64) (bs : List Byte) : d.cipherWrite f q [] addr bs = d.hostWrite f addr.toNat bs := if_pos hhost
  simp only [Chip.cipherRun, hread, hwrite, hlast, hdir]
  rfl

end

theorem cipherOp_refused {p : ReqPath} {b : RoleReq} {c : Chip} {e : Nat × Nat} (hsub : b.subop = 0xC) (he : c.roleCheck p b = some e)
    (x : CipherData) : cipherOp p b x c = c.roleRefused p b e.1 e.2 := by
  simp [cipherOp, hsub, he]

theorem cipherOp_runs {p : ReqPath} {b : RoleReq} {c : Chip} (hsub : b.subop = 0xC) (hnone : c.roleCheck p b = none) (x : CipherData) :
    cipherOp p b x c = c.cipher p (cipherReqOf b.body) x := by
  simp [cipherOp, hsub, hnone]

theorem length_sliceBytes (bs : List Byte) (off n : Nat) : (sliceBytes bs off n).length = n := by
  simp [sliceBytes]

theorem exec_fabricKeyRetire (r : ReachId) (now : Time) (slot : Nat) (s : State) :
    exec (.fabricKeyRetire r now slot) s = s.run (fabricKeyRetire r now slot) := rfl

theorem exec_fabricKeyAgeAlert (r : ReachId) (now : Time) (slot : Nat) (s : State) :
    exec (.fabricKeyAgeAlert r now slot) s = s.run (fabricKeyAgeAlert r now slot) := rfl

theorem exec_cipher (p : ReqPath) (b : RoleReq) (x : CipherData) (s : State) : exec (.cipher p b x) s = s.runReq p (fun p => cipherOp p b x) := rfl

/-- Settles O53: the keys' two limits, and the seal of a message that comes in one piece. -/
theorem keysAgeAndCipherSeals : Obligations.KeysAgeAndCipherSeals := by
  unfold Obligations.KeysAgeAndCipherSeals
  refine ⟨fun s r now slot k halive hk => ?_, fun s p b x f k halive htake hsub => ⟨fun e he => ?_, ?_⟩⟩
  · intro c hsteady
    refine ⟨fun n hn hpkey hlater hdue => ?_, fun hold haged hage => ?_⟩
    · refine ⟨_, (exec_fabricKeyRetire ..).trans (State.run_live _ halive), ?_⟩
      rw [State.put_chip, fabricKeyRetire_due hk hsteady hn hpkey hlater hdue]
      exact ⟨Tab.find?_erase_self .., fun q => Chip.eraseKey_slots ..⟩
    · rw [exec_fabricKeyAgeAlert, State.run_live _ halive, fabricKeyAgeAlert_due hk hsteady hold haged hage]
      rfl
  · rw [exec_cipher, State.runReq_live _ halive htake, cipherOp_refused hsub he]
  · intro q sealed hnone hfn hfirst hlast hdir hhost hlen hok hkey
    have htag := ctxFirst_tag q k.key (sliceBytes x.aad 0 q.aadLen.toNat) (gctr k.key q.iv 2 (sliceBytes x.src 0 q.length.toNat))
      (by rw [length_sliceBytes]; exact q.aadLen.isLt.trans (by decide))
      (Nat.lt_of_le_of_lt (length_gctr_le ..) (by rw [length_sliceBytes]; exact q.length.isLt.trans (by decide)))
    have hdata (aad : List Byte) : gctrAt (ctxFirst q k.key aad).key (ctxFirst q k.key aad).iv (ctxFirst q k.key aad).dataLen.toNat
        (sliceBytes x.src 0 q.length.toNat) = gctr k.key q.iv 2 (sliceBytes x.src 0 q.length.toNat) := gctrAt_zero ..
    have hseal : sealed = (gctr k.key q.iv 2 (sliceBytes x.src 0 q.length.toNat), gcmTag k.key q.iv (ghash (hashKey k.key)
        (ghash (hashKey k.key) 0 (sliceBytes x.aad 0 q.aadLen.toNat)) (gctr k.key q.iv 2 (sliceBytes x.src 0 q.length.toNat)))
        (sliceBytes x.aad 0 q.aadLen.toNat).length (gctr k.key q.iv 2 (sliceBytes x.src 0 q.length.toNat)).length) := rfl
    rw [exec_cipher, State.runReq_live _ halive htake, cipherOp_runs hsub hnone, Chip.cipher_begins x hhost hfn hfirst hlen hok hkey,
      Chip.cipherRun_seals x hhost hlast hdir, hdata, htag, hseal]

end Sys2Proof.Machine
end

section
/-!
Self-tests and watchdogs (chapter 15, R450 to R463): BIST_RUN and its windows, a core's expiry with what it takes down, a tile's test in a gap, and
parts that wait too long for theirs.
-/

namespace Sys2Proof.Machine

/-! ### BIST_RUN and windows -/

theorem Chip.testBegin_reach (c : Chip) (r : ReachId) (kind : Nat) :
    ((c.testBegin r kind).reach r).service = .testing ∧ ((c.testBegin r kind).reach r).bist.running = true := by
  unfold Chip.testBegin; dsimp only
  split
  · simp only [Chip.onBist, Chip.reach_onReach, and_self]
  · simp only [Chip.reach_onReach, and_self]

theorem Chip.testUntested_record (c : Chip) (r : ReachId) :
    ∃ x, ((c.testUntested r).reach r).bist.record = some x ∧ x.outcome = 2 ∧ x.cause = 1 := by
  rw [Chip.testUntested, Chip.onBist, Chip.reach_onReach]
  exact ⟨_, rfl, rfl, rfl⟩

/-- What a BIST_RUN finds before it begins (R452): some reaches, none with plans, each in service or held. -/
theorem bistRun_named {c : Chip} {l : List ReachId}
    (h : ∀ r ∈ l, (c.reach r).plan.plans = [] ∧ ((c.reach r).service = .inService ∨ (c.reach r).service = .held)) :
    l.any (fun r => !(c.reach r).plan.plans.isEmpty || (c.reach r).service == .testing) = false
      ∧ l.any (fun r => (c.reach r).service == .inReset || (c.reach r).service == .starting) = false := by
  rw [List.any_eq_false, List.any_eq_false]
  constructor
  all_goals
    intro r hr
    obtain ⟨hplans, hsvc | hsvc⟩ := h r hr
    · simp only [hplans, hsvc]; decide
    · simp only [hplans, hsvc]; decide

theorem bistRun_begins {c : Chip} {ref : CmdRef} {mask kind : BitVec 8} (iova : Word64) (runs : Quad TestRun) (hpf : ref.fn = 0)
    (hsome : allReaches.filter (fun r => mask.toNat.testBit r.val) ≠ []) (hmask : mask.toNat < 16) (hkind : kind.toNat < 2)
    (hboot : c.sec.bootFail.contains 4 = false) (hlog : c.sec.logRefusal = none)
    (hall : ∀ r ∈ allReaches.filter (fun r => mask.toNat.testBit r.val),
      (c.reach r).plan.plans = [] ∧ ((c.reach r).service = .inService ∨ (c.reach r).service = .held)) :
    bistRun ref mask kind iova runs c =
      let named := allReaches.filter (fun r => mask.toNat.testBit r.val)
      let d := c.log 0xB (Who.function ref.fn) 0 [mask, kind]
      forEach named { d with gate := { d.gate with bists := d.gate.bists ++ [BistRun.mk ref named (kind == 1) iova named 0] } }
        (fun c r => match runs.get r with
          | .waits => c.testBegin r 2
          | .ran t => ((c.testBegin r 2).testRuns r t).bistEnded r) := by
  obtain ⟨hidle, hup⟩ := bistRun_named hall
  have hfn : (ref.fn != 0) = false := bne_eq_false_iff_eq.2 hpf
  simp only [bistRun, hfn, hboot, hlog, hidle, hup, List.isEmpty_eq_false_iff.2 hsome, decide_eq_false (Nat.not_le.2 hmask),
    decide_eq_false (Nat.not_le.2 hkind)]
  rfl

theorem bistWindowTimeout_late {c : Chip} {r : ReachId} {now : Time} (hlate : (c.at r now).windowLate r = true) : bistWindowTimeout r now c =
    if (c.reach r).bist.kind.toNat = 0 then ((c.at r now).testUntested r).shutTested r
    else if (c.reach r).bist.kind.toNat = 1 then ((c.at r now).testUntested r).quickDone r
    else ((((c.at r now).testUntested r).bistEnded r).settle).shutResume := by
  simp only [bistWindowTimeout, hlate, Chip.reach_at_bist]
  rfl

/-! ### A core's watchdog -/

section
variable (c : Chip) (r : ReachId) (core : Fin 8)

/-- The core has expired within the last 100 ms (R457). -/
def Chip.watchAgain : Bool := match Tab.find? (c.reach r).bist.expiry core.val with
  | some t => decide (timeDiff t (c.now r) < watchSpan)
  | none => false

/-- The first uncorrectable line of the keeper region that the restarting core would read (R159 class 1). -/
def Chip.watchSick : Option Nat := (c.reach r).mem.ue.find? (fun l => decide (lpBase ≤ 64 * l) && decide (64 * l < lpAvail))

/-- The line that the core's restart reports, if its restart reads any. -/
def Chip.watchBad : Option Nat := if c.watchAgain r core || core == Config.healthCore then none else c.watchSick r

/-- The expiry takes the reach down. -/
def Chip.watchDown : Bool := c.watchAgain r core || core == Config.healthCore || (c.watchBad r core).isSome

/-- The module as it has noted an expiry, before any reset. -/
def Chip.watched : Chip :=
  ((match c.watchBad r core with | some l => c.memUe r 1 (64 * l) 0 | none => c).onBist r (fun b =>
    { b with expiry := Tab.set b.expiry core.val (c.now r) })).health r 0 (if c.watchDown r core then 4 else 7) 0x0D core.val 0 0 0

theorem watchReach_eq : watchReach r core c = if c.watchDown r core then (c.watched r core).reachReset r else c.watched r core := rfl

theorem Chip.watchAgain_iff : c.watchAgain r core = true ↔
    ∃ t, Tab.find? (c.reach r).bist.expiry core.val = some t ∧ timeDiff t (c.now r) < watchSpan := by
  unfold Chip.watchAgain
  split
  next t h => simp only [h, decide_eq_true_eq, Option.some.injEq, exists_eq_left']
  next h => simp [h]

theorem Chip.watchSick_iff : (c.watchSick r).isSome = true ↔ ∃ l ∈ (c.reach r).mem.ue, lpBase ≤ 64 * l ∧ 64 * l < lpAvail := by
  simp only [Chip.watchSick, List.find?_isSome, Bool.and_eq_true, decide_eq_true_eq]

theorem Chip.watchDown_iff : c.watchDown r core = true ↔
    core = Config.healthCore ∨ c.watchAgain r core = true ∨ (c.watchSick r).isSome = true := by
  unfold Chip.watchDown Chip.watchBad
  split
  next h =>
    rw [h, Bool.true_or, eq_self_iff_true, true_iff]
    rw [Bool.or_eq_true, beq_iff_eq] at h
    exact h.elim (fun h => .inr (.inl h)) .inl
  next => rw [Bool.or_eq_true, Bool.or_eq_true, beq_iff_eq, or_assoc, or_left_comm]

theorem Chip.memRecord_service (cls pa bit : Nat) (handle : Word64) : ((c.memRecord r cls pa bit handle).reach r).service = (c.reach r).service :=
  (Chip.apart_service (Chip.event_apart ..) r).trans (by rw [Chip.reach_onReach])

theorem Chip.repairRecord_service (row : MemRow) (cause : Nat) : ((c.repairRecord r row cause).reach r).service = (c.reach r).service := by
  unfold Chip.repairRecord; dsimp only
  split
  · rfl
  · rw [Chip.reach_onReach, Chip.log_reach]

theorem Chip.memUe_service (cls pa : Nat) (handle : Word64) : ((c.memUe r cls pa handle).reach r).service = (c.reach r).service := by
  unfold Chip.memUe; dsimp only
  split
  · exact c.memRecord_service ..
  split
  · rw [Chip.reach_onReach]
    exact c.memRecord_service ..
  · rw [Chip.repairRecord_service, Chip.reach_onReach]
    exact c.memRecord_service ..

/-- An expiry's notes change neither the reach's service nor a byte of its memory. -/
theorem Chip.watched_keeps : ((c.watched r core).reach r).service = (c.reach r).service
    ∧ ((c.watched r core).reach r).mem.bytes = (c.reach r).mem.bytes := by
  unfold Chip.watched
  rw [Chip.apart_service (Chip.health_apart ..), Chip.apart_mem (Chip.health_apart ..), Chip.onBist, Chip.reach_onReach]
  split
  next l _ =>
    obtain ⟨k, hk⟩ := c.memUe_mem r 1 (64 * l) 0
    exact ⟨c.memUe_service .., by rw [hk]⟩
  next => exact ⟨rfl, rfl⟩

end

theorem keeperWatchdogExpiry_reach {c : Chip} {r : ReachId} {now : Time} {core : Fin 12} (hcore : core.val < 8) (hin : c.inService r = true) :
    keeperWatchdogExpiry r now core c = (watchReach r ⟨core.val, hcore⟩ (c.at r now)).settle := by
  rw [← Chip.inService_at c r r now] at hin
  simp only [keeperWatchdogExpiry, hin, dif_pos hcore, if_true]

/-- The module as a gatehouse core's expiry is noted. -/
def Chip.gateWatched (c : Chip) (r : ReachId) (core action : Nat) : Chip :=
  Chip.gateHealth { c with gate := { c.gate with expiry := Tab.set c.gate.expiry core (c.now r) } } action 0x0D core

theorem keeperWatchdogExpiry_gate (c : Chip) (r : ReachId) (now : Time) {core : Fin 12} (hcore : 8 ≤ core.val) :
    keeperWatchdogExpiry r now core c =
      let again := c.gate.expiry.any (fun e => decide (timeDiff e.2 ((c.at r now).now r) < watchSpan))
      if again then moduleReset ((c.at r now).gateWatched r core.val 6) else (c.at r now).gateWatched r core.val 7 := by
  have hgate : (c.at r now).gate = c.gate := rfl
  simp only [keeperWatchdogExpiry, dif_neg (Nat.not_lt.2 hcore), hgate]
  split
  · rfl
  · rfl

/-! ### Tests in gaps, and tests overdue -/

section
variable {c : Chip} {r : ReachId} {now : Time} {t : TileId} (hgap : (c.at r now).testGap r t.val = true)
include hgap

theorem tileServiceTest_passes : tileServiceTest r now t none c = (c.at r now).onBist r (fun b =>
    { b with lastPass := Tab.set b.lastPass t.val now, overdue := b.overdue.filter (fun k => k != t.val) }) := by
  simp only [tileServiceTest, hgap]
  rfl

theorem tileServiceTest_fails (u : TestUnit) : tileServiceTest r now t (some u) c = ((c.at r now).health r ((c.at r now).tileOwner r t.val) 5
    (testBlock u) t.val 0 (Tab.getD (c.reach r).bist.lastPass t.val 0) 0).holdReach r := by
  simp only [tileServiceTest, hgap, Chip.reach_at_bist]
  rfl

end

theorem serviceTestOverdue_late {c : Chip} {r : ReachId} {now : Time} {part : Fin 66} (hin : c.inService r = true)
    (hnew : (c.reach r).bist.overdue.contains part.val = false)
    (hlate : (2 * (c.reach r).bist.periodS : Int) * 1000000000 * 65536
      < timeDiff (Tab.getD (c.reach r).bist.lastPass part.val (c.reach r).bist.inSince) ((c.at r now).now r)) :
    serviceTestOverdue r now part c = ((c.at r now).onBist r (fun b => { b with overdue := part.val :: b.overdue })).health r
      (if part.val < 64 then (c.at r now).tileOwner r part.val else 0) 7 0x12 part.val 0 0 0 := by
  simp only [serviceTestOverdue, Chip.inService_at, Chip.reach_at_bist, hin, hnew, decide_eq_false (Int.not_le.2 hlate)]
  rfl

theorem exec_bistRun (ref : CmdRef) (mask kind : BitVec 8) (iova : Word64) (runs : Quad TestRun) (s : State) :
    exec (.bistRun ref mask kind iova runs) s = s.runCmdSettle ref (fun ref c => (bistRun ref mask kind iova runs c).shutResume) := rfl

theorem exec_bistWindowTimeout (r : ReachId) (now : Time) (s : State) : exec (.bistWindowTimeout r now) s = s.run (bistWindowTimeout r now) := rfl

theorem exec_keeperWatchdogExpiry (r : ReachId) (now : Time) (core : Fin 12) (s : State) :
    exec (.keeperWatchdogExpiry r now core) s = s.run (keeperWatchdogExpiry r now core) := rfl

theorem exec_tileServiceTest (r : ReachId) (now : Time) (t : TileId) (fails : Option TestUnit) (s : State) :
    exec (.tileServiceTest r now t fails) s = s.runSettle (tileServiceTest r now t fails) := rfl

theorem exec_serviceTestOverdue (r : ReachId) (now : Time) (part : Fin 66) (s : State) :
    exec (.serviceTestOverdue r now part) s = s.run (serviceTestOverdue r now part) := rfl

/-- Settles O56: BIST_RUN, windows, watchdogs and tests, a lemma for each outcome. -/
theorem selfTestsAndWatchdogs : Obligations.SelfTestsAndWatchdogs := by
  unfold Obligations.SelfTestsAndWatchdogs
  refine ⟨fun s ref mask kind iova runs halive htake hpf => ?_, fun c r kind => c.testBegin_reach r kind,
    fun s r now halive hlate => ⟨fun hk => ?_, fun hk => ?_, fun hk => ?_, Chip.testUntested_record ..⟩,
    fun s r now halive => ⟨fun core hcore hin => ?_, fun core hcore hnone => ?_, fun core hcore hsome => ?_⟩,
    fun s r now t halive hgap => ⟨?_, fun u => ?_⟩, fun s r now part halive hin hnew hlate => ?_⟩
  · intro named d e hsome hmask hkind hboot hlog hall
    rw [exec_bistRun, State.runCmdSettle_live _ halive htake]
    exact congrArg (fun c : Chip => Host.Outcome.next (s.put c.shutResume.settle)) (bistRun_begins iova runs hpf hsome hmask hkind hboot hlog hall)
  · rw [exec_bistWindowTimeout, State.run_live _ halive, bistWindowTimeout_late hlate, hk, if_neg (by decide), if_neg (by decide)]
  · rw [exec_bistWindowTimeout, State.run_live _ halive, bistWindowTimeout_late hlate, hk, if_neg (by decide), if_pos (by decide)]
  · rw [exec_bistWindowTimeout, State.run_live _ halive, bistWindowTimeout_late hlate, hk, if_pos (by decide)]
  · have hcoreEq : core.val = Config.healthCore.val ↔ (⟨core.val, hcore⟩ : Fin 8) = Config.healthCore := by rw [Fin.ext_iff]
    have hagain := (s.chip.at r now).watchAgain_iff r ⟨core.val, hcore⟩
    have hsick := (s.chip.at r now).watchSick_iff r
    rw [Chip.reach_at_bist] at hagain
    rw [Chip.reach_at_mem] at hsick
    obtain ⟨hsvc, hbytes⟩ := (s.chip.at r now).watched_keeps r ⟨core.val, hcore⟩
    have hin' : ((s.chip.at r now).reach r).service = .inService := eq_of_beq ((Chip.inService_at s.chip r r now).trans hin)
    refine ⟨(s.chip.at r now).watched r ⟨core.val, hcore⟩, hsvc.trans hin', hbytes.trans (by rw [Chip.reach_at_mem]), ?_⟩
    rw [exec_keeperWatchdogExpiry, State.run_live _ halive, keeperWatchdogExpiry_reach hcore hin, watchReach_eq]
    intro again sick
    have hdown := (s.chip.at r now).watchDown_iff r ⟨core.val, hcore⟩
    rw [← hcoreEq, hagain, hsick] at hdown
    refine ⟨fun h => by rw [if_pos (hdown.2 h)], fun hne hfirst hwell => ?_⟩
    rw [if_neg (fun h => (hdown.1 h).elim hne (fun h => h.elim hfirst hwell))]
  · have hagain : s.chip.gate.expiry.any (fun e => decide (timeDiff e.2 ((s.chip.at r now).now r) < watchSpan)) = false :=
      List.any_eq_false.2 (fun e he => by rw [decide_eq_true_eq]; exact Int.not_lt.2 (hnone e he))
    rw [exec_keeperWatchdogExpiry, State.run_live _ halive, keeperWatchdogExpiry_gate _ _ _ hcore, hagain]
    rfl
  · obtain ⟨e, he, hlt⟩ := hsome
    have hagain : s.chip.gate.expiry.any (fun e => decide (timeDiff e.2 ((s.chip.at r now).now r) < watchSpan)) = true :=
      List.any_eq_true.2 ⟨e, he, decide_eq_true hlt⟩
    rw [exec_keeperWatchdogExpiry, State.run_live _ halive, keeperWatchdogExpiry_gate _ _ _ hcore, hagain]
    rfl
  · rw [exec_tileServiceTest, State.runSettle_live _ halive, tileServiceTest_passes hgap]
  · rw [exec_tileServiceTest, State.runSettle_live _ halive, tileServiceTest_fails hgap]
  · rw [exec_serviceTestOverdue, State.run_live _ halive, serviceTestOverdue_late hin hnew hlate]

end Sys2Proof.Machine
end

section
/-!
Gauges and trace records (chapter 15, R466 to R475): the snapshot, the trace registers' writes, the timers of the capture, frames and the dump.
-/

namespace Sys2Proof.Machine

/-! ### Register writes of the trace block -/

theorem flag_and (v m : Word64) {i : Nat} (h : flag m i = true) : flag (v &&& m) i = flag v i := by
  rw [flag, BitVec.toNat_and, Nat.testBit_and, show m.toNat.testBit i = true from h, Bool.and_true]
  rfl

theorem fld_lt (v : Word64) (lo n : Nat) : fld v lo n < 2 ^ n := Nat.mod_lt _ (Nat.two_pow_pos n)

theorem Chip.inService_congr {c d : Chip} (h : ∀ r, d.reach r = c.reach r) : d.inService = c.inService := by
  funext r
  rw [Chip.inService, Chip.inService, h]

section
variable {c : Chip} {p : RegPath} (hallow : c.allows p 3 = true) (hlog : c.sec.logRefusal = none)
include hallow hlog

theorem Chip.rwlWrite_same (offset : Nat) {old new : Word64} (h : old = new) (f : Chip → Chip) : c.rwlWrite p 3 offset old new f = c := by
  simp only [Chip.rwlWrite, hallow, hlog, beq_iff_eq.2 h]
  rfl

/-- A register of the operator that takes a new value logs it (R426). -/
theorem Chip.rwlWrite_new (offset : Nat) {old new : Word64} (h : old ≠ new) (f : Chip → Chip) : c.rwlWrite p 3 offset old new f =
    f (c.log 6 (c.whoOf p) 0 (leBytes 8 offset ++ leBytes 8 old.toNat ++ leBytes 8 new.toNat)) := by
  simp only [Chip.rwlWrite, hallow, hlog, beq_eq_false_iff_ne.2 h]
  rfl

/-- Arming restarts the capture, whether or not the register changes (R471). -/
theorem trcCtrlArm_arms {v : Word64} (harm : flag v 3 = true) : ∃ d : Chip, d.sec.keys = c.sec.keys ∧ (∀ r, d.reach r = c.reach r)
    ∧ trcCtrlArm p v c = d.trcControl (v &&& trcCtrlMask) := by
  have harm' : flag (v &&& trcCtrlMask) 3 = true := (flag_and v trcCtrlMask (by decide)).trans harm
  by_cases hsame : (v &&& trcCtrlMask) = c.gate.trcCtrl
  · refine ⟨c, rfl, fun r => rfl, ?_⟩
    simp only [trcCtrlArm, Chip.trcCtrlWrite, harm, hallow, harm', beq_iff_eq.2 hsame]
    rfl
  · refine ⟨c.log 6 (c.whoOf p) 0 (leBytes 8 0x5000 ++ leBytes 8 c.gate.trcCtrl.toNat ++ leBytes 8 (v &&& trcCtrlMask).toNat),
      Chip.log_keeps (g := Sec.keys) .., fun r => Chip.log_reach .., ?_⟩
    simp only [trcCtrlArm, Chip.trcCtrlWrite, harm, hallow, beq_eq_false_iff_ne.2 hsame,
      Chip.rwlWrite_new hallow hlog _ (Ne.symm hsame)]
    rfl

/-- A fired trigger is that of the lowest reach in service (R472). -/
theorem trcTrigFire_fires {v : Word64} {r : ReachId} (hfire : flag v 4 = true) (hr : allReaches.find? c.inService = some r) :
    ∃ d : Chip, d.gate.trcTrig = v &&& trcTrigMask ∧ (∀ q, d.reach q = c.reach q) ∧ trcTrigFire p v c = d.fire r 6 := by
  have hwrite (d : Chip) (hd : c.rwlWrite p 3 0x5008 c.gate.trcTrig (v &&& trcTrigMask)
      (fun c => { c with gate := { c.gate with trcTrig := v &&& trcTrigMask, trigTimeDone := [] } }) = d)
      (hreach : ∀ q, d.reach q = c.reach q) : trcTrigFire p v c = d.fire r 6 := by
    simp only [trcTrigFire, Chip.trcTrigWrite, hfire, hallow, hd, Chip.inService_congr hreach, hr]
    rfl
  by_cases hsame : c.gate.trcTrig = v &&& trcTrigMask
  · exact ⟨c, hsame, fun q => rfl, hwrite c (Chip.rwlWrite_same hallow hlog _ hsame _) (fun q => rfl)⟩
  · have hnew := hwrite _ (Chip.rwlWrite_new hallow hlog _ hsame _)
    refine ⟨_, ?_, ?_, hnew ?_⟩
    · rfl
    · exact fun q => c.log_reach q ..
    · exact fun q => c.log_reach q ..

theorem trcDumpGo_begins {v : Word64} (hgo : flag v 0 = true) (hidle : c.gate.dumpBusy = false) : ∃ d : Chip,
    d.gate.dumpMask.toNat = fld v 4 4 ∧ (∀ q, d.reach q = c.reach q) ∧
    trcDumpGo p v c = { d with gate := { d.gate with dumpBusy := d.dumpOk, dumpErr := !d.dumpOk } } := by
  have hmask : (BitVec.ofNat 4 (fld v 4 4)).toNat = fld v 4 4 := (BitVec.toNat_ofNat ..).trans (Nat.mod_eq_of_lt (fld_lt v 4 4))
  have hwrite (d : Chip) (hd : c.rwlWrite p 3 0x5028 (BitVec.ofNat 64 (c.gate.dumpMask.toNat * 16))
      (BitVec.ofNat 64 ((BitVec.ofNat 4 (fld v 4 4)).toNat * 16))
      (fun c => { c with gate := { c.gate with dumpMask := BitVec.ofNat 4 (fld v 4 4) } }) = d) :
      trcDumpGo p v c = { d with gate := { d.gate with dumpBusy := d.dumpOk, dumpErr := !d.dumpOk } } := by
    simp only [trcDumpGo, Chip.trcDumpWrite, hgo, hallow, hidle, hd]
    rfl
  by_cases hsame : BitVec.ofNat 64 (c.gate.dumpMask.toNat * 16) = BitVec.ofNat 64 ((BitVec.ofNat 4 (fld v 4 4)).toNat * 16)
  · refine ⟨c, ?_, fun q => rfl, hwrite c (Chip.rwlWrite_same hallow hlog _ hsame _)⟩
    have heq := congrArg BitVec.toNat hsame
    rw [BitVec.toNat_ofNat, BitVec.toNat_ofNat, hmask] at heq
    have hold := c.gate.dumpMask.isLt
    have hnew := fld_lt v 4 4
    omega
  · have hnew := hwrite _ (Chip.rwlWrite_new hallow hlog _ hsame _)
    refine ⟨_, ?_, ?_, hnew⟩
    · exact hmask
    · exact fun q => c.log_reach q ..

end

theorem Chip.onPath_open {c : Chip} {p : RegPath} (h : c.pathOpen p = true) (f : Chip → Chip) : c.onPath p f = f c := if_pos h

section
variable {c : Chip} {p : RegPath} {v : Word64} {owner : Option FnId} {l : List Nat}
  (hrow : c.gaugeRow (pathBlock p) (gaugeSel v) = some (owner, l))
include hrow

theorem gaugeSnap_latches (hmay : c.mayGauge p owner = true) : gaugeSnap p v c = { c with gate := { c.gate with
    snaps := Tab.set c.gate.snaps (pathBlock p).val (Snap.mk (c.snapTime (gaugeSel v)) owner (l.map (BitVec.ofNat 64))) } } := by
  simp only [gaugeSnap, hrow, hmay]
  rfl

theorem gaugeSnap_denied (hmay : c.mayGauge p owner = false) : gaugeSnap p v c = c.gaugeDenied p := by
  simp only [gaugeSnap, hrow, hmay]
  rfl

end

/-- An armed capture runs, and stays with what it had only in stream mode (R471). -/
theorem Chip.trcControl_armed (c : Chip) {v : Word64} (harm : flag v 3 = true) (r : ReachId) :
    ((c.trcControl v).reach r).trace.frozen = false ∧ ((c.trcControl v).reach r).trace.postLeft = none
      ∧ (flag v 1 = false → ((c.trcControl v).reach r).trace.store = []) := by
  unfold Chip.trcControl; dsimp only
  refine forEach_establishes (P := fun d : Chip => (d.reach r).trace.frozen = false ∧ (d.reach r).trace.postLeft = none
    ∧ (flag v 1 = false → (d.reach r).trace.store = [])) (mem_allReaches r) (fun d => ?_) (fun d q hd => ?_) _
  · rw [Chip.reach_onTrace]
    simp only [harm]
    exact ⟨rfl, rfl, fun h => by rw [h]; rfl⟩
  · by_cases hq : r = q
    · subst hq
      rw [Chip.reach_onTrace]
      simp only [harm]
      exact ⟨rfl, rfl, fun h => by rw [h]; rfl⟩
    · rw [Chip.reach_onTrace_ne _ _ hq]
      exact hd

/-! ### Triggers and timers -/

section
variable {c : Chip} {r : ReachId} {now : Time}

theorem traceTriggerNotice_taken {src : ReachId} (hnotice : c.gate.trigNotices.contains (r, src) = true) (hin : c.inService r = true) :
    traceTriggerNotice r now src c = Chip.triggerRecord { c.at r now with
      gate := { c.gate with trigNotices := c.gate.trigNotices.erase (r, src) } } r src := by
  have hgate : (c.at r now).gate = c.gate := rfl
  have hin' : Chip.inService { c.at r now with gate := { c.gate with trigNotices := c.gate.trigNotices.erase (r, src) } } r = true :=
    (Chip.inService_at c r r now).trans hin
  simp only [traceTriggerNotice, hgate, hnotice, hin']
  rfl

theorem traceTriggerTime_due (hin : c.inService r = true) (hnew : c.gate.trigTimeDone.contains r = false) (harmed : flag c.gate.trcCtrl 3 = true)
    (hkind : fld c.gate.trcTrig 0 4 = 5) (hdue : notBefore ((c.gate.trcTrigTime >>> 16) <<< 16) ((c.at r now).now r) = true) :
    traceTriggerTime r now c = { (c.at r now).fire r 5 with
      gate := { ((c.at r now).fire r 5).gate with trigTimeDone := ((c.at r now).fire r 5).gate.trigTimeDone ++ [r] } } := by
  have hgate : (c.at r now).gate = c.gate := rfl
  simp only [traceTriggerTime, hgate, Chip.inService_at, hin, hnew, harmed, hkind, hdue]
  rfl

theorem traceCaptureFull_freezes (hstore : c.streaming = false) (hpost : (c.reach r).trace.postLeft = some 0) :
    traceCaptureFull r now c = (c.at r now).onTrace r (fun t => { t with frozen := true }) := by
  have hstore' : (c.at r now).streaming = false := hstore
  simp only [traceCaptureFull, hstore', Chip.reach_at_trace, hpost]
  rfl

theorem traceSyncTimer_writes (hin : c.inService r = true) : traceSyncTimer r now c = (c.at r now).trace r 8 74 0xFF
    (BitVec.ofNat 64 (((c.at r now).reach r).time.era.toNat % 2 ^ 16 + ((c.at r now).reach r).time.servo.code * 2 ^ 16))
    (BitVec.ofNat 64 ((c.at r now).reach r).tdc.count.toNat) := by
  simp only [traceSyncTimer, Chip.inService_at, hin]
  rfl

theorem Trace.letIn_nil {t : Trace} (h : t.waiting = []) (r : ReachId) (stream : Bool) (now : Time) : t.letIn r stream now = t := by
  rw [Trace.letIn, h]
  rfl

/-- The module as a stall's end is counted (R474). -/
def Chip.stallEnded (c : Chip) (r : ReachId) (now : Time) (since : Time) : Chip :=
  ((c.at r now).onTrace r (fun t => t.letIn r c.streaming now)).onTrace r (fun t => { t with
    stallSince := none, stalls := sat48 (t.stalls + 1), stallNs := sat48 (t.stallNs + timeNs ((c.at r now).now r - since)) })

theorem traceStall_ends {since : Time} (hsince : (c.reach r).trace.stallSince = some since) (hwait : (c.reach r).trace.waiting = []) :
    ∃ f, traceStall r now c = (c.stallEnded r now since).tdc r 0xB f 74 0 (BitVec.ofNat 64 (timeNs ((c.at r now).now r - since))) := by
  have hlet : (((c.at r now).onTrace r (fun t => t.letIn r c.streaming now)).reach r).trace = (c.reach r).trace := by
    rw [Chip.reach_onTrace, Chip.reach_at_trace]
    exact Trace.letIn_nil hwait ..
  have hnow : ((c.at r now).onTrace r (fun t => t.letIn r c.streaming now)).now r = (c.at r now).now r := by
    rw [Chip.now, Chip.reach_onTrace]
    rfl
  simp only [traceStall, hlet, hsince, hwait, hnow]
  exact ⟨_, rfl⟩

theorem Chip.stallEnded_trace {since : Time} (hwait : (c.reach r).trace.waiting = []) : ((c.stallEnded r now since).reach r).trace =
    { (c.reach r).trace with stallSince := none, stalls := sat48 ((c.reach r).trace.stalls + 1),
                             stallNs := sat48 ((c.reach r).trace.stallNs + timeNs ((c.at r now).now r - since)) } := by
  rw [Chip.stallEnded, Chip.reach_onTrace, Chip.reach_onTrace, Chip.reach_at_trace, Trace.letIn_nil hwait]

/-! ### Frames and dumps -/

theorem Chip.onTrace_congr {f g : Trace → Trace} (h : f (c.reach r).trace = g (c.reach r).trace) : c.onTrace r f = c.onTrace r g := by
  have hrow : (fun x : Reach => { x with trace := f x.trace }) (c.reach r) = { c.reach r with trace := g (c.reach r).trace } := by
    dsimp only
    rw [h]
  exact congrArg (fun x => { c with reaches := c.reaches.set r x }) hrow

theorem traceFrameSend_sends (hstream : c.streaming = true) (hturn : c.traceTurn = some r) (hwait : (c.reach r).trace.waiting = []) :
    traceFrameSend c = Chip.onTrace { c.emit (.traceFrame r (c.reach r).trace.frameNo ((c.reach r).trace.store.take 16)) with
        gate := { c.gate with trcNext := r + 1, trcFrames := sat48 (c.gate.trcFrames + 1),
                              trcBytes := sat48 (c.gate.trcBytes + 8 * (1 + 4 * ((c.reach r).trace.store.take 16).length)) } }
      r (fun t => { t with store := t.store.drop 16, frameNo := t.frameNo + 1 }) := by
  simp only [traceFrameSend, hstream, hturn]
  refine Eq.trans (if_neg (by decide)) (Chip.onTrace_congr ?_)
  exact if_pos (List.isEmpty_iff.2 hwait)

theorem traceDumpDone_copies (hbusy : c.gate.dumpBusy = true) (hhost : c.hostGone 0 = false)
    (hroom : c.gate.dumpAddr.toNat + dumpRegion * c.dumpReaches.length ≤ 2 ^ 64) (hok : c.dumpOk = true) : traceDumpDone none c =
    let d := c.dumpCopy (dumpRegion * c.dumpReaches.length) 0 c.dumpReaches
    { d with gate := { d.gate with dumpBusy := false, dumpErr := false } } := by
  simp only [traceDumpDone, hbusy, hok, hhost, decide_eq_false (Nat.not_lt.2 hroom)]
  rfl

theorem traceDumpDone_fails (refused : Option Nat) (hbusy : c.gate.dumpBusy = true) (hok : c.dumpOk = false) :
    traceDumpDone refused c = { c with gate := { c.gate with dumpBusy := false, dumpErr := true } } := by
  simp only [traceDumpDone, hbusy, hok]
  rfl

end

section
variable (p : RegPath) (v : Word64) (r : ReachId) (now : Time) (s : State)

theorem exec_gaugeSnap : exec (.gaugeSnap p v) s = s.run (fun c => c.onPath p (gaugeSnap p v)) := rfl

theorem exec_trcCtrlArm : exec (.trcCtrlArm p v) s = s.run (fun c => c.onPath p (trcCtrlArm p v)) := rfl

theorem exec_trcTrigFire : exec (.trcTrigFire p v) s = s.run (fun c => c.onPath p (trcTrigFire p v)) := rfl

theorem exec_trcDumpGo : exec (.trcDumpGo p v) s = s.run (fun c => c.onPath p (trcDumpGo p v)) := rfl

theorem exec_traceTriggerNotice (src : ReachId) : exec (.traceTriggerNotice r now src) s = s.run (traceTriggerNotice r now src) := rfl

theorem exec_traceTriggerTime : exec (.traceTriggerTime r now) s = s.run (traceTriggerTime r now) := rfl

theorem exec_traceCaptureFull : exec (.traceCaptureFull r now) s = s.run (traceCaptureFull r now) := rfl

theorem exec_traceSyncTimer : exec (.traceSyncTimer r now) s = s.run (traceSyncTimer r now) := rfl

theorem exec_traceStall : exec (.traceStall r now) s = s.run (traceStall r now) := rfl

theorem exec_traceRoomReturn : exec (.traceRoomReturn r now) s = s.run (traceRoomReturn r now) := rfl

theorem exec_traceFrameSend : exec .traceFrameSend s = s.run traceFrameSend := rfl

theorem exec_traceAlignmentBlock : exec .traceAlignmentBlock s = s.run traceAlignmentBlock := rfl

theorem exec_traceDumpDone (refused : Option Nat) : exec (.traceDumpDone refused) s = s.run (traceDumpDone refused) := rfl

end

/-- Settles O57: a snapshot, the writes of the trace registers, the capture's timers, frames and dumps, a lemma for each. -/
theorem gaugesAndTrace : Obligations.GaugesAndTrace := by
  unfold Obligations.GaugesAndTrace
  refine ⟨fun s p v halive hpath => ⟨fun owner l hrow hmay =>
      ⟨Snap.mk (s.chip.snapTime (gaugeSel v)) owner (l.map (BitVec.ofNat 64)), rfl, rfl, rfl, ?_⟩, fun owner l hrow hmay => ?_,
      fun harm hallow hlog => ?_,
      fun r hfire hallow hlog hr => ?_, fun hgo hallow hlog hidle => ?_⟩,
    fun c v harm r => c.trcControl_armed harm r, fun s r now halive => ?_, fun s r halive hstream hturn hwait => ?_, fun s halive => ?_,
    fun s halive hbusy hhost hroom => ⟨fun hok => ?_, fun hok => ?_⟩⟩
  · rw [exec_gaugeSnap, State.run_live _ halive, Chip.onPath_open hpath, gaugeSnap_latches hrow hmay]
  · rw [exec_gaugeSnap, State.run_live _ halive, Chip.onPath_open hpath, gaugeSnap_denied hrow hmay]
  · obtain ⟨d, hkeys, hreach, hd⟩ := trcCtrlArm_arms hallow hlog harm
    refine ⟨d, hkeys, hreach, ?_⟩
    rw [exec_trcCtrlArm, State.run_live _ halive, Chip.onPath_open hpath, hd]
  · obtain ⟨d, htrig, hreach, hd⟩ := trcTrigFire_fires hallow hlog hfire hr
    refine ⟨d, htrig, hreach, ?_⟩
    rw [exec_trcTrigFire, State.run_live _ halive, Chip.onPath_open hpath, hd]
  · obtain ⟨d, hmask, hreach, hd⟩ := trcDumpGo_begins hallow hlog hgo hidle
    refine ⟨d, hmask, hreach, ?_⟩
    rw [exec_trcDumpGo, State.run_live _ halive, Chip.onPath_open hpath, hd]
  · intro c
    refine ⟨fun src hnotice hin => ?_, fun hin hnew harmed hkind hdue => ?_, fun hstore hpost => ?_, fun hin => ?_, fun t hsince hwait => ?_, ?_⟩
    · rw [exec_traceTriggerNotice, State.run_live _ halive, traceTriggerNotice_taken hnotice hin]
      rfl
    · rw [exec_traceTriggerTime, State.run_live _ halive, traceTriggerTime_due hin hnew harmed hkind hdue]
    · rw [exec_traceCaptureFull, State.run_live _ halive, traceCaptureFull_freezes hstore hpost]
    · rw [exec_traceSyncTimer, State.run_live _ halive, traceSyncTimer_writes hin]
    · obtain ⟨f, hf⟩ := traceStall_ends (now := now) hsince hwait
      refine ⟨s.chip.stallEnded r now t, f, ?_, ?_⟩
      · rw [exec_traceStall, State.run_live _ halive, hf]
      · rw [Chip.stallEnded_trace hwait]
        exact ⟨rfl, rfl, rfl⟩
    · rw [exec_traceRoomReturn, State.run_live _ halive]
      rfl
  · rw [exec_traceFrameSend, State.run_live _ halive, traceFrameSend_sends hstream hturn hwait]
  · rw [exec_traceAlignmentBlock, State.run_live _ halive]
    rfl
  · refine ⟨_, (exec_traceDumpDone ..).trans (State.run_live _ halive), ?_⟩
    rw [traceDumpDone_copies hbusy hhost hroom hok]
    exact ⟨rfl, rfl, rfl⟩
  · rw [exec_traceDumpDone, State.run_live _ halive, traceDumpDone_fails none hbusy hok]

end Sys2Proof.Machine
end

section
/-!
The PF and the function blocks (R533): where a block lies in BAR0, and a write of another function's register.
-/

namespace Sys2Proof.Machine

/-- Function `f`'s block of the PF's BAR0 holds the registers of `f` (R533). -/
theorem pathReg_pf_block (f : FnId) {o : Nat} (ho : o < 0x10000) : pathReg .pf (fnBase + f.val * 0x10000 + o) = (fnReg o).map (RegAddr.fn f) := by
  have hf := f.isLt
  have hbase : fnBase = 0x100000 := rfl
  have hoff : (fnBase + f.val * 0x10000 + o) % 0x10000 = o := by omega
  have hfn : (fnBase + f.val * 0x10000 + o - fnBase) / 0x10000 % 64 = f.val := by omega
  simp only [pathReg, pfReg, hoff, hfn, if_neg (show ¬ fnBase + f.val * 0x10000 + o < fnBase by omega),
    if_pos (show fnBase + f.val * 0x10000 + o < 0x500000 by omega)]

theorem Chip.regRead_noGauge {c : Chip} {p : RegPath} {a : RegAddr} (h : c.gaugeOwner a = none) : c.regRead p a = (c.regWord p a, c) := by
  rw [Chip.regRead, h]

/-- A write of a register of a block that is not the path's own changes nothing (R533). -/
theorem Chip.fnWrite_other (c : Chip) {p : RegPath} {f : FnId} (hother : f ≠ pathBlock p) (x : FnReg) (v ones : Word64) :
    c.fnWrite p f x v ones = c :=
  if_pos (bne_iff_ne.2 hother)

theorem exec_registerWrite (p : RegPath) (w : RegWrite) (s : State) : exec (.registerWrite p w) s = s.runSettle (registerWrite p w) := rfl

/-- Settles O60: the block's place, the plain read, and the write of a block of another function. -/
theorem pfWritesOnlyItsOwnBlock : Obligations.PfWritesOnlyItsOwnBlock := by
  unfold Obligations.PfWritesOnlyItsOwnBlock
  refine ⟨fun f o ho => pathReg_pf_block f ho, fun c f x h => Chip.regRead_noGauge h,
    fun s offset size v o cover w f x halive hopen hacc hreg hf => ?_⟩
  have hsame : registerWrite .pf (.bar0 offset size v) s.chip = s.chip := by
    simp only [registerWrite, Chip.onPath_open (p := .pf) hopen, Chip.barWrite, hacc, hreg]
    exact Chip.fnWrite_other s.chip (p := .pf) hf x ..
  rw [exec_registerWrite, State.runSettle_live _ halive, hsame]

end Sys2Proof.Machine
end

section
/-!
The maintenance service (chapter 16, R504 to R506, R539). The node mirror's refresh clears its range before it writes, so what it writes is read
back whatever form the memory had.
-/

namespace Sys2Proof

/-! ### Writes into a cleared range, of memories in any form -/

theorem Mem.read_write_of_ne (m : Mem) {a k : Nat} (b : Byte) (hk : k ≠ a) : Mem.read (Mem.write m a b) k = Mem.read m k := by
  induction m with
  | nil =>
    rw [Mem.write]
    split
    · rfl
    · exact if_neg hk
  | cons e m ih =>
    obtain ⟨a', b'⟩ := e
    rw [Mem.write]
    split
    · split
      · rfl
      · exact if_neg hk
    split
    next heq =>
      have hread : Mem.read ((a', b') :: m) k = Mem.read m k := if_neg (heq ▸ hk)
      split
      · exact hread.symm
      · exact (if_neg hk).trans hread.symm
    · rw [Mem.read, Mem.read, ih]

theorem Mem.read_writeBytes_of_out (m : Mem) {a k : Nat} {bs : List Byte} (hk : k < a ∨ a + bs.length ≤ k) :
    Mem.read (Mem.writeBytes m a bs) k = Mem.read m k := by
  induction bs generalizing m a with
  | nil => rfl
  | cons b bs ih =>
    rw [List.length_cons] at hk
    rw [Mem.writeBytes, ih _ (by omega), Mem.read_write_of_ne m b (by omega)]

theorem Mem.readBytes_writeBytes_of_out (m : Mem) {a k n : Nat} {bs : List Byte} (h : k + n ≤ a) :
    Mem.readBytes (Mem.writeBytes m a bs) k n = Mem.readBytes m k n := by
  induction n generalizing k with
  | zero => rfl
  | succ n ih => rw [Mem.readBytes, Mem.readBytes, ih (by omega), Mem.read_writeBytes_of_out m (by omega)]

theorem Mem.read_of_free {m : Mem} {a : Nat} (h : ∀ e ∈ m, e.1 ≠ a) : Mem.read m a = 0 := by
  induction m with
  | nil => rfl
  | cons e m ih =>
    obtain ⟨he, hm⟩ := List.forall_mem_cons.1 h
    exact (if_neg (Ne.symm he)).trans (ih hm)

/-- A byte written where nothing was listed is read back. -/
theorem Mem.read_write_of_free {m : Mem} {a : Nat} (b : Byte) (h : ∀ e ∈ m, e.1 ≠ a) : Mem.read (Mem.write m a b) a = b := by
  induction m with
  | nil =>
    rw [Mem.write]
    split
    next hb => exact hb.symm
    next => exact if_pos rfl
  | cons e m ih =>
    obtain ⟨a', b'⟩ := e
    obtain ⟨he, hm⟩ := List.forall_mem_cons.1 h
    rw [Mem.write]
    split
    · split
      next hb => exact (Mem.read_of_free h).trans hb.symm
      next => exact if_pos rfl
    · rw [if_neg (Ne.symm he)]
      exact (if_neg (Ne.symm he)).trans (ih hm)

theorem Mem.mem_of_mem_write {m : Mem} {a : Nat} {b : Byte} {e : Nat × Byte} (h : e ∈ Mem.write m a b) : e ∈ m ∨ e.1 = a := by
  induction m with
  | nil =>
    rw [Mem.write] at h
    split at h
    · exact .inl h
    · exact .inr (congrArg Prod.fst (List.mem_singleton.1 h))
  | cons e' m ih =>
    obtain ⟨a', b'⟩ := e'
    have hinsert (l : Mem) (hl : e ∈ l → e ∈ (a', b') :: m) (h : e ∈ (a, b) :: l) : e ∈ (a', b') :: m ∨ e.1 = a :=
      (List.mem_cons.1 h).elim (fun h => .inr (congrArg Prod.fst h)) (fun h => .inl (hl h))
    rw [Mem.write] at h
    split at h
    · split at h
      · exact .inl h
      · exact hinsert _ id h
    split at h
    · split at h
      · exact .inl (List.mem_cons_of_mem _ h)
      · exact hinsert _ (List.mem_cons_of_mem _) h
    · exact (List.mem_cons.1 h).elim (fun h => .inl (h ▸ List.mem_cons_self ..)) (fun h => (ih h).imp_left (List.mem_cons_of_mem _))

/-- Bytes written where nothing was listed are read back. -/
theorem Mem.readBytes_writeBytes_of_free {m : Mem} {a : Nat} {bs : List Byte} (h : ∀ e ∈ m, e.1 < a ∨ a + bs.length ≤ e.1) :
    Mem.readBytes (Mem.writeBytes m a bs) a bs.length = bs := by
  induction bs generalizing m a with
  | nil => rfl
  | cons b bs ih =>
    rw [List.length_cons] at h
    have hfree : ∀ e ∈ m, e.1 ≠ a := fun e he => by have := h e he; omega
    have hrest : ∀ e ∈ Mem.write m a b, e.1 < a + 1 ∨ a + 1 + bs.length ≤ e.1 := fun e he =>
      (Mem.mem_of_mem_write he).elim (fun he => by have := h e he; omega) (fun he => by omega)
    rw [List.length_cons, Mem.readBytes, Mem.writeBytes, ih hrest, Mem.read_writeBytes_of_out _ (.inl (Nat.lt_succ_self a)),
      Mem.read_write_of_free b hfree]

end Sys2Proof

namespace Sys2Proof.Machine

/-! ### The node mirror -/

theorem length_flatMap_const {α β : Type} {f : α → List β} {n : Nat} (h : ∀ a, (f a).length = n) (l : List α) :
    (l.flatMap f).length = l.length * n := by
  induction l with
  | nil => exact (Nat.zero_mul n).symm
  | cons a l ih => rw [List.flatMap_cons, List.length_append, h, ih, List.length_cons, Nat.succ_mul, Nat.add_comm]

theorem length_mirrorHead (x : Reach) (seq : Word64) : (x.mirrorHead seq).length = 40 := length_flatMap_const (fun _ => length_leBytes ..) _

theorem length_mirrorPort (x : Reach) (p : PortId) : (x.mirrorPort p).length = 16 := by
  simp only [Reach.mirrorPort, List.length_append, length_leBytes]

theorem length_mirrorLsa (db : List Lsa) (n : Nat) : (mirrorLsa db n).length = 64 := by
  simp only [mirrorLsa, List.length_append, length_leBytes, List.length_replicate,
    length_flatMap_const (f := fun q : PortId => leBytes 4 _) (fun _ => length_leBytes ..)]
  rfl

theorem length_mirrorPorts (x : Reach) : (allPorts.flatMap x.mirrorPort).length = 112 := length_flatMap_const (length_mirrorPort x) _

theorem length_mirrorLsas (db : List Lsa) : ((List.range 4096).flatMap (mirrorLsa db)).length = 4096 * 64 := by
  rw [length_flatMap_const (length_mirrorLsa db), List.length_range]

/-- The memory as the mirror's refresh writes it (R506). -/
def Reach.mirrored (x : Reach) (seq : Word64) : Mem :=
  Mem.writeBytes (Mem.writeBytes (Mem.writeBytes (Mem.zeroRange x.mem.bytes mirrorPa (mirrorPa + mirrorBytes)) mirrorPa (x.mirrorHead seq))
    (mirrorPa + 0x100) (allPorts.flatMap x.mirrorPort)) (mirrorPa + 0x10000) ((List.range 4096).flatMap (mirrorLsa x.rtr.lsdb))

section
variable (x : Reach) (seq : Word64)

theorem Reach.mirrored_head : Mem.readBytes (x.mirrored seq) mirrorPa 40 = x.mirrorHead seq := by
  have hfree : ∀ e ∈ Mem.zeroRange x.mem.bytes mirrorPa (mirrorPa + mirrorBytes),
      e.1 < mirrorPa ∨ mirrorPa + (x.mirrorHead seq).length ≤ e.1 := by
    intro e he
    have hout : e.1 < mirrorPa ∨ mirrorPa + mirrorBytes ≤ e.1 := by simpa using (List.mem_filter.1 he).2
    rw [length_mirrorHead]
    have hsize : 40 ≤ mirrorBytes := by decide
    omega
  have hread := Mem.readBytes_writeBytes_of_free hfree
  rw [length_mirrorHead] at hread
  rw [Reach.mirrored, Mem.readBytes_writeBytes_of_out _ (by omega), Mem.readBytes_writeBytes_of_out _ (by omega), hread]

theorem Reach.mirrored_outside {a : Nat} (ha : a < mirrorPa ∨ mirrorPa + mirrorBytes ≤ a) :
    Mem.read (x.mirrored seq) a = Mem.read x.mem.bytes a := by
  rw [Reach.mirrored, show mirrorBytes = 0x100000 from rfl]
  rw [show mirrorBytes = 0x100000 from rfl] at ha
  generalize mirrorPa = base at ha ⊢
  rw [Mem.read_writeBytes_of_out _ (by rw [length_mirrorLsas]; omega), Mem.read_writeBytes_of_out _ (by rw [length_mirrorPorts]; omega),
    Mem.read_writeBytes_of_out _ (by rw [length_mirrorHead]; omega), Mem.read_zeroRange, if_neg (by omega)]

end

theorem mirrorRefreshTimer_mirrors {c : Chip} {r : ReachId} (now : Time) (hin : c.inService r = true) : mirrorRefreshTimer r now c =
    (c.at r now).onReach r (fun x => { x with mirrorSeq := x.mirrorSeq + 2, mem := { x.mem with bytes := x.mirrored (x.mirrorSeq + 2) } }) := by
  simp only [mirrorRefreshTimer, Chip.inService_at, hin]
  rfl

/-! ### Echo requests and contexts -/

theorem echoReq_plain {c : Chip} {r : ReachId} (now : Time) (src : Word16) {q : EchoReq} (hin : c.inService r = true) (hopen : q.open_ = false) :
    echoReq r now src q c = ((c.at r now).takeKeeper r (isKeeper (.echoReq q))).sendKeeper r src (.echoResp
      (EchoResp.mk q.token 0 0xFFFFFF 0 q.reqTime ((c.at r now).now r))) := by
  simp only [echoReq, Chip.inService_takeKeeper, Chip.inService_at, hin, hopen, Bool.not_true, Bool.false_eq_true, if_false, Chip.now_takeKeeper]
  rfl

/-- The context that an echo request opens (R505): READY, of the keeper, with key 0x0001, and no receives. -/
theorem maintQp_fields (x : Reach) (r : ReachId) (i : Nat) (src : Word16) (q : EchoReq) (psn : BitVec 24) :
    let y := maintQp x r i src q psn
    y.state = .ready ∧ y.owner = 2 ∧ y.pkey = 1 ∧ y.peerNode = src ∧ y.peerQpn = q.reqQpn ∧ y.rqDepth = 0 ∧ y.rcvNxt = q.reqPsn :=
  ⟨rfl, rfl, rfl, rfl, rfl, rfl, rfl⟩

section
variable {c : Chip} {r : ReachId} {src : Word16} {q : EchoReq} {i : Nat} (hfull : (c.reach r).ctrlOnly = false)
  (hnew : List.find? (fun e => e.2.1 == src && e.2.2.1 == q.reqQpn) (c.reach r).maint = none)
  (hfree : Tab.lowestFree (c.reach r).maint 0x3FC0 64 = some i)
include hfull hnew hfree

theorem Chip.maintOpen_makes : ∃ psn, (((c.maintOpen r src q).2.reach r).rme.qps = Tab.set (c.reach r).rme.qps i (maintQp (c.reach r) r i src q psn))
    ∧ ((c.maintOpen r src q).2.reach r).rtr = (c.reach r).rtr := by
  simp only [Chip.maintOpen, hfull, hnew, hfree]
  rw [if_neg (by decide), Chip.reach_onReach]
  exact ⟨_, rfl, rfl⟩

end

/-- An echo request that opens a context leaves it in the table, and one answer more in the inbox. -/
theorem echoReq_opens {c : Chip} {r : ReachId} {now : Time} {src : Word16} {q : EchoReq} {i : Nat} (hin : c.inService r = true)
    (hopen : q.open_ = true) (hfull : (c.reach r).ctrlOnly = false)
    (hnew : List.find? (fun e => e.2.1 == src && e.2.2.1 == q.reqQpn) (c.reach r).maint = none)
    (hfree : Tab.lowestFree (c.reach r).maint 0x3FC0 64 = some i) : ∃ x psn,
    Tab.find? ((echoReq r now src q c).reach r).rme.qps i = some (maintQp x r i src q psn)
      ∧ ((echoReq r now src q c).reach r).rtr.inbox.length = (c.reach r).rtr.inbox.length + 1 := by
  have htake := (c.at r now).takeKeeper_reach r (isKeeper (.echoReq q))
  rw [Chip.reach_at] at htake
  obtain ⟨psn, hqps, hrtr⟩ := Chip.maintOpen_makes (c := (c.at r now).takeKeeper r (isKeeper (.echoReq q))) (r := r) (src := src) (q := q) (i := i)
    (by rw [htake]; exact hfull) (by rw [htake]; exact hnew) (by rw [htake]; exact hfree)
  refine ⟨((c.at r now).takeKeeper r (isKeeper (.echoReq q))).reach r, psn, ?_, ?_⟩
  · simp only [echoReq, Chip.inService_takeKeeper, Chip.inService_at, hin, hopen]
    rw [if_neg (by decide), if_pos trivial, Chip.sendKeeper_reach]
    dsimp only
    rw [hqps, Tab.find?_set_self]
  · simp only [echoReq, Chip.inService_takeKeeper, Chip.inService_at, hin, hopen]
    rw [if_neg (by decide), if_pos trivial, Chip.sendKeeper_reach]
    dsimp only
    rw [List.length_append, hrtr, htake]
    rfl

theorem maintenanceContextIdle_goes {c : Chip} {r : ReachId} {now : Time} {k : Fin 64} {q : Qp}
    (hq : Tab.find? (c.reach r).rme.qps (0x3FC0 + k.val) = some q) (hidle : nsUnits (10 * secondNs) ≤ timeDiff q.lastPkt ((c.at r now).now r)) :
    maintenanceContextIdle r now k c = (c.at r now).onReach r (fun x =>
      { x with maint := Tab.erase x.maint (0x3FC0 + k.val), rme := { x.rme with qps := Tab.erase x.rme.qps (0x3FC0 + k.val) } }) := by
  simp only [maintenanceContextIdle, Chip.reach_at_rme, hq]
  exact if_neg (Int.not_lt.2 hidle)

section
variable (r : ReachId) (now : Time) (s : State)

theorem exec_echoReq (src : Word16) (q : EchoReq) : exec (.echoReq r now src q) s = s.run (echoReq r now src q) := rfl

theorem exec_echoResp (a : EchoResp) : exec (.echoResp r now a) s = s.run (echoResp r now a) := rfl

theorem exec_maintenanceContextIdle (k : Fin 64) : exec (.maintenanceContextIdle r now k) s = s.run (maintenanceContextIdle r now k) := rfl

theorem exec_mirrorRefreshTimer : exec (.mirrorRefreshTimer r now) s = s.run (mirrorRefreshTimer r now) := rfl

end

/-- Settles O39: echo requests with and without a context, the idle context, and the mirror. -/
theorem maintenanceServes : Obligations.MaintenanceServes := by
  unfold Obligations.MaintenanceServes
  refine fun s r now halive => ⟨fun src q hin hopen => ?_, fun src q i hin hopen hfull hnew hfree => ?_, fun a => ?_, fun k q hq hidle => ?_,
    fun hin => ?_⟩
  · rw [exec_echoReq, State.run_live _ halive, echoReq_plain now src hin hopen]
  · obtain ⟨x, psn, hqp, hinbox⟩ := echoReq_opens (now := now) hin hopen hfull hnew hfree
    obtain ⟨hstate, howner, hpkey, hnode, hqpn, hdepth, hpsn⟩ := maintQp_fields x r i src q psn
    exact ⟨_, _, (exec_echoReq ..).trans (State.run_live _ halive), hqp, hstate, howner, hpkey, hnode, hqpn, hdepth, hpsn, hinbox⟩
  · rw [exec_echoResp, State.run_live _ halive]
    rfl
  · refine ⟨_, (exec_maintenanceContextIdle ..).trans (State.run_live _ halive), ?_⟩
    rw [State.put_chip, maintenanceContextIdle_goes hq hidle, Chip.reach_onReach]
    exact ⟨Tab.find?_erase_self .., Tab.find?_erase_self ..⟩
  · refine ⟨_, (exec_mirrorRefreshTimer ..).trans (State.run_live _ halive), ?_⟩
    rw [State.put_chip, mirrorRefreshTimer_mirrors now hin, Chip.reach_onReach]
    dsimp only
    refine ⟨by rw [Chip.reach_at_mirrorSeq], by rw [Reach.mirrored_head], fun a ha => ?_⟩
    rw [Reach.mirrored_outside _ _ ha, Chip.reach_at_mem]

end Sys2Proof.Machine
end
